-- ==== Sys2Proof/Word.lean ====
section
/-! DEFINITION. The word types of the machine (R14, R92, R118, R149) and nothing else. -/

namespace Sys2Proof

/-- A 64-bit register or address (R92). -/
abbrev W64 := BitVec 64
/-- A 32-bit instruction word or register (R16, R95). -/
abbrev W32 := BitVec 32
/-- A vector register (R92). -/
abbrev W256 := BitVec 256
/-- One byte of memory. -/
abbrev Byte := BitVec 8

end Sys2Proof
end

