-- ==== Sys2Proof/Machine/Regs.lean ====
section
/-! DEFINITION. The control-space register map, field by field, from the register tables of spec/ (01, 03, 06 to 24).
Each definition below is ONE field of one register: its local control-space byte offset (from 0x3F00_0000_0000, R38 to
R41; configuration space of the DVSEC, R421, at 2^32 onward), its lowest bit, its width, its type of R15 and its reset
value. Arguments: `n` the tile, hive, channel or port whose block it is; `i`, `j` the array indices of the table. -/

namespace Sys2Proof.Machine

/-- Field types of R15. -/
inductive FTy where
  | ro | rw | rw1c | rw1s | wo | rwl
  deriving DecidableEq, Repr

/-- One register field: where it lies, how wide it is, what a write does (R15) and its reset value (R17). -/
structure Fld where
  addr  : Nat
  lo    : Nat
  w     : Nat
  ty    : FTy
  reset : Nat
  deriving DecidableEq, Repr

/-- The key under which a field's value is held: one home for each field. -/
def Fld.key (f : Fld) : Nat := f.addr * 128 + f.lo

/-- R39. -/
def tileBase (n : Nat) : Nat := 0x4000_0000 + n * 0x1_0000
/-- R40. -/
def hiveBase (n : Nat) : Nat := 0x8000_0000 + n * 0x10_0000
/-- R41. -/
def memBase (n : Nat) : Nat := 0xA000_0000 + n * 0x1_0000
/-- R41. -/
def portBase (n : Nat) : Nat := 0xB000_0000 + n * 0x1_0000
/-- Where the model holds configuration-space fields (R421), beside the control space. -/
def cfgBase : Nat := 0x1_0000_0000

/-- R21: the router coordinates of tile `n`. -/
def tileX (n : Nat) : Nat := 8 * ((n / 32) % 2) + 2 * ((n / 8) % 4) + n % 2
/-- R21. -/
def tileY (n : Nat) : Nat := 4 * (n / 64) + (n % 8) / 2
/-- R21, the inverse: the tile at mesh coordinates (x, y). -/
def tileAt (x y : Nat) : Nat :=
  let k := 2 * (y / 4) + x / 8
  (4 * k + (x % 8) / 2) * 8 + 2 * (y % 4) + x % 2

/-- R275: the router an NI injects at. NI numbers 0 to 255 tiles, 256 to 279 channels, 280 to 287 north stops,
288 to 295 south stops (R23, R24). -/
def niXY (ni : Nat) : Nat × Nat :=
  if ni < 256 then (tileX ni, tileY ni)
  else if ni < 268 then (0, ni - 256 + 2)
  else if ni < 280 then (15, ni - 256 - 10)
  else if ni < 288 then (2 * (ni - 280), 0)
  else (2 * (ni - 288), 15)

/-- R275: the stop used by an NI for destinations 280 and 281. -/
def niStop (ni : Nat) : Nat :=
  if ni < 280 then (niXY ni).1 / 2 else if ni < 288 then ni - 280 else ni - 288

/-- R275: the required end of a route: the final router and the EXIT port (R269). -/
def routeEnd (ni idx : Nat) : Nat × Nat × Nat :=
  if idx < 256 then (tileX idx, tileY idx, 0)
  else if idx < 268 then (0, idx - 256 + 2, 4)
  else if idx < 280 then (15, idx - 256 - 10, 2)
  else if idx = 280 then (2 * niStop ni, 0, 1)
  else (2 * niStop ni, 15, 3)

/-- R276: the default route's SEG field: along x first and then along y. -/
def defSeg (ni idx : Nat) : Nat :=
  let (x0, y0) := niXY ni
  let (x1, y1, _) := routeEnd ni idx
  let sx := if x0 < x1 then 0x10 + (x1 - x0) else if x1 < x0 then 0x30 + (x0 - x1) else 0
  let sy := if y0 < y1 then 0x20 + (y1 - y0) else if y1 < y0 then y0 - y1 else 0
  if sx = 0 then sy else sx + sy * 64

/-- R276: the default route's EXIT field. -/
def defExit (ni idx : Nat) : Nat := (routeEnd ni idx).2.2

/-- R266, R23, R24, R279: the connected ports of the router of tile `n` (bit 0 local, 1 north, 2 east, 3 south, 4 west). -/
def portsConnected (n : Nat) : Nat :=
  let x := tileX n
  let y := tileY n
  1 + (if y > 0 ∨ x % 2 = 0 then 2 else 0)
    + (if x < 15 ∨ (2 ≤ y ∧ y ≤ 13) then 4 else 0)
    + (if y < 15 ∨ x % 2 = 0 then 8 else 0)
    + (if x > 0 ∨ (2 ≤ y ∧ y ≤ 13) then 16 else 0)

namespace R

def BOOT_TILE_FUSE_DIS (i : Nat) : Fld := ⟨0x100 + i * 0x4, 0, 32, .ro, 0⟩
def BOOT_PART_CODE : Fld := ⟨0x120, 0, 4, .ro, 0⟩
def BOOT_PART_TILES : Fld := ⟨0x120, 4, 9, .ro, 256⟩
def BOOT_PART_CORES : Fld := ⟨0x120, 13, 10, .ro, 512⟩
def TIL_CLK_CTL_TARGET (n : Nat) : Fld := ⟨tileBase n + 0x3000, 0, 7, .rw, 64⟩
def TIL_CLK_STAT_CUR (n : Nat) : Fld := ⟨tileBase n + 0x3004, 0, 7, .ro, 64⟩
def TIL_CLK_STAT_BUSY (n : Nat) : Fld := ⟨tileBase n + 0x3004, 7, 1, .ro, 0⟩
def TIL_CLK_STAT_LIMIT (n : Nat) : Fld := ⟨tileBase n + 0x3004, 8, 1, .ro, 0⟩
def TIL_CLK_STAT_BADCODE (n : Nat) : Fld := ⟨tileBase n + 0x3004, 9, 1, .rw1c, 0⟩
def DOM_LOCKCTL_CHK_U (i : Nat) : Fld := ⟨0x700040 + i * 0x80, 0, 2, .rw, 0⟩
def DOM_LOCKCTL_CHK_S (i : Nat) : Fld := ⟨0x700040 + i * 0x80, 2, 2, .rw, 0⟩
def DOM_LOCKCTL_CHK_M (i : Nat) : Fld := ⟨0x700040 + i * 0x80, 4, 2, .rw, 0⟩
def DOM_LOCKCTL_KEY0_U (i : Nat) : Fld := ⟨0x700040 + i * 0x80, 6, 1, .rw, 0⟩
def DOM_LOCKCTL_KEY0_S (i : Nat) : Fld := ⟨0x700040 + i * 0x80, 7, 1, .rw, 0⟩
def DOM_LOCKCTL_KEY0_M (i : Nat) : Fld := ⟨0x700040 + i * 0x80, 8, 1, .rw, 0⟩
def DOM_LOCKCTL_LOG_EN (i : Nat) : Fld := ⟨0x700040 + i * 0x80, 9, 1, .rw, 0⟩
def DOM_LOCKCTL_EVT_EN (i : Nat) : Fld := ⟨0x700040 + i * 0x80, 10, 1, .rw, 0⟩
def DOM_LOCKCTL_EVT (i : Nat) : Fld := ⟨0x700040 + i * 0x80, 16, 13, .rw, 0⟩
def DOM_LOCKLOG_SIZE_LOG2N (i : Nat) : Fld := ⟨0x700044 + i * 0x80, 0, 5, .rw, 6⟩
def DOM_LOCKLOG_BASE_BASE (i : Nat) : Fld := ⟨0x700048 + i * 0x80, 12, 34, .rw, 0⟩
def DOM_LOCKLOG_SEQ_SEQ (i : Nat) : Fld := ⟨0x700050 + i * 0x80, 0, 32, .ro, 0⟩
def DOM_LOCKMISS_COUNT (i : Nat) : Fld := ⟨0x700054 + i * 0x80, 0, 32, .ro, 0⟩
def DOM_LOCKLATE_COUNT (i : Nat) : Fld := ⟨0x700058 + i * 0x80, 0, 32, .ro, 0⟩
def DOM_LOCKCLR_CLR (i : Nat) : Fld := ⟨0x70005c + i * 0x80, 0, 1, .wo, 0⟩
def DOM_S2ROOT_V (i : Nat) : Fld := ⟨0x700008 + i * 0x80, 0, 1, .rw, 0⟩
def DOM_S2ROOT_BASE (i : Nat) : Fld := ⟨0x700008 + i * 0x80, 3, 43, .rw, 0⟩
def TIL_LLC_CLASS_WAYS (n : Nat) (i : Nat) : Fld := ⟨tileBase n + 0x4000 + i * 0x4, 0, 16, .rw, 65535⟩
def TIL_HOME_STAT_READY (n : Nat) : Fld := ⟨tileBase n + 0x4040, 0, 1, .ro, 0⟩
def TIL_HOME_STAT_TXN (n : Nat) : Fld := ⟨tileBase n + 0x4040, 1, 7, .ro, 0⟩
def TIL_HOME_STAT_RETRY (n : Nat) : Fld := ⟨tileBase n + 0x4040, 8, 6, .ro, 0⟩
def TIL_HOME_STAT_PEND (n : Nat) : Fld := ⟨tileBase n + 0x4040, 14, 7, .ro, 0⟩
def TIL_HOME_EPOCH_EPOCH (n : Nat) : Fld := ⟨tileBase n + 0x4044, 0, 8, .ro, 0⟩
def TIL_DIR_STALE_COUNT (n : Nat) : Fld := ⟨tileBase n + 0x4048, 0, 64, .ro, 0⟩
def TIL_DIR_COARSE_COUNT (n : Nat) : Fld := ⟨tileBase n + 0x4050, 0, 64, .ro, 0⟩
def TIL_DIR_EVICT_COUNT (n : Nat) : Fld := ⟨tileBase n + 0x4058, 0, 64, .ro, 0⟩
def TIL_DIR_RETRY_COUNT (n : Nat) : Fld := ⟨tileBase n + 0x4060, 0, 64, .ro, 0⟩
def TIL_HOME_BP_COUNT (n : Nat) : Fld := ⟨tileBase n + 0x4068, 0, 64, .ro, 0⟩
def TIL_HOME_LATE_COUNT (n : Nat) : Fld := ⟨tileBase n + 0x4070, 0, 64, .ro, 0⟩
def TIL_HOME_CLR_CLR (n : Nat) : Fld := ⟨tileBase n + 0x4078, 0, 1, .wo, 0⟩
def TIL_HOME_ERR_KIND (n : Nat) : Fld := ⟨tileBase n + 0x4080, 0, 4, .ro, 0⟩
def TIL_HOME_ERR_LINE (n : Nat) : Fld := ⟨tileBase n + 0x4080, 8, 34, .ro, 0⟩
def TIL_RTR_PORT_EN_EN (n : Nat) : Fld := ⟨tileBase n + 0x5000, 0, 5, .rw, (portsConnected n)⟩
def TIL_RTR_STAT_ACTIVE (n : Nat) : Fld := ⟨tileBase n + 0x5004, 0, 5, .ro, (portsConnected n)⟩
def TIL_RTR_STAT_WERR (n : Nat) : Fld := ⟨tileBase n + 0x5004, 5, 1, .rw1c, 0⟩
def TIL_RTR_CORR_COUNT (n : Nat) : Fld := ⟨tileBase n + 0x5008, 0, 32, .ro, 0⟩
def TIL_RTR_CLR_CLR (n : Nat) : Fld := ⟨tileBase n + 0x500c, 0, 1, .wo, 0⟩
def TIL_NI_STAT_BADRTE (n : Nat) : Fld := ⟨tileBase n + 0x5010, 0, 1, .rw1c, 0⟩
def TIL_NI_STAT_BADIDX (n : Nat) : Fld := ⟨tileBase n + 0x5010, 1, 9, .ro, 0⟩
def TIL_NI_STAT_WHY (n : Nat) : Fld := ⟨tileBase n + 0x5010, 10, 3, .ro, 0⟩
def TIL_NI_CTL_DEFAULT (n : Nat) : Fld := ⟨tileBase n + 0x5014, 0, 1, .wo, 0⟩
def PWR_MESHQ_STATE : Fld := ⟨0x800400, 0, 2, .ro, 0⟩
def PWR_MESHQ_TIME_US : Fld := ⟨0x800404, 0, 32, .ro, 0⟩
def PWR_MESHQ_BAD_NI : Fld := ⟨0x800408, 0, 9, .ro, 0⟩
def PWR_MESHQ_BAD_IDX : Fld := ⟨0x800408, 9, 9, .ro, 0⟩
def PWR_MESHQ_BAD_WHY : Fld := ⟨0x800408, 18, 3, .ro, 0⟩
def MEM_STAT_TRAINED (n : Nat) : Fld := ⟨memBase n + 0x0, 0, 1, .ro, 0⟩
def MEM_STAT_FAILED (n : Nat) : Fld := ⟨memBase n + 0x0, 1, 1, .ro, 0⟩
def MEM_STAT_PAUSED (n : Nat) : Fld := ⟨memBase n + 0x0, 2, 1, .ro, 0⟩
def MEM_STAT_SREF (n : Nat) : Fld := ⟨memBase n + 0x0, 3, 1, .ro, 0⟩
def MEM_STAT_SRWAKE (n : Nat) : Fld := ⟨memBase n + 0x0, 4, 1, .rw1c, 0⟩
def MEM_TRAIN_CTL_INTERVAL (n : Nat) : Fld := ⟨memBase n + 0x4, 0, 7, .rw, 4⟩
def MEM_TRAIN_DEFER_US (n : Nat) : Fld := ⟨memBase n + 0x8, 0, 15, .wo, 0⟩
def MEM_TRAIN_STAT_LAST_NS (n : Nat) : Fld := ⟨memBase n + 0xc, 0, 8, .ro, 0⟩
def MEM_TRAIN_STAT_FAILS (n : Nat) : Fld := ⟨memBase n + 0xc, 8, 2, .ro, 0⟩
def MEM_TRAIN_STAT_DEFERRED (n : Nat) : Fld := ⟨memBase n + 0xc, 10, 1, .ro, 0⟩
def MEM_TRAIN_STAT_CAPPED (n : Nat) : Fld := ⟨memBase n + 0xc, 11, 1, .rw1c, 0⟩
def MEM_TRAIN_STAT_BADVAL (n : Nat) : Fld := ⟨memBase n + 0xc, 12, 1, .rw1c, 0⟩
def MEM_TRAIN_COUNT_COUNT (n : Nat) : Fld := ⟨memBase n + 0x10, 0, 32, .ro, 0⟩
def MEM_PASR_CTL_KEEP (n : Nat) : Fld := ⟨memBase n + 0x20, 0, 8, .rw, 255⟩
def MEM_PASR_CTL_FSKIP (n : Nat) : Fld := ⟨memBase n + 0x20, 8, 8, .rw1c, 0⟩
def MEM_SEG_REFUSED_COUNT (n : Nat) : Fld := ⟨memBase n + 0x24, 0, 32, .ro, 0⟩
def MEM_FORAGE_CTL_EN (n : Nat) : Fld := ⟨memBase n + 0x30, 0, 1, .rw, 1⟩
def MEM_FORAGE_STEP_NS (n : Nat) : Fld := ⟨memBase n + 0x34, 0, 32, .rw, 160932⟩
def MEM_FORAGE_POS_Q (n : Nat) : Fld := ⟨memBase n + 0x38, 0, 29, .ro, 0⟩
def MEM_FORAGE_PASS_COUNT (n : Nat) : Fld := ⟨memBase n + 0x3c, 0, 32, .ro, 0⟩
def MEM_SCRUB_RANGE_FIRST (n : Nat) (i : Nat) : Fld := ⟨memBase n + 0x40 + i * 0x8, 0, 29, .rw, 0⟩
def MEM_SCRUB_RANGE_LAST (n : Nat) (i : Nat) : Fld := ⟨memBase n + 0x40 + i * 0x8, 32, 29, .rw, 0⟩
def MEM_SCRUB_RANGE_V (n : Nat) (i : Nat) : Fld := ⟨memBase n + 0x40 + i * 0x8, 63, 1, .rw, 0⟩
def MEM_CE_TOTAL_COUNT (n : Nat) : Fld := ⟨memBase n + 0x80, 0, 32, .ro, 0⟩
def MEM_CE_BUCKET_COUNT (n : Nat) : Fld := ⟨memBase n + 0x84, 0, 8, .ro, 0⟩
def MEM_CE_BUCKET_ARMED (n : Nat) : Fld := ⟨memBase n + 0x84, 8, 1, .ro, 1⟩
def MEM_CE_CTL_THRESH (n : Nat) : Fld := ⟨memBase n + 0x88, 0, 8, .rw, 32⟩
def MEM_CE_CTL_LEAK_MS (n : Nat) : Fld := ⟨memBase n + 0x88, 8, 20, .rw, 1000⟩
def MEM_CE_LAST_CW (n : Nat) : Fld := ⟨memBase n + 0x90, 0, 3, .ro, 0⟩
def MEM_CE_LAST_Q (n : Nat) : Fld := ⟨memBase n + 0x90, 3, 29, .ro, 0⟩
def MEM_CE_LAST_SRC (n : Nat) : Fld := ⟨memBase n + 0x90, 32, 1, .ro, 0⟩
def MEM_CE_LAST_TWO (n : Nat) : Fld := ⟨memBase n + 0x90, 33, 1, .ro, 0⟩
def MEM_UE_TOTAL_COUNT (n : Nat) : Fld := ⟨memBase n + 0x98, 0, 32, .ro, 0⟩
def MEM_UE_LAST_CW (n : Nat) : Fld := ⟨memBase n + 0xa0, 0, 3, .ro, 0⟩
def MEM_UE_LAST_Q (n : Nat) : Fld := ⟨memBase n + 0xa0, 3, 29, .ro, 0⟩
def MEM_UE_LAST_SRC (n : Nat) : Fld := ⟨memBase n + 0xa0, 32, 2, .ro, 0⟩
def MEM_POISON_RD_COUNT (n : Nat) : Fld := ⟨memBase n + 0xa8, 0, 32, .ro, 0⟩
def MEM_RMW_COUNT (n : Nat) : Fld := ⟨memBase n + 0xac, 0, 32, .ro, 0⟩
def MEM_RDIST_CTL_THRESH (n : Nat) : Fld := ⟨memBase n + 0xc0, 0, 13, .rw, 4096⟩
def MEM_RDIST_CTL_THR_US (n : Nat) : Fld := ⟨memBase n + 0xc0, 16, 8, .rw, 64⟩
def MEM_RDIST_CTL_SPACE (n : Nat) : Fld := ⟨memBase n + 0xc0, 24, 8, .rw, 5⟩
def MEM_RDIST_COUNT_COUNT (n : Nat) : Fld := ⟨memBase n + 0xc4, 0, 32, .ro, 0⟩
def MEM_RDIST_LAST_BANK (n : Nat) : Fld := ⟨memBase n + 0xc8, 0, 6, .ro, 0⟩
def MEM_RDIST_LAST_GROUP (n : Nat) : Fld := ⟨memBase n + 0xc8, 6, 9, .ro, 0⟩
def MEM_RDIST_LAST_DOM (n : Nat) : Fld := ⟨memBase n + 0xc8, 15, 12, .ro, 0⟩
def MEM_RDIST_LAST_SECOND (n : Nat) : Fld := ⟨memBase n + 0xc8, 27, 1, .ro, 0⟩
def MEM_RDIST_LAST_NONE (n : Nat) : Fld := ⟨memBase n + 0xc8, 28, 1, .ro, 0⟩
def MEM_RDIST_OVF_COUNT (n : Nat) : Fld := ⟨memBase n + 0xcc, 0, 32, .ro, 0⟩
def MEM_CLR_COUNTERS (n : Nat) : Fld := ⟨memBase n + 0xd0, 0, 1, .wo, 0⟩
def MEM_CLR_BUCKET (n : Nat) : Fld := ⟨memBase n + 0xd0, 1, 1, .wo, 0⟩
def HIV_KSTAT_STATE (n : Nat) : Fld := ⟨hiveBase n + 0x0, 0, 2, .ro, 0⟩
def HIV_KSTOP_PC_PC (n : Nat) : Fld := ⟨hiveBase n + 0x8, 0, 64, .ro, 0⟩
def HIV_KCTL_RESTART (n : Nat) : Fld := ⟨hiveBase n + 0x10, 0, 1, .wo, 0⟩
def HIV_KMOD_ADDR_ADDR (n : Nat) : Fld := ⟨hiveBase n + 0x20, 8, 38, .rw, 0⟩
def HIV_KMOD_CMD_OP (n : Nat) : Fld := ⟨hiveBase n + 0x28, 0, 2, .wo, 0⟩
def HIV_KMOD_STAT_STATUS (n : Nat) : Fld := ⟨hiveBase n + 0x2c, 0, 4, .ro, 0⟩
def CUF_STAT_PAIR (n : Nat) : Fld := ⟨tileBase n + 0x8000, 0, 1, .ro, 0⟩
def CUF_STAT_HANDOVER (n : Nat) : Fld := ⟨tileBase n + 0x8000, 1, 1, .ro, 0⟩
def CUF_STAT_STOPPED (n : Nat) : Fld := ⟨tileBase n + 0x8000, 2, 1, .ro, 0⟩
def CUF_STAT_TESTFAIL (n : Nat) : Fld := ⟨tileBase n + 0x8000, 3, 1, .ro, 0⟩
def CUF_STAT_KIND (n : Nat) : Fld := ⟨tileBase n + 0x8000, 4, 2, .ro, 0⟩
def CUF_STAT_GROUP (n : Nat) : Fld := ⟨tileBase n + 0x8000, 6, 3, .ro, 0⟩
def CUF_STAT_WERR (n : Nat) : Fld := ⟨tileBase n + 0x8000, 9, 1, .rw1c, 0⟩
def CUF_MISM_SYN_SYN (n : Nat) : Fld := ⟨tileBase n + 0x8008, 0, 64, .ro, 0⟩
def CUF_MISM_PC_PC (n : Nat) : Fld := ⟨tileBase n + 0x8010, 0, 64, .ro, 0⟩
def CUF_MISM_TIME_NS (n : Nat) : Fld := ⟨tileBase n + 0x8018, 0, 64, .ro, 0⟩
def CUF_CTL_REARM (n : Nat) : Fld := ⟨tileBase n + 0x8020, 0, 1, .wo, 0⟩
def CUF_HTO_US (n : Nat) : Fld := ⟨tileBase n + 0x8024, 0, 10, .rw, 100⟩
def CUF_TEST_GPASS (n : Nat) : Fld := ⟨tileBase n + 0x8028, 0, 6, .ro, 0⟩
def CUF_TEST_CFPASS (n : Nat) : Fld := ⟨tileBase n + 0x8028, 6, 1, .ro, 0⟩
def CUF_MISMATCHES_COUNT (n : Nat) : Fld := ⟨tileBase n + 0x8030, 0, 32, .ro, 0⟩
def CUF_CFAULTS_COUNT (n : Nat) : Fld := ⟨tileBase n + 0x8034, 0, 32, .ro, 0⟩
def CUF_XRETRY_COUNT (n : Nat) : Fld := ⟨tileBase n + 0x8038, 0, 32, .ro, 0⟩
def CUF_HOCYC_CYC (n : Nat) : Fld := ⟨tileBase n + 0x803c, 0, 32, .ro, 0⟩
def DOM_STATE_STATE (i : Nat) : Fld := ⟨0x700000 + i * 0x80, 0, 3, .ro, (if i = 0 then 6 else 0)⟩
def DOM_STATE_NRUN (i : Nat) : Fld := ⟨0x700000 + i * 0x80, 3, 9, .ro, 0⟩
def DOM_STATE_NSET (i : Nat) : Fld := ⟨0x700000 + i * 0x80, 12, 9, .ro, 0⟩
def DOM_STATE_BUSY (i : Nat) : Fld := ⟨0x700000 + i * 0x80, 21, 1, .ro, 0⟩
def DOM_CFG_LLC_CLASS (i : Nat) : Fld := ⟨0x700004 + i * 0x80, 0, 4, .rw, 0⟩
def DOM_CFG_DBG (i : Nat) : Fld := ⟨0x700004 + i * 0x80, 4, 1, .rw, 0⟩
def DOM_CFG_GLOBAL_EN (i : Nat) : Fld := ⟨0x700004 + i * 0x80, 5, 1, .rw, 0⟩
def DOM_CTXBASE_BASE (i : Nat) : Fld := ⟨0x700010 + i * 0x80, 20, 26, .rw, 0⟩
def DOM_MEMHELD_PAGES (i : Nat) : Fld := ⟨0x700018 + i * 0x80, 0, 28, .ro, 0⟩
def DOM_LATTOL_NS (i : Nat) : Fld := ⟨0x70001c + i * 0x80, 0, 24, .rw, 0⟩
def DOM_TILES_SET (i j : Nat) : Fld := ⟨0x700020 + i * 0x80 + j * 0x4, 0, 32, .ro, 0⟩
def DOM_FABEP_FIRST (i : Nat) : Fld := ⟨0x700060 + i * 0x80, 0, 12, .ro, 0⟩
def DOM_FABEP_COUNT (i : Nat) : Fld := ⟨0x700060 + i * 0x80, 12, 13, .ro, 0⟩
def DOM_EVCOUNT_COUNT (i : Nat) : Fld := ⟨0x700064 + i * 0x80, 0, 13, .ro, 0⟩
def DOM_MTRSEQ_SEQ (i : Nat) : Fld := ⟨0x700068 + i * 0x80, 0, 32, .ro, 0⟩
def MTR_TIME_NS : Fld := ⟨0x600000, 0, 64, .ro, 0⟩
def MTR_CTL_EN : Fld := ⟨0x600008, 0, 1, .rw, 0⟩
def MTR_PERIOD_SEC : Fld := ⟨0x60000c, 0, 12, .rw, 60⟩
def MTR_BANDS_B1 : Fld := ⟨0x600010, 0, 7, .rw, 32⟩
def MTR_BANDS_B2 : Fld := ⟨0x600010, 8, 7, .rw, 56⟩
def MTR_BANDS_B3 : Fld := ⟨0x600010, 16, 7, .rw, 73⟩
def MTR_RING_BASE_BASE : Fld := ⟨0x600018, 12, 34, .rw, 0⟩
def MTR_RING_SIZE_LOG2N : Fld := ⟨0x600020, 0, 5, .rw, 6⟩
def MTR_RING_HEAD_HEAD : Fld := ⟨0x600024, 0, 32, .ro, 0⟩
def MTR_RING_TAIL_TAIL : Fld := ⟨0x600028, 0, 32, .rw, 0⟩
def MTR_STAT_BACKLOG : Fld := ⟨0x60002c, 0, 14, .ro, 0⟩
def MTR_STAT_MERGING : Fld := ⟨0x60002c, 14, 1, .ro, 0⟩
def MTR_STAT_BADVAL : Fld := ⟨0x60002c, 15, 1, .rw1c, 0⟩
def MTR_STAT_HOSTERR : Fld := ⟨0x60002c, 16, 1, .rw1c, 0⟩
def MTR_KEYINFO_KEYGEN : Fld := ⟨0x600030, 0, 8, .ro, 0⟩
def MTR_PERIOD_START_NS : Fld := ⟨0x600038, 0, 64, .ro, 0⟩
def EVT_CFG_EN (i : Nat) : Fld := ⟨0x400000 + i * 0x10, 0, 1, .rw, 0⟩
def EVT_CFG_TKIND (i : Nat) : Fld := ⟨0x400000 + i * 0x10, 1, 2, .rw, 0⟩
def EVT_CFG_RMT (i : Nat) : Fld := ⟨0x400000 + i * 0x10, 3, 1, .rw, 0⟩
def EVT_CFG_PRI (i : Nat) : Fld := ⟨0x400000 + i * 0x10, 4, 4, .rw, 0⟩
def EVT_CFG_TARGET (i : Nat) : Fld := ⟨0x400000 + i * 0x10, 8, 11, .rw, 0⟩
def EVT_OWN_OWNER (i : Nat) : Fld := ⟨0x400004 + i * 0x10, 0, 12, .ro, 0⟩
def EVT_STAT_PEND (i : Nat) : Fld := ⟨0x400008 + i * 0x10, 0, 1, .rw1s, 0⟩
def EVT_STAT_ACTIVE (i : Nat) : Fld := ⟨0x400008 + i * 0x10, 1, 1, .ro, 0⟩
def EVT_STAT_HELD (i : Nat) : Fld := ⟨0x400008 + i * 0x10, 2, 1, .ro, 0⟩
def EVT_STAT_CLRP (i : Nat) : Fld := ⟨0x400008 + i * 0x10, 3, 1, .wo, 0⟩
def EVT_STAT_CAUSE (i : Nat) : Fld := ⟨0x400008 + i * 0x10, 4, 8, .rw1c, 0⟩
def EVT_STAT_HOLDER (i : Nat) : Fld := ⟨0x400008 + i * 0x10, 12, 10, .ro, 0⟩
def EVT_MERGE_COUNT (i : Nat) : Fld := ⟨0x40000c + i * 0x10, 0, 32, .ro, 0⟩
def EVT_DESIG_CORE (i : Nat) : Fld := ⟨0x420000 + i * 0x4, 0, 9, .rw, 0⟩
def EVT_DESIG_V (i : Nat) : Fld := ⟨0x420000 + i * 0x4, 9, 1, .rw, 0⟩
def EVT_TPG_OWNER (i : Nat) : Fld := ⟨0x430000 + i * 0x4, 0, 12, .rw, 0⟩
def EVT_TPG_BAD (i : Nat) : Fld := ⟨0x430000 + i * 0x4, 16, 16, .ro, 0⟩
def EVT_DPEND_DOM (i : Nat) : Fld := ⟨0x440000 + i * 0x4, 0, 32, .ro, 0⟩
def EVT_TRIG_SRC : Fld := ⟨0x450000, 0, 13, .wo, 0⟩
def EVT_ERR_BADTGT : Fld := ⟨0x450004, 0, 1, .rw1c, 0⟩
def EVT_ERR_BADTRIG : Fld := ⟨0x450004, 1, 1, .rw1c, 0⟩
def EVT_ERR_SRC : Fld := ⟨0x450004, 2, 13, .ro, 0⟩
def HEP_STAT_LINKUP : Fld := ⟨0x200000, 0, 1, .ro, 0⟩
def HEP_STAT_SPEED : Fld := ⟨0x200000, 1, 3, .ro, 0⟩
def HEP_STAT_WIDTH : Fld := ⟨0x200000, 4, 5, .ro, 0⟩
def HEP_STAT_BME : Fld := ⟨0x200000, 9, 1, .ro, 0⟩
def HEP_STAT_CONT : Fld := ⟨0x200000, 10, 1, .ro, 0⟩
def HEP_STAT_FLR : Fld := ⟨0x200000, 11, 1, .ro, 0⟩
def HEP_STAT_BADWIN : Fld := ⟨0x200000, 12, 1, .rw1c, 0⟩
def HEP_STAT_D3 : Fld := ⟨0x200000, 13, 1, .ro, 0⟩
def HEP_CTO_US : Fld := ⟨0x200004, 0, 16, .rw, 1000⟩
def HEP_TAGS_INUSE : Fld := ⟨0x200008, 0, 10, .ro, 0⟩
def HEP_TAGS_QUAR : Fld := ⟨0x200008, 10, 10, .ro, 0⟩
def HEP_TMO_COUNT : Fld := ⟨0x200010, 0, 32, .ro, 0⟩
def HEP_LATE_COUNT : Fld := ⟨0x200014, 0, 32, .ro, 0⟩
def HEP_INB_DROP_COUNT : Fld := ⟨0x200018, 0, 32, .ro, 0⟩
def HEP_INB_UR_COUNT : Fld := ⟨0x20001c, 0, 32, .ro, 0⟩
def HEP_BAR0_BAD_COUNT : Fld := ⟨0x200020, 0, 32, .ro, 0⟩
def HEP_POISON_RD_COUNT : Fld := ⟨0x200024, 0, 32, .ro, 0⟩
def HEP_OUT_ERR_COUNT : Fld := ⟨0x200028, 0, 32, .ro, 0⟩
def HEP_CLR_CLR : Fld := ⟨0x20002c, 0, 1, .wo, 0⟩
def HEP_LASTERR_KIND : Fld := ⟨0x200030, 0, 3, .ro, 0⟩
def HEP_LASTERR_WINDOW : Fld := ⟨0x200030, 3, 8, .ro, 0⟩
def HEP_LASTERR_WRITE : Fld := ⟨0x200030, 11, 1, .ro, 0⟩
def DVSEC_HDR_ID : Fld := ⟨cfgBase + 0x400, 0, 16, .ro, 35⟩
def DVSEC_HDR_VER : Fld := ⟨cfgBase + 0x400, 16, 4, .ro, 1⟩
def DVSEC_HDR_NEXT : Fld := ⟨cfgBase + 0x400, 20, 12, .ro, 0⟩
def DVSEC_HDR1_VENDOR : Fld := ⟨cfgBase + 0x404, 0, 16, .ro, 8011⟩
def DVSEC_HDR1_REV : Fld := ⟨cfgBase + 0x404, 16, 4, .ro, 0⟩
def DVSEC_HDR1_LEN : Fld := ⟨cfgBase + 0x404, 20, 12, .ro, 48⟩
def DVSEC_HDR2_DVSEC_ID : Fld := ⟨cfgBase + 0x408, 0, 16, .ro, 1⟩
def HEP_DV_STAT_STATE : Fld := ⟨cfgBase + 0x40c, 0, 2, .ro, 0⟩
def HEP_DV_STAT_LINKUP : Fld := ⟨cfgBase + 0x40c, 2, 1, .ro, 0⟩
def HEP_DV_STAT_CAUSE : Fld := ⟨cfgBase + 0x40c, 3, 5, .ro, 0⟩
def HEP_DV_STAT_RELERR : Fld := ⟨cfgBase + 0x40c, 8, 1, .rw1c, 0⟩
def HEP_DV_STAT_COUNT : Fld := ⟨cfgBase + 0x40c, 16, 16, .ro, 0⟩
def HEP_DV_CTL_RELEASE : Fld := ⟨cfgBase + 0x410, 0, 1, .wo, 0⟩
def HEP_DV_UR_COUNT : Fld := ⟨cfgBase + 0x414, 0, 32, .ro, 0⟩
def HEP_DV_DROP_COUNT : Fld := ⟨cfgBase + 0x418, 0, 32, .ro, 0⟩
def HEP_DV_OUTERR_COUNT : Fld := ⟨cfgBase + 0x41c, 0, 32, .ro, 0⟩
def HEP_DV_TIME_NS : Fld := ⟨cfgBase + 0x420, 0, 64, .ro, 0⟩
def HEP_DV_DEV_FATAL : Fld := ⟨cfgBase + 0x428, 0, 1, .ro, 0⟩
def HEP_DV_DEV_RUNDOM : Fld := ⟨cfgBase + 0x428, 1, 12, .ro, 0⟩
def CMD_RING_BASE_BASE (i : Nat) : Fld := ⟨0x301000 + i * 0x40, 12, 34, .rw, 0⟩
def CMD_CQ_BASE_BASE (i : Nat) : Fld := ⟨0x301008 + i * 0x40, 12, 34, .rw, 0⟩
def CMD_RING_CFG_LOG2N (i : Nat) : Fld := ⟨0x301010 + i * 0x40, 0, 5, .rw, 6⟩
def CMD_RING_CFG_EN (i : Nat) : Fld := ⟨0x301010 + i * 0x40, 5, 1, .rw, 0⟩
def CMD_RING_DB_PROD (i : Nat) : Fld := ⟨0x301014 + i * 0x40, 0, 32, .rw, 0⟩
def CMD_RING_CONS_CONS (i : Nat) : Fld := ⟨0x301018 + i * 0x40, 0, 32, .ro, 0⟩
def CMD_CQ_HEAD_HEAD (i : Nat) : Fld := ⟨0x30101c + i * 0x40, 0, 32, .ro, 0⟩
def CMD_CQ_TAIL_TAIL (i : Nat) : Fld := ⟨0x301020 + i * 0x40, 0, 32, .rw, 0⟩
def CMD_RING_STAT_STATE (i : Nat) : Fld := ⟨0x301024 + i * 0x40, 0, 3, .ro, 0⟩
def CMD_RING_STAT_ERR (i : Nat) : Fld := ⟨0x301024 + i * 0x40, 3, 8, .ro, 0⟩
def CMD_RING_STAT_BADDB (i : Nat) : Fld := ⟨0x301024 + i * 0x40, 11, 1, .rw1c, 0⟩
def CMD_RING_STAT_BADCFG (i : Nat) : Fld := ⟨0x301024 + i * 0x40, 12, 1, .rw1c, 0⟩
def CMD_RING_STAT_HOLD (i : Nat) : Fld := ⟨0x301024 + i * 0x40, 13, 1, .ro, 0⟩
def CMD_RING_STAT_BUSY (i : Nat) : Fld := ⟨0x301024 + i * 0x40, 14, 1, .ro, 0⟩
def CMD_RING_CTL_RESTART (i : Nat) : Fld := ⟨0x301028 + i * 0x40, 0, 1, .wo, 0⟩
def CMD_STAT_READY : Fld := ⟨0x300000, 0, 1, .ro, 0⟩
def CMD_STAT_ACTIVE : Fld := ⟨0x300000, 1, 7, .ro, 0⟩
def CMD_MONEV_BASE : Fld := ⟨0x300004, 0, 13, .rw, 0⟩
def CMD_MONEV_V : Fld := ⟨0x300004, 13, 1, .rw, 0⟩
def CMD_MONTO_US : Fld := ⟨0x300008, 0, 16, .rw, 100⟩
def CMD_LOST_COUNT : Fld := ⟨0x30000c, 0, 32, .ro, 0⟩
def CMD_CLR_CLR : Fld := ⟨0x300010, 0, 1, .wo, 0⟩
def CMD_MONREQ_LOG2SZ (i : Nat) : Fld := ⟨0x308000 + i * 0x10, 0, 6, .ro, 0⟩
def CMD_MONREQ_DPA (i : Nat) : Fld := ⟨0x308000 + i * 0x10, 12, 34, .ro, 0⟩
def CMD_MONREQ_DOMAIN (i : Nat) : Fld := ⟨0x308000 + i * 0x10, 46, 12, .ro, 0⟩
def CMD_MONSEQ_SEQ (i : Nat) : Fld := ⟨0x308008 + i * 0x10, 0, 32, .ro, 0⟩
def CMD_MONACK_SEQ (i : Nat) : Fld := ⟨0x30800c + i * 0x10, 0, 32, .rw, 0⟩
def TR_DB_PROD (n : Nat) (i : Nat) : Fld := ⟨hiveBase n + 0x80000 + i * 0x1000, 0, 32, .rw, 0⟩
def TR_CONS_CONS (n : Nat) (i : Nat) : Fld := ⟨hiveBase n + 0x80004 + i * 0x1000, 0, 32, .ro, 0⟩
def TR_HEAD_HEAD (n : Nat) (i : Nat) : Fld := ⟨hiveBase n + 0x80008 + i * 0x1000, 0, 32, .ro, 0⟩
def TR_TAIL_TAIL (n : Nat) (i : Nat) : Fld := ⟨hiveBase n + 0x8000c + i * 0x1000, 0, 32, .rw, 0⟩
def TR_STAT_STATE (n : Nat) (i : Nat) : Fld := ⟨hiveBase n + 0x80010 + i * 0x1000, 0, 2, .ro, 0⟩
def TR_STAT_ERR (n : Nat) (i : Nat) : Fld := ⟨hiveBase n + 0x80010 + i * 0x1000, 2, 8, .ro, 0⟩
def TR_CTL_RESTART (n : Nat) (i : Nat) : Fld := ⟨hiveBase n + 0x80014 + i * 0x1000, 0, 1, .wo, 0⟩
def CMP_STAT_BUSY (n : Nat) : Fld := ⟨hiveBase n + 0x10000, 0, 1, .ro, 0⟩
def CMP_STAT_HOSTQ (n : Nat) : Fld := ⟨hiveBase n + 0x10000, 1, 4, .ro, 0⟩
def CMP_STAT_HOSTJOB (n : Nat) : Fld := ⟨hiveBase n + 0x10000, 5, 1, .ro, 0⟩
def CMP_STAT_RING (n : Nat) : Fld := ⟨hiveBase n + 0x10000, 6, 6, .ro, 0⟩
def CMP_IN_BYTES (n : Nat) : Fld := ⟨hiveBase n + 0x10008, 0, 64, .ro, 0⟩
def CMP_OUT_BYTES (n : Nat) : Fld := ⟨hiveBase n + 0x10010, 0, 64, .ro, 0⟩
def CMP_JOBS_COUNT (n : Nat) : Fld := ⟨hiveBase n + 0x10018, 0, 64, .ro, 0⟩
def CMP_CLR_CLR (n : Nat) : Fld := ⟨hiveBase n + 0x10020, 0, 1, .wo, 0⟩
def CMP_TR_BASE_BASE (n : Nat) (i : Nat) : Fld := ⟨hiveBase n + 0x11000 + i * 0x40, 12, 34, .rw, 0⟩
def CMP_TR_CQ_CQ (n : Nat) (i : Nat) : Fld := ⟨hiveBase n + 0x11008 + i * 0x40, 12, 34, .rw, 0⟩
def CMP_TR_CFG_LOG2N (n : Nat) (i : Nat) : Fld := ⟨hiveBase n + 0x11010 + i * 0x40, 0, 5, .rw, 6⟩
def CMP_TR_CFG_EN (n : Nat) (i : Nat) : Fld := ⟨hiveBase n + 0x11010 + i * 0x40, 5, 1, .rw, 0⟩
def CMP_TR_CFG_DOMAIN (n : Nat) (i : Nat) : Fld := ⟨hiveBase n + 0x11010 + i * 0x40, 6, 12, .rw, 0⟩
def CMP_TR_CFG_EVT (n : Nat) (i : Nat) : Fld := ⟨hiveBase n + 0x11010 + i * 0x40, 18, 13, .rw, 0⟩
def CMP_TR_CFG_EVT_EN (n : Nat) (i : Nat) : Fld := ⟨hiveBase n + 0x11010 + i * 0x40, 31, 1, .rw, 0⟩
def SQ_DB_PROD (i : Nat) : Fld := ⟨0x9a0000 + i * 0x1000, 0, 32, .rw, 0⟩
def SQ_CONS_CONS (i : Nat) : Fld := ⟨0x9a0004 + i * 0x1000, 0, 32, .ro, 0⟩
def SQ_DONE_DONE (i : Nat) : Fld := ⟨0x9a0008 + i * 0x1000, 0, 32, .ro, 0⟩
def SQ_STAT_STATE (i : Nat) : Fld := ⟨0x9a000c + i * 0x1000, 0, 2, .ro, 0⟩
def SQ_STAT_ERR (i : Nat) : Fld := ⟨0x9a000c + i * 0x1000, 2, 8, .ro, 0⟩
def SQ_CTL_RESTART (i : Nat) : Fld := ⟨0x9a0010 + i * 0x1000, 0, 1, .wo, 0⟩
def FAB_DEVNUM_NUM : Fld := ⟨0x900000, 0, 18, .rwl, 0⟩
def FAB_DEVNUM_LOCK : Fld := ⟨0x900000, 31, 1, .rw1s, 0⟩
def FAB_RTO_US : Fld := ⟨0x900004, 0, 16, .rw, 100⟩
def FAB_HOLD_US : Fld := ⟨0x900008, 0, 16, .rw, 100⟩
def FAB_TAGS_INUSE : Fld := ⟨0x90000c, 0, 13, .ro, 0⟩
def FAB_TAGS_QUAR : Fld := ⟨0x90000c, 13, 13, .ro, 0⟩
def FAB_TMO_COUNT : Fld := ⟨0x900010, 0, 32, .ro, 0⟩
def FAB_LATE_COUNT : Fld := ⟨0x900014, 0, 32, .ro, 0⟩
def FAB_RUNAV_COUNT : Fld := ⟨0x900018, 0, 32, .ro, 0⟩
def FAB_POSTERR_COUNT : Fld := ⟨0x90001c, 0, 32, .ro, 0⟩
def FAB_INBREF_COUNT : Fld := ⟨0x900020, 0, 32, .ro, 0⟩
def FAB_BADPKT_COUNT : Fld := ⟨0x900024, 0, 32, .ro, 0⟩
def FAB_CLR_CLR : Fld := ⟨0x900028, 0, 1, .wo, 0⟩
def FAB_RT_IDX_IDX : Fld := ⟨0x900030, 0, 18, .rw, 0⟩
def FAB_RT_DATA_ENTRY : Fld := ⟨0x900040, 0, 128, .ro, 0⟩
def FAB_EP_EN (i : Nat) : Fld := ⟨0x910000 + i * 0x10, 0, 1, .rw, 0⟩
def FAB_EP_LOG2N (i : Nat) : Fld := ⟨0x910000 + i * 0x10, 1, 5, .rw, 6⟩
def FAB_EP_EVT (i : Nat) : Fld := ⟨0x910000 + i * 0x10, 6, 13, .rw, 0⟩
def FAB_EP_EVT_EN (i : Nat) : Fld := ⟨0x910000 + i * 0x10, 19, 1, .rw, 0⟩
def FAB_EP_OWNER (i : Nat) : Fld := ⟨0x910000 + i * 0x10, 20, 12, .ro, 0⟩
def FAB_EP2_RXBASE (i : Nat) : Fld := ⟨0x910008 + i * 0x10, 12, 34, .rw, 0⟩
def FAB_RWIN_V (i : Nat) : Fld := ⟨0x920000 + i * 0x10, 0, 1, .rw, 0⟩
def FAB_RWIN_R (i : Nat) : Fld := ⟨0x920000 + i * 0x10, 1, 1, .rw, 0⟩
def FAB_RWIN_W (i : Nat) : Fld := ⟨0x920000 + i * 0x10, 2, 1, .rw, 0⟩
def FAB_RWIN_A (i : Nat) : Fld := ⟨0x920000 + i * 0x10, 3, 1, .rw, 0⟩
def FAB_RWIN_D0 (i : Nat) : Fld := ⟨0x920000 + i * 0x10, 4, 1, .rw, 0⟩
def FAB_RWIN_LOG2SZ (i : Nat) : Fld := ⟨0x920000 + i * 0x10, 5, 6, .rw, 0⟩
def FAB_RWIN_BASE (i : Nat) : Fld := ⟨0x920000 + i * 0x10, 12, 34, .rw, 0⟩
def FAB_RWIN_SRCDEV (i : Nat) : Fld := ⟨0x920000 + i * 0x10, 46, 18, .rw, 0⟩
def FAB_RWIN2_SRCEP (i : Nat) : Fld := ⟨0x920008 + i * 0x10, 0, 12, .rw, 0⟩
def FAB_RWIN2_DOM (i : Nat) : Fld := ⟨0x920008 + i * 0x10, 12, 12, .rw, 0⟩
def FAB_SQ_BASE_BASE (i : Nat) : Fld := ⟨0x930000 + i * 0x20, 12, 34, .rw, 0⟩
def FAB_SQ_CFG_LOG2N (i : Nat) : Fld := ⟨0x930008 + i * 0x20, 0, 5, .rw, 6⟩
def FAB_SQ_CFG_EN (i : Nat) : Fld := ⟨0x930008 + i * 0x20, 5, 1, .rw, 0⟩
def FAB_SQ_CFG_DOMAIN (i : Nat) : Fld := ⟨0x930008 + i * 0x20, 6, 12, .rw, 0⟩
def FAB_SQ_CFG_SRCEP (i : Nat) : Fld := ⟨0x930008 + i * 0x20, 18, 12, .rw, 0⟩
def FAB_PORT_STAT_STATE (n : Nat) : Fld := ⟨portBase n + 0x0, 0, 3, .ro, 0⟩
def FAB_PORT_STAT_LANES (n : Nat) : Fld := ⟨portBase n + 0x0, 3, 4, .ro, 0⟩
def FAB_PORT_STAT_HELD (n : Nat) : Fld := ⟨portBase n + 0x0, 7, 7, .ro, 0⟩
def FAB_PORT_CTL_DRAIN (n : Nat) : Fld := ⟨portBase n + 0x4, 0, 1, .rw, 0⟩
def FAB_PORT_CTL_RETRAIN (n : Nat) : Fld := ⟨portBase n + 0x4, 1, 1, .wo, 0⟩
def FAB_PORT_CTL_DATELINE (n : Nat) : Fld := ⟨portBase n + 0x4, 2, 1, .rw, 0⟩
def FAB_PORT_CTL_EN (n : Nat) : Fld := ⟨portBase n + 0x4, 3, 1, .rw, 1⟩
def FAB_PORT_CRC_COUNT (n : Nat) : Fld := ⟨portBase n + 0x8, 0, 32, .ro, 0⟩
def FAB_PORT_REPLAY_COUNT (n : Nat) : Fld := ⟨portBase n + 0xc, 0, 32, .ro, 0⟩
def FAB_PORT_DROP_COUNT (n : Nat) : Fld := ⟨portBase n + 0x10, 0, 32, .ro, 0⟩
def FAB_PORT_DOWNS_COUNT (n : Nat) : Fld := ⟨portBase n + 0x14, 0, 32, .ro, 0⟩
def FAB_PORT_TXF_COUNT (n : Nat) : Fld := ⟨portBase n + 0x18, 0, 64, .ro, 0⟩
def FAB_PORT_RXF_COUNT (n : Nat) : Fld := ⟨portBase n + 0x20, 0, 64, .ro, 0⟩
def FAB_PORT_CLR_CLR (n : Nat) : Fld := ⟨portBase n + 0x28, 0, 1, .wo, 0⟩
def TIL_PWR_STAT_STATE (n : Nat) : Fld := ⟨tileBase n + 0x3010, 0, 2, .ro, 0⟩
def TIL_PWR_STAT_HALT (n : Nat) : Fld := ⟨tileBase n + 0x3010, 2, 1, .ro, 0⟩
def TIL_PWR_STAT_PREP (n : Nat) : Fld := ⟨tileBase n + 0x3010, 3, 1, .ro, 0⟩
def TIL_PWR_STAT_ENTERING (n : Nat) : Fld := ⟨tileBase n + 0x3010, 4, 1, .ro, 0⟩
def TIL_PWR_STAT_EXITING (n : Nat) : Fld := ⟨tileBase n + 0x3010, 5, 1, .ro, 0⟩
def TIL_PWR_STAT_LATCHED (n : Nat) : Fld := ⟨tileBase n + 0x3010, 6, 1, .ro, 0⟩
def TIL_PWR_SVC_COUNT (n : Nat) : Fld := ⟨tileBase n + 0x3014, 0, 32, .ro, 0⟩
def TIL_PWR_WAKES_COUNT (n : Nat) : Fld := ⟨tileBase n + 0x3018, 0, 32, .ro, 0⟩
def PWR_HGEN_GEN (n : Nat) : Fld := ⟨hiveBase n + 0x20000, 0, 32, .ro, 0⟩
def PWR_HPREP_GEN (n : Nat) : Fld := ⟨hiveBase n + 0x20004, 0, 32, .ro, 0⟩
def PWR_HCAP_CAP (n : Nat) : Fld := ⟨hiveBase n + 0x20008, 0, 7, .ro, 96⟩
def PWR_HCAP_CAPPED (n : Nat) : Fld := ⟨hiveBase n + 0x20008, 7, 1, .ro, 0⟩
def PWR_HLAST_TILE (n : Nat) : Fld := ⟨hiveBase n + 0x20010, 0, 3, .ro, 0⟩
def PWR_HLAST_STATE (n : Nat) : Fld := ⟨hiveBase n + 0x20010, 3, 2, .ro, 0⟩
def PWR_HLAST_WHO (n : Nat) : Fld := ⟨hiveBase n + 0x20010, 5, 3, .ro, 0⟩
def PWR_HLAST_ABORT (n : Nat) : Fld := ⟨hiveBase n + 0x20010, 8, 1, .ro, 0⟩
def PWR_HREF_COUNT (n : Nat) (i j : Nat) : Fld := ⟨hiveBase n + 0x20100 + i * 0x40 + j * 0x4, 0, 32, .ro, 0⟩
def PWR_HABT_COUNT (n : Nat) (i j : Nat) : Fld := ⟨hiveBase n + 0x20120 + i * 0x40 + j * 0x4, 0, 32, .ro, 0⟩
def PWR_HCLR_CLR (n : Nat) : Fld := ⟨hiveBase n + 0x20200, 0, 1, .wo, 0⟩
def PWR_GEN_GEN : Fld := ⟨0x800000, 0, 32, .ro, 0⟩
def PWR_MODE_STAT_PHASE : Fld := ⟨0x800004, 0, 2, .ro, 0⟩
def PWR_MODE_STAT_CODE : Fld := ⟨0x800004, 2, 16, .ro, 0⟩
def PWR_MODE_APPLIED_HIVES : Fld := ⟨0x800008, 0, 32, .ro, 0⟩
def PWR_MODE_READY_HIVES : Fld := ⟨0x80000c, 0, 32, .ro, 0⟩
def PWR_MODE_WHY_WHY (i : Nat) : Fld := ⟨0x800010 + i * 0x4, 0, 32, .ro, 0⟩
def PWR_MODE_TIME_US : Fld := ⟨0x800020, 0, 32, .ro, 0⟩
def PWR_LAST_STATE : Fld := ⟨0x800030, 0, 3, .ro, 0⟩
def PWR_LAST_UNIT : Fld := ⟨0x800030, 3, 5, .ro, 0⟩
def PWR_LAST_WHO : Fld := ⟨0x800030, 8, 3, .ro, 0⟩
def PWR_LAST_ABORT : Fld := ⟨0x800030, 11, 1, .ro, 0⟩
def PWR_REF_COUNT (i j : Nat) : Fld := ⟨0x800100 + i * 0x40 + j * 0x4, 0, 32, .ro, 0⟩
def PWR_ABT_COUNT (i j : Nat) : Fld := ⟨0x800120 + i * 0x40 + j * 0x4, 0, 32, .ro, 0⟩
def PWR_CLR_CLR : Fld := ⟨0x800200, 0, 1, .wo, 0⟩
def PMC_CORE_CTL_EN (n : Nat) (i j : Nat) : Fld := ⟨tileBase n + 0xc000 + i * 0x100 + j * 0x10, 0, 1, .rw, 0⟩
def PMC_CORE_CTL_EVENT (n : Nat) (i j : Nat) : Fld := ⟨tileBase n + 0xc000 + i * 0x100 + j * 0x10, 1, 10, .rw, 0⟩
def PMC_CORE_CTL_THRMODE (n : Nat) (i j : Nat) : Fld := ⟨tileBase n + 0xc000 + i * 0x100 + j * 0x10, 11, 1, .rw, 0⟩
def PMC_CORE_CTL_THR (n : Nat) (i j : Nat) : Fld := ⟨tileBase n + 0xc000 + i * 0x100 + j * 0x10, 12, 8, .rw, 0⟩
def PMC_CORE_CTL_CHAIN (n : Nat) (i j : Nat) : Fld := ⟨tileBase n + 0xc000 + i * 0x100 + j * 0x10, 20, 1, .rw, 0⟩
def PMC_CORE_CTL_UREAD (n : Nat) (i j : Nat) : Fld := ⟨tileBase n + 0xc000 + i * 0x100 + j * 0x10, 21, 1, .rw, 0⟩
def PMC_CORE_CTL_OVF (n : Nat) (i j : Nat) : Fld := ⟨tileBase n + 0xc000 + i * 0x100 + j * 0x10, 22, 1, .rw1c, 0⟩
def PMC_TILE_CTL_EN (n : Nat) (i : Nat) : Fld := ⟨tileBase n + 0xc200 + i * 0x10, 0, 1, .rw, 0⟩
def PMC_TILE_CTL_EVENT (n : Nat) (i : Nat) : Fld := ⟨tileBase n + 0xc200 + i * 0x10, 1, 10, .rw, 0⟩
def PMC_TILE_CTL_THRMODE (n : Nat) (i : Nat) : Fld := ⟨tileBase n + 0xc200 + i * 0x10, 11, 1, .rw, 0⟩
def PMC_TILE_CTL_THR (n : Nat) (i : Nat) : Fld := ⟨tileBase n + 0xc200 + i * 0x10, 12, 8, .rw, 0⟩
def PMC_TILE_CTL_CHAIN (n : Nat) (i : Nat) : Fld := ⟨tileBase n + 0xc200 + i * 0x10, 20, 1, .rw, 0⟩
def PMC_TILE_CTL_UREAD (n : Nat) (i : Nat) : Fld := ⟨tileBase n + 0xc200 + i * 0x10, 21, 1, .rw, 0⟩
def PMC_TILE_CTL_OVF (n : Nat) (i : Nat) : Fld := ⟨tileBase n + 0xc200 + i * 0x10, 22, 1, .rw1c, 0⟩
def PMC_SLICE_CTL_EN (n : Nat) (i : Nat) : Fld := ⟨tileBase n + 0xc300 + i * 0x10, 0, 1, .rw, 0⟩
def PMC_SLICE_CTL_EVENT (n : Nat) (i : Nat) : Fld := ⟨tileBase n + 0xc300 + i * 0x10, 1, 10, .rw, 0⟩
def PMC_SLICE_CTL_THRMODE (n : Nat) (i : Nat) : Fld := ⟨tileBase n + 0xc300 + i * 0x10, 11, 1, .rw, 0⟩
def PMC_SLICE_CTL_THR (n : Nat) (i : Nat) : Fld := ⟨tileBase n + 0xc300 + i * 0x10, 12, 8, .rw, 0⟩
def PMC_SLICE_CTL_CHAIN (n : Nat) (i : Nat) : Fld := ⟨tileBase n + 0xc300 + i * 0x10, 20, 1, .rw, 0⟩
def PMC_SLICE_CTL_UREAD (n : Nat) (i : Nat) : Fld := ⟨tileBase n + 0xc300 + i * 0x10, 21, 1, .rw, 0⟩
def PMC_SLICE_CTL_OVF (n : Nat) (i : Nat) : Fld := ⟨tileBase n + 0xc300 + i * 0x10, 22, 1, .rw1c, 0⟩
def PMC_CHAN_CTL_EN (n : Nat) (i : Nat) : Fld := ⟨memBase n + 0x4000 + i * 0x10, 0, 1, .rw, 0⟩
def PMC_CHAN_CTL_EVENT (n : Nat) (i : Nat) : Fld := ⟨memBase n + 0x4000 + i * 0x10, 1, 10, .rw, 0⟩
def PMC_CHAN_CTL_THRMODE (n : Nat) (i : Nat) : Fld := ⟨memBase n + 0x4000 + i * 0x10, 11, 1, .rw, 0⟩
def PMC_CHAN_CTL_THR (n : Nat) (i : Nat) : Fld := ⟨memBase n + 0x4000 + i * 0x10, 12, 8, .rw, 0⟩
def PMC_CHAN_CTL_CHAIN (n : Nat) (i : Nat) : Fld := ⟨memBase n + 0x4000 + i * 0x10, 20, 1, .rw, 0⟩
def PMC_CHAN_CTL_UREAD (n : Nat) (i : Nat) : Fld := ⟨memBase n + 0x4000 + i * 0x10, 21, 1, .rw, 0⟩
def PMC_CHAN_CTL_OVF (n : Nat) (i : Nat) : Fld := ⟨memBase n + 0x4000 + i * 0x10, 22, 1, .rw1c, 0⟩
def PMC_PORT_CTL_EN (n : Nat) (i : Nat) : Fld := ⟨portBase n + 0x4000 + i * 0x10, 0, 1, .rw, 0⟩
def PMC_PORT_CTL_EVENT (n : Nat) (i : Nat) : Fld := ⟨portBase n + 0x4000 + i * 0x10, 1, 10, .rw, 0⟩
def PMC_PORT_CTL_THRMODE (n : Nat) (i : Nat) : Fld := ⟨portBase n + 0x4000 + i * 0x10, 11, 1, .rw, 0⟩
def PMC_PORT_CTL_THR (n : Nat) (i : Nat) : Fld := ⟨portBase n + 0x4000 + i * 0x10, 12, 8, .rw, 0⟩
def PMC_PORT_CTL_CHAIN (n : Nat) (i : Nat) : Fld := ⟨portBase n + 0x4000 + i * 0x10, 20, 1, .rw, 0⟩
def PMC_PORT_CTL_UREAD (n : Nat) (i : Nat) : Fld := ⟨portBase n + 0x4000 + i * 0x10, 21, 1, .rw, 0⟩
def PMC_PORT_CTL_OVF (n : Nat) (i : Nat) : Fld := ⟨portBase n + 0x4000 + i * 0x10, 22, 1, .rw1c, 0⟩
def PMC_CORE_OWN_OWNER (n : Nat) (i j : Nat) : Fld := ⟨tileBase n + 0xc004 + i * 0x100 + j * 0x10, 0, 12, .rw, 0⟩
def PMC_CORE_OWN_EVT (n : Nat) (i j : Nat) : Fld := ⟨tileBase n + 0xc004 + i * 0x100 + j * 0x10, 12, 13, .rw, 0⟩
def PMC_CORE_OWN_EVT_EN (n : Nat) (i j : Nat) : Fld := ⟨tileBase n + 0xc004 + i * 0x100 + j * 0x10, 25, 1, .rw, 0⟩
def PMC_TILE_OWN_OWNER (n : Nat) (i : Nat) : Fld := ⟨tileBase n + 0xc204 + i * 0x10, 0, 12, .rw, 0⟩
def PMC_TILE_OWN_EVT (n : Nat) (i : Nat) : Fld := ⟨tileBase n + 0xc204 + i * 0x10, 12, 13, .rw, 0⟩
def PMC_TILE_OWN_EVT_EN (n : Nat) (i : Nat) : Fld := ⟨tileBase n + 0xc204 + i * 0x10, 25, 1, .rw, 0⟩
def PMC_SLICE_OWN_OWNER (n : Nat) (i : Nat) : Fld := ⟨tileBase n + 0xc304 + i * 0x10, 0, 12, .rw, 0⟩
def PMC_SLICE_OWN_EVT (n : Nat) (i : Nat) : Fld := ⟨tileBase n + 0xc304 + i * 0x10, 12, 13, .rw, 0⟩
def PMC_SLICE_OWN_EVT_EN (n : Nat) (i : Nat) : Fld := ⟨tileBase n + 0xc304 + i * 0x10, 25, 1, .rw, 0⟩
def PMC_CHAN_OWN_OWNER (n : Nat) (i : Nat) : Fld := ⟨memBase n + 0x4004 + i * 0x10, 0, 12, .rw, 0⟩
def PMC_CHAN_OWN_EVT (n : Nat) (i : Nat) : Fld := ⟨memBase n + 0x4004 + i * 0x10, 12, 13, .rw, 0⟩
def PMC_CHAN_OWN_EVT_EN (n : Nat) (i : Nat) : Fld := ⟨memBase n + 0x4004 + i * 0x10, 25, 1, .rw, 0⟩
def PMC_PORT_OWN_OWNER (n : Nat) (i : Nat) : Fld := ⟨portBase n + 0x4004 + i * 0x10, 0, 12, .rw, 0⟩
def PMC_PORT_OWN_EVT (n : Nat) (i : Nat) : Fld := ⟨portBase n + 0x4004 + i * 0x10, 12, 13, .rw, 0⟩
def PMC_PORT_OWN_EVT_EN (n : Nat) (i : Nat) : Fld := ⟨portBase n + 0x4004 + i * 0x10, 25, 1, .rw, 0⟩
def PMC_CORE_VALUE_COUNT (n : Nat) (i j : Nat) : Fld := ⟨tileBase n + 0xc008 + i * 0x100 + j * 0x10, 0, 48, .rw, 0⟩
def PMC_TILE_VALUE_COUNT (n : Nat) (i : Nat) : Fld := ⟨tileBase n + 0xc208 + i * 0x10, 0, 48, .rw, 0⟩
def PMC_SLICE_VALUE_COUNT (n : Nat) (i : Nat) : Fld := ⟨tileBase n + 0xc308 + i * 0x10, 0, 48, .rw, 0⟩
def PMC_CHAN_VALUE_COUNT (n : Nat) (i : Nat) : Fld := ⟨memBase n + 0x4008 + i * 0x10, 0, 48, .rw, 0⟩
def PMC_PORT_VALUE_COUNT (n : Nat) (i : Nat) : Fld := ⟨portBase n + 0x4008 + i * 0x10, 0, 48, .rw, 0⟩
def PMC_GCTL_FREEZE : Fld := ⟨0xa00000, 0, 1, .rw, 0⟩
def PMC_GCTL_CLRALL : Fld := ⟨0xa00000, 1, 1, .wo, 0⟩
def PMC_GSTAT_BADEV : Fld := ⟨0xa00004, 0, 1, .rw1c, 0⟩
def ER_STAT_BUSY : Fld := ⟨0x500000, 0, 1, .ro, 0⟩
def ER_STAT_FLUSHING : Fld := ⟨0x500000, 1, 1, .ro, 0⟩
def ER_STAT_FATAL : Fld := ⟨0x500000, 2, 1, .ro, 0⟩
def ER_STAT_PFULL : Fld := ⟨0x500000, 3, 1, .ro, 0⟩
def ER_STAT_FLASHERR : Fld := ⟨0x500000, 4, 1, .rw1c, 0⟩
def ER_PCOUNT_COUNT : Fld := ⟨0x500004, 0, 10, .ro, 0⟩
def ER_SEQ_SEQ : Fld := ⟨0x500008, 0, 32, .ro, 0⟩
def ER_LOST_COUNT : Fld := ⟨0x50000c, 0, 32, .ro, 0⟩
def ER_PREFUSED_COUNT : Fld := ⟨0x500010, 0, 32, .ro, 0⟩
def ER_FLUSHINFO_LASTSEQ : Fld := ⟨0x500018, 0, 32, .ro, 0⟩
def ER_FLUSHINFO_COUNT : Fld := ⟨0x500018, 32, 11, .ro, 0⟩
def ER_OPHOURS_HOURS : Fld := ⟨0x500020, 0, 32, .ro, 0⟩
def ER_OPSEC_SEC : Fld := ⟨0x500024, 0, 12, .ro, 0⟩
def ER_PCYCLE_COUNT : Fld := ⟨0x500028, 0, 32, .ro, 0⟩
def ER_CURSOR_AREA : Fld := ⟨0x500030, 0, 2, .rw, 1⟩
def ER_CURSOR_AUTOINC : Fld := ⟨0x500030, 2, 1, .rw, 0⟩
def ER_CURSOR_INDEX : Fld := ⟨0x500030, 32, 32, .rw, 0⟩
def ER_CLR_KEY : Fld := ⟨0x500038, 0, 16, .wo, 0⟩
def ER_CLR_AREA : Fld := ⟨0x500038, 16, 2, .wo, 0⟩
def ER_CSTAT_VALID : Fld := ⟨0x500040, 0, 1, .ro, 0⟩
def ER_CSTAT_GONE : Fld := ⟨0x500040, 1, 1, .ro, 0⟩
def ER_WINDOW_DATA (i : Nat) : Fld := ⟨0x500100 + i * 0x4, 0, 32, .ro, 0⟩
def BOOT_STAT_STEP : Fld := ⟨0x0, 0, 4, .ro, 1⟩
def BOOT_STAT_DONE : Fld := ⟨0x0, 4, 1, .ro, 0⟩
def BOOT_STAT_FAIL : Fld := ⟨0x0, 5, 1, .ro, 0⟩
def BOOT_STAT_SELFTEST : Fld := ⟨0x0, 6, 1, .ro, 0⟩
def BOOT_STAT_KFW_B : Fld := ⟨0x0, 7, 1, .ro, 0⟩
def BOOT_STAT_MON_B : Fld := ⟨0x0, 8, 1, .ro, 0⟩
def BOOT_CHFAIL_CH : Fld := ⟨0x4, 0, 24, .ro, 0⟩
def BOOT_STRAP_PAIR_DEFAULT : Fld := ⟨0x8, 0, 1, .ro, 0⟩
def BOOT_STRAP_SELFTEST : Fld := ⟨0x8, 1, 1, .ro, 0⟩
def BOOT_STRAP_BIST_FULL : Fld := ⟨0x8, 2, 1, .ro, 0⟩
def BOOT_RSTCAUSE_KIND : Fld := ⟨0xc, 0, 2, .ro, 0⟩
def BOOT_CTL_KEY : Fld := ⟨0x10, 0, 16, .wo, 0⟩
def BOOT_CTL_DEVRST : Fld := ⟨0x10, 16, 1, .wo, 0⟩
def BOOT_MON_BASE : Fld := ⟨0x18, 0, 64, .ro, 0xbffe800000⟩
def BOOT_MS_MS : Fld := ⟨0x20, 0, 32, .ro, 0⟩
def SEC_STAT_KFW : Fld := ⟨0x100000, 0, 4, .ro, 0⟩
def SEC_STAT_MON : Fld := ⟨0x100000, 4, 4, .ro, 0⟩
def SEC_SLOT_ENROLLED (i : Nat) : Fld := ⟨0x100010 + i * 0x4, 0, 1, .ro, 0⟩
def SEC_SLOT_REVOKED (i : Nat) : Fld := ⟨0x100010 + i * 0x4, 1, 1, .ro, 0⟩
def SEC_ROLL_COUNT (i : Nat) : Fld := ⟨0x100040 + i * 0x4, 0, 8, .rw, 0⟩
def SEC_ENROLL_DATA_DIGEST (i : Nat) : Fld := ⟨0x100080 + i * 0x4, 0, 32, .wo, 0⟩
def SEC_ENROLL_SLOT : Fld := ⟨0x1000b0, 0, 2, .wo, 0⟩
def SEC_ENROLL_GO : Fld := ⟨0x1000b0, 2, 1, .wo, 0⟩
def SEC_ENROLL_REVOKE : Fld := ⟨0x1000b0, 3, 1, .wo, 0⟩
def SEC_ENROLL_KEY : Fld := ⟨0x1000b0, 8, 8, .wo, 0⟩
def SEC_KEYROLL_KEY : Fld := ⟨0x1000c0, 0, 16, .wo, 0⟩
def PWR_TEMP_TJ : Fld := ⟨0x800600, 0, 8, .ro, 0⟩
def PWR_TEMP_TMEM : Fld := ⟨0x800600, 8, 8, .ro, 0⟩
def PWR_LIMSTAT_THERM : Fld := ⟨0x800604, 0, 1, .ro, 0⟩
def PWR_LIMSTAT_MEM : Fld := ⟨0x800604, 1, 1, .ro, 0⟩
def PWR_LIMSTAT_CURR : Fld := ⟨0x800604, 2, 1, .ro, 0⟩
def PWR_LIMSTAT_PIN : Fld := ⟨0x800604, 3, 1, .ro, 0⟩
def PWR_PWRLIM_CODE : Fld := ⟨0x800608, 0, 7, .rw, 48⟩
def PWR_IMAIN_DA : Fld := ⟨0x80060c, 0, 16, .ro, 0⟩
def HEP_IWIN_V (i : Nat) : Fld := ⟨0x210000 + i * 0x8, 0, 1, .rw, 0⟩
def HEP_IWIN_RD (i : Nat) : Fld := ⟨0x210000 + i * 0x8, 1, 1, .rw, 0⟩
def HEP_IWIN_WR (i : Nat) : Fld := ⟨0x210000 + i * 0x8, 2, 1, .rw, 0⟩
def HEP_IWIN_LPOL (i : Nat) : Fld := ⟨0x210000 + i * 0x8, 3, 2, .rw, 0⟩
def HEP_IWIN_LVAL (i : Nat) : Fld := ⟨0x210000 + i * 0x8, 5, 4, .rw, 0⟩
def HEP_IWIN_BASE (i : Nat) : Fld := ⟨0x210000 + i * 0x8, 12, 34, .rw, 0⟩
def HEP_IWIN_LOG2SZ (i : Nat) : Fld := ⟨0x210000 + i * 0x8, 46, 6, .rw, 0⟩
def HEP_OWIN_V (i : Nat) : Fld := ⟨0x220000 + i * 0x8, 0, 1, .rw, 0⟩
def HEP_OWIN_NS (i : Nat) : Fld := ⟨0x220000 + i * 0x8, 1, 1, .rw, 0⟩
def HEP_OWIN_LOG2SZ (i : Nat) : Fld := ⟨0x220000 + i * 0x8, 2, 6, .rw, 0⟩
def HEP_OWIN_BASE (i : Nat) : Fld := ⟨0x220000 + i * 0x8, 12, 52, .rw, 0⟩
def MEM_NI_STAT_BADRTE (n : Nat) : Fld := ⟨memBase n + 0x7010, 0, 1, .rw1c, 0⟩
def MEM_NI_STAT_BADIDX (n : Nat) : Fld := ⟨memBase n + 0x7010, 1, 9, .ro, 0⟩
def MEM_NI_STAT_WHY (n : Nat) : Fld := ⟨memBase n + 0x7010, 10, 3, .ro, 0⟩
def MEM_NI_CTL_DEFAULT (n : Nat) : Fld := ⟨memBase n + 0x7014, 0, 1, .wo, 0⟩
def HEP_NI_STAT_BADRTE (i : Nat) : Fld := ⟨0x280c10 + i * 0x1000, 0, 1, .rw1c, 0⟩
def HEP_NI_STAT_BADIDX (i : Nat) : Fld := ⟨0x280c10 + i * 0x1000, 1, 9, .ro, 0⟩
def HEP_NI_STAT_WHY (i : Nat) : Fld := ⟨0x280c10 + i * 0x1000, 10, 3, .ro, 0⟩
def HEP_NI_CTL_DEFAULT (i : Nat) : Fld := ⟨0x280c14 + i * 0x1000, 0, 1, .wo, 0⟩
def FAB_NI_STAT_BADRTE (i : Nat) : Fld := ⟨0x980c10 + i * 0x1000, 0, 1, .rw1c, 0⟩
def FAB_NI_STAT_BADIDX (i : Nat) : Fld := ⟨0x980c10 + i * 0x1000, 1, 9, .ro, 0⟩
def FAB_NI_STAT_WHY (i : Nat) : Fld := ⟨0x980c10 + i * 0x1000, 10, 3, .ro, 0⟩
def FAB_NI_CTL_DEFAULT (i : Nat) : Fld := ⟨0x980c14 + i * 0x1000, 0, 1, .wo, 0⟩
def TIL_RT_SEG (n : Nat) (i : Nat) : Fld := ⟨tileBase n + 0x6000 + i * 0x8, 0, 48, .rw, (defSeg n i)⟩
def TIL_RT_EXIT (n : Nat) (i : Nat) : Fld := ⟨tileBase n + 0x6000 + i * 0x8, 48, 3, .rw, (defExit n i)⟩
def TIL_RT_V (n : Nat) (i : Nat) : Fld := ⟨tileBase n + 0x6000 + i * 0x8, 63, 1, .rw, 1⟩
def MEM_RT_SEG (n : Nat) (i : Nat) : Fld := ⟨memBase n + 0x8000 + i * 0x8, 0, 48, .rw, (defSeg (256 + n) i)⟩
def MEM_RT_EXIT (n : Nat) (i : Nat) : Fld := ⟨memBase n + 0x8000 + i * 0x8, 48, 3, .rw, (defExit (256 + n) i)⟩
def MEM_RT_V (n : Nat) (i : Nat) : Fld := ⟨memBase n + 0x8000 + i * 0x8, 63, 1, .rw, 1⟩
def HEP_RT_SEG (i j : Nat) : Fld := ⟨0x280000 + i * 0x1000 + j * 0x8, 0, 48, .rw, (defSeg (280 + i) j)⟩
def HEP_RT_EXIT (i j : Nat) : Fld := ⟨0x280000 + i * 0x1000 + j * 0x8, 48, 3, .rw, (defExit (280 + i) j)⟩
def HEP_RT_V (i j : Nat) : Fld := ⟨0x280000 + i * 0x1000 + j * 0x8, 63, 1, .rw, 1⟩
def FAB_RTE_SEG (i j : Nat) : Fld := ⟨0x980000 + i * 0x1000 + j * 0x8, 0, 48, .rw, (defSeg (288 + i) j)⟩
def FAB_RTE_EXIT (i j : Nat) : Fld := ⟨0x980000 + i * 0x1000 + j * 0x8, 48, 3, .rw, (defExit (288 + i) j)⟩
def FAB_RTE_V (i j : Nat) : Fld := ⟨0x980000 + i * 0x1000 + j * 0x8, 63, 1, .rw, 1⟩

end R

/-- The register blocks of R38 to R41, and the DVSEC of R421. -/
inductive Blk where
  | boot | sec | hep | cmd | evt | er | mtr | dom | pwr | fab | pmc | tile | hive | mem | fport | cfg
  deriving DecidableEq, Repr

/-- One constructor for each register (or register array) of the maps. -/
inductive RegId where
  | BOOT_TILE_FUSE | BOOT_PART | TIL_CLK_CTL | TIL_CLK_STAT | DOM_LOCKCTL | DOM_LOCKLOG_SIZE | DOM_LOCKLOG_BASE
  | DOM_LOCKLOG_SEQ | DOM_LOCKMISS | DOM_LOCKLATE | DOM_LOCKCLR | DOM_S2ROOT | TIL_LLC_CLASS | TIL_HOME_STAT
  | TIL_HOME_EPOCH | TIL_DIR_STALE | TIL_DIR_COARSE | TIL_DIR_EVICT | TIL_DIR_RETRY | TIL_HOME_BP | TIL_HOME_LATE
  | TIL_HOME_CLR | TIL_HOME_ERR | TIL_RTR_PORT_EN | TIL_RTR_STAT | TIL_RTR_CORR | TIL_RTR_CLR | TIL_NI_STAT
  | TIL_NI_CTL | PWR_MESHQ | PWR_MESHQ_TIME | PWR_MESHQ_BAD | MEM_STAT | MEM_TRAIN_CTL | MEM_TRAIN_DEFER
  | MEM_TRAIN_STAT | MEM_TRAIN_COUNT | MEM_PASR_CTL | MEM_SEG_REFUSED | MEM_FORAGE_CTL | MEM_FORAGE_STEP
  | MEM_FORAGE_POS | MEM_FORAGE_PASS | MEM_SCRUB_RANGE | MEM_CE_TOTAL | MEM_CE_BUCKET | MEM_CE_CTL | MEM_CE_LAST
  | MEM_UE_TOTAL | MEM_UE_LAST | MEM_POISON_RD | MEM_RMW | MEM_RDIST_CTL | MEM_RDIST_COUNT | MEM_RDIST_LAST
  | MEM_RDIST_OVF | MEM_CLR | HIV_KSTAT | HIV_KSTOP_PC | HIV_KCTL | HIV_KMOD_ADDR | HIV_KMOD_CMD | HIV_KMOD_STAT
  | CUF_STAT | CUF_MISM_SYN | CUF_MISM_PC | CUF_MISM_TIME | CUF_CTL | CUF_HTO | CUF_TEST | CUF_MISMATCHES
  | CUF_CFAULTS | CUF_XRETRY | CUF_HOCYC | DOM_STATE | DOM_CFG | DOM_CTXBASE | DOM_MEMHELD | DOM_LATTOL | DOM_TILES
  | DOM_FABEP | DOM_EVCOUNT | DOM_MTRSEQ | MTR_TIME | MTR_CTL | MTR_PERIOD | MTR_BANDS | MTR_RING_BASE
  | MTR_RING_SIZE | MTR_RING_HEAD | MTR_RING_TAIL | MTR_STAT | MTR_KEYINFO | MTR_PERIOD_START | EVT_CFG | EVT_OWN
  | EVT_STAT | EVT_MERGE | EVT_DESIG | EVT_TPG | EVT_DPEND | EVT_TRIG | EVT_ERR | HEP_STAT | HEP_CTO | HEP_TAGS
  | HEP_TMO | HEP_LATE | HEP_INB_DROP | HEP_INB_UR | HEP_BAR0_BAD | HEP_POISON_RD | HEP_OUT_ERR | HEP_CLR
  | HEP_LASTERR | DVSEC_HDR | DVSEC_HDR1 | DVSEC_HDR2 | HEP_DV_STAT | HEP_DV_CTL | HEP_DV_UR | HEP_DV_DROP
  | HEP_DV_OUTERR | HEP_DV_TIME | HEP_DV_DEV | CMD_RING_BASE | CMD_CQ_BASE | CMD_RING_CFG | CMD_RING_DB
  | CMD_RING_CONS | CMD_CQ_HEAD | CMD_CQ_TAIL | CMD_RING_STAT | CMD_RING_CTL | CMD_STAT | CMD_MONEV | CMD_MONTO
  | CMD_LOST | CMD_CLR | CMD_MONREQ | CMD_MONSEQ | CMD_MONACK | TR_DB | TR_CONS | TR_HEAD | TR_TAIL | TR_STAT
  | TR_CTL | CMP_STAT | CMP_IN | CMP_OUT | CMP_JOBS | CMP_CLR | CMP_TR_BASE | CMP_TR_CQ | CMP_TR_CFG | SQ_DB
  | SQ_CONS | SQ_DONE | SQ_STAT | SQ_CTL | FAB_DEVNUM | FAB_RTO | FAB_HOLD | FAB_TAGS | FAB_TMO | FAB_LATE
  | FAB_RUNAV | FAB_POSTERR | FAB_INBREF | FAB_BADPKT | FAB_CLR | FAB_RT_IDX | FAB_RT_DATA | FAB_EP | FAB_EP2
  | FAB_RWIN | FAB_RWIN2 | FAB_SQ_BASE | FAB_SQ_CFG | FAB_PORT_STAT | FAB_PORT_CTL | FAB_PORT_CRC | FAB_PORT_REPLAY
  | FAB_PORT_DROP | FAB_PORT_DOWNS | FAB_PORT_TXF | FAB_PORT_RXF | FAB_PORT_CLR | TIL_PWR_STAT | TIL_PWR_SVC
  | TIL_PWR_WAKES | PWR_HGEN | PWR_HPREP | PWR_HCAP | PWR_HLAST | PWR_HREF | PWR_HABT | PWR_HCLR | PWR_GEN
  | PWR_MODE_STAT | PWR_MODE_APPLIED | PWR_MODE_READY | PWR_MODE_WHY | PWR_MODE_TIME | PWR_LAST | PWR_REF | PWR_ABT
  | PWR_CLR | PMC_CORE_CTL | PMC_TILE_CTL | PMC_SLICE_CTL | PMC_CHAN_CTL | PMC_PORT_CTL | PMC_CORE_OWN | PMC_TILE_OWN
  | PMC_SLICE_OWN | PMC_CHAN_OWN | PMC_PORT_OWN | PMC_CORE_VALUE | PMC_TILE_VALUE | PMC_SLICE_VALUE | PMC_CHAN_VALUE
  | PMC_PORT_VALUE | PMC_GCTL | PMC_GSTAT | ER_STAT | ER_PCOUNT | ER_SEQ | ER_LOST | ER_PREFUSED | ER_FLUSHINFO
  | ER_OPHOURS | ER_OPSEC | ER_PCYCLE | ER_CURSOR | ER_CLR | ER_CSTAT | ER_WINDOW | BOOT_STAT | BOOT_CHFAIL
  | BOOT_STRAP | BOOT_RSTCAUSE | BOOT_CTL | BOOT_MON | BOOT_MS | SEC_STAT | SEC_SLOT | SEC_ROLL | SEC_ENROLL_DATA
  | SEC_ENROLL | SEC_KEYROLL | PWR_TEMP | PWR_LIMSTAT | PWR_PWRLIM | PWR_IMAIN | HEP_IWIN | HEP_OWIN | MEM_NI_STAT
  | MEM_NI_CTL | HEP_NI_STAT | HEP_NI_CTL | FAB_NI_STAT | FAB_NI_CTL | TIL_RT | MEM_RT | HEP_RT | FAB_RTE
  deriving DecidableEq, Repr

/-- One register of a map: its block, its offset in the block, its width in bytes, and its two array strides and counts. -/
structure RegRow where
  id    : RegId
  blk   : Blk
  off   : Nat
  bytes : Nat
  s1    : Nat
  c1    : Nat
  s2    : Nat
  c2    : Nat
  flds  : Nat → Nat → Nat → List Fld

open R in
/-- The register maps, part 0. -/
def regRows0 : List RegRow :=
  [ ⟨.BOOT_TILE_FUSE, .boot, 0x100, 4, 0x4, 8, 0x0, 1, fun _ i _ => [BOOT_TILE_FUSE_DIS i]⟩
  , ⟨.BOOT_PART, .boot, 0x120, 4, 0x0, 1, 0x0, 1, fun _ _ _ => [BOOT_PART_CODE, BOOT_PART_TILES, BOOT_PART_CORES]⟩
  , ⟨.TIL_CLK_CTL, .tile, 0x3000, 4, 0x0, 1, 0x0, 1, fun n _ _ => [TIL_CLK_CTL_TARGET n]⟩
  , ⟨.TIL_CLK_STAT, .tile, 0x3004, 4, 0x0, 1, 0x0, 1, fun n _ _ => [TIL_CLK_STAT_CUR n, TIL_CLK_STAT_BUSY n, TIL_CLK_STAT_LIMIT n, TIL_CLK_STAT_BADCODE n]⟩
  , ⟨.DOM_LOCKCTL, .dom, 0x40, 4, 0x80, 4096, 0x0, 1, fun _ i _ => [DOM_LOCKCTL_CHK_U i, DOM_LOCKCTL_CHK_S i, DOM_LOCKCTL_CHK_M i, DOM_LOCKCTL_KEY0_U i, DOM_LOCKCTL_KEY0_S i, DOM_LOCKCTL_KEY0_M i, DOM_LOCKCTL_LOG_EN i, DOM_LOCKCTL_EVT_EN i, DOM_LOCKCTL_EVT i]⟩
  , ⟨.DOM_LOCKLOG_SIZE, .dom, 0x44, 4, 0x80, 4096, 0x0, 1, fun _ i _ => [DOM_LOCKLOG_SIZE_LOG2N i]⟩
  , ⟨.DOM_LOCKLOG_BASE, .dom, 0x48, 8, 0x80, 4096, 0x0, 1, fun _ i _ => [DOM_LOCKLOG_BASE_BASE i]⟩
  , ⟨.DOM_LOCKLOG_SEQ, .dom, 0x50, 4, 0x80, 4096, 0x0, 1, fun _ i _ => [DOM_LOCKLOG_SEQ_SEQ i]⟩
  , ⟨.DOM_LOCKMISS, .dom, 0x54, 4, 0x80, 4096, 0x0, 1, fun _ i _ => [DOM_LOCKMISS_COUNT i]⟩
  , ⟨.DOM_LOCKLATE, .dom, 0x58, 4, 0x80, 4096, 0x0, 1, fun _ i _ => [DOM_LOCKLATE_COUNT i]⟩
  , ⟨.DOM_LOCKCLR, .dom, 0x5c, 4, 0x80, 4096, 0x0, 1, fun _ i _ => [DOM_LOCKCLR_CLR i]⟩
  , ⟨.DOM_S2ROOT, .dom, 0x8, 8, 0x80, 4096, 0x0, 1, fun _ i _ => [DOM_S2ROOT_V i, DOM_S2ROOT_BASE i]⟩
  , ⟨.TIL_LLC_CLASS, .tile, 0x4000, 4, 0x4, 16, 0x0, 1, fun n i _ => [TIL_LLC_CLASS_WAYS n i]⟩
  , ⟨.TIL_HOME_STAT, .tile, 0x4040, 4, 0x0, 1, 0x0, 1, fun n _ _ => [TIL_HOME_STAT_READY n, TIL_HOME_STAT_TXN n, TIL_HOME_STAT_RETRY n, TIL_HOME_STAT_PEND n]⟩
  , ⟨.TIL_HOME_EPOCH, .tile, 0x4044, 4, 0x0, 1, 0x0, 1, fun n _ _ => [TIL_HOME_EPOCH_EPOCH n]⟩
  , ⟨.TIL_DIR_STALE, .tile, 0x4048, 8, 0x0, 1, 0x0, 1, fun n _ _ => [TIL_DIR_STALE_COUNT n]⟩
  , ⟨.TIL_DIR_COARSE, .tile, 0x4050, 8, 0x0, 1, 0x0, 1, fun n _ _ => [TIL_DIR_COARSE_COUNT n]⟩
  , ⟨.TIL_DIR_EVICT, .tile, 0x4058, 8, 0x0, 1, 0x0, 1, fun n _ _ => [TIL_DIR_EVICT_COUNT n]⟩
  , ⟨.TIL_DIR_RETRY, .tile, 0x4060, 8, 0x0, 1, 0x0, 1, fun n _ _ => [TIL_DIR_RETRY_COUNT n]⟩
  , ⟨.TIL_HOME_BP, .tile, 0x4068, 8, 0x0, 1, 0x0, 1, fun n _ _ => [TIL_HOME_BP_COUNT n]⟩
  , ⟨.TIL_HOME_LATE, .tile, 0x4070, 8, 0x0, 1, 0x0, 1, fun n _ _ => [TIL_HOME_LATE_COUNT n]⟩
  , ⟨.TIL_HOME_CLR, .tile, 0x4078, 4, 0x0, 1, 0x0, 1, fun n _ _ => [TIL_HOME_CLR_CLR n]⟩
  , ⟨.TIL_HOME_ERR, .tile, 0x4080, 8, 0x0, 1, 0x0, 1, fun n _ _ => [TIL_HOME_ERR_KIND n, TIL_HOME_ERR_LINE n]⟩
  , ⟨.TIL_RTR_PORT_EN, .tile, 0x5000, 4, 0x0, 1, 0x0, 1, fun n _ _ => [TIL_RTR_PORT_EN_EN n]⟩
  , ⟨.TIL_RTR_STAT, .tile, 0x5004, 4, 0x0, 1, 0x0, 1, fun n _ _ => [TIL_RTR_STAT_ACTIVE n, TIL_RTR_STAT_WERR n]⟩
  , ⟨.TIL_RTR_CORR, .tile, 0x5008, 4, 0x0, 1, 0x0, 1, fun n _ _ => [TIL_RTR_CORR_COUNT n]⟩
  , ⟨.TIL_RTR_CLR, .tile, 0x500c, 4, 0x0, 1, 0x0, 1, fun n _ _ => [TIL_RTR_CLR_CLR n]⟩
  , ⟨.TIL_NI_STAT, .tile, 0x5010, 4, 0x0, 1, 0x0, 1, fun n _ _ => [TIL_NI_STAT_BADRTE n, TIL_NI_STAT_BADIDX n, TIL_NI_STAT_WHY n]⟩
  , ⟨.TIL_NI_CTL, .tile, 0x5014, 4, 0x0, 1, 0x0, 1, fun n _ _ => [TIL_NI_CTL_DEFAULT n]⟩
  , ⟨.PWR_MESHQ, .pwr, 0x400, 4, 0x0, 1, 0x0, 1, fun _ _ _ => [PWR_MESHQ_STATE]⟩ ]

open R in
/-- The register maps, part 1. -/
def regRows1 : List RegRow :=
  [ ⟨.PWR_MESHQ_TIME, .pwr, 0x404, 4, 0x0, 1, 0x0, 1, fun _ _ _ => [PWR_MESHQ_TIME_US]⟩
  , ⟨.PWR_MESHQ_BAD, .pwr, 0x408, 4, 0x0, 1, 0x0, 1, fun _ _ _ => [PWR_MESHQ_BAD_NI, PWR_MESHQ_BAD_IDX, PWR_MESHQ_BAD_WHY]⟩
  , ⟨.MEM_STAT, .mem, 0x0, 4, 0x0, 1, 0x0, 1, fun n _ _ => [MEM_STAT_TRAINED n, MEM_STAT_FAILED n, MEM_STAT_PAUSED n, MEM_STAT_SREF n, MEM_STAT_SRWAKE n]⟩
  , ⟨.MEM_TRAIN_CTL, .mem, 0x4, 4, 0x0, 1, 0x0, 1, fun n _ _ => [MEM_TRAIN_CTL_INTERVAL n]⟩
  , ⟨.MEM_TRAIN_DEFER, .mem, 0x8, 4, 0x0, 1, 0x0, 1, fun n _ _ => [MEM_TRAIN_DEFER_US n]⟩
  , ⟨.MEM_TRAIN_STAT, .mem, 0xc, 4, 0x0, 1, 0x0, 1, fun n _ _ => [MEM_TRAIN_STAT_LAST_NS n, MEM_TRAIN_STAT_FAILS n, MEM_TRAIN_STAT_DEFERRED n, MEM_TRAIN_STAT_CAPPED n, MEM_TRAIN_STAT_BADVAL n]⟩
  , ⟨.MEM_TRAIN_COUNT, .mem, 0x10, 4, 0x0, 1, 0x0, 1, fun n _ _ => [MEM_TRAIN_COUNT_COUNT n]⟩
  , ⟨.MEM_PASR_CTL, .mem, 0x20, 4, 0x0, 1, 0x0, 1, fun n _ _ => [MEM_PASR_CTL_KEEP n, MEM_PASR_CTL_FSKIP n]⟩
  , ⟨.MEM_SEG_REFUSED, .mem, 0x24, 4, 0x0, 1, 0x0, 1, fun n _ _ => [MEM_SEG_REFUSED_COUNT n]⟩
  , ⟨.MEM_FORAGE_CTL, .mem, 0x30, 4, 0x0, 1, 0x0, 1, fun n _ _ => [MEM_FORAGE_CTL_EN n]⟩
  , ⟨.MEM_FORAGE_STEP, .mem, 0x34, 4, 0x0, 1, 0x0, 1, fun n _ _ => [MEM_FORAGE_STEP_NS n]⟩
  , ⟨.MEM_FORAGE_POS, .mem, 0x38, 4, 0x0, 1, 0x0, 1, fun n _ _ => [MEM_FORAGE_POS_Q n]⟩
  , ⟨.MEM_FORAGE_PASS, .mem, 0x3c, 4, 0x0, 1, 0x0, 1, fun n _ _ => [MEM_FORAGE_PASS_COUNT n]⟩
  , ⟨.MEM_SCRUB_RANGE, .mem, 0x40, 8, 0x8, 8, 0x0, 1, fun n i _ => [MEM_SCRUB_RANGE_FIRST n i, MEM_SCRUB_RANGE_LAST n i, MEM_SCRUB_RANGE_V n i]⟩
  , ⟨.MEM_CE_TOTAL, .mem, 0x80, 4, 0x0, 1, 0x0, 1, fun n _ _ => [MEM_CE_TOTAL_COUNT n]⟩
  , ⟨.MEM_CE_BUCKET, .mem, 0x84, 4, 0x0, 1, 0x0, 1, fun n _ _ => [MEM_CE_BUCKET_COUNT n, MEM_CE_BUCKET_ARMED n]⟩
  , ⟨.MEM_CE_CTL, .mem, 0x88, 4, 0x0, 1, 0x0, 1, fun n _ _ => [MEM_CE_CTL_THRESH n, MEM_CE_CTL_LEAK_MS n]⟩
  , ⟨.MEM_CE_LAST, .mem, 0x90, 8, 0x0, 1, 0x0, 1, fun n _ _ => [MEM_CE_LAST_CW n, MEM_CE_LAST_Q n, MEM_CE_LAST_SRC n, MEM_CE_LAST_TWO n]⟩
  , ⟨.MEM_UE_TOTAL, .mem, 0x98, 4, 0x0, 1, 0x0, 1, fun n _ _ => [MEM_UE_TOTAL_COUNT n]⟩
  , ⟨.MEM_UE_LAST, .mem, 0xa0, 8, 0x0, 1, 0x0, 1, fun n _ _ => [MEM_UE_LAST_CW n, MEM_UE_LAST_Q n, MEM_UE_LAST_SRC n]⟩
  , ⟨.MEM_POISON_RD, .mem, 0xa8, 4, 0x0, 1, 0x0, 1, fun n _ _ => [MEM_POISON_RD_COUNT n]⟩
  , ⟨.MEM_RMW, .mem, 0xac, 4, 0x0, 1, 0x0, 1, fun n _ _ => [MEM_RMW_COUNT n]⟩
  , ⟨.MEM_RDIST_CTL, .mem, 0xc0, 4, 0x0, 1, 0x0, 1, fun n _ _ => [MEM_RDIST_CTL_THRESH n, MEM_RDIST_CTL_THR_US n, MEM_RDIST_CTL_SPACE n]⟩
  , ⟨.MEM_RDIST_COUNT, .mem, 0xc4, 4, 0x0, 1, 0x0, 1, fun n _ _ => [MEM_RDIST_COUNT_COUNT n]⟩
  , ⟨.MEM_RDIST_LAST, .mem, 0xc8, 4, 0x0, 1, 0x0, 1, fun n _ _ => [MEM_RDIST_LAST_BANK n, MEM_RDIST_LAST_GROUP n, MEM_RDIST_LAST_DOM n, MEM_RDIST_LAST_SECOND n, MEM_RDIST_LAST_NONE n]⟩
  , ⟨.MEM_RDIST_OVF, .mem, 0xcc, 4, 0x0, 1, 0x0, 1, fun n _ _ => [MEM_RDIST_OVF_COUNT n]⟩
  , ⟨.MEM_CLR, .mem, 0xd0, 4, 0x0, 1, 0x0, 1, fun n _ _ => [MEM_CLR_COUNTERS n, MEM_CLR_BUCKET n]⟩
  , ⟨.HIV_KSTAT, .hive, 0x0, 4, 0x0, 1, 0x0, 1, fun n _ _ => [HIV_KSTAT_STATE n]⟩
  , ⟨.HIV_KSTOP_PC, .hive, 0x8, 8, 0x0, 1, 0x0, 1, fun n _ _ => [HIV_KSTOP_PC_PC n]⟩
  , ⟨.HIV_KCTL, .hive, 0x10, 4, 0x0, 1, 0x0, 1, fun n _ _ => [HIV_KCTL_RESTART n]⟩ ]

open R in
/-- The register maps, part 2. -/
def regRows2 : List RegRow :=
  [ ⟨.HIV_KMOD_ADDR, .hive, 0x20, 8, 0x0, 1, 0x0, 1, fun n _ _ => [HIV_KMOD_ADDR_ADDR n]⟩
  , ⟨.HIV_KMOD_CMD, .hive, 0x28, 4, 0x0, 1, 0x0, 1, fun n _ _ => [HIV_KMOD_CMD_OP n]⟩
  , ⟨.HIV_KMOD_STAT, .hive, 0x2c, 4, 0x0, 1, 0x0, 1, fun n _ _ => [HIV_KMOD_STAT_STATUS n]⟩
  , ⟨.CUF_STAT, .tile, 0x8000, 4, 0x0, 1, 0x0, 1, fun n _ _ => [CUF_STAT_PAIR n, CUF_STAT_HANDOVER n, CUF_STAT_STOPPED n, CUF_STAT_TESTFAIL n, CUF_STAT_KIND n, CUF_STAT_GROUP n, CUF_STAT_WERR n]⟩
  , ⟨.CUF_MISM_SYN, .tile, 0x8008, 8, 0x0, 1, 0x0, 1, fun n _ _ => [CUF_MISM_SYN_SYN n]⟩
  , ⟨.CUF_MISM_PC, .tile, 0x8010, 8, 0x0, 1, 0x0, 1, fun n _ _ => [CUF_MISM_PC_PC n]⟩
  , ⟨.CUF_MISM_TIME, .tile, 0x8018, 8, 0x0, 1, 0x0, 1, fun n _ _ => [CUF_MISM_TIME_NS n]⟩
  , ⟨.CUF_CTL, .tile, 0x8020, 4, 0x0, 1, 0x0, 1, fun n _ _ => [CUF_CTL_REARM n]⟩
  , ⟨.CUF_HTO, .tile, 0x8024, 4, 0x0, 1, 0x0, 1, fun n _ _ => [CUF_HTO_US n]⟩
  , ⟨.CUF_TEST, .tile, 0x8028, 4, 0x0, 1, 0x0, 1, fun n _ _ => [CUF_TEST_GPASS n, CUF_TEST_CFPASS n]⟩
  , ⟨.CUF_MISMATCHES, .tile, 0x8030, 4, 0x0, 1, 0x0, 1, fun n _ _ => [CUF_MISMATCHES_COUNT n]⟩
  , ⟨.CUF_CFAULTS, .tile, 0x8034, 4, 0x0, 1, 0x0, 1, fun n _ _ => [CUF_CFAULTS_COUNT n]⟩
  , ⟨.CUF_XRETRY, .tile, 0x8038, 4, 0x0, 1, 0x0, 1, fun n _ _ => [CUF_XRETRY_COUNT n]⟩
  , ⟨.CUF_HOCYC, .tile, 0x803c, 4, 0x0, 1, 0x0, 1, fun n _ _ => [CUF_HOCYC_CYC n]⟩
  , ⟨.DOM_STATE, .dom, 0x0, 4, 0x80, 4096, 0x0, 1, fun _ i _ => [DOM_STATE_STATE i, DOM_STATE_NRUN i, DOM_STATE_NSET i, DOM_STATE_BUSY i]⟩
  , ⟨.DOM_CFG, .dom, 0x4, 4, 0x80, 4096, 0x0, 1, fun _ i _ => [DOM_CFG_LLC_CLASS i, DOM_CFG_DBG i, DOM_CFG_GLOBAL_EN i]⟩
  , ⟨.DOM_CTXBASE, .dom, 0x10, 8, 0x80, 4096, 0x0, 1, fun _ i _ => [DOM_CTXBASE_BASE i]⟩
  , ⟨.DOM_MEMHELD, .dom, 0x18, 4, 0x80, 4096, 0x0, 1, fun _ i _ => [DOM_MEMHELD_PAGES i]⟩
  , ⟨.DOM_LATTOL, .dom, 0x1c, 4, 0x80, 4096, 0x0, 1, fun _ i _ => [DOM_LATTOL_NS i]⟩
  , ⟨.DOM_TILES, .dom, 0x20, 4, 0x80, 4096, 0x4, 8, fun _ i j => [DOM_TILES_SET i j]⟩
  , ⟨.DOM_FABEP, .dom, 0x60, 4, 0x80, 4096, 0x0, 1, fun _ i _ => [DOM_FABEP_FIRST i, DOM_FABEP_COUNT i]⟩
  , ⟨.DOM_EVCOUNT, .dom, 0x64, 4, 0x80, 4096, 0x0, 1, fun _ i _ => [DOM_EVCOUNT_COUNT i]⟩
  , ⟨.DOM_MTRSEQ, .dom, 0x68, 4, 0x80, 4096, 0x0, 1, fun _ i _ => [DOM_MTRSEQ_SEQ i]⟩
  , ⟨.MTR_TIME, .mtr, 0x0, 8, 0x0, 1, 0x0, 1, fun _ _ _ => [MTR_TIME_NS]⟩
  , ⟨.MTR_CTL, .mtr, 0x8, 4, 0x0, 1, 0x0, 1, fun _ _ _ => [MTR_CTL_EN]⟩
  , ⟨.MTR_PERIOD, .mtr, 0xc, 4, 0x0, 1, 0x0, 1, fun _ _ _ => [MTR_PERIOD_SEC]⟩
  , ⟨.MTR_BANDS, .mtr, 0x10, 4, 0x0, 1, 0x0, 1, fun _ _ _ => [MTR_BANDS_B1, MTR_BANDS_B2, MTR_BANDS_B3]⟩
  , ⟨.MTR_RING_BASE, .mtr, 0x18, 8, 0x0, 1, 0x0, 1, fun _ _ _ => [MTR_RING_BASE_BASE]⟩
  , ⟨.MTR_RING_SIZE, .mtr, 0x20, 4, 0x0, 1, 0x0, 1, fun _ _ _ => [MTR_RING_SIZE_LOG2N]⟩
  , ⟨.MTR_RING_HEAD, .mtr, 0x24, 4, 0x0, 1, 0x0, 1, fun _ _ _ => [MTR_RING_HEAD_HEAD]⟩ ]

open R in
/-- The register maps, part 3. -/
def regRows3 : List RegRow :=
  [ ⟨.MTR_RING_TAIL, .mtr, 0x28, 4, 0x0, 1, 0x0, 1, fun _ _ _ => [MTR_RING_TAIL_TAIL]⟩
  , ⟨.MTR_STAT, .mtr, 0x2c, 4, 0x0, 1, 0x0, 1, fun _ _ _ => [MTR_STAT_BACKLOG, MTR_STAT_MERGING, MTR_STAT_BADVAL, MTR_STAT_HOSTERR]⟩
  , ⟨.MTR_KEYINFO, .mtr, 0x30, 4, 0x0, 1, 0x0, 1, fun _ _ _ => [MTR_KEYINFO_KEYGEN]⟩
  , ⟨.MTR_PERIOD_START, .mtr, 0x38, 8, 0x0, 1, 0x0, 1, fun _ _ _ => [MTR_PERIOD_START_NS]⟩
  , ⟨.EVT_CFG, .evt, 0x0, 4, 0x10, 8192, 0x0, 1, fun _ i _ => [EVT_CFG_EN i, EVT_CFG_TKIND i, EVT_CFG_RMT i, EVT_CFG_PRI i, EVT_CFG_TARGET i]⟩
  , ⟨.EVT_OWN, .evt, 0x4, 4, 0x10, 8192, 0x0, 1, fun _ i _ => [EVT_OWN_OWNER i]⟩
  , ⟨.EVT_STAT, .evt, 0x8, 4, 0x10, 8192, 0x0, 1, fun _ i _ => [EVT_STAT_PEND i, EVT_STAT_ACTIVE i, EVT_STAT_HELD i, EVT_STAT_CLRP i, EVT_STAT_CAUSE i, EVT_STAT_HOLDER i]⟩
  , ⟨.EVT_MERGE, .evt, 0xc, 4, 0x10, 8192, 0x0, 1, fun _ i _ => [EVT_MERGE_COUNT i]⟩
  , ⟨.EVT_DESIG, .evt, 0x20000, 4, 0x4, 4096, 0x0, 1, fun _ i _ => [EVT_DESIG_CORE i, EVT_DESIG_V i]⟩
  , ⟨.EVT_TPG, .evt, 0x30000, 4, 0x4, 2048, 0x0, 1, fun _ i _ => [EVT_TPG_OWNER i, EVT_TPG_BAD i]⟩
  , ⟨.EVT_DPEND, .evt, 0x40000, 4, 0x4, 128, 0x0, 1, fun _ i _ => [EVT_DPEND_DOM i]⟩
  , ⟨.EVT_TRIG, .evt, 0x50000, 4, 0x0, 1, 0x0, 1, fun _ _ _ => [EVT_TRIG_SRC]⟩
  , ⟨.EVT_ERR, .evt, 0x50004, 4, 0x0, 1, 0x0, 1, fun _ _ _ => [EVT_ERR_BADTGT, EVT_ERR_BADTRIG, EVT_ERR_SRC]⟩
  , ⟨.HEP_STAT, .hep, 0x0, 4, 0x0, 1, 0x0, 1, fun _ _ _ => [HEP_STAT_LINKUP, HEP_STAT_SPEED, HEP_STAT_WIDTH, HEP_STAT_BME, HEP_STAT_CONT, HEP_STAT_FLR, HEP_STAT_BADWIN, HEP_STAT_D3]⟩
  , ⟨.HEP_CTO, .hep, 0x4, 4, 0x0, 1, 0x0, 1, fun _ _ _ => [HEP_CTO_US]⟩
  , ⟨.HEP_TAGS, .hep, 0x8, 4, 0x0, 1, 0x0, 1, fun _ _ _ => [HEP_TAGS_INUSE, HEP_TAGS_QUAR]⟩
  , ⟨.HEP_TMO, .hep, 0x10, 4, 0x0, 1, 0x0, 1, fun _ _ _ => [HEP_TMO_COUNT]⟩
  , ⟨.HEP_LATE, .hep, 0x14, 4, 0x0, 1, 0x0, 1, fun _ _ _ => [HEP_LATE_COUNT]⟩
  , ⟨.HEP_INB_DROP, .hep, 0x18, 4, 0x0, 1, 0x0, 1, fun _ _ _ => [HEP_INB_DROP_COUNT]⟩
  , ⟨.HEP_INB_UR, .hep, 0x1c, 4, 0x0, 1, 0x0, 1, fun _ _ _ => [HEP_INB_UR_COUNT]⟩
  , ⟨.HEP_BAR0_BAD, .hep, 0x20, 4, 0x0, 1, 0x0, 1, fun _ _ _ => [HEP_BAR0_BAD_COUNT]⟩
  , ⟨.HEP_POISON_RD, .hep, 0x24, 4, 0x0, 1, 0x0, 1, fun _ _ _ => [HEP_POISON_RD_COUNT]⟩
  , ⟨.HEP_OUT_ERR, .hep, 0x28, 4, 0x0, 1, 0x0, 1, fun _ _ _ => [HEP_OUT_ERR_COUNT]⟩
  , ⟨.HEP_CLR, .hep, 0x2c, 4, 0x0, 1, 0x0, 1, fun _ _ _ => [HEP_CLR_CLR]⟩
  , ⟨.HEP_LASTERR, .hep, 0x30, 4, 0x0, 1, 0x0, 1, fun _ _ _ => [HEP_LASTERR_KIND, HEP_LASTERR_WINDOW, HEP_LASTERR_WRITE]⟩
  , ⟨.DVSEC_HDR, .cfg, 0x400, 4, 0x0, 1, 0x0, 1, fun _ _ _ => [DVSEC_HDR_ID, DVSEC_HDR_VER, DVSEC_HDR_NEXT]⟩
  , ⟨.DVSEC_HDR1, .cfg, 0x404, 4, 0x0, 1, 0x0, 1, fun _ _ _ => [DVSEC_HDR1_VENDOR, DVSEC_HDR1_REV, DVSEC_HDR1_LEN]⟩
  , ⟨.DVSEC_HDR2, .cfg, 0x408, 4, 0x0, 1, 0x0, 1, fun _ _ _ => [DVSEC_HDR2_DVSEC_ID]⟩
  , ⟨.HEP_DV_STAT, .cfg, 0x40c, 4, 0x0, 1, 0x0, 1, fun _ _ _ => [HEP_DV_STAT_STATE, HEP_DV_STAT_LINKUP, HEP_DV_STAT_CAUSE, HEP_DV_STAT_RELERR, HEP_DV_STAT_COUNT]⟩
  , ⟨.HEP_DV_CTL, .cfg, 0x410, 4, 0x0, 1, 0x0, 1, fun _ _ _ => [HEP_DV_CTL_RELEASE]⟩ ]

open R in
/-- The register maps, part 4. -/
def regRows4 : List RegRow :=
  [ ⟨.HEP_DV_UR, .cfg, 0x414, 4, 0x0, 1, 0x0, 1, fun _ _ _ => [HEP_DV_UR_COUNT]⟩
  , ⟨.HEP_DV_DROP, .cfg, 0x418, 4, 0x0, 1, 0x0, 1, fun _ _ _ => [HEP_DV_DROP_COUNT]⟩
  , ⟨.HEP_DV_OUTERR, .cfg, 0x41c, 4, 0x0, 1, 0x0, 1, fun _ _ _ => [HEP_DV_OUTERR_COUNT]⟩
  , ⟨.HEP_DV_TIME, .cfg, 0x420, 8, 0x0, 1, 0x0, 1, fun _ _ _ => [HEP_DV_TIME_NS]⟩
  , ⟨.HEP_DV_DEV, .cfg, 0x428, 4, 0x0, 1, 0x0, 1, fun _ _ _ => [HEP_DV_DEV_FATAL, HEP_DV_DEV_RUNDOM]⟩
  , ⟨.CMD_RING_BASE, .cmd, 0x1000, 8, 0x40, 64, 0x0, 1, fun _ i _ => [CMD_RING_BASE_BASE i]⟩
  , ⟨.CMD_CQ_BASE, .cmd, 0x1008, 8, 0x40, 64, 0x0, 1, fun _ i _ => [CMD_CQ_BASE_BASE i]⟩
  , ⟨.CMD_RING_CFG, .cmd, 0x1010, 4, 0x40, 64, 0x0, 1, fun _ i _ => [CMD_RING_CFG_LOG2N i, CMD_RING_CFG_EN i]⟩
  , ⟨.CMD_RING_DB, .cmd, 0x1014, 4, 0x40, 64, 0x0, 1, fun _ i _ => [CMD_RING_DB_PROD i]⟩
  , ⟨.CMD_RING_CONS, .cmd, 0x1018, 4, 0x40, 64, 0x0, 1, fun _ i _ => [CMD_RING_CONS_CONS i]⟩
  , ⟨.CMD_CQ_HEAD, .cmd, 0x101c, 4, 0x40, 64, 0x0, 1, fun _ i _ => [CMD_CQ_HEAD_HEAD i]⟩
  , ⟨.CMD_CQ_TAIL, .cmd, 0x1020, 4, 0x40, 64, 0x0, 1, fun _ i _ => [CMD_CQ_TAIL_TAIL i]⟩
  , ⟨.CMD_RING_STAT, .cmd, 0x1024, 4, 0x40, 64, 0x0, 1, fun _ i _ => [CMD_RING_STAT_STATE i, CMD_RING_STAT_ERR i, CMD_RING_STAT_BADDB i, CMD_RING_STAT_BADCFG i, CMD_RING_STAT_HOLD i, CMD_RING_STAT_BUSY i]⟩
  , ⟨.CMD_RING_CTL, .cmd, 0x1028, 4, 0x40, 64, 0x0, 1, fun _ i _ => [CMD_RING_CTL_RESTART i]⟩
  , ⟨.CMD_STAT, .cmd, 0x0, 4, 0x0, 1, 0x0, 1, fun _ _ _ => [CMD_STAT_READY, CMD_STAT_ACTIVE]⟩
  , ⟨.CMD_MONEV, .cmd, 0x4, 4, 0x0, 1, 0x0, 1, fun _ _ _ => [CMD_MONEV_BASE, CMD_MONEV_V]⟩
  , ⟨.CMD_MONTO, .cmd, 0x8, 4, 0x0, 1, 0x0, 1, fun _ _ _ => [CMD_MONTO_US]⟩
  , ⟨.CMD_LOST, .cmd, 0xc, 4, 0x0, 1, 0x0, 1, fun _ _ _ => [CMD_LOST_COUNT]⟩
  , ⟨.CMD_CLR, .cmd, 0x10, 4, 0x0, 1, 0x0, 1, fun _ _ _ => [CMD_CLR_CLR]⟩
  , ⟨.CMD_MONREQ, .cmd, 0x8000, 8, 0x10, 512, 0x0, 1, fun _ i _ => [CMD_MONREQ_LOG2SZ i, CMD_MONREQ_DPA i, CMD_MONREQ_DOMAIN i]⟩
  , ⟨.CMD_MONSEQ, .cmd, 0x8008, 4, 0x10, 512, 0x0, 1, fun _ i _ => [CMD_MONSEQ_SEQ i]⟩
  , ⟨.CMD_MONACK, .cmd, 0x800c, 4, 0x10, 512, 0x0, 1, fun _ i _ => [CMD_MONACK_SEQ i]⟩
  , ⟨.TR_DB, .hive, 0x80000, 4, 0x1000, 64, 0x0, 1, fun n i _ => [TR_DB_PROD n i]⟩
  , ⟨.TR_CONS, .hive, 0x80004, 4, 0x1000, 64, 0x0, 1, fun n i _ => [TR_CONS_CONS n i]⟩
  , ⟨.TR_HEAD, .hive, 0x80008, 4, 0x1000, 64, 0x0, 1, fun n i _ => [TR_HEAD_HEAD n i]⟩
  , ⟨.TR_TAIL, .hive, 0x8000c, 4, 0x1000, 64, 0x0, 1, fun n i _ => [TR_TAIL_TAIL n i]⟩
  , ⟨.TR_STAT, .hive, 0x80010, 4, 0x1000, 64, 0x0, 1, fun n i _ => [TR_STAT_STATE n i, TR_STAT_ERR n i]⟩
  , ⟨.TR_CTL, .hive, 0x80014, 4, 0x1000, 64, 0x0, 1, fun n i _ => [TR_CTL_RESTART n i]⟩
  , ⟨.CMP_STAT, .hive, 0x10000, 4, 0x0, 1, 0x0, 1, fun n _ _ => [CMP_STAT_BUSY n, CMP_STAT_HOSTQ n, CMP_STAT_HOSTJOB n, CMP_STAT_RING n]⟩
  , ⟨.CMP_IN, .hive, 0x10008, 8, 0x0, 1, 0x0, 1, fun n _ _ => [CMP_IN_BYTES n]⟩ ]

open R in
/-- The register maps, part 5. -/
def regRows5 : List RegRow :=
  [ ⟨.CMP_OUT, .hive, 0x10010, 8, 0x0, 1, 0x0, 1, fun n _ _ => [CMP_OUT_BYTES n]⟩
  , ⟨.CMP_JOBS, .hive, 0x10018, 8, 0x0, 1, 0x0, 1, fun n _ _ => [CMP_JOBS_COUNT n]⟩
  , ⟨.CMP_CLR, .hive, 0x10020, 4, 0x0, 1, 0x0, 1, fun n _ _ => [CMP_CLR_CLR n]⟩
  , ⟨.CMP_TR_BASE, .hive, 0x11000, 8, 0x40, 64, 0x0, 1, fun n i _ => [CMP_TR_BASE_BASE n i]⟩
  , ⟨.CMP_TR_CQ, .hive, 0x11008, 8, 0x40, 64, 0x0, 1, fun n i _ => [CMP_TR_CQ_CQ n i]⟩
  , ⟨.CMP_TR_CFG, .hive, 0x11010, 4, 0x40, 64, 0x0, 1, fun n i _ => [CMP_TR_CFG_LOG2N n i, CMP_TR_CFG_EN n i, CMP_TR_CFG_DOMAIN n i, CMP_TR_CFG_EVT n i, CMP_TR_CFG_EVT_EN n i]⟩
  , ⟨.SQ_DB, .fab, 0xa0000, 4, 0x1000, 96, 0x0, 1, fun _ i _ => [SQ_DB_PROD i]⟩
  , ⟨.SQ_CONS, .fab, 0xa0004, 4, 0x1000, 96, 0x0, 1, fun _ i _ => [SQ_CONS_CONS i]⟩
  , ⟨.SQ_DONE, .fab, 0xa0008, 4, 0x1000, 96, 0x0, 1, fun _ i _ => [SQ_DONE_DONE i]⟩
  , ⟨.SQ_STAT, .fab, 0xa000c, 4, 0x1000, 96, 0x0, 1, fun _ i _ => [SQ_STAT_STATE i, SQ_STAT_ERR i]⟩
  , ⟨.SQ_CTL, .fab, 0xa0010, 4, 0x1000, 96, 0x0, 1, fun _ i _ => [SQ_CTL_RESTART i]⟩
  , ⟨.FAB_DEVNUM, .fab, 0x0, 4, 0x0, 1, 0x0, 1, fun _ _ _ => [FAB_DEVNUM_NUM, FAB_DEVNUM_LOCK]⟩
  , ⟨.FAB_RTO, .fab, 0x4, 4, 0x0, 1, 0x0, 1, fun _ _ _ => [FAB_RTO_US]⟩
  , ⟨.FAB_HOLD, .fab, 0x8, 4, 0x0, 1, 0x0, 1, fun _ _ _ => [FAB_HOLD_US]⟩
  , ⟨.FAB_TAGS, .fab, 0xc, 4, 0x0, 1, 0x0, 1, fun _ _ _ => [FAB_TAGS_INUSE, FAB_TAGS_QUAR]⟩
  , ⟨.FAB_TMO, .fab, 0x10, 4, 0x0, 1, 0x0, 1, fun _ _ _ => [FAB_TMO_COUNT]⟩
  , ⟨.FAB_LATE, .fab, 0x14, 4, 0x0, 1, 0x0, 1, fun _ _ _ => [FAB_LATE_COUNT]⟩
  , ⟨.FAB_RUNAV, .fab, 0x18, 4, 0x0, 1, 0x0, 1, fun _ _ _ => [FAB_RUNAV_COUNT]⟩
  , ⟨.FAB_POSTERR, .fab, 0x1c, 4, 0x0, 1, 0x0, 1, fun _ _ _ => [FAB_POSTERR_COUNT]⟩
  , ⟨.FAB_INBREF, .fab, 0x20, 4, 0x0, 1, 0x0, 1, fun _ _ _ => [FAB_INBREF_COUNT]⟩
  , ⟨.FAB_BADPKT, .fab, 0x24, 4, 0x0, 1, 0x0, 1, fun _ _ _ => [FAB_BADPKT_COUNT]⟩
  , ⟨.FAB_CLR, .fab, 0x28, 4, 0x0, 1, 0x0, 1, fun _ _ _ => [FAB_CLR_CLR]⟩
  , ⟨.FAB_RT_IDX, .fab, 0x30, 4, 0x0, 1, 0x0, 1, fun _ _ _ => [FAB_RT_IDX_IDX]⟩
  , ⟨.FAB_RT_DATA, .fab, 0x40, 16, 0x0, 1, 0x0, 1, fun _ _ _ => [FAB_RT_DATA_ENTRY]⟩
  , ⟨.FAB_EP, .fab, 0x10000, 4, 0x10, 4096, 0x0, 1, fun _ i _ => [FAB_EP_EN i, FAB_EP_LOG2N i, FAB_EP_EVT i, FAB_EP_EVT_EN i, FAB_EP_OWNER i]⟩
  , ⟨.FAB_EP2, .fab, 0x10008, 8, 0x10, 4096, 0x0, 1, fun _ i _ => [FAB_EP2_RXBASE i]⟩
  , ⟨.FAB_RWIN, .fab, 0x20000, 8, 0x10, 256, 0x0, 1, fun _ i _ => [FAB_RWIN_V i, FAB_RWIN_R i, FAB_RWIN_W i, FAB_RWIN_A i, FAB_RWIN_D0 i, FAB_RWIN_LOG2SZ i, FAB_RWIN_BASE i, FAB_RWIN_SRCDEV i]⟩
  , ⟨.FAB_RWIN2, .fab, 0x20008, 4, 0x10, 256, 0x0, 1, fun _ i _ => [FAB_RWIN2_SRCEP i, FAB_RWIN2_DOM i]⟩
  , ⟨.FAB_SQ_BASE, .fab, 0x30000, 8, 0x20, 96, 0x0, 1, fun _ i _ => [FAB_SQ_BASE_BASE i]⟩
  , ⟨.FAB_SQ_CFG, .fab, 0x30008, 4, 0x20, 96, 0x0, 1, fun _ i _ => [FAB_SQ_CFG_LOG2N i, FAB_SQ_CFG_EN i, FAB_SQ_CFG_DOMAIN i, FAB_SQ_CFG_SRCEP i]⟩ ]

open R in
/-- The register maps, part 6. -/
def regRows6 : List RegRow :=
  [ ⟨.FAB_PORT_STAT, .fport, 0x0, 4, 0x0, 1, 0x0, 1, fun n _ _ => [FAB_PORT_STAT_STATE n, FAB_PORT_STAT_LANES n, FAB_PORT_STAT_HELD n]⟩
  , ⟨.FAB_PORT_CTL, .fport, 0x4, 4, 0x0, 1, 0x0, 1, fun n _ _ => [FAB_PORT_CTL_DRAIN n, FAB_PORT_CTL_RETRAIN n, FAB_PORT_CTL_DATELINE n, FAB_PORT_CTL_EN n]⟩
  , ⟨.FAB_PORT_CRC, .fport, 0x8, 4, 0x0, 1, 0x0, 1, fun n _ _ => [FAB_PORT_CRC_COUNT n]⟩
  , ⟨.FAB_PORT_REPLAY, .fport, 0xc, 4, 0x0, 1, 0x0, 1, fun n _ _ => [FAB_PORT_REPLAY_COUNT n]⟩
  , ⟨.FAB_PORT_DROP, .fport, 0x10, 4, 0x0, 1, 0x0, 1, fun n _ _ => [FAB_PORT_DROP_COUNT n]⟩
  , ⟨.FAB_PORT_DOWNS, .fport, 0x14, 4, 0x0, 1, 0x0, 1, fun n _ _ => [FAB_PORT_DOWNS_COUNT n]⟩
  , ⟨.FAB_PORT_TXF, .fport, 0x18, 8, 0x0, 1, 0x0, 1, fun n _ _ => [FAB_PORT_TXF_COUNT n]⟩
  , ⟨.FAB_PORT_RXF, .fport, 0x20, 8, 0x0, 1, 0x0, 1, fun n _ _ => [FAB_PORT_RXF_COUNT n]⟩
  , ⟨.FAB_PORT_CLR, .fport, 0x28, 4, 0x0, 1, 0x0, 1, fun n _ _ => [FAB_PORT_CLR_CLR n]⟩
  , ⟨.TIL_PWR_STAT, .tile, 0x3010, 4, 0x0, 1, 0x0, 1, fun n _ _ => [TIL_PWR_STAT_STATE n, TIL_PWR_STAT_HALT n, TIL_PWR_STAT_PREP n, TIL_PWR_STAT_ENTERING n, TIL_PWR_STAT_EXITING n, TIL_PWR_STAT_LATCHED n]⟩
  , ⟨.TIL_PWR_SVC, .tile, 0x3014, 4, 0x0, 1, 0x0, 1, fun n _ _ => [TIL_PWR_SVC_COUNT n]⟩
  , ⟨.TIL_PWR_WAKES, .tile, 0x3018, 4, 0x0, 1, 0x0, 1, fun n _ _ => [TIL_PWR_WAKES_COUNT n]⟩
  , ⟨.PWR_HGEN, .hive, 0x20000, 4, 0x0, 1, 0x0, 1, fun n _ _ => [PWR_HGEN_GEN n]⟩
  , ⟨.PWR_HPREP, .hive, 0x20004, 4, 0x0, 1, 0x0, 1, fun n _ _ => [PWR_HPREP_GEN n]⟩
  , ⟨.PWR_HCAP, .hive, 0x20008, 4, 0x0, 1, 0x0, 1, fun n _ _ => [PWR_HCAP_CAP n, PWR_HCAP_CAPPED n]⟩
  , ⟨.PWR_HLAST, .hive, 0x20010, 4, 0x0, 1, 0x0, 1, fun n _ _ => [PWR_HLAST_TILE n, PWR_HLAST_STATE n, PWR_HLAST_WHO n, PWR_HLAST_ABORT n]⟩
  , ⟨.PWR_HREF, .hive, 0x20100, 4, 0x40, 3, 0x4, 5, fun n i j => [PWR_HREF_COUNT n i j]⟩
  , ⟨.PWR_HABT, .hive, 0x20120, 4, 0x40, 3, 0x4, 5, fun n i j => [PWR_HABT_COUNT n i j]⟩
  , ⟨.PWR_HCLR, .hive, 0x20200, 4, 0x0, 1, 0x0, 1, fun n _ _ => [PWR_HCLR_CLR n]⟩
  , ⟨.PWR_GEN, .pwr, 0x0, 4, 0x0, 1, 0x0, 1, fun _ _ _ => [PWR_GEN_GEN]⟩
  , ⟨.PWR_MODE_STAT, .pwr, 0x4, 4, 0x0, 1, 0x0, 1, fun _ _ _ => [PWR_MODE_STAT_PHASE, PWR_MODE_STAT_CODE]⟩
  , ⟨.PWR_MODE_APPLIED, .pwr, 0x8, 4, 0x0, 1, 0x0, 1, fun _ _ _ => [PWR_MODE_APPLIED_HIVES]⟩
  , ⟨.PWR_MODE_READY, .pwr, 0xc, 4, 0x0, 1, 0x0, 1, fun _ _ _ => [PWR_MODE_READY_HIVES]⟩
  , ⟨.PWR_MODE_WHY, .pwr, 0x10, 4, 0x4, 4, 0x0, 1, fun _ i _ => [PWR_MODE_WHY_WHY i]⟩
  , ⟨.PWR_MODE_TIME, .pwr, 0x20, 4, 0x0, 1, 0x0, 1, fun _ _ _ => [PWR_MODE_TIME_US]⟩
  , ⟨.PWR_LAST, .pwr, 0x30, 4, 0x0, 1, 0x0, 1, fun _ _ _ => [PWR_LAST_STATE, PWR_LAST_UNIT, PWR_LAST_WHO, PWR_LAST_ABORT]⟩
  , ⟨.PWR_REF, .pwr, 0x100, 4, 0x40, 3, 0x4, 5, fun _ i j => [PWR_REF_COUNT i j]⟩
  , ⟨.PWR_ABT, .pwr, 0x120, 4, 0x40, 3, 0x4, 5, fun _ i j => [PWR_ABT_COUNT i j]⟩
  , ⟨.PWR_CLR, .pwr, 0x200, 4, 0x0, 1, 0x0, 1, fun _ _ _ => [PWR_CLR_CLR]⟩
  , ⟨.PMC_CORE_CTL, .tile, 0xc000, 4, 0x100, 2, 0x10, 8, fun n i j => [PMC_CORE_CTL_EN n i j, PMC_CORE_CTL_EVENT n i j, PMC_CORE_CTL_THRMODE n i j, PMC_CORE_CTL_THR n i j, PMC_CORE_CTL_CHAIN n i j, PMC_CORE_CTL_UREAD n i j, PMC_CORE_CTL_OVF n i j]⟩ ]

open R in
/-- The register maps, part 7. -/
def regRows7 : List RegRow :=
  [ ⟨.PMC_TILE_CTL, .tile, 0xc200, 4, 0x10, 4, 0x0, 1, fun n i _ => [PMC_TILE_CTL_EN n i, PMC_TILE_CTL_EVENT n i, PMC_TILE_CTL_THRMODE n i, PMC_TILE_CTL_THR n i, PMC_TILE_CTL_CHAIN n i, PMC_TILE_CTL_UREAD n i, PMC_TILE_CTL_OVF n i]⟩
  , ⟨.PMC_SLICE_CTL, .tile, 0xc300, 4, 0x10, 4, 0x0, 1, fun n i _ => [PMC_SLICE_CTL_EN n i, PMC_SLICE_CTL_EVENT n i, PMC_SLICE_CTL_THRMODE n i, PMC_SLICE_CTL_THR n i, PMC_SLICE_CTL_CHAIN n i, PMC_SLICE_CTL_UREAD n i, PMC_SLICE_CTL_OVF n i]⟩
  , ⟨.PMC_CHAN_CTL, .mem, 0x4000, 4, 0x10, 4, 0x0, 1, fun n i _ => [PMC_CHAN_CTL_EN n i, PMC_CHAN_CTL_EVENT n i, PMC_CHAN_CTL_THRMODE n i, PMC_CHAN_CTL_THR n i, PMC_CHAN_CTL_CHAIN n i, PMC_CHAN_CTL_UREAD n i, PMC_CHAN_CTL_OVF n i]⟩
  , ⟨.PMC_PORT_CTL, .fport, 0x4000, 4, 0x10, 4, 0x0, 1, fun n i _ => [PMC_PORT_CTL_EN n i, PMC_PORT_CTL_EVENT n i, PMC_PORT_CTL_THRMODE n i, PMC_PORT_CTL_THR n i, PMC_PORT_CTL_CHAIN n i, PMC_PORT_CTL_UREAD n i, PMC_PORT_CTL_OVF n i]⟩
  , ⟨.PMC_CORE_OWN, .tile, 0xc004, 4, 0x100, 2, 0x10, 8, fun n i j => [PMC_CORE_OWN_OWNER n i j, PMC_CORE_OWN_EVT n i j, PMC_CORE_OWN_EVT_EN n i j]⟩
  , ⟨.PMC_TILE_OWN, .tile, 0xc204, 4, 0x10, 4, 0x0, 1, fun n i _ => [PMC_TILE_OWN_OWNER n i, PMC_TILE_OWN_EVT n i, PMC_TILE_OWN_EVT_EN n i]⟩
  , ⟨.PMC_SLICE_OWN, .tile, 0xc304, 4, 0x10, 4, 0x0, 1, fun n i _ => [PMC_SLICE_OWN_OWNER n i, PMC_SLICE_OWN_EVT n i, PMC_SLICE_OWN_EVT_EN n i]⟩
  , ⟨.PMC_CHAN_OWN, .mem, 0x4004, 4, 0x10, 4, 0x0, 1, fun n i _ => [PMC_CHAN_OWN_OWNER n i, PMC_CHAN_OWN_EVT n i, PMC_CHAN_OWN_EVT_EN n i]⟩
  , ⟨.PMC_PORT_OWN, .fport, 0x4004, 4, 0x10, 4, 0x0, 1, fun n i _ => [PMC_PORT_OWN_OWNER n i, PMC_PORT_OWN_EVT n i, PMC_PORT_OWN_EVT_EN n i]⟩
  , ⟨.PMC_CORE_VALUE, .tile, 0xc008, 8, 0x100, 2, 0x10, 8, fun n i j => [PMC_CORE_VALUE_COUNT n i j]⟩
  , ⟨.PMC_TILE_VALUE, .tile, 0xc208, 8, 0x10, 4, 0x0, 1, fun n i _ => [PMC_TILE_VALUE_COUNT n i]⟩
  , ⟨.PMC_SLICE_VALUE, .tile, 0xc308, 8, 0x10, 4, 0x0, 1, fun n i _ => [PMC_SLICE_VALUE_COUNT n i]⟩
  , ⟨.PMC_CHAN_VALUE, .mem, 0x4008, 8, 0x10, 4, 0x0, 1, fun n i _ => [PMC_CHAN_VALUE_COUNT n i]⟩
  , ⟨.PMC_PORT_VALUE, .fport, 0x4008, 8, 0x10, 4, 0x0, 1, fun n i _ => [PMC_PORT_VALUE_COUNT n i]⟩
  , ⟨.PMC_GCTL, .pmc, 0x0, 4, 0x0, 1, 0x0, 1, fun _ _ _ => [PMC_GCTL_FREEZE, PMC_GCTL_CLRALL]⟩
  , ⟨.PMC_GSTAT, .pmc, 0x4, 4, 0x0, 1, 0x0, 1, fun _ _ _ => [PMC_GSTAT_BADEV]⟩
  , ⟨.ER_STAT, .er, 0x0, 4, 0x0, 1, 0x0, 1, fun _ _ _ => [ER_STAT_BUSY, ER_STAT_FLUSHING, ER_STAT_FATAL, ER_STAT_PFULL, ER_STAT_FLASHERR]⟩
  , ⟨.ER_PCOUNT, .er, 0x4, 4, 0x0, 1, 0x0, 1, fun _ _ _ => [ER_PCOUNT_COUNT]⟩
  , ⟨.ER_SEQ, .er, 0x8, 4, 0x0, 1, 0x0, 1, fun _ _ _ => [ER_SEQ_SEQ]⟩
  , ⟨.ER_LOST, .er, 0xc, 4, 0x0, 1, 0x0, 1, fun _ _ _ => [ER_LOST_COUNT]⟩
  , ⟨.ER_PREFUSED, .er, 0x10, 4, 0x0, 1, 0x0, 1, fun _ _ _ => [ER_PREFUSED_COUNT]⟩
  , ⟨.ER_FLUSHINFO, .er, 0x18, 8, 0x0, 1, 0x0, 1, fun _ _ _ => [ER_FLUSHINFO_LASTSEQ, ER_FLUSHINFO_COUNT]⟩
  , ⟨.ER_OPHOURS, .er, 0x20, 4, 0x0, 1, 0x0, 1, fun _ _ _ => [ER_OPHOURS_HOURS]⟩
  , ⟨.ER_OPSEC, .er, 0x24, 4, 0x0, 1, 0x0, 1, fun _ _ _ => [ER_OPSEC_SEC]⟩
  , ⟨.ER_PCYCLE, .er, 0x28, 4, 0x0, 1, 0x0, 1, fun _ _ _ => [ER_PCYCLE_COUNT]⟩
  , ⟨.ER_CURSOR, .er, 0x30, 8, 0x0, 1, 0x0, 1, fun _ _ _ => [ER_CURSOR_AREA, ER_CURSOR_AUTOINC, ER_CURSOR_INDEX]⟩
  , ⟨.ER_CLR, .er, 0x38, 4, 0x0, 1, 0x0, 1, fun _ _ _ => [ER_CLR_KEY, ER_CLR_AREA]⟩
  , ⟨.ER_CSTAT, .er, 0x40, 4, 0x0, 1, 0x0, 1, fun _ _ _ => [ER_CSTAT_VALID, ER_CSTAT_GONE]⟩
  , ⟨.ER_WINDOW, .er, 0x100, 4, 0x4, 8, 0x0, 1, fun _ i _ => [ER_WINDOW_DATA i]⟩
  , ⟨.BOOT_STAT, .boot, 0x0, 4, 0x0, 1, 0x0, 1, fun _ _ _ => [BOOT_STAT_STEP, BOOT_STAT_DONE, BOOT_STAT_FAIL, BOOT_STAT_SELFTEST, BOOT_STAT_KFW_B, BOOT_STAT_MON_B]⟩ ]

open R in
/-- The register maps, part 8. -/
def regRows8 : List RegRow :=
  [ ⟨.BOOT_CHFAIL, .boot, 0x4, 4, 0x0, 1, 0x0, 1, fun _ _ _ => [BOOT_CHFAIL_CH]⟩
  , ⟨.BOOT_STRAP, .boot, 0x8, 4, 0x0, 1, 0x0, 1, fun _ _ _ => [BOOT_STRAP_PAIR_DEFAULT, BOOT_STRAP_SELFTEST, BOOT_STRAP_BIST_FULL]⟩
  , ⟨.BOOT_RSTCAUSE, .boot, 0xc, 4, 0x0, 1, 0x0, 1, fun _ _ _ => [BOOT_RSTCAUSE_KIND]⟩
  , ⟨.BOOT_CTL, .boot, 0x10, 4, 0x0, 1, 0x0, 1, fun _ _ _ => [BOOT_CTL_KEY, BOOT_CTL_DEVRST]⟩
  , ⟨.BOOT_MON, .boot, 0x18, 8, 0x0, 1, 0x0, 1, fun _ _ _ => [BOOT_MON_BASE]⟩
  , ⟨.BOOT_MS, .boot, 0x20, 4, 0x0, 1, 0x0, 1, fun _ _ _ => [BOOT_MS_MS]⟩
  , ⟨.SEC_STAT, .sec, 0x0, 4, 0x0, 1, 0x0, 1, fun _ _ _ => [SEC_STAT_KFW, SEC_STAT_MON]⟩
  , ⟨.SEC_SLOT, .sec, 0x10, 4, 0x4, 4, 0x0, 1, fun _ i _ => [SEC_SLOT_ENROLLED i, SEC_SLOT_REVOKED i]⟩
  , ⟨.SEC_ROLL, .sec, 0x40, 4, 0x4, 4, 0x0, 1, fun _ i _ => [SEC_ROLL_COUNT i]⟩
  , ⟨.SEC_ENROLL_DATA, .sec, 0x80, 4, 0x4, 12, 0x0, 1, fun _ i _ => [SEC_ENROLL_DATA_DIGEST i]⟩
  , ⟨.SEC_ENROLL, .sec, 0xb0, 4, 0x0, 1, 0x0, 1, fun _ _ _ => [SEC_ENROLL_SLOT, SEC_ENROLL_GO, SEC_ENROLL_REVOKE, SEC_ENROLL_KEY]⟩
  , ⟨.SEC_KEYROLL, .sec, 0xc0, 4, 0x0, 1, 0x0, 1, fun _ _ _ => [SEC_KEYROLL_KEY]⟩
  , ⟨.PWR_TEMP, .pwr, 0x600, 4, 0x0, 1, 0x0, 1, fun _ _ _ => [PWR_TEMP_TJ, PWR_TEMP_TMEM]⟩
  , ⟨.PWR_LIMSTAT, .pwr, 0x604, 4, 0x0, 1, 0x0, 1, fun _ _ _ => [PWR_LIMSTAT_THERM, PWR_LIMSTAT_MEM, PWR_LIMSTAT_CURR, PWR_LIMSTAT_PIN]⟩
  , ⟨.PWR_PWRLIM, .pwr, 0x608, 4, 0x0, 1, 0x0, 1, fun _ _ _ => [PWR_PWRLIM_CODE]⟩
  , ⟨.PWR_IMAIN, .pwr, 0x60c, 4, 0x0, 1, 0x0, 1, fun _ _ _ => [PWR_IMAIN_DA]⟩
  , ⟨.HEP_IWIN, .hep, 0x10000, 8, 0x8, 256, 0x0, 1, fun _ i _ => [HEP_IWIN_V i, HEP_IWIN_RD i, HEP_IWIN_WR i, HEP_IWIN_LPOL i, HEP_IWIN_LVAL i, HEP_IWIN_BASE i, HEP_IWIN_LOG2SZ i]⟩
  , ⟨.HEP_OWIN, .hep, 0x20000, 8, 0x8, 256, 0x0, 1, fun _ i _ => [HEP_OWIN_V i, HEP_OWIN_NS i, HEP_OWIN_LOG2SZ i, HEP_OWIN_BASE i]⟩
  , ⟨.MEM_NI_STAT, .mem, 0x7010, 4, 0x0, 1, 0x0, 1, fun n _ _ => [MEM_NI_STAT_BADRTE n, MEM_NI_STAT_BADIDX n, MEM_NI_STAT_WHY n]⟩
  , ⟨.MEM_NI_CTL, .mem, 0x7014, 4, 0x0, 1, 0x0, 1, fun n _ _ => [MEM_NI_CTL_DEFAULT n]⟩
  , ⟨.HEP_NI_STAT, .hep, 0x80c10, 4, 0x1000, 8, 0x0, 1, fun _ i _ => [HEP_NI_STAT_BADRTE i, HEP_NI_STAT_BADIDX i, HEP_NI_STAT_WHY i]⟩
  , ⟨.HEP_NI_CTL, .hep, 0x80c14, 4, 0x1000, 8, 0x0, 1, fun _ i _ => [HEP_NI_CTL_DEFAULT i]⟩
  , ⟨.FAB_NI_STAT, .fab, 0x80c10, 4, 0x1000, 8, 0x0, 1, fun _ i _ => [FAB_NI_STAT_BADRTE i, FAB_NI_STAT_BADIDX i, FAB_NI_STAT_WHY i]⟩
  , ⟨.FAB_NI_CTL, .fab, 0x80c14, 4, 0x1000, 8, 0x0, 1, fun _ i _ => [FAB_NI_CTL_DEFAULT i]⟩
  , ⟨.TIL_RT, .tile, 0x6000, 8, 0x8, 282, 0x0, 1, fun n i _ => [TIL_RT_SEG n i, TIL_RT_EXIT n i, TIL_RT_V n i]⟩
  , ⟨.MEM_RT, .mem, 0x8000, 8, 0x8, 282, 0x0, 1, fun n i _ => [MEM_RT_SEG n i, MEM_RT_EXIT n i, MEM_RT_V n i]⟩
  , ⟨.HEP_RT, .hep, 0x80000, 8, 0x1000, 8, 0x8, 282, fun _ i j => [HEP_RT_SEG i j, HEP_RT_EXIT i j, HEP_RT_V i j]⟩
  , ⟨.FAB_RTE, .fab, 0x80000, 8, 0x1000, 8, 0x8, 282, fun _ i j => [FAB_RTE_SEG i j, FAB_RTE_EXIT i j, FAB_RTE_V i j]⟩ ]

/-- Every register of the maps. -/
def regRows : List RegRow :=
  regRows0 ++ regRows1 ++ regRows2 ++ regRows3 ++ regRows4 ++ regRows5 ++ regRows6 ++ regRows7 ++ regRows8

end Sys2Proof.Machine
end

