-- ==== Sys2Proof/Config.lean ====
section
/-! DEFINITION. The free values: what the spec leaves open. Each is a constant with no body, so a claim holds whatever
it is. Those that may differ from one use to the next take the state's counter `free`. -/

namespace Sys2Proof.Config

/-- R121, IEEE 754-2019: whether tininess is detected after rounding; the spec names neither choice. -/
opaque fpTinyAfter : Bool
/-- R119, R121: whether a compare (by its OP number) signals invalid for a quiet NaN; the spec names neither predicate. -/
opaque fpCmpQuietInvalid : Nat → Bool
/-- R121, IEEE 754-2019: whether infinity times zero plus a quiet NaN signals invalid; the standard leaves it to the
implementation. -/
opaque fpFmaNanInvalid : Bool
/-- R121, IEEE 754-2019: whether VCVT.FI signals inexact when it rounds; the standard has both conversions. -/
opaque fpToIntInexact : Bool
/-- R205, R80, R180, R12: the n-th unspecified choice of the run, among the outcomes the rule lists. -/
opaque freeNat : Nat → Nat
/-- R315, R330: in how many keeper cycles between the n-th issue of hive `h`'s keeper and the next one the port is free to fetch: cycles
are not modelled, and R330 lets software rely on neither outcome. -/
opaque keeperFetches : Nat → Nat → Nat
/-- R298, R12: the 88 bits of DRAM code word `cw` that nothing has written since array epoch `e`. -/
opaque dramGarbage : Nat → Nat → Nat
/-- R446: the bytes the encoder chooses for one compression block: input bytes, block log2, level. -/
opaque deflateChoice : List Nat → Nat → Nat → List Nat
/-- R525 to R527: whether a signature verifies; the spec gives no key. -/
opaque signatureOk : List Nat → Bool

/-- R529: the 256-bit device secret in fuses, as bytes. -/
opaque deviceSecret : List Nat
/-- R398, R399: silicon revision and serial number, from fuses. -/
opaque siliconRev : Nat
opaque serialNumber : Nat

end Sys2Proof.Config
end

