-- ==== Sys2Proof/Machine/Flags.lean ====
section
/-! DEFINITION. Conditions of compares and branches (R104, R124), and binary floating point with its sticky flags
(R121, IEEE 754-2019): exact values first, one rounding at the end. -/

namespace Sys2Proof.Machine

/-- The eight conditions of CMP (R104) and BC (R124). -/
inductive Cond where
  | eq | ne | lt | ge | ltu | geu | tst | tstn
  deriving DecidableEq, Repr

/-- A condition on two 64-bit operands. -/
def Cond.holds (c : Cond) (a b : W64) : Bool :=
  match c with
  | .eq => a == b
  | .ne => a != b
  | .lt => a.slt b
  | .ge => !(a.slt b)
  | .ltu => a.ult b
  | .geu => !(a.ult b)
  | .tst => (a &&& b) != 0
  | .tstn => (a &&& b) == 0

/-- R104: with W = 1 the compare uses bits [31:0] of both operands. -/
def Cond.holdsW (c : Cond) (w : Bool) (a b : W64) : Bool :=
  if w then
    match c with
    | .lt | .ge => c.holds ((a.truncate 32).signExtend 64) ((b.truncate 32).signExtend 64)
    | _ => c.holds ((a.truncate 32).zeroExtend 64) ((b.truncate 32).zeroExtend 64)
  else c.holds a b

/-- R99: the four ways a condition enters predicate PD. -/
inductive CMode where
  | set | and | or | setn
  deriving DecidableEq, Repr

def CMode.apply (m : CMode) (old c : Bool) : Bool :=
  match m with
  | .set => c
  | .and => old && c
  | .or => old || c
  | .setn => !c

/-- A binary interchange format: exponent and fraction widths. -/
structure Fmt where
  e : Nat
  m : Nat
  deriving DecidableEq, Repr

def f16 : Fmt := ⟨5, 10⟩
def f32 : Fmt := ⟨8, 23⟩
def f64 : Fmt := ⟨11, 52⟩

def Fmt.width (f : Fmt) : Nat := 1 + f.e + f.m
def Fmt.bias (f : Fmt) : Int := 2 ^ (f.e - 1) - 1
def Fmt.emin (f : Fmt) : Int := 1 - f.bias

/-- R138 FPCR.RM. -/
inductive RM where
  | nearest | zero | up | down
  deriving DecidableEq, Repr

def RM.ofBits (n : Nat) : RM := match n % 4 with | 0 => .nearest | 1 => .zero | 2 => .up | _ => .down

/-- The sticky flags as FPCR[6:2] holds them: NX 1, UF 2, OF 4, DZ 8, NV 16. -/
abbrev FF := BitVec 5
def ffNX : FF := 1
def ffUF : FF := 2
def ffOF : FF := 4
def ffDZ : FF := 8
def ffNV : FF := 16

/-- A datum: NaN (signalling or not), infinity, or sign, magnitude `mag` times 2 to the power `exp`. -/
inductive FV where
  | nan (sig : Bool)
  | inf (neg : Bool)
  | fin (neg : Bool) (mag : Nat) (exp : Int)
  deriving DecidableEq, Repr

def FV.isNan : FV → Bool | .nan _ => true | _ => false
def FV.isSig : FV → Bool | .nan s => s | _ => false

def fpUnpack (f : Fmt) (b : Nat) : FV :=
  let frac := b % 2 ^ f.m
  let ex := b / 2 ^ f.m % 2 ^ f.e
  let neg := b / 2 ^ (f.m + f.e) % 2 == 1
  if ex = 2 ^ f.e - 1 then (if frac = 0 then .inf neg else .nan (frac / 2 ^ (f.m - 1) == 0))
  else if ex = 0 then .fin neg frac (f.emin - f.m)
  else .fin neg (frac + 2 ^ f.m) ((ex : Int) - f.bias - f.m)

/-- R121: the default quiet NaN. -/
def fpDefNan (f : Fmt) : Nat := (2 ^ f.e - 1) * 2 ^ f.m + 2 ^ (f.m - 1)
def fpSign (f : Fmt) (neg : Bool) : Nat := if neg then 2 ^ (f.m + f.e) else 0
def fpInf (f : Fmt) (neg : Bool) : Nat := fpSign f neg + (2 ^ f.e - 1) * 2 ^ f.m
def fpMaxFin (f : Fmt) (neg : Bool) : Nat := fpSign f neg + (2 ^ f.e - 1) * 2 ^ f.m - 1

def bitLen (n : Nat) : Nat := if n = 0 then 0 else Nat.log2 n + 1

/-- Round `mag * 2^exp` (plus a little when `sticky`) to an integer multiple of `2^q`: the multiple and whether exact. -/
def fpQuant (rm : RM) (neg : Bool) (mag : Nat) (exp : Int) (sticky : Bool) (q : Int) : Nat × Bool :=
  let keep := if q > exp then mag / 2 ^ (q - exp).toNat else mag * 2 ^ (exp - q).toNat
  let rem2 := if q > exp then 2 * (mag % 2 ^ (q - exp).toNat) else 0
  let one := if q > exp then 2 ^ (q - exp).toNat else 1
  let exact := rem2 == 0 && !sticky
  let up := match rm with
    | .nearest => rem2 > one || (rem2 == one && (sticky || keep % 2 == 1))
    | .zero => false
    | .up => !neg && !exact
    | .down => neg && !exact
  (if up then keep + 1 else keep, exact)

/-- The one rounding of every operation (R121): overflow, underflow and inexact with it. -/
def fpRound (f : Fmt) (rm : RM) (neg : Bool) (mag : Nat) (exp : Int) (sticky : Bool) : Nat × FF :=
  if mag = 0 then (fpSign f neg, 0) else
  let top : Int := exp + bitLen mag - 1
  let q := max (top - f.m) (f.emin - f.m)
  let (k, exact) := fpQuant rm neg mag exp sticky q
  let tinyB := decide (top < f.emin)
  let (ku, _) := fpQuant rm neg mag exp sticky (top - f.m)
  let tinyA := tinyB && !(decide (top = f.emin - 1) && ku == 2 ^ (f.m + 1))
  let tiny := if Config.fpTinyAfter then tinyA else tinyB
  let body : Int := (q + f.m + f.bias) * 2 ^ f.m + k - 2 ^ f.m
  if body ≥ (2 ^ f.e - 1) * 2 ^ f.m then
    let toInf := match rm with | .nearest => true | .zero => false | .up => !neg | .down => neg
    (if toInf then fpInf f neg else fpMaxFin f neg, ffOF ||| ffNX)
  else
    (fpSign f neg + body.toNat,
      (if exact then 0 else ffNX) ||| (if tiny && !exact then ffUF else 0))

/-- Sum of two finite values, exactly, then rounded. A zero sum of opposite signs is +0, or -0 rounding down. -/
def fpAddFin (f : Fmt) (rm : RM) (n1 : Bool) (m1 : Nat) (e1 : Int) (n2 : Bool) (m2 : Nat) (e2 : Int) : Nat × FF :=
  let e := min e1 e2
  let a : Int := (if n1 then -1 else 1) * (m1 * 2 ^ (e1 - e).toNat : Nat)
  let b : Int := (if n2 then -1 else 1) * (m2 * 2 ^ (e2 - e).toNat : Nat)
  let s := a + b
  if s = 0 then
    (fpSign f (if n1 == n2 then n1 else decide (rm = .down)), 0)
  else fpRound f rm (decide (s < 0)) s.natAbs e false

def fpNanRes (f : Fmt) (sig : Bool) : Nat × FF := (fpDefNan f, if sig then ffNV else 0)

def fpAddV (f : Fmt) (rm : RM) (a b : FV) : Nat × FF :=
  match a, b with
  | .nan s, y => fpNanRes f (s || y.isSig)
  | x, .nan s => fpNanRes f (s || x.isSig)
  | .inf n1, .inf n2 => if n1 = n2 then (fpInf f n1, 0) else fpNanRes f true
  | .inf n, _ => (fpInf f n, 0)
  | _, .inf n => (fpInf f n, 0)
  | .fin n1 m1 e1, .fin n2 m2 e2 => fpAddFin f rm n1 m1 e1 n2 m2 e2

def FV.neg : FV → FV
  | .nan s => .nan s
  | .inf n => .inf (!n)
  | .fin n m e => .fin (!n) m e

def fpAdd (f : Fmt) (rm : RM) (a b : Nat) : Nat × FF := fpAddV f rm (fpUnpack f a) (fpUnpack f b)
def fpSub (f : Fmt) (rm : RM) (a b : Nat) : Nat × FF := fpAddV f rm (fpUnpack f a) (fpUnpack f b).neg

def fpMul (f : Fmt) (rm : RM) (a b : Nat) : Nat × FF :=
  match fpUnpack f a, fpUnpack f b with
  | .nan s, y => fpNanRes f (s || y.isSig)
  | x, .nan s => fpNanRes f (s || x.isSig)
  | .inf n1, .inf n2 => (fpInf f (n1 != n2), 0)
  | .inf n1, .fin n2 m _ => if m = 0 then fpNanRes f true else (fpInf f (n1 != n2), 0)
  | .fin n1 m _, .inf n2 => if m = 0 then fpNanRes f true else (fpInf f (n1 != n2), 0)
  | .fin n1 m1 e1, .fin n2 m2 e2 => fpRound f rm (n1 != n2) (m1 * m2) (e1 + e2) false

def fpDiv (f : Fmt) (rm : RM) (a b : Nat) : Nat × FF :=
  match fpUnpack f a, fpUnpack f b with
  | .nan s, y => fpNanRes f (s || y.isSig)
  | x, .nan s => fpNanRes f (s || x.isSig)
  | .inf _, .inf _ => fpNanRes f true
  | .inf n1, .fin n2 _ _ => (fpInf f (n1 != n2), 0)
  | .fin n1 _ _, .inf n2 => (fpSign f (n1 != n2), 0)
  | .fin n1 m1 e1, .fin n2 m2 e2 =>
    if m2 = 0 then (if m1 = 0 then fpNanRes f true else (fpInf f (n1 != n2), ffDZ))
    else
      let k := 2 * f.m + 4 + bitLen m2
      let n := m1 * 2 ^ k
      fpRound f rm (n1 != n2) (n / m2) (e1 - e2 - k) (n % m2 != 0)

/-- The integer square root, one result bit at a time. -/
def isqrtBits (n : Nat) : Nat → Nat → Nat
  | 0, r => r
  | k + 1, r => let c := r + 2 ^ k; isqrtBits n k (if c * c ≤ n then c else r)

def fpSqrt (f : Fmt) (rm : RM) (a : Nat) : Nat × FF :=
  match fpUnpack f a with
  | .nan s => fpNanRes f s
  | .inf n => if n then fpNanRes f true else (fpInf f false, 0)
  | .fin n m e =>
    if m = 0 then (fpSign f n, 0)
    else if n then fpNanRes f true
    else
      let k := 2 * f.m + 6
      let odd := decide ((e - k) % 2 ≠ 0)
      let mm := m * 2 ^ (if odd then k + 1 else k)
      let ee := if odd then e - k - 1 else e - k
      let r := isqrtBits mm (bitLen mm / 2 + 1) 0
      fpRound f rm false r (ee / 2) (r * r != mm)

/-- Infinity times zero, plus `z`, signals invalid: of a quiet NaN as the implementation has it. -/
def fmaInvalid (z : FV) : Bool := if z.isNan && !z.isSig then Config.fpFmaNanInvalid else true
/-- R119 VFMA, VFMS: va × vb + vc with one rounding; `negC` for VFMS. -/
def fpFma (f : Fmt) (rm : RM) (negC : Bool) (a b c : Nat) : Nat × FF :=
  let z := if negC then (fpUnpack f c).neg else fpUnpack f c
  match fpUnpack f a, fpUnpack f b with
  | .nan s, y => fpNanRes f (s || y.isSig || z.isSig)
  | x, .nan s => fpNanRes f (s || x.isSig || z.isSig)
  | .inf n1, .inf n2 => fpAddV f rm (.inf (n1 != n2)) z
  | .inf n1, .fin n2 m _ => if m = 0 then fpNanRes f (fmaInvalid z) else fpAddV f rm (.inf (n1 != n2)) z
  | .fin n1 m _, .inf n2 => if m = 0 then fpNanRes f (fmaInvalid z) else fpAddV f rm (.inf (n1 != n2)) z
  | .fin n1 m1 e1, .fin n2 m2 e2 => fpAddV f rm (.fin (n1 != n2) (m1 * m2) (e1 + e2)) z

/-- Exact order of two data, neither NaN: -0 and +0 equal. -/
def fvLt (a b : FV) : Bool :=
  match a, b with
  | .inf n, .inf k => n && !k
  | .inf n, _ => n
  | _, .inf k => !k
  | .fin n1 m1 e1, .fin n2 m2 e2 =>
    let e := min e1 e2
    let x : Int := (if n1 then -1 else 1) * (m1 * 2 ^ (e1 - e).toNat : Nat)
    let y : Int := (if n2 then -1 else 1) * (m2 * 2 ^ (e2 - e).toNat : Nat)
    decide (x < y)
  | _, _ => false

/-- R121 MIN and MAX: -0 less than +0; one NaN gives the other operand; two give the default NaN. -/
def fpMinMax (f : Fmt) (isMax : Bool) (a b : Nat) : Nat × FF :=
  let x := fpUnpack f a
  let y := fpUnpack f b
  let nv : FF := if x.isSig || y.isSig then ffNV else 0
  if x.isNan && y.isNan then (fpDefNan f, nv)
  else if x.isNan then (b, nv)
  else if y.isNan then (a, nv)
  else
    let aLess := fvLt x y || (!(fvLt y x) && a / 2 ^ (f.m + f.e) % 2 == 1)
    (if aLess == isMax then b else a, 0)

/-- R119 compares: all ones or zero. CMPUN holds when either operand is a NaN. -/
def fpCmp (f : Fmt) (op : Nat) (a b : Nat) : Nat × FF :=
  let x := fpUnpack f a
  let y := fpUnpack f b
  let ones := 2 ^ f.width - 1
  let un := x.isNan || y.isNan
  let nv : FF :=
    if x.isSig || y.isSig || (un && Config.fpCmpQuietInvalid op) then ffNV else 0
  let c := match op with
    | 9 => !un && !(fvLt x y) && !(fvLt y x)
    | 10 => !un && fvLt x y
    | 11 => !un && !(fvLt y x)
    | _ => un
  (if c then ones else 0, nv)

/-- R119, the VFP operations 0 to 12 on one lane. -/
def fpOp (f : Fmt) (rm : RM) (op : Nat) (a b : Nat) : Nat × FF :=
  match op with
  | 0 => fpAdd f rm a b
  | 1 => fpSub f rm a b
  | 2 => fpMul f rm a b
  | 3 => fpDiv f rm a b
  | 4 => fpSqrt f rm a
  | 5 => fpMinMax f false a b
  | 6 => fpMinMax f true a b
  | 7 => (a % 2 ^ (f.m + f.e), 0)
  | 8 => (a ^^^ 2 ^ (f.m + f.e), 0)
  | _ => fpCmp f op a b

/-- R119 VCVT.IF: a signed integer of the format's width to floating point. -/
def fpOfInt (f : Fmt) (rm : RM) (w : Nat) (a : Nat) : Nat × FF :=
  let x : Int := if a ≥ 2 ^ (w - 1) then (a : Int) - 2 ^ w else a
  fpRound f rm (decide (x < 0)) x.natAbs 0 false

/-- R119, R121 VCVT.FI: rounded by the mode, saturated; a NaN gives 0; NV for a NaN or out of range. IEEE 754 has the conversion
with and without the inexact flag, and the spec does not say which: `Config.fpToIntInexact` (notes/assumptions/15.md). -/
def fpToInt (f : Fmt) (rm : RM) (a : Nat) : Nat × FF :=
  let w := f.width
  match fpUnpack f a with
  | .nan _ => (0, ffNV)
  | .inf n => (if n then 2 ^ (w - 1) else 2 ^ (w - 1) - 1, ffNV)
  | .fin n m e =>
    let (k, exact) := fpQuant rm n m e false 0
    if n && k > 2 ^ (w - 1) then (2 ^ (w - 1), ffNV)
    else if !n && k ≥ 2 ^ (w - 1) then (2 ^ (w - 1) - 1, ffNV)
    else ((if n then 2 ^ w - k else k) % 2 ^ w, if exact || !Config.fpToIntInexact then 0 else ffNX)

/-- R119 VCVT.W and VCVT.N: between formats. -/
def fpConv (f g : Fmt) (rm : RM) (a : Nat) : Nat × FF :=
  match fpUnpack f a with
  | .nan s => fpNanRes g s
  | .inf n => (fpInf g n, 0)
  | .fin n m e => fpRound g rm n m e false

end Sys2Proof.Machine
end

