-- ==== Sys2Proof/Machine/Types.lean ====
section
/-! DEFINITION. The data types that the machine's state is made of: privilege levels, memory types, cache lines,
coherence messages, translation entries, core structures. No meaning stands here. -/

namespace Sys2Proof.Machine

/-- R10: P-core privilege levels. -/
inductive Priv where
  | U | S | M
  deriving DecidableEq, Repr

/-- R201: memory types. -/
inductive MT where
  | normal | device | hostOrdered | global | gcached
  deriving DecidableEq, Repr

/-- R138 TCAUSE.ACC: kinds of access. -/
inductive Acc where
  | fetch | load | store | atomic
  deriving DecidableEq, Repr

/-- TCAUSE.ACC's number of an access kind. -/
def Acc.code : Acc → Nat
  | .fetch => 0 | .load => 1 | .store => 2 | .atomic => 3

/-- R149, R230: a line with its 16 locks and 8 poison marks. -/
structure LineD where
  data   : BitVec 512
  locks  : BitVec 64
  poison : BitVec 8
  deriving DecidableEq, Repr

/-- R243: the states of a line in a tile. -/
inductive LSt where
  | I | S | E | M | IS | IM | SM | WBP | KP
  deriving DecidableEq, Repr

/-- R248: the coherence messages. -/
inductive MsgK where
  | rdS | rdO | upg | rdSpec | promote | rdFetch | rdNc | wrNc | atomic | flush | wb
  | fwdS | fwdO | fwdPeek | inv | data | grant | notServed | replay | ownerAck | invAck
  | notPresent | wbInflight | wbAck | flushAck | wrDone | complete
  deriving DecidableEq, Repr

/-- R248 KIND of DATA, GRANT and WB. -/
inductive Kind where
  | none | S | E | M | evict | mem | memDrop | keep
  deriving DecidableEq, Repr

/-- R109: the operations of an atomic. -/
inductive AtomOp where
  | swap | cas | add | and | or | xor | min | max | minu | maxu
  deriving DecidableEq, Repr

/-- R155: the check mode in force for an access. -/
inductive Chk where
  | off | precise | log
  deriving DecidableEq, Repr

/-- R159: what an access carries for its lock check. -/
structure LockReq where
  key  : Nat
  mode : Chk
  key0 : Bool
  deriving DecidableEq, Repr

/-- R248 ATOMIC: operation, size in bytes, operand, compare value, lock check, ORD. -/
structure AtomReq where
  addr : Nat
  op   : AtomOp
  size : Nat
  opnd : W64
  cmp  : W64
  lk   : LockReq
  ord  : BitVec 2 := 0
  deriving DecidableEq, Repr

/-- R166 with CARRIED of R164: what a write does to locks. -/
inductive LockPol where
  | preserve | set (v : BitVec 4) | clear | carried
  deriving DecidableEq, Repr

/-- R248 WR_NC: byte mask, data with locks and poison, lock policy. -/
structure WrReq where
  mask : BitVec 64
  d    : LineD
  pol  : LockPol
  deriving DecidableEq, Repr

/-- R248: one coherence message in flight. Agents are numbered: tiles 0 to 255, the host endpoint 256, the fabric
interface 257, the engine of hive h 258 + h. -/
structure Msg where
  k     : MsgK
  L     : Nat
  agent : Nat
  core  : Nat := 0
  req   : Nat := 0
  dom   : Nat := 0
  kind  : Kind := .none
  d     : Option LineD := none
  dirty : Bool := false
  stamp : Nat := 0
  drop  : Bool := false
  wr    : Option WrReq := none
  at_   : Option AtomReq := none
  val   : Nat := 0
  stat  : Nat := 0
  /-- the owner's tile, of DATA that an owner sends -/
  src   : Option Nat := none
  deriving DecidableEq, Repr

/-- R231, R265: what reading an array finds: nothing, an error corrected in place, an uncorrectable data code word, an
uncorrectable directory entry, tag or state, or transaction slot. -/
inductive ArrErr where
  | none | fixed | data (i : Nat) | dir | tag | slot
  deriving DecidableEq, Repr

/-- R231, R265: a line that is read, with what reading the arrays finds. -/
structure ArrRead where
  L : Nat
  e : ArrErr
  deriving DecidableEq, Repr

/-- R234, R265: a request of a tile that awaits its answer: tile, line, kind, and when it was sent. -/
structure Ask where
  t   : Nat
  L   : Nat
  k   : MsgK
  at_ : Nat
  deriving DecidableEq, Repr

/-- R169: a record of the lock log on its way to the ring: its line, domain and bytes, and the event that follows it. -/
structure LogW where
  L   : Nat
  dom : Nat
  wr  : WrReq
  evt : Option Nat
  deriving DecidableEq, Repr

/-- R266, R269: a packet in a router's input buffer: its header flit, the data flit that follows it (sixteen 36-bit words and 8
poison marks), and when it came. -/
structure MPkt where
  h   : W64
  d   : Option LineD
  at_ : Nat
  deriving DecidableEq, Repr

/-- R270, R280: what a router meets at a port: its VN; a packet injected there, for an entry of the NI's route table and with data
or not, or none, where the first packet of the port's buffer goes on; what the check of its flits finds: 0 nothing, 1 a bit
corrected, 2 uncorrectable. -/
structure FlitOp where
  vn  : Nat
  inj : Option (Nat × Option LineD)
  err : Nat
  deriving DecidableEq, Repr

/-- R233, R243: a line in a tile's L2, with which L1Ds hold it, in which of their 8 ways (R230), and a home message held
in KP (R245). -/
structure L2Line where
  st   : LSt := .I
  d    : LineD := ⟨0, 0, 0⟩
  l1   : BitVec 2 := 0
  held : Option Msg := none
  way  : Nat := 0
  w0   : Nat := 0
  w1   : Nat := 0
  /-- R265: when it began to await an answer -/
  at_  : Nat := 0
  deriving DecidableEq, Repr

/-- R240: a directory entry: state, pointers (the owner first under EX), coarse hive mask, way, PIN. -/
inductive DirSt where
  | S | coarse | EX
  deriving DecidableEq, Repr

structure DirE where
  st   : DirSt
  ptrs : List Nat
  mask : BitVec 32
  way  : Nat
  pin  : Bool
  deriving DecidableEq, Repr

/-- R236: a line in an LLC slice. -/
structure LlcE where
  d     : LineD
  dirty : Bool
  way   : Nat
  deriving DecidableEq, Repr

/-- R249: an open transaction at a home. -/
structure Txn where
  L       : Nat
  m       : Msg
  waitInv : List Nat := []
  coarse  : Bool := false
  fwdTo   : Option Nat := none
  ans     : Bool := false
  infl    : Bool := false
  wbData  : Option LineD := none
  wbKind  : Kind := .evict
  wbDom   : Nat := 0
  sent    : Bool := false
  done    : Bool := false
  /-- R261: the line of the directory victim being recalled for this request. -/
  evict   : Option Nat := none
  /-- R265: when it opened -/
  at_     : Nat := 0
  deriving DecidableEq, Repr

/-- R219: a combined (ITLB, DTLB, L2 TLB) entry: VA base and log2 size, output, permissions and guards of both stages,
marks, type, ASID, G, the DPA and size of the stage-2 page, and whether it was made under R211. -/
structure TlbE where
  va   : Nat
  sz   : Nat
  pa   : Nat
  r    : Bool
  w    : Bool
  x    : Bool
  u    : Bool
  ag   : Bool
  xg   : Bool
  a    : Bool
  d    : Bool
  lvl  : Nat
  r2   : Bool
  w2   : Bool
  x2   : Bool
  mt   : MT
  asid : Nat
  g    : Bool
  byp  : Bool
  dpa  : Nat
  s2sz : Nat
  deriving DecidableEq, Repr

/-- R219: a walk-cache entry: a stage-1 table pointer of level `lvl` with its VA prefix and ASID. -/
structure WalkE where
  lvl  : Nat
  pre  : Nat
  asid : Nat
  base : Nat
  deriving DecidableEq, Repr

/-- R219: a stage-2 cache entry: a leaf tagged with its DPA page. -/
structure S2E where
  dpa : Nat
  sz  : Nat
  r   : Bool
  w   : Bool
  x   : Bool
  mt  : MT
  pa  : Nat
  deriving DecidableEq, Repr

/-- R219: what a walk learns: the combined entry for the TLBs, pointers and stage-2 leaves for the caches, and where the
stage-1 leaf lies, with its raw value, its stage-2 W and its DPA (for marks, R216). -/
structure WalkOut where
  e     : TlbE
  ptrs  : List WalkE
  s2s   : List S2E
  leaf  : Nat
  raw   : Nat
  leafW : Bool
  leafDpa : Nat
  deriving DecidableEq, Repr

/-- R69, R218: the result of a walk, for fetch or data, with the free number of the ways it will take at retirement. -/
structure WalkB where
  fetch : Bool
  va    : W64
  free  : Nat
  w     : WalkOut
  deriving DecidableEq, Repr

/-- R55, R60, R63, R69: what is known of an instruction at `pc` that has been fetched and has not retired: a branch and the
address fetch went on at; an access by which a line of the shadow fill buffer (`sfb`) or an entry of the walk buffer (`walk`) is
in use. The number of entries that name a line is R63's count of unretired loads that read it. `done`: the access has its data. -/
inductive WinE where
  | branch (pc next : W64)
  | access (pc va : W64) (acc : Acc) (pa size : Nat) (sfb : Option Nat) (walk done : Bool)
  deriving DecidableEq, Repr

/-- R71, R231: an instruction fetch: of an instruction ahead of the one at the pc or not; whether the L1I finds a parity error. -/
structure FetchOp where
  ahead  : Bool
  parity : Bool
  deriving DecidableEq, Repr

/-- R57: a branch that resolves: its address and where it goes. -/
structure Resolved where
  pc     : W64
  target : W64
  deriving DecidableEq, Repr

/-- R69: an instruction and the address it accesses. -/
structure SpecAt where
  pc : W64
  va : W64
  deriving DecidableEq, Repr

/-- R63: a speculative access: by the instruction at `pc`, of `size` bytes at `va`. -/
structure SpecAcc where
  pc   : W64
  va   : W64
  acc  : Acc
  size : Nat
  deriving DecidableEq, Repr

/-- R216: the compare-and-swap of a mark that a core waits for: the access, the raw entry expected, its level and line. -/
structure MarkReq where
  va   : W64
  acc  : Acc
  raw  : Nat
  lvl  : Nat
  line : Nat
  deriving DecidableEq, Repr

/-- R63, R64: a shadow fill buffer entry: line, data once delivered, stamp, whether its promote is out, and whether it was
copied from the tile's own L2, which gives no stamp. -/
structure SfbE where
  L     : Nat
  d     : Option LineD
  stamp : Nat
  prom  : Bool
  own   : Bool := false
  deriving DecidableEq, Repr

/-- R59: branch kinds. -/
inductive BrK where
  | direct | indirect | call | ret
  deriving DecidableEq, Repr

/-- R59: a branch target buffer entry. -/
structure BtbE where
  set  : Nat
  way  : Nat
  tag  : Nat
  kind : BrK
  tgt  : W32
  deriving DecidableEq, Repr

/-- What a store buffer entry writes: data bytes, one word's lock, or a line's locks (R108). -/
inductive SbKind where
  | bytes | lockW | lockL
  deriving DecidableEq, Repr

/-- R76, R163: a retired store not yet written to L1D, with what its late lock check and record need. -/
structure SbE where
  pa    : Nat
  gc    : Bool
  kind  : SbKind
  size  : Nat
  data  : W256
  locks : BitVec 64
  lk    : LockReq
  ea    : W64
  pc    : W64
  priv  : Priv
  rel   : Bool := false
  deriving DecidableEq, Repr

/-- Where a value that a reply brings goes. -/
inductive Dst where
  | none
  | g (r : Nat) (size : Nat) (sx : Bool)
  | v (r : Nat) (size : Nat)
  | lockW (r : Nat)
  | lockL (r : Nat)
  deriving DecidableEq, Repr

/-- R67: the access at the commit point whose reply a core waits for. `net`: 0 host endpoint, 1 fabric, 2 keeper mesh,
3 the fabric fill of a GlobalCached line, 4 an atomic at the line's home. -/
structure Wait where
  net  : Nat
  tag  : Nat
  acc  : Acc
  ea   : W64
  pa   : Nat
  size : Nat
  dst  : Dst
  lk   : LockReq
  deriving DecidableEq, Repr

/-- R78: a load parked behind the store-buffer entries it overlaps. -/
structure Parked where
  ea   : W64
  pa   : Nat
  size : Nat
  dst  : Dst
  lk   : LockReq
  /-- how many store buffer entries stand up to and with the marked store -/
  mark : Nat
  gc   : Bool
  deriving DecidableEq, Repr

/-- R129, R160: a posted Device or Global store whose reply has not come, with what its record needs. -/
structure Posted where
  fab  : Bool
  tag  : Nat
  pa   : Nat
  ea   : W64
  pc   : W64
  priv : Priv
  lk   : LockReq
  acc  : Acc
  rel  : Bool := false
  /-- R177, R288: complete, its channel having accepted it -/
  done : Bool := false
  deriving DecidableEq, Repr

/-- R176, R177: what a fence in front of the next instruction still holds back: younger loads (`l`) or stores (`s`) other than
Host-ordered ones, until the `n` oldest store buffer entries have been written, the stores `post` answered, and the cache
maintenance before it is complete. -/
structure Hold where
  l    : Bool
  s    : Bool
  n    : Nat
  post : List (Bool × Nat)
  deriving DecidableEq, Repr

/-- R143: an arrival in a holding list. -/
structure Held where
  src : Nat
  pri : Nat
  dom : Nat
  deriving DecidableEq, Repr

/-- R53, R71: an L1I line: physical line number, the words fetched and their poison marks. -/
structure IcE where
  line   : Nat
  data   : BitVec 512
  poison : BitVec 8 := 0
  deriving DecidableEq, Repr

/-- R53, R92, R137: one P-core. -/
structure Core where
  g       : Tbl W64 := []
  p       : BitVec 8 := 1
  v       : Tbl W256 := []
  pc      : W64 := 0
  priv    : Priv := .M
  cr      : Tbl W64 := []
  held    : List Held := []
  recog   : Bool := false
  run     : Bool := false
  stopped : Bool := false
  /-- R484: halted at a boundary or at a TRET; the core issues nothing -/
  halt    : Bool := false
  waitev  : Bool := false
  wait    : Option Wait := none
  parked  : Option Parked := none
  sb      : List SbE := []
  posted  : List Posted := []
  /-- R177: fences passed whose older accesses are not all complete -/
  holds   : List Hold := []
  itlb    : List TlbE := []
  dtlb    : List TlbE := []
  l2tlb   : List TlbE := []
  l2big   : List TlbE := []
  walkC   : List WalkE := []
  s2C     : List S2E := []
  walkB   : List WalkB := []
  sfb     : List SfbE := []
  /-- instructions fetched and not retired, oldest first -/
  win     : List WinE := []
  /-- R55: the instruction at the pc has reached its commit point and waits for its line -/
  commit  : Bool := false
  /-- R69: the walks that the instruction at its commit point used -/
  fill    : List WalkB := []
  /-- R70: the mark that the instruction at its commit point waits for -/
  mark    : Option MarkReq := none
  /-- R71, R81: lines whose fetch will fill the L1I -/
  fpend   : List Nat := []
  dirT    : Tbl (BitVec 2) := []
  btb     : List BtbE := []
  /-- R59: pseudo-LRU of the branch target buffer's sets; replacement state of the L1D's sets (R230) -/
  btbLru  : Tbl Nat := []
  l1dLru  : Tbl Nat := []
  retR    : List W64 := []
  retS    : List W64 := []
  l1i     : List IcE := []
  deriving DecidableEq, Repr

/-- R321: a keeper's mesh access. `late`: it has timed out. -/
structure KWait where
  tag  : Nat
  acc  : Acc
  pa   : Nat
  size : Nat
  sx   : Bool
  rd   : Nat
  data : W64
  at_  : Option AtomReq
  late : Bool
  /-- R321: when it left, by the clock that counts only while the mesh is RUNNING -/
  t0   : Nat
  deriving DecidableEq, Repr

/-- R332, R333: a loaded module: SRAM offset and length of its code, entry, the event sources it serves, its grants and
its version. -/
structure KMod where
  off   : Nat
  len   : Nat
  entry : Nat
  evN   : Nat
  ev0   : Nat
  grant : List Nat
  ver   : Nat
  deriving DecidableEq, Repr

/-- R93, R322, R328, R333: one keeper core. `slot`: the branch whose delay slot is next, and where control goes after
it. `crP`: writes that wait for SYNC (R324). `quar`: mesh tags in quarantine with the time it ends. -/
structure Keeper where
  k      : Tbl W64 := []
  pc     : W64 := 0
  cr     : Tbl W64 := []
  crP    : Tbl (Option W64) := []
  slot   : Option (W64 × W64) := none
  held   : List Held := []
  recog  : Bool := false
  waitev : Bool := false
  wait   : Option KWait := none
  late   : List KWait := []
  quar   : List (Nat × Nat) := []
  /-- R333: the loaded module -/
  mod    : Option KMod := none
  /-- R315: the prefetch queue: instruction words with their addresses, the next to issue first; and how many have issued -/
  pq     : List (Nat × Nat) := []
  issued : Nat := 0
  deriving DecidableEq, Repr

/-- R238: what waits for a victim's write to be accepted: the line that takes its way, the messages of the request that
caused it, and whether the request's transaction closes then. -/
structure LlcFill where
  L     : Nat
  e     : LlcE
  msgs  : List Msg
  close : Bool
  deriving DecidableEq, Repr

/-- R288: what a request in a channel's queues does to its line. -/
inductive ChOp where
  /-- read for the home: DATA of this kind answers `m`; `alloc`: the LLC takes the line (R236) -/
  | homeRd (m : Msg) (kind : Kind) (alloc : Bool)
  /-- a whole line from the home: victim, with what waits for its acceptance, or writeback -/
  | homeWr (d : LineD) (then_ : Option LlcFill)
  /-- WR_NC that the LLC does not hold (R254), for the agent of `m` -/
  | ncWr (m : Msg)
  /-- a Device store of core `c` with reply tag `tag`: `lockOnly` for STLK -/
  | devWr (c tag : Nat) (off size : Nat) (data : BitVec 512) (lockOnly : Bool) (lk : LockReq)
  deriving DecidableEq, Repr

structure ChReq where
  L   : Nat
  dom : Nat
  op  : ChOp
  /-- the order of acceptance, and when (R290) -/
  n   : Nat := 0
  at_ : Nat := 0
  deriving DecidableEq, Repr

/-- R305: a row group's activate counter and majority vote. -/
structure Grp where
  count  : Nat := 0
  ldom   : Nat := 0
  lcount : Nat := 0
  deriving DecidableEq, Repr

/-- R306: a throttle of a domain on a bank, with the channel time it ends, the last activate it let through, and the
spacing in force when it started (R313). -/
structure Throttle where
  bank  : Nat
  dom   : Nat
  till  : Nat
  last  : Nat
  space : Nat
  deriving DecidableEq, Repr

/-- R285 to R313: a memory channel beyond its registers. -/
structure Chan where
  inq      : List ChReq := []
  rdq      : List ChReq := []
  wrq      : List ChReq := []
  drain    : Bool := false
  grp      : Tbl Grp := []
  thr      : List Throttle := []
  tref     : List (Nat × Nat) := []
  refDue   : Tbl Nat := []
  trainAt  : Nat := 0
  /-- R530: when a command asked for a retraining that a deferral holds back -/
  asked    : Option Nat := none
  deferTo  : Nat := 0
  leakAt   : Nat := 0
  forageAt : Nat := 0
  grpAt    : Nat := 0
  exiting  : Bool := false
  accN     : Nat := 0
  deriving DecidableEq, Repr

/-- R160: the memory controller's answer to a Device store: 0 done, 1 lock mismatch, 2 poison; with the mismatching
word's address offset and lock. -/
structure DevReply where
  core : Nat
  tag  : Nat
  stat : Nat
  off  : Nat
  lock : Nat
  drop : Bool
  deriving DecidableEq, Repr

/-- R517: an event recorder record. -/
structure Rec where
  seq   : Nat := 0
  oph   : Nat
  ops   : Nat
  src   : Nat
  pcyc  : Nat
  sev   : Nat
  flags : Nat := 0
  code  : Nat
  d0    : Nat
  d1    : Nat
  deriving DecidableEq, Repr

/-- R514 to R519: the event recorder beyond its registers. -/
structure Recorder where
  staged  : List Rec := []
  lostBef : Bool := false
  area0   : List Rec := []
  copyQ   : List Rec := []
  area1   : List Rec := []
  area2   : List Rec := []
  clrMask : Nat := 0
  clrRec  : Option Nat := none
  /-- a record has been refused a place in area 0 since its last clear -/
  pref    : Bool := false
  flSeq   : Nat := 0
  flHours : Nat := 0
  flSec   : Nat := 0
  flCycle : Nat := 0
  deriving DecidableEq, Repr

/-- R143: an arrival presented at a Seam and not yet in the core's holding list. -/
structure Arrival where
  holder : Nat
  h      : Held
  deriving DecidableEq, Repr

/-- R459: a fabric packet. `data` holds the payload words, `dl` their locks; `vcH` the H channel of its class (R457). -/
structure Pkt where
  hop    : List Nat := []
  ptr    : Nat := 0
  nhop   : Nat := 0
  srcDev : Nat := 0
  dstDev : Nat := 0
  ty     : Nat := 0
  tag    : Nat := 0
  ep     : Nat := 0
  ep2    : Nat := 0
  d0     : Bool := false
  loc    : Nat := 0
  aux    : Nat := 0
  key    : Nat := 0
  chk    : Nat := 0
  key0   : Bool := false
  op     : Nat := 0
  sz     : Bool := false
  lkonly : Bool := false
  woff   : Nat := 0
  elock  : Nat := 0
  data   : BitVec 512 := 0
  dl     : BitVec 64 := 0
  vcH    : Bool := false
  deriving DecidableEq, Repr

/-- Who waits behind a fabric tag (R472): a core's load or atomic, a posted store, a GlobalCached fill or writeback, an
engine's job, a send-ring entry. -/
inductive FOrig where
  | core (c : Nat)
  | post (c : Nat)
  | fill (c : Nat)
  | wb (t : Nat)
  | job (h : Nat)
  | ring (n idx : Nat)
  deriving DecidableEq, Repr

/-- R472: a tag in use: originator, the device-time bound after which it expires, target device and line, domain. -/
structure FTag where
  tag  : Nat
  orig : FOrig
  till : Nat
  dev  : Nat
  line : Nat
  dom  : Nat
  deriving DecidableEq, Repr

/-- R407, R409: who issued an outbound transaction to the host; `gone`: its originator no longer wants the answer. -/
inductive HOrig where
  | core (c : Nat)
  | keeper (h : Nat)
  | gone
  | meter
  | ring (r : Nat)
  | msix (src : Nat)
  deriving DecidableEq, Repr

/-- R407: an outbound transaction as the endpoint accepted it: host address, bytes and (for a write) data, No Snoop. -/
structure OutReq where
  orig  : HOrig
  write : Bool
  addr  : Nat
  len   : Nat
  data  : List Nat
  ns    : Bool
  deriving DecidableEq, Repr

/-- R408, R411: a transmitted read awaiting completion, with the time it expires. -/
structure HTag where
  tag  : Nat
  req  : OutReq
  till : Nat
  deriving DecidableEq, Repr

/-- What the endpoint puts on the link: an outbound request (a read carries its tag), or the completion of an inbound
read: data, and whether EP or Unsupported Request is set; `retry`: Request Retry Status. -/
inductive TlpBody where
  | req (r : OutReq) (tag : Nat)
  | cpl (data : List Nat) (ep ur retry : Bool)
  deriving DecidableEq, Repr

/-- A TLP on the link with its attribute bits Relaxed Ordering and ID-Based Ordering (R182). -/
structure Tlp where
  body : TlpBody
  ro   : Bool
  ido  : Bool
  deriving DecidableEq, Repr

/-- R403: an MSI-X table entry. -/
structure MsixE where
  addr  : Nat := 0
  upper : Nat := 0
  data  : Nat := 0
  mask  : Bool := true
  deriving DecidableEq, Repr

/-- R454 to R475: a Flamon port beyond its registers: packets waiting for credits, the hold, unacknowledged frames
(VC, flit) with their first SEQ, the next SEQ to send and expected, the packet being assembled per VC, credits held
for the partner's inputs. -/
structure Port where
  q      : List Pkt := []
  /-- how many packets at the head of `q` came from the hold, and the input last served on each VC (16: injected here) -/
  first  : Nat := 0
  rr     : List Nat := [0, 0, 0, 0]
  hold   : List (Pkt × Nat) := []
  unack  : List (Nat × BitVec 288) := []
  /-- when each of them was last sent (ns) -/
  sentAt : List Nat := []
  txSeq  : Nat := 0
  rxSeq  : Nat := 0
  nak    : Bool := false
  tries  : Nat := 0
  asm    : List (Nat × List (BitVec 288)) := []
  cred   : List Nat := [32, 32, 32, 32]
  /-- credits to return per VC, and the frames put on the link -/
  ret    : List Nat := [0, 0, 0, 0]
  out    : List (BitVec 336) := []
  deriving DecidableEq, Repr

/-- R427: a descriptor. `rsv`: a reserved byte or bit is not zero. -/
structure Desc where
  op    : Nat := 0
  flags : Nat := 0
  rsv   : Bool := false
  tag   : Nat := 0
  dom   : Nat := 0
  tile  : Nat := 0
  p     : List Nat := []
  deriving DecidableEq, Repr

/-- R429: the command a ring is executing: `phase` 0 fetched, above 0 in progress; `at_` when it started (ns); `aux` the
tiles it holds (R430); `todo` what it has still to act on; `res` its RESULT so far; `err` a failure to report; `orphan`:
its ring was reset (R431). -/
structure Cmd where
  d      : Desc
  idx    : Nat
  phase  : Nat := 0
  at_    : Nat := 0
  aux    : List Nat := []
  todo   : List Nat := []
  res    : Nat := 0
  err    : Nat := 0
  orphan : Bool := false
  deriving DecidableEq, Repr

/-- R445: an engine job: host ring or tenant ring it came from, the domain charged or owning, bytes read and written, bytes
read and not yet written, and what it waits for (0 nothing, 1 a remote read, 2 a remote write). -/
structure Job where
  d    : Desc
  idx  : Nat
  ring : Nat
  ten  : Bool
  dom  : Nat
  spos : Nat := 0
  dpos : Nat := 0
  buf  : List Nat := []
  wait : Nat := 0
  part : Nat := 0
  stop : Bool := false
  deriving DecidableEq, Repr

/-- R440, R452: one compression engine: its host queue, the running job, and the requester served last (0 the host queue,
t + 1 tenant ring t). -/
structure Engine where
  hostq : List Job := []
  run   : Option Job := none
  last  : Nat := 0
  deriving DecidableEq, Repr

/-- R485 to R490: what a hive power controller keeps of a tile's entry: the state being entered, when preparation began,
the ring that waits, a latched core or command wake, and whether the island is returning after a service wake. -/
structure TilePwr where
  goal : Nat := 0
  at_  : Nat := 0
  ring : Option Nat := none
  core : Bool := false
  back : Bool := false
  /-- the CODE a frequency change in progress goes to (R89) -/
  clk  : Nat := 64
  deriving DecidableEq, Repr

/-- R494: the mode change in progress: its ring, code, arguments, start, timeout, and the hives yet to answer the phase. -/
structure ModeOp where
  ring : Nat
  code : Nat
  args : List Nat
  at_  : Nat
  tout : Nat
  wait : List Nat
  deriving DecidableEq, Repr

/-- R371 to R377: the open period of a domain. -/
structure MPer where
  isOpen  : Bool := false
  start   : Nat := 0
  first   : Bool := false
  migr    : Bool := false
  merged  : Bool := false
  part    : Bool := false
  tset    : Bool := false
  faulted : Bool := false
  deriving DecidableEq, Repr

/-- R377: a formed record waiting for the ring; `endP`: it is the last of its period. -/
structure MRec where
  bytes : List Nat
  endP  : Bool
  deriving DecidableEq, Repr

/-- R521, R536 to R545: contacts and what they hold. Inputs: straps, rails in tolerance (bit 0 VIN_MAIN, 1 VIN_MEM, 2
VIN_IO, 3 VAUX), POR_N, FLASH_OWN_N, PWRLIM_N (true: high). `inPor`: held in power-on reset. -/
structure Pins where
  pairDef  : Bool := false
  selftest : Bool := false
  bistFull : Bool := false
  rails    : Nat := 15
  porN     : Bool := true
  flashN   : Bool := true
  limN     : Bool := true
  trip     : Bool := false
  inPor    : Bool := false
  tapIr    : Nat := 0
  tapOut   : Nat := 0
  bsr      : List Bool := []
  smbus    : List Nat := []
  deriving DecidableEq, Repr

/-- R28, R528, R529: one-time fuses: KEYGEN bits blown, enrolled digests by slot, revoked slots, rollback counters. -/
structure Fuses where
  keygen : Nat := 0
  digest : List (Nat × Nat) := []
  revoked : List Nat := []
  roll   : List (Nat × Nat) := []
  deriving DecidableEq, Repr

end Sys2Proof.Machine
end

