-- ==== Sys2Proof/Machine/Operands.lean ====
section
/-! DEFINITION. Pure operand arithmetic: integer operations (R101 to R103), atomic operations (R109), vector lanes and
their operations (R118, R119), lock matching (R152), and byte and word access inside a line. -/

namespace Sys2Proof.Machine

def sext32 (x : W32) : W64 := x.signExtend 64
def lo32 (x : W64) : W32 := x.truncate 32

/-- R101, R102. Division by zero and the overflow case give the values R102 states. -/
def divS (a b : W64) : W64 := if b = 0 then BitVec.allOnes 64 else a.sdiv b
def divU (a b : W64) : W64 := if b = 0 then BitVec.allOnes 64 else a / b
def remS (a b : W64) : W64 := if b = 0 then a else a.srem b
def remU (a b : W64) : W64 := if b = 0 then a else a % b
def mulHS (a b : W64) : W64 := BitVec.ofInt 64 (a.toInt * b.toInt / 2 ^ 64)
def mulHU (a b : W64) : W64 := BitVec.ofNat 64 (a.toNat * b.toNat / 2 ^ 64)
def minS (a b : W64) : W64 := if b.slt a then b else a
def maxS (a b : W64) : W64 := if a.slt b then b else a
def minU (a b : W64) : W64 := if b.ult a then b else a
def maxU (a b : W64) : W64 := if a.ult b then b else a
def clz64 (a : W64) : W64 := BitVec.ofNat 64 (64 - bitLen a.toNat)
/-- Count of trailing zeros: of zero, 64 (R102). -/
def ctz64 (a : W64) : W64 :=
  if a = 0 then 64 else BitVec.ofNat 64 (Nat.log2 (a &&& (0 - a)).toNat)
def popc64 (a : W64) : W64 :=
  BitVec.ofNat 64 ((List.range 64).foldl (fun n i => if a.getLsbD i then n + 1 else n) 0)
/-- R101 BSWAP. -/
def bswap64 (a : W64) : W64 :=
  (List.range 8).foldl (fun r i => r ||| (((a >>> (8 * i)) &&& 0xFF) <<< (8 * (7 - i)))) 0

/-- R103: wide immediates; `h` is H. -/
def wideImm (h : Bool) (imm : BitVec 16) : W64 := (imm.zeroExtend 64) <<< (if h then 16 else 0)
/-- R103 LIK and LIKU: replace 16 bits at `lo`, keep the rest. -/
def insert16 (old : W64) (lo : Nat) (imm : BitVec 16) : W64 :=
  (old &&& ~~~((0xFFFF : W64) <<< lo)) ||| ((imm.zeroExtend 64) <<< lo)

/-- Sign or zero extension of the low `n` bytes of a value to 64 bits (R106). -/
def extend (n : Nat) (sx : Bool) (v : Nat) : W64 :=
  let m := v % 2 ^ (8 * n)
  if sx && m ≥ 2 ^ (8 * n - 1) then BitVec.ofInt 64 ((m : Int) - 2 ^ (8 * n)) else BitVec.ofNat 64 m

/-- R109: the new memory value on operands of `n` bytes (as naturals below 2^(8n)). -/
def atomNew (op : AtomOp) (n : Nat) (old opnd cmp : Nat) : Nat :=
  let m := 2 ^ (8 * n)
  let s (x : Nat) : Int := if x ≥ m / 2 then (x : Int) - m else x
  let a := old % m
  let b := opnd % m
  match op with
  | .swap => b
  | .cas => if a = cmp % m then b else a
  | .add => (a + b) % m
  | .and => a &&& b
  | .or => a ||| b
  | .xor => a ^^^ b
  | .min => if s b < s a then b else a
  | .max => if s a < s b then b else a
  | .minu => if b < a then b else a
  | .maxu => if a < b then b else a

/-- R152: key `k` matches lock `l`. -/
def lockMatch (lk : LockReq) (l : Nat) : Bool :=
  l == 0 || lk.key == l || (lk.key == 0 && lk.key0)

/-- Lock `i` (of word i) of a line's locks. -/
def lockAt (locks : BitVec 64) (i : Nat) : Nat := (locks >>> (4 * i)).toNat % 16

/-- Replace lock `i`. -/
def setLock (locks : BitVec 64) (i : Nat) (v : Nat) : BitVec 64 :=
  (locks &&& ~~~((0xF : BitVec 64) <<< (4 * i))) ||| (BitVec.ofNat 64 (v % 16) <<< (4 * i))

/-- The words a span of `n` bytes at line offset `off` touches. -/
def spanWords (off n : Nat) : List Nat :=
  (List.range ((off + n - 1) / 4 + 1 - off / 4)).map (· + off / 4)

/-- R156: the first word of the span whose lock mismatches. -/
def lockMiss (lk : LockReq) (locks : BitVec 64) (off n : Nat) : Option (Nat × Nat) :=
  if lk.mode = .off then none
  else ((spanWords off n).find? (fun i => !(lockMatch lk (lockAt locks i)))).map
    (fun i => (i, lockAt locks i))

/-- R165: some code word of the span is poisoned. -/
def spanPoison (poison : BitVec 8) (off n : Nat) : Bool :=
  (List.range ((off + n - 1) / 8 + 1 - off / 8)).any (fun i => poison.getLsbD (i + off / 8))

/-- The `n` bytes at line offset `off`, little-endian (R14). -/
def LineD.read (d : LineD) (off n : Nat) : Nat := (d.data >>> (8 * off)).toNat % 2 ^ (8 * n)

/-- Write `n` bytes; the locks stay (R150). -/
def LineD.write (d : LineD) (off n v : Nat) : LineD :=
  let mask : BitVec 512 := BitVec.ofNat 512 (2 ^ (8 * n) - 1) <<< (8 * off)
  { d with data := (d.data &&& ~~~mask) ||| ((BitVec.ofNat 512 v <<< (8 * off)) &&& mask) }

/-- Lane `i` of width `w` (R118). -/
def lane (v : W256) (w i : Nat) : Nat := (v >>> (w * i)).toNat % 2 ^ w
def setLane (v : W256) (w i x : Nat) : W256 :=
  (v &&& ~~~(BitVec.ofNat 256 (2 ^ w - 1) <<< (w * i))) ||| (BitVec.ofNat 256 (x % 2 ^ w) <<< (w * i))
/-- Build a register lane by lane. -/
def lanesOf (w n : Nat) (f : Nat → Nat) : W256 :=
  (List.range n).foldl (fun acc i => acc ||| (BitVec.ofNat 256 (f i % 2 ^ w) <<< (w * i))) 0
/-- The same, collecting flags. -/
def lanesFF (w n : Nat) (f : Nat → Nat × FF) : W256 × FF :=
  (List.range n).foldl (fun (acc : W256 × FF) i =>
    let (x, ff) := f i
    (acc.1 ||| (BitVec.ofNat 256 (x % 2 ^ w) <<< (w * i)), acc.2 ||| ff)) (0, 0)

/-- R118: element types. -/
inductive VTy where
  | i8 | i16 | i32 | i64 | f16 | f32 | f64
  deriving DecidableEq, Repr

def VTy.width : VTy → Nat
  | .i8 => 8 | .i16 => 16 | .i32 => 32 | .i64 => 64 | .f16 => 16 | .f32 => 32 | .f64 => 64
def VTy.lanes (t : VTy) : Nat := 256 / t.width
def VTy.isF : VTy → Bool | .f16 | .f32 | .f64 => true | _ => false
def VTy.fmt : VTy → Fmt | .f16 => Machine.f16 | .f32 => Machine.f32 | _ => Machine.f64

def laneInt (w x : Nat) : Int := if x ≥ 2 ^ (w - 1) then (x : Int) - 2 ^ w else x

/-- R119 VINT on one lane of width `w`. -/
def vintOp (op w a b : Nat) : Nat :=
  let m := 2 ^ w
  let t (c : Bool) : Nat := if c then m - 1 else 0
  match op with
  | 0 => (a + b) % m
  | 1 => (a + m - b) % m
  | 2 => a * b % m
  | 3 => if laneInt w b < laneInt w a then b else a
  | 4 => if laneInt w a < laneInt w b then b else a
  | 5 => min a b
  | 6 => max a b
  | 7 => a &&& b
  | 8 => a ||| b
  | 9 => a ^^^ b
  | 10 => a &&& (m - 1 - b)
  | 11 => a * 2 ^ (b % w) % m
  | 12 => a / 2 ^ (b % w)
  | 13 => ((laneInt w a / 2 ^ (b % w)) % m).toNat
  | 14 => t (a == b)
  | _ => t (decide (laneInt w b < laneInt w a))

/-- R119 VSUM, VMAXR, VMINR: `kind` 0 sum, 1 maximum, 2 minimum, lanes in ascending order. -/
def vreduce (t : VTy) (rm : RM) (kind : Nat) (a : W256) : Nat × FF :=
  let w := t.width
  let step (x y : Nat) : Nat × FF :=
    if t.isF then
      (match kind with
       | 0 => fpAdd t.fmt rm x y
       | 1 => fpMinMax t.fmt true x y
       | _ => fpMinMax t.fmt false x y)
    else
      (match kind with
       | 0 => vintOp 0 w x y
       | 1 => vintOp 4 w x y
       | _ => vintOp 3 w x y, 0)
  (List.range (t.lanes - 1)).foldl
    (fun (acc : Nat × FF) i => let (x, ff) := step acc.1 (lane a w (i + 1)); (x, acc.2 ||| ff))
    (lane a w 0, 0)

end Sys2Proof.Machine
end

