-- ==== Sys2Proof/Syntax.lean ====
section
/-! DEFINITION. The commands: one constructor per row of spec/opcode_table.json, with the row's operands. -/

namespace Sys2Proof
open Sys2Proof.Machine

/-- Who executes an instruction both profiles have (R91): a P-core or a keeper core. -/
inductive Agent where
  | core (c : Nat)
  | keeper (h : Nat)
  deriving DecidableEq, Repr

/-- The commands of the block. `c` names a core, `h` a hive, `n` and `t` a tile, `L` a line number, `pr` the predicate
field (R97). -/
inductive Instr where
  /-- R101: Integer add of two registers. -/
  | add (a : Agent) (pr : BitVec 4) (rd : BitVec 5) (ra : BitVec 5) (rb : BitVec 5)
  /-- R101: Integer subtract of two registers. -/
  | sub (a : Agent) (pr : BitVec 4) (rd : BitVec 5) (ra : BitVec 5) (rb : BitVec 5)
  /-- R101: Bitwise AND of two registers. -/
  | and (a : Agent) (pr : BitVec 4) (rd : BitVec 5) (ra : BitVec 5) (rb : BitVec 5)
  /-- R101: Bitwise OR of two registers. -/
  | or (a : Agent) (pr : BitVec 4) (rd : BitVec 5) (ra : BitVec 5) (rb : BitVec 5)
  /-- R101: Bitwise XOR of two registers. -/
  | xor (a : Agent) (pr : BitVec 4) (rd : BitVec 5) (ra : BitVec 5) (rb : BitVec 5)
  /-- R101: AND with the complement of rb. -/
  | andn (a : Agent) (pr : BitVec 4) (rd : BitVec 5) (ra : BitVec 5) (rb : BitVec 5)
  /-- R101: OR with the complement of rb. -/
  | orn (a : Agent) (pr : BitVec 4) (rd : BitVec 5) (ra : BitVec 5) (rb : BitVec 5)
  /-- R101: Logical shift left by rb[5:0]. -/
  | sll (a : Agent) (pr : BitVec 4) (rd : BitVec 5) (ra : BitVec 5) (rb : BitVec 5)
  /-- R101: Logical shift right by rb[5:0]. -/
  | srl (a : Agent) (pr : BitVec 4) (rd : BitVec 5) (ra : BitVec 5) (rb : BitVec 5)
  /-- R101: Arithmetic shift right by rb[5:0]. -/
  | sra (a : Agent) (pr : BitVec 4) (rd : BitVec 5) (ra : BitVec 5) (rb : BitVec 5)
  /-- R101: Rotate right by rb[5:0]. -/
  | ror (a : Agent) (pr : BitVec 4) (rd : BitVec 5) (ra : BitVec 5) (rb : BitVec 5)
  /-- R101: 32-bit add, sign-extended. -/
  | addW (a : Agent) (pr : BitVec 4) (rd : BitVec 5) (ra : BitVec 5) (rb : BitVec 5)
  /-- R101: 32-bit subtract, sign-extended. -/
  | subW (a : Agent) (pr : BitVec 4) (rd : BitVec 5) (ra : BitVec 5) (rb : BitVec 5)
  /-- R101: 32-bit shift left, sign-extended. -/
  | sllW (a : Agent) (pr : BitVec 4) (rd : BitVec 5) (ra : BitVec 5) (rb : BitVec 5)
  /-- R101: 32-bit logical shift right, sign-extended. -/
  | srlW (a : Agent) (pr : BitVec 4) (rd : BitVec 5) (ra : BitVec 5) (rb : BitVec 5)
  /-- R101: 32-bit arithmetic shift right, sign-extended. -/
  | sraW (a : Agent) (pr : BitVec 4) (rd : BitVec 5) (ra : BitVec 5) (rb : BitVec 5)
  /-- R101: Low 64 bits of a product. -/
  | mul (a : Agent) (pr : BitVec 4) (rd : BitVec 5) (ra : BitVec 5) (rb : BitVec 5)
  /-- R101: High 64 bits of a signed product. -/
  | mulh (a : Agent) (pr : BitVec 4) (rd : BitVec 5) (ra : BitVec 5) (rb : BitVec 5)
  /-- R101: High 64 bits of an unsigned product. -/
  | mulhu (a : Agent) (pr : BitVec 4) (rd : BitVec 5) (ra : BitVec 5) (rb : BitVec 5)
  /-- R102: Signed divide with the defined zero and overflow results. -/
  | div (a : Agent) (pr : BitVec 4) (rd : BitVec 5) (ra : BitVec 5) (rb : BitVec 5)
  /-- R102: Unsigned divide; division by zero gives all ones. -/
  | divu (a : Agent) (pr : BitVec 4) (rd : BitVec 5) (ra : BitVec 5) (rb : BitVec 5)
  /-- R102: Signed remainder with the sign of ra. -/
  | rem (a : Agent) (pr : BitVec 4) (rd : BitVec 5) (ra : BitVec 5) (rb : BitVec 5)
  /-- R102: Unsigned remainder; by zero returns ra. -/
  | remu (a : Agent) (pr : BitVec 4) (rd : BitVec 5) (ra : BitVec 5) (rb : BitVec 5)
  /-- R101: Signed minimum of two registers. -/
  | min (a : Agent) (pr : BitVec 4) (rd : BitVec 5) (ra : BitVec 5) (rb : BitVec 5)
  /-- R101: Signed maximum of two registers. -/
  | max (a : Agent) (pr : BitVec 4) (rd : BitVec 5) (ra : BitVec 5) (rb : BitVec 5)
  /-- R101: Unsigned minimum of two registers. -/
  | minu (a : Agent) (pr : BitVec 4) (rd : BitVec 5) (ra : BitVec 5) (rb : BitVec 5)
  /-- R101: Unsigned maximum of two registers. -/
  | maxu (a : Agent) (pr : BitVec 4) (rd : BitVec 5) (ra : BitVec 5) (rb : BitVec 5)
  /-- R102: Count leading zeros; zero gives 64. -/
  | clz (a : Agent) (pr : BitVec 4) (rd : BitVec 5) (ra : BitVec 5)
  /-- R102: Count trailing zeros; zero gives 64. -/
  | ctz (a : Agent) (pr : BitVec 4) (rd : BitVec 5) (ra : BitVec 5)
  /-- R101: Count one bits. -/
  | popc (a : Agent) (pr : BitVec 4) (rd : BitVec 5) (ra : BitVec 5)
  /-- R101: Sign-extend the low byte. -/
  | sextB (a : Agent) (pr : BitVec 4) (rd : BitVec 5) (ra : BitVec 5)
  /-- R101: Sign-extend the low 16 bits. -/
  | sextH (a : Agent) (pr : BitVec 4) (rd : BitVec 5) (ra : BitVec 5)
  /-- R101: Sign-extend the low 32 bits. -/
  | sextW (a : Agent) (pr : BitVec 4) (rd : BitVec 5) (ra : BitVec 5)
  /-- R101: Zero-extend the low 32 bits. -/
  | zextW (a : Agent) (pr : BitVec 4) (rd : BitVec 5) (ra : BitVec 5)
  /-- R101: Reverse the 8 bytes of ra. -/
  | bswap (a : Agent) (pr : BitVec 4) (rd : BitVec 5) (ra : BitVec 5)
  /-- R103: Add sign-extended immediate. -/
  | addi (a : Agent) (pr : BitVec 4) (rd : BitVec 5) (ra : BitVec 5) (imm : BitVec 12)
  /-- R103: AND with sign-extended immediate. -/
  | andi (a : Agent) (pr : BitVec 4) (rd : BitVec 5) (ra : BitVec 5) (imm : BitVec 12)
  /-- R103: OR with sign-extended immediate. -/
  | ori (a : Agent) (pr : BitVec 4) (rd : BitVec 5) (ra : BitVec 5) (imm : BitVec 12)
  /-- R103: XOR with sign-extended immediate. -/
  | xori (a : Agent) (pr : BitVec 4) (rd : BitVec 5) (ra : BitVec 5) (imm : BitVec 12)
  /-- R103: 32-bit add immediate, sign-extended. -/
  | addiW (a : Agent) (pr : BitVec 4) (rd : BitVec 5) (ra : BitVec 5) (imm : BitVec 12)
  /-- R103: Shift left by immediate. -/
  | slli (a : Agent) (pr : BitVec 4) (rd : BitVec 5) (ra : BitVec 5) (sh : BitVec 6)
  /-- R103: Logical shift right by immediate. -/
  | srli (a : Agent) (pr : BitVec 4) (rd : BitVec 5) (ra : BitVec 5) (sh : BitVec 6)
  /-- R103: Arithmetic shift right by immediate. -/
  | srai (a : Agent) (pr : BitVec 4) (rd : BitVec 5) (ra : BitVec 5) (sh : BitVec 6)
  /-- R103: Rotate right by immediate. -/
  | rori (a : Agent) (pr : BitVec 4) (rd : BitVec 5) (ra : BitVec 5) (sh : BitVec 6)
  /-- R103: 32-bit shift left by immediate. -/
  | slliW (a : Agent) (pr : BitVec 4) (rd : BitVec 5) (ra : BitVec 5) (sh : BitVec 5)
  /-- R103: 32-bit logical shift right by immediate. -/
  | srliW (a : Agent) (pr : BitVec 4) (rd : BitVec 5) (ra : BitVec 5) (sh : BitVec 5)
  /-- R103: 32-bit arithmetic shift right by immediate. -/
  | sraiW (a : Agent) (pr : BitVec 4) (rd : BitVec 5) (ra : BitVec 5) (sh : BitVec 5)
  /-- R103: Load a zero-extended 16-bit immediate at a 16-bit position. -/
  | liz (a : Agent) (pr : BitVec 4) (rd : BitVec 5) (h : Bool) (imm : BitVec 16)
  /-- R103: Load the complement of a shifted 16-bit immediate. -/
  | lin (a : Agent) (pr : BitVec 4) (rd : BitVec 5) (h : Bool) (imm : BitVec 16)
  /-- R103: Insert 16 bits into the low half, keeping other bits. -/
  | lik (a : Agent) (pr : BitVec 4) (rd : BitVec 5) (h : Bool) (imm : BitVec 16)
  /-- R103: Insert 16 bits into the high half, keeping other bits. -/
  | liku (a : Agent) (pr : BitVec 4) (rd : BitVec 5) (h : Bool) (imm : BitVec 16)
  /-- R103: PC page plus shifted immediate. -/
  | addpc (a : Agent) (pr : BitVec 4) (rd : BitVec 5) (imm : BitVec 17)
  /-- R104: Register compare writing a predicate under the CM mode. -/
  | cmp (c : Nat) (pr : BitVec 4) (pd : BitVec 3) (cm : CMode) (ra : BitVec 5) (rb : BitVec 5) (w : Bool) (cond : Cond)
  /-- R104: Immediate compare writing a predicate under the CM mode. -/
  | cmpi (c : Nat) (pr : BitVec 4) (pd : BitVec 3) (cm : CMode) (ra : BitVec 5) (imm : BitVec 12) (cond : Cond)
  /-- R104: Predicate AND with optional negations. -/
  | pand (c : Nat) (pr : BitVec 4) (pd : BitVec 3) (pa : BitVec 3) (na : Bool) (pb : BitVec 3) (nb : Bool)
  /-- R104: Predicate OR with optional negations. -/
  | por (c : Nat) (pr : BitVec 4) (pd : BitVec 3) (pa : BitVec 3) (na : Bool) (pb : BitVec 3) (nb : Bool)
  /-- R104: Predicate XOR with optional negations. -/
  | pxor (c : Nat) (pr : BitVec 4) (pd : BitVec 3) (pa : BitVec 3) (na : Bool) (pb : BitVec 3) (nb : Bool)
  /-- R104: Copy the predicate file into a general register. -/
  | ptog (c : Nat) (pr : BitVec 4) (rd : BitVec 5)
  /-- R104: Copy general register bits into predicates p1-p7. -/
  | gtop (c : Nat) (pr : BitVec 4) (ra : BitVec 5)
  /-- R106: Load a zero-extended byte. -/
  | ldB (a : Agent) (pr : BitVec 4) (rd : BitVec 5) (ra : BitVec 5) (imm : BitVec 12)
  /-- R106: Load a sign-extended byte. -/
  | ldBs (a : Agent) (pr : BitVec 4) (rd : BitVec 5) (ra : BitVec 5) (imm : BitVec 12)
  /-- R106: Load zero-extended 16 bits. -/
  | ldH (a : Agent) (pr : BitVec 4) (rd : BitVec 5) (ra : BitVec 5) (imm : BitVec 12)
  /-- R106: Load sign-extended 16 bits. -/
  | ldHs (a : Agent) (pr : BitVec 4) (rd : BitVec 5) (ra : BitVec 5) (imm : BitVec 12)
  /-- R106: Load zero-extended 32 bits. -/
  | ldW (a : Agent) (pr : BitVec 4) (rd : BitVec 5) (ra : BitVec 5) (imm : BitVec 12)
  /-- R106: Load sign-extended 32 bits. -/
  | ldWs (a : Agent) (pr : BitVec 4) (rd : BitVec 5) (ra : BitVec 5) (imm : BitVec 12)
  /-- R106: Load 64 bits. -/
  | ldD (a : Agent) (pr : BitVec 4) (rd : BitVec 5) (ra : BitVec 5) (imm : BitVec 12)
  /-- R107: Indexed or acquire load. -/
  | ldx (a : Agent) (pr : BitVec 4) (rd : BitVec 5) (ra : BitVec 5) (rb : BitVec 5) (size : BitVec 3) (sc : Bool) (aq : Bool)
  /-- R106: Store a byte. -/
  | stB (a : Agent) (pr : BitVec 4) (rd : BitVec 5) (ra : BitVec 5) (imm : BitVec 12)
  /-- R106: Store 16 bits. -/
  | stH (a : Agent) (pr : BitVec 4) (rd : BitVec 5) (ra : BitVec 5) (imm : BitVec 12)
  /-- R106: Store 32 bits. -/
  | stW (a : Agent) (pr : BitVec 4) (rd : BitVec 5) (ra : BitVec 5) (imm : BitVec 12)
  /-- R106: Store 64 bits. -/
  | stD (a : Agent) (pr : BitVec 4) (rd : BitVec 5) (ra : BitVec 5) (imm : BitVec 12)
  /-- R107: Indexed or release store. -/
  | stx (a : Agent) (pr : BitVec 4) (rd : BitVec 5) (ra : BitVec 5) (rb : BitVec 5) (size : BitVec 2) (sc : Bool) (rl : Bool)
  /-- R161: Set the lock of one word. -/
  | stlkW (c : Nat) (pr : BitVec 4) (rd : BitVec 5) (ra : BitVec 5)
  /-- R161: Set all 16 locks of a line atomically. -/
  | stlkL (c : Nat) (pr : BitVec 4) (rd : BitVec 5) (ra : BitVec 5)
  /-- R161: Read the lock of one word. -/
  | ldlkW (c : Nat) (pr : BitVec 4) (rd : BitVec 5) (ra : BitVec 5)
  /-- R161: Read the 16 locks of a line. -/
  | ldlkL (c : Nat) (pr : BitVec 4) (rd : BitVec 5) (ra : BitVec 5)
  /-- R108: Insert a key from a register into a pointer. -/
  | key (c : Nat) (pr : BitVec 4) (rd : BitVec 5) (ra : BitVec 5) (rb : BitVec 5)
  /-- R108: Insert an immediate key into a pointer. -/
  | keyi (c : Nat) (pr : BitVec 4) (rd : BitVec 5) (ra : BitVec 5) (k : BitVec 4)
  /-- R109: Atomic swap. -/
  | atmSwap (a : Agent) (pr : BitVec 4) (rd : BitVec 5) (ra : BitVec 5) (rb : BitVec 5) (ord : BitVec 2) (sz : Bool)
  /-- R109: Atomic compare-and-swap. -/
  | atmCas (a : Agent) (pr : BitVec 4) (rd : BitVec 5) (ra : BitVec 5) (rb : BitVec 5) (ord : BitVec 2) (sz : Bool)
  /-- R109: Atomic add. -/
  | atmAdd (a : Agent) (pr : BitVec 4) (rd : BitVec 5) (ra : BitVec 5) (rb : BitVec 5) (ord : BitVec 2) (sz : Bool)
  /-- R109: Atomic AND. -/
  | atmAnd (a : Agent) (pr : BitVec 4) (rd : BitVec 5) (ra : BitVec 5) (rb : BitVec 5) (ord : BitVec 2) (sz : Bool)
  /-- R109: Atomic OR. -/
  | atmOr (a : Agent) (pr : BitVec 4) (rd : BitVec 5) (ra : BitVec 5) (rb : BitVec 5) (ord : BitVec 2) (sz : Bool)
  /-- R109: Atomic XOR. -/
  | atmXor (a : Agent) (pr : BitVec 4) (rd : BitVec 5) (ra : BitVec 5) (rb : BitVec 5) (ord : BitVec 2) (sz : Bool)
  /-- R109: Atomic signed minimum. -/
  | atmMin (a : Agent) (pr : BitVec 4) (rd : BitVec 5) (ra : BitVec 5) (rb : BitVec 5) (ord : BitVec 2) (sz : Bool)
  /-- R109: Atomic signed maximum. -/
  | atmMax (a : Agent) (pr : BitVec 4) (rd : BitVec 5) (ra : BitVec 5) (rb : BitVec 5) (ord : BitVec 2) (sz : Bool)
  /-- R109: Atomic unsigned minimum. -/
  | atmMinu (a : Agent) (pr : BitVec 4) (rd : BitVec 5) (ra : BitVec 5) (rb : BitVec 5) (ord : BitVec 2) (sz : Bool)
  /-- R109: Atomic unsigned maximum. -/
  | atmMaxu (a : Agent) (pr : BitVec 4) (rd : BitVec 5) (ra : BitVec 5) (rb : BitVec 5) (ord : BitVec 2) (sz : Bool)
  /-- R177: Orders older loads before younger loads. -/
  | fenceLl (a : Agent) (pr : BitVec 4)
  /-- R177: Orders older loads before younger stores. -/
  | fenceLs (a : Agent) (pr : BitVec 4)
  /-- R177: Orders older stores before younger loads. -/
  | fenceSl (a : Agent) (pr : BitVec 4)
  /-- R177: Orders older stores before younger stores. -/
  | fenceSs (a : Agent) (pr : BitVec 4)
  /-- R177: Full fence of all four orderings. -/
  | fence (a : Agent) (pr : BitVec 4)
  /-- R178: Waits for all older accesses of every type to complete. -/
  | fenceIo (a : Agent) (pr : BitVec 4)
  /-- R111: Completion barrier that restarts fetch. -/
  | sync (a : Agent) (pr : BitVec 4)
  /-- R81: Drains stores, invalidates L1I and restarts fetch. -/
  | syncI (a : Agent) (pr : BitVec 4)
  /-- R244: Writes back a dirty line, keeping it valid. -/
  | clWb (c : Nat) (pr : BitVec 4) (ra : BitVec 5)
  /-- R110: Discards a GlobalCached line, or acts as CL.WBI otherwise. -/
  | clInv (c : Nat) (pr : BitVec 4) (ra : BitVec 5)
  /-- R244: Writes back and removes a line. -/
  | clWbi (c : Nat) (pr : BitVec 4) (ra : BitVec 5)
  /-- R112: Read prefetch hint. -/
  | prefR (c : Nat) (pr : BitVec 4) (ra : BitVec 5)
  /-- R112: Write prefetch hint. -/
  | prefW (c : Nat) (pr : BitVec 4) (ra : BitVec 5)
  /-- R113: PC-relative branch. -/
  | b (c : Nat) (pr : BitVec 4) (imm : BitVec 22)
  /-- R113: PC-relative call writing g31. -/
  | bl (c : Nat) (pr : BitVec 4) (imm : BitVec 22)
  /-- R113: Indirect jump. -/
  | jr (c : Nat) (pr : BitVec 4) (ra : BitVec 5)
  /-- R113: Indirect call with link. -/
  | jalr (c : Nat) (pr : BitVec 4) (rd : BitVec 5) (ra : BitVec 5)
  /-- R113: Return to g31. -/
  | ret (c : Nat) (pr : BitVec 4)
  /-- R133: Supervisor call trap (keeper system call). -/
  | calls (a : Agent) (pr : BitVec 4) (code : BitVec 10)
  /-- R133: Monitor call trap. -/
  | callm (c : Nat) (pr : BitVec 4) (code : BitVec 10)
  /-- R133: Breakpoint trap. -/
  | brk (a : Agent) (pr : BitVec 4) (code : BitVec 10)
  /-- R135: Return from trap to saved PC and level. -/
  | tret (a : Agent) (pr : BitVec 4)
  /-- R148: Stops issuing until an event is held or a timer pending. -/
  | waitev (a : Agent) (pr : BitVec 4)
  /-- R224: Invalidates stage-1 entries for a virtual address. -/
  | tlbiVa (c : Nat) (pr : BitVec 4) (ra : BitVec 5)
  /-- R224: Invalidates non-global combined entries. -/
  | tlbiAll (c : Nat) (pr : BitVec 4)
  /-- R224: Invalidates all combined entries. -/
  | tlbiAllg (c : Nat) (pr : BitVec 4)
  /-- R224: Invalidates entries derived from a DPA. -/
  | tlbiS2 (c : Nat) (pr : BitVec 4) (ra : BitVec 5)
  /-- R224: Invalidates every TLB structure entry. -/
  | tlbiS2all (c : Nat) (pr : BitVec 4)
  /-- R117: Exchange a control register. -/
  | crx (a : Agent) (pr : BitVec 4) (rd : BitVec 5) (ra : BitVec 5) (cr : BitVec 12)
  /-- R117: Read and set bits of a control register. -/
  | crset (a : Agent) (pr : BitVec 4) (rd : BitVec 5) (ra : BitVec 5) (cr : BitVec 12)
  /-- R117: Read and clear bits of a control register. -/
  | crclr (a : Agent) (pr : BitVec 4) (rd : BitVec 5) (ra : BitVec 5) (cr : BitVec 12)
  /-- R119: Vector integer operation selected by OP. -/
  | vint (c : Nat) (pr : BitVec 4) (vd : BitVec 5) (va : BitVec 5) (vb : BitVec 5) (ty : VTy) (op : BitVec 4)
  /-- R119: Vector floating-point operation selected by OP. -/
  | vfp (c : Nat) (pr : BitVec 4) (vd : BitVec 5) (va : BitVec 5) (vb : BitVec 5) (ty : VTy) (op : BitVec 4)
  /-- R120: Scalar floating-point operation on lane 0. -/
  | fps (c : Nat) (pr : BitVec 4) (vd : BitVec 5) (va : BitVec 5) (vb : BitVec 5) (ty : VTy) (op : BitVec 4)
  /-- R119: Fused multiply-add. -/
  | vfma (c : Nat) (pr : BitVec 4) (vd : BitVec 5) (va : BitVec 5) (vb : BitVec 5) (vc : BitVec 5) (ft : BitVec 2)
  /-- R119: Fused multiply-subtract. -/
  | vfms (c : Nat) (pr : BitVec 4) (vd : BitVec 5) (va : BitVec 5) (vb : BitVec 5) (vc : BitVec 5) (ft : BitVec 2)
  /-- R122: 32-byte vector load. -/
  | vld (c : Nat) (pr : BitVec 4) (vd : BitVec 5) (ra : BitVec 5) (imm : BitVec 12)
  /-- R122: 32-byte vector store. -/
  | vst (c : Nat) (pr : BitVec 4) (vd : BitVec 5) (ra : BitVec 5) (imm : BitVec 12)
  /-- R119: Scalar vector element load or store. -/
  | vls (c : Nat) (pr : BitVec 4) (vd : BitVec 5) (ra : BitVec 5) (st : Bool) (sz : BitVec 2) (imm : BitVec 9)
  /-- R119: Lane select by mask. -/
  | vsel (c : Nat) (pr : BitVec 4) (vd : BitVec 5) (va : BitVec 5) (vb : BitVec 5) (ty : VTy)
  /-- R119: Broadcast a general register to every lane. -/
  | vbcast (c : Nat) (pr : BitVec 4) (vd : BitVec 5) (ra : BitVec 5) (ty : VTy)
  /-- R119: Insert a general register into a lane. -/
  | vins (c : Nat) (pr : BitVec 4) (vd : BitVec 5) (ra : BitVec 5) (n : BitVec 5) (ty : VTy)
  /-- R119: Extract a lane to a general register. -/
  | vext (c : Nat) (pr : BitVec 4) (rd : BitVec 5) (va : BitVec 5) (n : BitVec 5) (ty : VTy)
  /-- R119: Permute lanes. -/
  | vperm (c : Nat) (pr : BitVec 4) (vd : BitVec 5) (va : BitVec 5) (vb : BitVec 5) (ty : VTy)
  /-- R119: Sum across lanes. -/
  | vsum (c : Nat) (pr : BitVec 4) (vd : BitVec 5) (va : BitVec 5) (ty : VTy)
  /-- R119: Maximum across lanes. -/
  | vmaxr (c : Nat) (pr : BitVec 4) (vd : BitVec 5) (va : BitVec 5) (ty : VTy)
  /-- R119: Minimum across lanes. -/
  | vminr (c : Nat) (pr : BitVec 4) (vd : BitVec 5) (va : BitVec 5) (ty : VTy)
  /-- R119: Integer to floating-point conversion. -/
  | vcvtIf (c : Nat) (pr : BitVec 4) (vd : BitVec 5) (va : BitVec 5) (ty : VTy)
  /-- R119: Floating-point to saturated integer conversion. -/
  | vcvtFi (c : Nat) (pr : BitVec 4) (vd : BitVec 5) (va : BitVec 5) (ty : VTy)
  /-- R119: Widen floating-point lanes. -/
  | vcvtW (c : Nat) (pr : BitVec 4) (vd : BitVec 5) (va : BitVec 5) (ty : VTy)
  /-- R119: Narrow floating-point lanes. -/
  | vcvtN (c : Nat) (pr : BitVec 4) (vd : BitVec 5) (va : BitVec 5) (ty : VTy)
  /-- R119: Vector register move. -/
  | vmov (c : Nat) (pr : BitVec 4) (vd : BitVec 5) (va : BitVec 5) (ty : VTy)
  /-- R119: Set a predicate from lane 0. -/
  | vpred (c : Nat) (pr : BitVec 4) (pd : BitVec 3) (va : BitVec 5) (ty : VTy)
  /-- R125: Keeper conditional branch with delay slot. -/
  | bc (h : Nat) (sk : Bool) (cond : Cond) (ka : BitVec 5) (kb : BitVec 5) (off : BitVec 12)
  /-- R125: Keeper jump with delay slot. -/
  | j (h : Nat) (sk : Bool) (off : BitVec 22)
  /-- R124: Keeper jump and link with delay slot. -/
  | jl (h : Nat) (sk : Bool) (off : BitVec 22)
  /-- R124: Keeper register jump with optional link. -/
  | jx (h : Nat) (sk : Bool) (kd : BitVec 5) (ka : BitVec 5)
  /-- R71: Non-registering fetch of a line into the L1I, wrong path included. -/
  | instructionFetch (c : Nat) (va : W64) (f : FetchOp)
  /-- R57: A branch resolves; on misprediction younger work is squashed and fetch restarts. -/
  | branchResolve (c : Nat) (b : Resolved)
  /-- R78: A parked overlapping load reissues after the marked store writes L1D. -/
  | loadReissue (c : Nat)
  /-- R79: A store address becomes known and squashes an overlapping younger load. -/
  | storeAddressResolve (c : Nat) (va : W64) (n : Nat) (acc : Acc) (older : Nat)
  /-- R76: The head of the store buffer writes L1D, with the late lock check. -/
  | storeBufferWrite (c : Nat)
  /-- R214: Translation walk reading table entries after a TLB miss. -/
  | tableWalk (c : Nat) (x : SpecAt) (acc : Acc)
  /-- R216: Compare-and-swap setting A or D in a stage-1 leaf at the commit point. -/
  | markSwap (c : Nat) (va : W64) (acc : Acc)
  /-- R160: Reply to a posted Device or Global store arrives; a refusal writes a FAR record. -/
  | deviceStoreReply (c : Nat) (tag : Nat)
  /-- R143: An event presented at the tile Seam enters the core's holding list. -/
  | eventArrival (src : Nat)
  /-- R83: An enabled held event or timer is recognised and unretired work squashed. -/
  | interruptRecognition (c : Nat)
  /-- R133: The interrupt is taken once committed instructions have retired. -/
  | interruptEntry (c : Nat)
  /-- R140: TIME reaches S_TCMP or M_TCMP and the timer becomes pending. -/
  | timerMatch (c : Nat) (m : Bool)
  /-- R323: K_TIME reaches K_TCMP and the keeper timer becomes pending. -/
  | keeperTimerMatch (h : Nat)
  /-- R88: Write of TARGET starts a frequency change or sets BADCODE. -/
  | tilClkCtlWrite (n : Nat) (v : W32)
  /-- R89: The island PLL locks at the new frequency and the clock restarts. -/
  | pllLock (n : Nat)
  /-- R492: Island voltage ramp completes before or after a frequency change. -/
  | voltageReached (n : Nat)
  /-- R540: Periodic junction sensor read every 10 µs. -/
  | sensorRead (h : Nat) (tj : Nat) (tmem : Nat) (da : Nat)
  /-- R540: Periodic lowering or recovery of PWR_HCAP.CAP. -/
  | capStep (h : Nat)
  /-- R246: Shared read request at the home. -/
  | rdS (r : Nat) (x : ArrRead)
  /-- R246: Ownership read request at the home. -/
  | rdO (r : Nat) (L : Nat)
  /-- R246: Upgrade request at the home. -/
  | upg (r : Nat) (L : Nat)
  /-- R255: Speculative read served without state change or answered NOT_SERVED. -/
  | rdSpec (c : Nat) (x : SpecAcc)
  /-- R256: Stamp check at the home answered GRANT or REPLAY. -/
  | promote (c : Nat) (L : Nat)
  /-- R246: Instruction fetch read served with DATA kind NONE. -/
  | rdFetch (r : Nat) (L : Nat)
  /-- R246: Uncached read at the home. -/
  | rdNc (g : Nat) (L : Nat) (dom : Nat)
  /-- R254: Uncached write with byte mask and lock policy at the home. -/
  | wrNc (g : Nat) (L : Nat) (dom : Nat) (wr : WrReq)
  /-- R254: Atomic executed at the home after invalidating every copy. -/
  | atomic (g : Nat) (dom : Nat) (at_ : AtomReq)
  /-- R246: Clean flush request, optionally dropping the requester. -/
  | flush (r : Nat) (L : Nat)
  /-- R246: Writeback of a line at the home, answered by WB_ACK. -/
  | wb (r : Nat) (L : Nat)
  /-- R245: Forward for a shared copy answered by the owner. -/
  | fwdS (t : Nat) (L : Nat)
  /-- R245: Forward for ownership answered by the owner. -/
  | fwdO (t : Nat) (L : Nat)
  /-- R245: Forward sending DATA kind NONE without state change. -/
  | fwdPeek (t : Nat) (L : Nat)
  /-- R245: Invalidation answered by INV_ACK or NOT_PRESENT. -/
  | inv (t : Nat) (L : Nat)
  /-- R244: Data reply installing a line at the requester. -/
  | data (t : Nat) (L : Nat)
  /-- R244: Grant reply installing state without data. -/
  | grant (t : Nat) (L : Nat)
  /-- R64: SPEC refused; the load waits for its commit point. -/
  | notServed (c : Nat) (L : Nat)
  /-- R65: Promote refused; covered loads replay. -/
  | replay (c : Nat) (L : Nat)
  /-- R252: Owner's acknowledgement of a forward at the home. -/
  | ownerAck (t : Nat) (L : Nat)
  /-- R253: Acknowledgement of an invalidation at the home. -/
  | invAck (t : Nat) (L : Nat)
  /-- R263: Stale holder answer treated as a completed invalidation. -/
  | notPresent (t : Nat) (L : Nat)
  /-- R257: Owner reports a writeback in flight; home awaits the WB data. -/
  | wbInflight (t : Nat) (L : Nat)
  /-- R244: Writeback acknowledged; tile leaves WBP or KP. -/
  | wbAck (t : Nat) (L : Nat)
  /-- R244: Flush acknowledged; CL instruction completes. -/
  | flushAck (t : Nat) (L : Nat)
  /-- R254: Uncached write completion at the sender. -/
  | wrDone (g : Nat) (L : Nat)
  /-- R249: Requester's completion closing a home transaction. -/
  | complete (t : Nat) (L : Nat)
  /-- R244: Tile evicts a line silently or by WB kind EVICT. -/
  | l2Eviction (t : Nat) (x : ArrRead)
  /-- R249: Next pending request for a line opens its transaction after a close. -/
  | pendingRestart (L : Nat)
  /-- R262: Oldest retry-queue request restarts when a way of its set unpins. -/
  | retryRestart (n : Nat)
  /-- R242: Slice EPOCH advances every 2^20 mesh cycles. -/
  | epochAdvance (n : Nat)
  /-- R265: A coherence message unanswered for 1 ms is fatal. -/
  | silenceTimeout (L : Nat)
  /-- R270: A router forwards a header flit and returns a credit. -/
  | flitArrival (n : Nat) (p : Nat) (f : FlitOp)
  /-- R277: Write of an NI route entry, staged or checked and applied. -/
  | routeEntryWrite (ni : Nat) (idx : Nat) (o : Nat) (size : Nat) (v : W64)
  /-- R279: Apply the default route to every entry of the NI. -/
  | tilNiCtlDefault (ni : Nat)
  /-- R279: Port enable write, accepted only while quiesced, else WERR. -/
  | tilRtrPortEnWrite (n : Nat) (v : Nat)
  /-- R279: Zero the router corrected-flit counter. -/
  | tilRtrClr (n : Nat)
  /-- R239: Zero the six home counters. -/
  | tilHomeClr (n : Nat)
  /-- R282: Mode command stopping VN0 injection and draining the mesh. -/
  | meshQuiesce (r : Nat)
  /-- R282: All homes and buffers empty; STATE becomes QUIESCED. -/
  | quiesceDrained
  /-- R282: Mode command checking all routes against new enables. -/
  | meshRelease (r : Nat)
  /-- R282: Release check ends: RUNNING, or QUIESCED with MESH_CHECK. -/
  | releaseCheckDone
  /-- R434: Mode change of TIL_LLC_CLASS in all slices. -/
  | modeLlcClass (r : Nat)
  /-- R434: Mode change of MEM_TRAIN_CTL on all channels. -/
  | modeTrainCtl (r : Nat)
  /-- R434: Mode change of MEM_RDIST_CTL on all channels. -/
  | modeRdistCtl (r : Nat)
  /-- R434: Mode change of MEM_FORAGE_STEP on all channels. -/
  | modeForageStep (r : Nat)
  /-- R497: Mode change of lock registers of a domain range. -/
  | modeLockctl (r : Nat)
  /-- R494: Hive controller checks its items and answers READY or REFUSE. -/
  | prepare (h : Nat)
  /-- R494: Prepare timeout expires; commit and abort sent. -/
  | modeTimeout
  /-- R494: Hive controller applies its items and answers; completion when all answered. -/
  | commit (h : Nat)
  /-- R494: Hive controller discards its preparation. -/
  | abort (h : Nat)
  /-- R288: Channel accepts a home read or write into its queue. -/
  | channelRequestAccept (ch : Nat)
  /-- R290: Scheduler issues a read, write or read-modify-write to a free bank. -/
  | bankOperation (ch : Nat) (L : Nat) (rd : Bool)
  /-- R305: Targeted refresh of a row group completes; bank serves again. -/
  | targetedRefreshDone (ch : Nat) (bank : Nat)
  /-- R306: A domain's bank throttle ends after THR_US. -/
  | throttleExpiry (ch : Nat) (bank : Nat) (dom : Nat)
  /-- R304: Row-group counters return to zero every 32 ms. -/
  | groupCounterReset (ch : Nat)
  /-- R287: Per-bank refresh falls due each interval. -/
  | refresh (ch : Nat) (bank : Nat) (busy : Bool)
  /-- R301: Periodic retraining starts and pauses the channel. -/
  | retraining (ch : Nat)
  /-- R303: Retraining ends; FAILS cleared or advanced, failed state at 3. -/
  | retrainingDone (ch : Nat) (conv : Bool) (len : Nat)
  /-- R302: Defer or cancel retraining. -/
  | memTrainDeferWrite (ch : Nat) (v : W32)
  /-- R302: Deferral expires or is capped; due retraining starts. -/
  | deferralEnd (ch : Nat)
  /-- R313: New INTERVAL moves the next due time or sets BADVAL. -/
  | memTrainCtlWrite (ch : Nat) (v : W32)
  /-- R299: KEEP bits discard or restore segments; FSKIP clears. -/
  | memPasrCtlWrite (ch : Nat) (v : W32)
  /-- R300: A request wakes a channel out of self-refresh by itself. -/
  | selfRefreshWake (ch : Nat)
  /-- R300: Self-refresh exit with retraining completes. -/
  | selfRefreshExitDone (ch : Nat) (conv : Bool) (len : Nat)
  /-- R309: Forager reads the next covered line each STEP and corrects it. -/
  | foragerRead (ch : Nat)
  /-- R313: Scrub range entry write; Forager moves on if its line is removed. -/
  | memScrubRangeWrite (ch : Nat) (k : Nat) (v : W64)
  /-- R311: Correctable bucket leaks 1 each LEAK_MS. -/
  | ceLeak (ch : Nat)
  /-- R312: Zero the channel counters except the bucket. -/
  | memClrCounters (ch : Nat)
  /-- R312: Zero the bucket and set ARMED. -/
  | memClrBucket (ch : Nat)
  /-- R314: Another agent's access to keeper SRAM through the window. -/
  | keeperWindowAccess (h : Nat) (off : Nat) (size : Nat) (wr : Bool) (v : W64)
  /-- R321: Reply to a keeper mesh access arrives, or is discarded if late. -/
  | keeperMeshReply (h : Nat)
  /-- R321: A keeper mesh access unanswered for K_MTO traps. -/
  | keeperAccessTimeout (h : Nat)
  /-- R321: Quarantined keeper mesh tag becomes free. -/
  | keeperTagRelease (h : Nat)
  /-- R329: Keeper takes an event or timer interrupt at an issue boundary. -/
  | keeperInterrupt (h : Nat)
  /-- R334: HIV_KCTL.RESTART resets the keeper and reloads firmware. -/
  | keeperRestart (h : Nat)
  /-- R334: Restarted firmware verified and started, or IMAGE_FAILED. -/
  | keeperRestartDone (h : Nat)
  /-- R333: HIV_KMOD_CMD load starts verifying a module image. -/
  | moduleLoad (h : Nat)
  /-- R333: Module verification ends with its status. -/
  | moduleLoadDone (h : Nat)
  /-- R334: HIV_KMOD_CMD unload removes the module. -/
  | moduleUnload (h : Nat)
  /-- R343: Comparators disagree on an output; the pair stops. -/
  | cuffMismatch (t : Nat) (group : Nat) (syn : W64) (fault : Bool) (diff : List (Nat × BitVec 8))
  /-- R341: Asynchronous input latched, checked and presented to both cores. -/
  | agreementExchange (t : Nat) (tries : Nat)
  /-- R345: CUF_CTL.REARM write starts recovery of a stopped tile or sets WERR. -/
  | rearm (t : Nat)
  /-- R345: Rearm actions finish and STOPPED clears. -/
  | rearmDone (t : Nat)
  /-- R349: Command joining a tile's cores into a pair. -/
  | pairJoin (r : Nat)
  /-- R349: Command splitting a pair into independent cores. -/
  | pairSplit (r : Nat)
  /-- R349: Sync point reached; hand-over steps run and completion posts. -/
  | handoverSync (n : Nat)
  /-- R347: Core 1 not idle within CUF_HTO; join ends CORE1_TIMEOUT. -/
  | cufHtoExpiry (n : Nat)
  /-- R358: Create a domain and open its period. -/
  | create (r : Nat)
  /-- R435: Publish a stage-2 change, with optional shootdown and job wait. -/
  | map (r : Nat)
  /-- R433: Add or remove tiles of a domain's tile set. -/
  | assignTiles (r : Nat)
  /-- R432: Pass software sources to a domain. -/
  | assignEvents (r : Nat)
  /-- R432: Give a domain a fabric endpoint range. -/
  | assignEp (r : Nat)
  /-- R363: Start a CREATED domain on its free tiles. -/
  | start (r : Nat)
  /-- R366: Stop a running domain on its tiles and lower their power. -/
  | park (r : Nat)
  /-- R367: Wake or switch in a PARKED domain's tiles. -/
  | resume (r : Nat)
  /-- R368: Stop a domain and return it to FREE. -/
  | stop (r : Nat)
  /-- R363: Switch a tile to another domain through context slots. -/
  | switch (r : Nat)
  /-- R369: Write a parked domain's migration image and free it. -/
  | migrateOut (r : Nat)
  /-- R436: Create a PARKED domain from a migration image. -/
  | migrateIn (r : Nat)
  /-- R445: Engine copy job. -/
  | copy (h : Nat) (n : Nat)
  /-- R442: Engine fill job writing whole code words. -/
  | fill (h : Nat) (n : Nat)
  /-- R447: Engine compression into a UKCZ container. -/
  | compress (h : Nat) (n : Nat)
  /-- R449: Engine decompression with container checks. -/
  | decompress (h : Nat) (n : Nat)
  /-- R434: POWER subop 0 writes a tile's TARGET. -/
  | powerClockTarget (r : Nat)
  /-- R434: POWER subop 1 writes KEEP on all channels. -/
  | powerSegmentKeep (r : Nat)
  /-- R489: POWER subop 2 enters self-refresh channel by channel. -/
  | powerSelfRefreshEntry (r : Nat)
  /-- R434: POWER subop 3 exits self-refresh. -/
  | powerSelfRefreshExit (r : Nat)
  /-- R477: POWER subop 4 changes Flamon port low-power state. -/
  | powerLinkState (r : Nat) (part : Nat) (leave : Nat)
  /-- R483: POWER subop 5 enters a free tile into a power state. -/
  | powerTileEntry (r : Nat)
  /-- R434: POWER subop 6 wakes a free tile to T0. -/
  | powerTileWake (r : Nat)
  /-- R372: Write period and bands, optionally closing every period. -/
  | meterCfg (r : Nat)
  /-- R462: Write fabric route entries from DRAM. -/
  | routeSet (r : Nat)
  /-- R432: Set or invalidate a scrub range on all channels. -/
  | scrubRange (r : Nat)
  /-- R373: Load device time and close periods with TIMESET. -/
  | timeSet (r : Nat)
  /-- R531: Self-test 0x01 of a tile's arrays. -/
  | arrayBist (r : Nat)
  /-- R531: Self-test 0x02 re-running the Cuff injection test. -/
  | cuffInjectionTest (r : Nat)
  /-- R531: Self-test 0x03 of an LLC and directory slice. -/
  | sliceBist (r : Nat)
  /-- R531: Self-test 0x04 of a whole stack. -/
  | marchTest (r : Nat)
  /-- R531: Self-test 0x05 of keeper SRAM, ending in a restart. -/
  | keeperSramBist (r : Nat)
  /-- R531: Self-test 0x06 of a compression engine. -/
  | enginePatternTest (r : Nat)
  /-- R531: Self-test 0x07 internal loopback of a Flamon port. -/
  | portLoopback (r : Nat)
  /-- R530: Self-test 0x10 starts a retraining on named channels. -/
  | retrainNow (r : Nat)
  /-- R530: Thermal sensor calibration, periodic or by self-test 0x11. -/
  | sensorCalibration (r : Nat)
  /-- R531: A running self-test completes and posts its result. -/
  | selfTestDone (r : Nat) (pass : Bool) (st : BitVec 4) (cnt : BitVec 32) (gp : BitVec 7)
  /-- R373: Period boundary closes every open period and forms records. -/
  | periodBoundary
  /-- R377: Meter writes backlog records to the host ring. -/
  | recordWrite
  /-- R377: Write of MTR_CTL.EN, restarting backlog writes. -/
  | mtrCtlWrite (v : W32)
  /-- R377: Write of the meter ring base, restarting backlog writes. -/
  | mtrRingBaseWrite (v : W64)
  /-- R377: TAIL write accepted within range or BADVAL set. -/
  | mtrRingTailWrite (v : W32)
  /-- R379: Write of 1 to HOSTERR clears it and retries at once. -/
  | hosterrClear
  /-- R153: Zero a domain's lock log SEQ and counters. -/
  | domLockclr (d : Nat)
  /-- R358: Context base write accepted only in FREE or CREATED. -/
  | domCtxbaseWrite (d : Nat) (v : W64)
  /-- R389: Domain-0 write triggering a software source. -/
  | evtTrig (src : Nat)
  /-- R390: Store to a tenant trigger page triggering an owned source. -/
  | trig (n : Nat) (dom : Nat) (v : Nat)
  /-- R394: Write of EVT_STAT.PEND triggering any source. -/
  | pendSet (src : Nat)
  /-- R394: Write of EVT_STAT.CLRP clearing PEND. -/
  | clrp (src : Nat)
  /-- R387: Write of 1 to a CAUSE bit clears it. -/
  | causeClear (src : Nat) (mask : Nat)
  /-- R383: Source configuration write, ignored with BADTGT on a bad target. -/
  | evtCfgWrite (src : Nat) (v : Nat)
  /-- R384: Designated core write moving pending sources. -/
  | evtDesigWrite (d : Nat) (v : Nat)
  /-- R395: Trigger page owner write, also zeroing BAD. -/
  | evtTpgWrite (n : Nat) (v : Nat)
  /-- R392: Home hub presents an eligible source to a core or keeper. -/
  | presentation (src : Nat)
  /-- R393: MSI-X message of a TKIND 3 source sent through the outbound queue. -/
  | msixMessage (src : Nat)
  /-- R398: Configuration read or write at the endpoint. -/
  | configurationRequest (off : Nat) (wr : Bool) (be : BitVec 4) (v : W32)
  /-- R402: Inbound read of device control space through BAR0. -/
  | bar0Read (off : Nat) (len : Nat)
  /-- R402: Inbound write of device control space through BAR0. -/
  | bar0Write (off : Nat) (len : Nat) (v : W64)
  /-- R405: Inbound DRAM read through an inbound window. -/
  | bar2Read (off : Nat) (len : Nat)
  /-- R405: Inbound DRAM write through an inbound window. -/
  | bar2Write (off : Nat) (data : List (BitVec 8)) (be : List Bool)
  /-- R412: Completion for an outbound read arrives, or is discarded if quarantined. -/
  | hostCompletion (tag : Nat) (status : Nat) (data : List (BitVec 8))
  /-- R411: Outbound read expires and ends with SUB 1. -/
  | completionTimeout (tag : Nat)
  /-- R412: Quarantined outbound tag becomes free after 2T. -/
  | tagQuarantineEnd (tag : Nat)
  /-- R413: Link down, disable, Hot Reset or PERST_N enters containment. -/
  | dlActiveLoss (kind : Nat)
  /-- R413: Data Link Protocol Error enters containment. -/
  | dataLinkProtocolError
  /-- R413: Flow Control Protocol Error enters containment. -/
  | flowControlProtocolError
  /-- R413: Receiver Overflow enters containment. -/
  | receiverOverflow
  /-- R413: Malformed TLP enters containment. -/
  | malformedTlp
  /-- R413: Endpoint internal error enters containment. -/
  | uncorrectableInternalError
  /-- R416: HEP_DV_CTL.RELEASE write starting release or setting RELERR. -/
  | release
  /-- R416: Release propagated; STATE NORMAL and backlogs resume. -/
  | releaseDone
  /-- R417: Bus Master Enable cleared; outbound requests end with SUB 3. -/
  | busMasterEnableClear
  /-- R417: Bus Master Enable set again; held work resumes. -/
  | busMasterEnableSet
  /-- R400: Function enters D3hot and issues no outbound request. -/
  | d3hotEntry
  /-- R418: FLR resets the endpoint, windows, rings and meter ring. -/
  | functionLevelReset
  /-- R418: FLR ends; configuration requests served and source 1002 raised. -/
  | flrDone
  /-- R407: Inbound window entry write, staged or applied. -/
  | hepIwinWrite (w : Nat) (o : Nat) (size : Nat) (v : W64)
  /-- R407: Outbound window entry write, staged or applied. -/
  | hepOwinWrite (w : Nat) (o : Nat) (size : Nat) (v : W64)
  /-- R420: Zero the endpoint counters. -/
  | hepClr
  /-- R425: Doorbell write producing descriptors, or BADDB. -/
  | cmdRingDb (r : Nat) (v : W32)
  /-- R425: Completion tail write, or BADDB. -/
  | cmdCqTail (r : Nat) (v : W32)
  /-- R426: RESTART of a HALTED or HELD_CONT ring. -/
  | cmdRingRestart (r : Nat)
  /-- R426: Enabling or disabling a command ring. -/
  | cmdRingEnWrite (r : Nat) (v : W32)
  /-- R429: Command processor fetches and starts the next descriptor. -/
  | descriptorFetch (r : Nat)
  /-- R424: Zero CMD_LOST. -/
  | cmdClr
  /-- R435: Monitor acknowledgement write in a mailbox. -/
  | cmdMonack (c : Nat) (v : W32)
  /-- R435: Mailbox unacknowledged within CMD_MONTO; MAP completes. -/
  | monitorTimeout (r : Nat)
  /-- R451: Tenant ring doorbell write. -/
  | trDb (h : Nat) (t : Nat) (v : W32)
  /-- R451: Tenant ring completion tail write. -/
  | trTail (h : Nat) (t : Nat) (v : W32)
  /-- R451: Resume a HALTED tenant ring. -/
  | trRestart (h : Nat) (t : Nat)
  /-- R440: Engine picks the next job round-robin and starts it. -/
  | engineJobStart (h : Nat)
  /-- R453: Zero the engine counters. -/
  | cmpClr (h : Nat)
  /-- R455: Link frame checked, acknowledged or NAKed. -/
  | frameReceive (p : Nat) (frame : BitVec 336)
  /-- R455: Received NAK triggers replay of unacknowledged frames. -/
  | nak (p : Nat)
  /-- R455: Frame unacknowledged for 1,024 link cycles is replayed. -/
  | replayTimeout (p : Nat)
  /-- R476: Link lost; port DOWN and frames discarded. -/
  | linkLoss (p : Nat)
  /-- R476: Port reaches UP and releases its hold. -/
  | linkUp (p : Nat)
  /-- R466: Remote line read admitted and served. -/
  | rdLine (k : Nat)
  /-- R466: Remote whole-line write with carried locks. -/
  | wrLine (k : Nat)
  /-- R466: Remote partial or lock-only write. -/
  | wrPart (k : Nat)
  /-- R466: Remote atomic executed at the home. -/
  | fabAtomic (k : Nat)
  /-- R471: Fabric message delivered to an endpoint's receive ring. -/
  | msg (k : Nat)
  /-- R466: Remote read reply at the requester. -/
  | rdRsp (k : Nat)
  /-- R467: Remote write or message acknowledgement. -/
  | ack (k : Nat)
  /-- R467: Remote atomic reply with old value. -/
  | atomRsp (k : Nat)
  /-- R467: Error reply with STATUS. -/
  | err (k : Nat)
  /-- R461: Route-unavailable reply ends the request. -/
  | routeUnavail (k : Nat)
  /-- R463: Packet in transit forwarded to its next port. -/
  | transitForward
  /-- R472: Fabric request expires and its tag is quarantined. -/
  | remoteTimeout (tag : Nat)
  /-- R472: Quarantined fabric tag becomes free after 2T. -/
  | remoteTagRelease (tag : Nat)
  /-- R474: DRAIN = 1 stops credits and holds packets for the port. -/
  | drain (p : Nat)
  /-- R474: Port becomes DRAINED. -/
  | drainDone (p : Nat)
  /-- R474: DRAIN = 0 returns a drained port to UP. -/
  | undrain (p : Nat)
  /-- R476: Retrain a drained link. -/
  | retrain (p : Nat)
  /-- R475: Held packet dropped after FAB_HOLD. -/
  | holdExpiry (p : Nat)
  /-- R458: Device number written, and locked by LOCK. -/
  | fabDevnumWrite (v : W32)
  /-- R480: Copy a route entry into FAB_RT_DATA. -/
  | fabRtIdxWrite (v : W32)
  /-- R465: Inbound fabric window entry write, staged or applied. -/
  | fabRwinWrite (n : Nat) (o : Nat) (size : Nat) (v : W64)
  /-- R470: Send ring doorbell write. -/
  | sqDb (n : Nat) (v : W32)
  /-- R470: Resume a HALTED send ring. -/
  | sqRestart (n : Nat)
  /-- R469: Send ring entry fetched and sent as MSG. -/
  | sendRingFetch (n : Nat)
  /-- R479: Zero the fabric interface counters. -/
  | fabClr
  /-- R481: Zero a port's counters. -/
  | fabPortClr (p : Nat)
  /-- R485: Power entry reaches its commit point or aborts. -/
  | preparationEnd (t : Nat)
  /-- R485: Preparation exceeds 4 µs and aborts. -/
  | preparationTimeout (t : Nat)
  /-- R487: Tile reaches its power state, exiting at once if a wake is latched. -/
  | stateReached (t : Nat)
  /-- R488: Core or command wake begins exit of a tile in T1-T3. -/
  | wake (t : Nat)
  /-- R490: Forward or invalidation raises only the L2 and Seam. -/
  | serviceWake (t : Nat)
  /-- R490: Island returns to its state after a service wake. -/
  | serviceReturnDone (t : Nat)
  /-- R482: Tile reaches T0 after exit. -/
  | exitDone (t : Nat)
  /-- R500: Zero hive power counters and tile wake counters. -/
  | pwrHclr (h : Nat)
  /-- R501: Zero device power counters. -/
  | pwrClr
  /-- R503: Counter control write, ignored with BADEV if invalid. -/
  | pmcCtlWrite (set : Nat) (n : Nat) (k : Nat) (v : W32)
  /-- R507: Counter passes 2^48-1, sets OVF and may trigger or chain. -/
  | counterWrap (set : Nat) (n : Nat) (k : Nat) (inc : Nat)
  /-- R507: PMC_GCTL.FREEZE stops every counter. -/
  | freeze (on : Bool)
  /-- R509: Zero every counter value and OVF. -/
  | clrall
  /-- R514: Recorder accepts a record into area 1 and stages area 0 copy. -/
  | recordAccept
  /-- R514: Record copied to area 0 flash with PERSIST. -/
  | persistentCopy (err : Bool)
  /-- R515: Area 1 flushed to area 2 and ER_FLUSHINFO written. -/
  | flushDone
  /-- R518: Select and copy a record into the window. -/
  | erCursorWrite (v : W64)
  /-- R518: Read of ER_WINDOW[7] with AUTOINC advances the cursor. -/
  | erWindowAutoinc
  /-- R519: Keyed clear of areas 0 and 2 starts. -/
  | erClr (v : W32)
  /-- R519: Clear ends; area-cleared record written to area 0. -/
  | clearDone
  /-- R517: Operating hours, SEQ and PCYCLE saved to flash every 60 s. -/
  | ophoursSave
  /-- R524: POR_N release with rails in tolerance starts boot. -/
  | powerOnReset
  /-- R522: DEVRST_N held low starts a device reset and boot. -/
  | deviceReset (pairDef : Bool) (selftest : Bool) (bistFull : Bool)
  /-- R532: Keyed write starting a device reset. -/
  | bootCtl (v : W32)
  /-- R524: Boot reaches step 9 and the command processor becomes ready. -/
  | bootDone (chFail : Nat) (tests : List (Nat × BitVec 7)) (ms : Nat)
  /-- R528: Keyed enrolment of a key slot digest. -/
  | secEnroll (slot : BitVec 2) (key : BitVec 8)
  /-- R528: Keyed revocation of a key slot. -/
  | secRevoke (slot : BitVec 2) (key : BitVec 8)
  /-- R528: Raise a rollback counter. -/
  | secRollWrite (n : Nat) (v : W32)
  /-- R529: Blow the next KEYGEN bit for the next reset. -/
  | secKeyroll (v : W32)
  /-- R536: Rail 5% low returns the device to power-on reset. -/
  | railMonitorTrip (rail : Nat)
  /-- R540: Junction at 115 °C drives THERMTRIP_N and holds reset. -/
  | thermtrip
  /-- R540: PWRLIM_N low caps every hive at PWR_PWRLIM.CODE. -/
  | pwrlimN (low : Bool)
  /-- R538: PWRWARN_N low saves counters and staged records. -/
  | pwrwarnN
  /-- R545: Programmer takes the flash contacts during reset. -/
  | flashOwnN (low : Bool) (imgs : List (List Nat))
  /-- R543: SMBus command 0x10 returns 12 status bytes. -/
  | smbusBlockRead (code : Nat)
  /-- R544: TAP BYPASS instruction. -/
  | bypass
  /-- R544: TAP IDCODE instruction. -/
  | idcode
  /-- R544: TAP SAMPLE/PRELOAD while POR_N low. -/
  | samplePreload (v : List Bool)
  /-- R544: TAP EXTEST while POR_N low. -/
  | extest
  /-- R15: Write to a register with no behaviour of its own, by field type. -/
  | registerWrite (off : Nat) (size : Nat) (v : W64) (dom : Nat)
  /-- R96: A fetched word that is an illegal encoding, or belongs only to the other profile, takes the illegal-instruction fault whatever its predicate holds. -/
  | illegalInstruction (a : Agent) (word : W32)
  /-- R416: The PCI Express link trains and reaches DL_Active, setting HEP_STAT.LINKUP and HEP_DV_STAT.LINKUP to 1. -/
  | dlActive (speed : Nat) (width : Nat)
  /-- R538: POR_N is driven low while the device runs: cores, engines and links stop, and island regulators turn off within 50 µs. -/
  | porNLow
  /-- R536: The last rail comes within tolerance, so the internal monitors release power-on reset and boot step 1 starts if POR_N is already released. -/
  | railInTolerance (rail : Nat)
  /-- R481: A write of FAB_PORT_CTL.EN holds the port DOWN when 0, or lets it retrain by itself when 1. -/
  | fabPortCtlEn (p : Nat) (en : Bool)
  /-- R453: A write of CMP_TR_CFG sets a tenant ring's EN, DOMAIN and doorbell-page owner, so that the ring is or is not fetched. -/
  | cmpTrCfgWrite (h : Nat) (t : Nat) (v : W32)
  /-- R479: A write of FAB_SQ[n] CFG sets a send ring's EN, DOMAIN, SRCEP and doorbell-page owner, so that the ring is or is not fetched. -/
  | fabSqCfgWrite (n : Nat) (v : W32)
  deriving DecidableEq, Repr

end Sys2Proof
end

