-- ==== Sys2Proof/Machine/State.lean ====
section
/-! DEFINITION. The machine's state, as plain data, and the state right after reset. -/

namespace Sys2Proof.Machine
open Sys2Proof

/-- Reasons for which a step stops. -/
inductive Fault where
  /-- Raised by no command at present: kept for R13, behaviour outside the stated limits. Safe: the machine stops. -/
  | outsideLimits
  deriving DecidableEq, Repr

/-- Reasons for which a step has no meaning. -/
inductive Refusal where
  /-- Raised by a dispatch arm whose command has no meaning yet. Safe: the machine stops. -/
  | notModelled (mnemonic : String)
  deriving DecidableEq, Repr

/-- The whole machine. -/
structure State where
  /-- every field of every control-space register, under `Fld.key`; unlisted: its reset value -/
  csr      : Tbl Nat := []
  /-- device time in ns (R370), read as TIME, K_TIME and MTR_TIME -/
  time     : Nat := 0
  /-- nanoseconds since power-on reset: the count that intervals are measured in, never set by software -/
  ns       : Nat := 0
  /-- the model's own counter of free values used -/
  free     : Nat := 0
  cores    : Tbl Core := []
  keepers  : Tbl Keeper := []
  /-- keeper SRAM, 8-byte words, key `hive * 2^15 + word` (R314) -/
  ksram    : Tbl Nat := []
  /-- keeper SRAM words that are uncorrectable (R314) -/
  ksramBad : List Nat := []
  /-- CORE_ID.DOMAIN: the domain assigned to a tile (R138); 0 none -/
  tileDom  : Tbl Nat := []
  /-- L2 lines, key `tile * 2^64 + line` (GlobalCached lines from 2^60) -/
  caches   : Tbl L2Line := []
  l2plru   : Tbl Nat := []
  dir      : Tbl (Option DirE) := []
  dirPlru  : Tbl Nat := []
  llc      : Tbl (Option LlcE) := []
  llcPlru  : Tbl Nat := []
  setCnt   : Tbl Nat := []
  txns     : List Txn := []
  /-- R234: requests of tiles that R243 gives no state of their own (SPEC, PROMOTE, ATOMIC, FLUSH), not yet answered -/
  outReq   : List Ask := []
  /-- R247: fills accepted at a tile whose set has no way to give yet -/
  fillQ    : List Msg := []
  pendQ    : List Msg := []
  retryQ   : List Msg := []
  msgs     : List Msg := []
  chans    : Tbl Chan := []
  /-- raw 88-bit code words, key local address / 8; unlisted: never written (R298) -/
  dram     : Tbl (Option Nat) := []
  dramEp   : Tbl Nat := []
  devRep   : List DevReply := []
  arrivals : List Arrival := []
  /-- the meter's accumulators of the open periods, key `domain * 64 + item` (R371) -/
  mtr      : Tbl Nat := []
  er       : Recorder := {}
  /-- a tile's island raised for coherence alone (R490): 1 raised -/
  tileSvc  : Tbl Nat := []
  /-- R89 stage of a tile's frequency change: 0 idle, 1 raising voltage, 2 clock stopped, 3 lowering voltage -/
  tileClk  : Tbl Nat := []
  /-- R462 route entries, 128 bits each -/
  routes   : Tbl Nat := []
  ftags    : List FTag := []
  fquar    : List (Nat × Nat) := []
  ports    : Tbl Port := []
  transit  : List Pkt := []
  fabIn    : List Pkt := []
  /-- replies to engines' fabric requests: hive, line read if any, STATUS (R467; 16 for a timeout) -/
  jobRx    : List (Nat × Option LineD × Nat) := []
  /-- R184: the outbound queue -/
  outq     : List OutReq := []
  htags    : List HTag := []
  hquar    : List (Nat × Nat) := []
  /-- what the endpoint has put on the link -/
  tx       : List Tlp := []
  msix     : Tbl MsixE := []
  /-- configuration space, by dword offset (R398, R399); unlisted: `cfgReset` -/
  cfg      : Tbl (Option Nat) := []
  /-- R277, R407: low words staged for table entries, by control-space offset -/
  staged   : Tbl (Option Nat) := []
  /-- R410: when the refusal of host accesses last changed, and what it was before -/
  hepAt    : Nat := 0
  hepWas   : Option Nat := some 3
  /-- commands of the rings, by ring number (R429); reads of descriptors in flight; completions held (R426) -/
  cmds     : Tbl (Option Cmd) := []
  heldC    : Tbl (Option (List Nat)) := []
  engines  : Tbl Engine := []
  /-- tenant descriptors fetched, key `hive * 64 + ring`: the job waiting for or running on the engine -/
  tjobs    : Tbl (Option Job) := []
  /-- 1: the tile is held by a parked domain (R366, R484) -/
  tilePark : Tbl Nat := []
  /-- R345: the domain that a stopped tile was assigned to at its stop -/
  stopDom  : Tbl Nat := []
  tilePwr  : Tbl TilePwr := []
  mode     : Option ModeOp := none
  /-- R271: packets in a router's input buffers, key `(router * 8 + port) * 4 + VN` -/
  meshIn   : Tbl (List MPkt) := []
  /-- R272: the input that an output serves next, under the same key for the output port -/
  meshRr   : Tbl Nat := []
  /-- when the mesh left RUNNING (ns) -/
  meshAt   : Nat := 0
  /-- R283: when the mesh last became QUIESCED, and how long in all it has been QUIESCED or RELEASING (ns) -/
  meshQat  : Nat := 0
  meshIdle : Nat := 0
  /-- R321: how long in all the mesh has been in a state other than RUNNING, up to its last release (ns) -/
  meshHeld : Nat := 0
  /-- R169: records of the lock log not yet written, oldest first -/
  lockQ    : List LogW := []
  mper     : Tbl MPer := []
  backlog  : List MRec := []
  /-- the meter waits for one of R377's causes before it writes again -/
  mstall   : Bool := false
  /-- bands and period in force, and the next boundary (R372, R373) -/
  mbands   : List Nat := [32, 56, 73]
  msec     : Nat := 60
  mbound   : Nat := 60000000000
  /-- R529: the KEYGEN the meter key in use was derived with -/
  mkey     : Option Nat := none
  pins     : Pins := {}
  fuses    : Fuses := {}
  /-- flash images: keeper firmware A and B, monitor A and B (R525) -/
  flash    : List (List Nat) := [[], [], [], []]
  /-- SEC_ENROLL_DATA words staged (R532) -/
  enroll   : Tbl Nat := []
  /-- R345: tiles whose REARM is in progress -/
  rearm    : List Nat := []
  /-- R494: hives that an ABORT is on its way to -/
  aborts   : List Nat := []
  /-- R540: the hottest sensor of each hive (two's complement byte), and since when every condition is clear -/
  temps    : Tbl Nat := []
  clearAt  : Nat := 0
  /-- when a hive's CAP last stepped (R540) -/
  capAt    : Tbl Nat := []
  pending  : List Instr := []
  deriving DecidableEq, Repr

/-- Power-on reset just ended: boot step 1 (R524), every register at the value its map gives. -/
def State.reset : State := {}

end Sys2Proof.Machine
end

