-- ==== Sys2Proof/Machine/Ops.lean ====
section
/-! DEFINITION. The named operations over the state that every family shares: registers, cores, free values, event
triggers (R381, R387), recorder staging (R514) and the outcome of a command. -/

namespace Sys2Proof.Machine
open Sys2Proof

/-- What every meaning answers. -/
abbrev Out := Host.Outcome State Fault Refusal

/-- A command whose precondition does not hold leaves the block as it was (notes/assumptions/4.md, DESIGN CHOICE). -/
def turnedAway (s : State) : Out := .next s

/-- Act when the condition holds, else turn the command away. -/
def whenOk (c : Bool) (s : State) (t : State) : Out := if c then .next t else turnedAway s

/-- A register field's value: never wider than the field. -/
def State.f (s : State) (x : Fld) : Nat := Tbl.get x.reset s.csr x.key % 2 ^ x.w
/-- Set a register field, truncated to its width. -/
def State.setF (s : State) (x : Fld) (v : Nat) : State :=
  { s with csr := Tbl.set x.reset s.csr x.key (v % 2 ^ x.w) }
def State.setFs (s : State) (l : List (Fld × Nat)) : State := l.foldl (fun s p => s.setF p.1 p.2) s
/-- Add to a counter that saturates at all ones. -/
def State.addSat (s : State) (x : Fld) (n : Nat) : State := s.setF x (min (s.f x + n) (2 ^ x.w - 1))
def State.incSat (s : State) (x : Fld) : State := s.addSat x 1
/-- Add to a counter that wraps. -/
def State.incWrap (s : State) (x : Fld) : State := s.setF x (s.f x + 1)

/-- Bit `i` of a natural number. -/
def bitOf (v i : Nat) : Bool := v.testBit i
def setBit (v i : Nat) : Nat := v ||| 2 ^ i
def clrBit (v i : Nat) : Nat := if v.testBit i then v - 2 ^ i else v
/-- Bits [hi:lo]. -/
def bits (v lo w : Nat) : Nat := v / 2 ^ lo % 2 ^ w
def b2n (b : Bool) : Nat := if b then 1 else 0

/-- The next free value, a fresh one for each use. -/
def State.freeVal (s : State) : Nat := Config.freeNat s.free
def State.tickFree (s : State) : State := { s with free := s.free + 1 }

/-- R28: the cores of tile `t` are fuse-disabled. -/
def State.fused (s : State) (t : Nat) : Bool := bitOf (s.f (R.BOOT_TILE_FUSE_DIS (t / 32))) (t % 32)
def State.paired (s : State) (t : Nat) : Bool := s.f (R.CUF_STAT_PAIR t) == 1

/-- R19: a pair takes the number of its core 0. -/
def State.cix (s : State) (c : Nat) : Nat := if s.paired (c / 2) then c / 2 * 2 else c

def State.core (s : State) (c : Nat) : Core := Tbl.get {} s.cores (s.cix c)
def State.setCore (s : State) (c : Nat) (k : Core) : State :=
  { s with cores := Tbl.set {} s.cores (s.cix c) k }
def State.updCore (s : State) (c : Nat) (f : Core → Core) : State := s.setCore c (f (s.core c))

/-- The domain assigned to tile `t`, a 12-bit number. -/
def State.domOf (s : State) (t : Nat) : Nat := Tbl.get 0 s.tileDom t % 4096

/-- General register read: g0 reads zero (R92). -/
def Core.rg (k : Core) (r : Nat) : W64 := if r = 0 then 0 else Tbl.get 0 k.g r
/-- General register write: g0 discards it (R92). -/
def Core.wg (k : Core) (r : Nat) (v : W64) : Core := if r = 0 then k else { k with g := Tbl.set 0 k.g r v }
/-- Predicate read: p0 reads 1 (R92). -/
def Core.rp (k : Core) (i : Nat) : Bool := i == 0 || k.p.getLsbD i
def Core.wp (k : Core) (i : Nat) (b : Bool) : Core :=
  if i = 0 then k else { k with p := (k.p &&& ~~~((1 : BitVec 8) <<< i)) ||| ((if b then 1 else 0) <<< i) }
def Core.rv (k : Core) (i : Nat) : W256 := Tbl.get 0 k.v i
def Core.wv (k : Core) (i : Nat) (x : W256) : Core := { k with v := Tbl.set 0 k.v i x }

/-- R138: the reset value of a control register. -/
def crReset (n : Nat) : W64 := if n = 0x406 ∨ n = 0xC07 then BitVec.allOnes 64 else 0
def Core.cr0 (k : Core) (n : Nat) : W64 := Tbl.get (crReset n) k.cr n
def Core.setCr (k : Core) (n : Nat) (v : W64) : Core := { k with cr := Tbl.set (crReset n) k.cr n v }
/-- Replace bits [lo+w-1:lo] of a word. -/
def putBits (x : W64) (lo w v : Nat) : W64 :=
  (x &&& ~~~(BitVec.ofNat 64 (2 ^ w - 1) <<< lo)) ||| (BitVec.ofNat 64 (v % 2 ^ w) <<< lo)

/-- R282, R283: the mesh takes requests (VN0). -/
def State.meshRuns (s : State) : Bool := s.f R.PWR_MESHQ_STATE == 0

/-! ### Events (R380 to R389) -/

/-- R387, R29: sources that never become pending. -/
def State.deadSource (s : State) (src : Nat) : Bool :=
  (1008 ≤ src && src ≤ 1023) || src ≥ 8192 || (src < 512 && s.fused (src / 2))
    || (512 ≤ src && src < 768 && s.fused (src - 512))

/-- R388: a core-service source reads EN = 1. -/
def State.evtEn (s : State) (src : Nat) : Bool :=
  if src < 512 then !(s.fused (src / 2)) else s.f (R.EVT_CFG_EN src) == 1

/-- R385: domain `d` owns an enabled pending software source. -/
def State.domHasPend (s : State) (d : Nat) : Bool :=
  s.csr.any (fun e =>
    let a := e.1 / 128
    e.1 % 128 == 0 && 0x400000 ≤ a && a < 0x420000 && a % 16 == 8 &&
      (let n := (a - 0x400000) / 16
       s.f (R.EVT_STAT_PEND n) == 1 && s.f (R.EVT_OWN_OWNER n) == d && s.evtEn n))

/-- The flags of R381 on a trigger: PEND, or a merge. -/
def State.trigFlags (s : State) (src : Nat) : State :=
  if s.deadSource src then s
  else if s.f (R.EVT_STAT_PEND src) = 1 ∨ s.f (R.EVT_STAT_HELD src) = 1 then s.incSat (R.EVT_MERGE_COUNT src)
  else s.setF (R.EVT_STAT_PEND src) 1

/-- DOM_STATE.STATE codes (R357). -/
def domFREE : Nat := 0
def domCREATED : Nat := 1
def domRUNNING : Nat := 2
def domPARKED : Nat := 3
def domFAULTED : Nat := 4

/-- R385: bring bit d of EVT_DPEND to its condition; a rise triggers source 1007. -/
def State.dpend (s : State) (d : Nat) : State :=
  if d = 0 then s else
  let x := R.EVT_DPEND_DOM (d / 32)
  let old := bitOf (s.f x) (d % 32)
  let now := s.f (R.DOM_STATE_STATE d) == domPARKED && s.domHasPend d
  if now && !old then (s.setF x (setBit (s.f x) (d % 32))).trigFlags 1007
  else if old && !now then s.setF x (clrBit (s.f x) (d % 32))
  else s

/-- A trigger of a source (R381), with R385 after it. -/
def State.trigger (s : State) (src : Nat) : State :=
  let s1 := s.trigFlags src
  s1.dpend (s1.f (R.EVT_OWN_OWNER src))

/-- R389: a software trigger that names a hardware source is ignored and reported. -/
def State.softTrig (s : State) (src : Nat) : State :=
  if src < 1024 then s.setFs [(R.EVT_ERR_BADTRIG, 1), (R.EVT_ERR_SRC, src)] else s.trigger src
/-- R389: a register of domain `d` names the source to trigger: triggered if it is a software source that `d` owns. -/
def State.regTrig (s : State) (src d : Nat) : State :=
  if src < 1024 ∨ s.f (R.EVT_OWN_OWNER src) = d then s.softTrig src else s

/-- R387: a unit raises its hardware source with a CAUSE bit. -/
def State.raise (s : State) (src bit : Nat) : State :=
  if s.deadSource src then s
  else (s.setF (R.EVT_STAT_CAUSE src) (setBit (s.f (R.EVT_STAT_CAUSE src)) bit)).trigger src

/-! ### The event recorder's staging (R514) -/

/-- A unit forms a record and passes it to the recorder: the staging queue takes 64, and a fatal record is always written (R510,
R515). -/
def State.record (s : State) (cls unit sev code d0 d1 : Nat) : State :=
  let r : Rec := { oph := s.f R.ER_OPHOURS_HOURS, ops := s.f R.ER_OPSEC_SEC, src := cls * 4096 + unit % 4096,
                   pcyc := s.f R.ER_PCYCLE_COUNT, sev := sev, code := code, d0 := d0 % 2 ^ 32, d1 := d1 % 2 ^ 64 }
  if s.er.staged.length < 64 ∨ sev = 4 then
    { s with er := { s.er with
        staged := s.er.staged ++ [{ r with flags := if s.er.lostBef then 4 else 0 }], lostBef := false } }
  else { s.incSat R.ER_LOST_COUNT with er := { s.er with lostBef := true } }

/-- The SEQ that the record formed last will take, or all ones where it was dropped (R516, 0x0120). -/
def State.lastRecSeq (before after : State) : Nat :=
  if before.er.staged.length < 64 then
    (after.f R.ER_SEQ_SEQ + after.er.staged.length - 1) % 2 ^ 32
  else 0xFFFF_FFFF

/-- R513: the device is in the fatal state. -/
def State.isFatal (s : State) : Bool := s.f R.ER_STAT_FATAL == 1

/-- R510: a deferred error's record. -/
def State.deferred (s : State) (cls unit code d0 d1 : Nat) : State := s.record cls unit 2 code d0 d1

end Sys2Proof.Machine
end

