-- ==== Sys2Proof/Machine/Dram.lean ====
section
/-! DEFINITION. DRAM: interleave and home (R50, R51), bank geometry (R286), the code (R292 to R295), reads, whole
writes and read-modify-writes of a line with their accounting (R296 to R299, R304 to R307, R311). -/

namespace Sys2Proof.Machine

/-- Number of lines of the DRAM region (R35, R50). -/
def dramLines : Nat := 12 * 2 ^ 30
def dramEnd : Nat := dramLines * 64

/-- R50: the sum of the base-24 digits (at most 7). -/
def digitSum24 : Nat → Nat → Nat
  | 0, _ => 0
  | k + 1, t => t % 24 + digitSum24 k (t / 24)

def chanOf (L : Nat) : Nat := (L % 24 + digitSum24 7 (L / 24)) % 24
/-- The line at channel line index `q` of channel `ch`: the inverse of R50. -/
def lineAt (ch q : Nat) : Nat := 24 * q + (ch + 24 - digitSum24 7 q % 24) % 24

/-- R51. -/
def homeOf (L : Nat) : Nat :=
  (bits L 0 8 ^^^ bits L 8 8) ^^^ (bits L 16 8 ^^^ bits L 24 8) ^^^ bits L 32 2

/-- R286. -/
def bankOf (q : Nat) : Nat := bits q 0 6 ^^^ bits q 12 6
def rowOf (q : Nat) : Nat := bits q 11 18
def segOf (q : Nat) : Nat := bits q 26 3

/-- R293: x^15 m(x) mod g(x), the message's bits taken from the top. -/
def codeRem (m : Nat) : Nat → Nat → Nat
  | 0, r => r
  | k + 1, r =>
    let fb := (if m.testBit k then 1 else 0) ^^^ r / 2 ^ 14 % 2
    codeRem m k ((r * 2 % 2 ^ 15) ^^^ (if fb = 1 then 0x4599 else 0))

/-- The check bits of a 73-bit message (B, then P). -/
def codeCheck (m : Nat) : Nat := codeRem m 73 0

/-- The 88-bit code word of data, two locks and the poison bit (R292, R293). -/
def codeEnc (data locks : Nat) (p : Bool) : Nat :=
  let m := data % 2 ^ 64 + (locks % 2 ^ 8) * 2 ^ 64 + (if p then 2 ^ 72 else 0)
  m * 2 ^ 15 + codeCheck m

/-- R295: B = 0, P = 1. -/
def poisonWord : Nat := codeEnc 0 0 true

/-- The syndrome of each of the 88 single-bit errors, bit 0 first. -/
def codeCols : List Nat :=
  (List.range 15).map (2 ^ ·) ++ (List.range 73).map (fun i => codeCheck (2 ^ i))

/-- R294: the outcome of decoding: the code word, how many bits were corrected (3: uncorrectable). -/
def codeDec (w : Nat) : Nat × Nat :=
  let syn := (w % 2 ^ 15) ^^^ codeCheck (w / 2 ^ 15 % 2 ^ 73)
  if syn = 0 then (w, 0) else
  match codeCols.findIdx? (· == syn) with
  | some i => (w ^^^ 2 ^ i, 1)
  | none =>
    match codeCols.findIdx? (fun c => codeCols.any (· == (c ^^^ syn))) with
    | some i =>
      match codeCols.findIdx? (· == ((codeCols.getD i 0) ^^^ syn)) with
      | some j => ((w ^^^ 2 ^ i) ^^^ 2 ^ j, 2)
      | none => (w, 3)
    | none => (w, 3)

def cwData (w : Nat) : Nat := bits w 15 64
def cwLocks (w : Nat) : Nat := bits w 79 8
def cwPois (w : Nat) : Bool := w.testBit 87

/-- The raw bits of code word `cw` (local address / 8): listed, or undefined storage (R298). -/
def State.rawCw (s : State) (cw : Nat) : Nat :=
  match Tbl.get none s.dram cw with
  | some w => w
  | none =>
    let L := cw / 8
    Config.dramGarbage (Tbl.get 0 s.dramEp (chanOf L * 8 + segOf (L / 24))) cw % 2 ^ 88

def State.setCw (s : State) (cw w : Nat) : State := { s with dram := Tbl.set none s.dram cw (some (w % 2 ^ 88)) }

def State.chan (s : State) (ch : Nat) : Chan := Tbl.get {} s.chans ch
def State.setChan (s : State) (ch : Nat) (k : Chan) : State := { s with chans := Tbl.set {} s.chans ch k }

/-- The meter item that counts disturbance throttles (R371). -/
def mtrTHR : Nat := 20
/-- Add to a domain's accumulator of its open period (R371); past a boundary not yet closed, to the next
period's. Domain 0 is never charged. -/
def State.meter (s : State) (d item n : Nat) : State :=
  let k := d * 64 + item + (if s.time < s.mbound then 0 else 32)
  if d = 0 then s else
  { s with mtr := Tbl.set 0 s.mtr k (Tbl.get 0 s.mtr k + n) }

/-- R306: start or restart a throttle; 32 a channel, the one that ends soonest is replaced. -/
def State.throttle (s : State) (ch bank d : Nat) : State :=
  let k := s.chan ch
  let till := s.ns + (max 1 (s.f (R.MEM_RDIST_CTL_THR_US ch))) * 1000
  let t : Throttle := ⟨bank, d, till, s.ns, max 1 (s.f (R.MEM_RDIST_CTL_SPACE ch)) * 100⟩
  let rest := k.thr.filter (fun x => !(x.bank == bank && x.dom == d))
  let s := s.meter d mtrTHR 1
  if rest.length < 32 then s.setChan ch { k with thr := rest ++ [t] }
  else
    let soonest := rest.foldl (fun m x => min m x.till) (rest.headD t).till
    (s.setChan ch { k with thr := rest.eraseP (fun x => x.till == soonest) ++ [t] }).incSat
      (R.MEM_RDIST_OVF_COUNT ch)

/-- R304: all group counters of a channel return to zero every 32 ms. -/
def Chan.freshGroups (k : Chan) (ns : Nat) : Chan :=
  let n := (ns - k.grpAt) / 32000000
  if n = 0 then k else { k with grp := [], grpAt := k.grpAt + n * 32000000 }

/-- R305: an activate of line index `q` for domain `d`, or for maintenance. -/
def State.activate (s : State) (ch q d : Nat) (maint : Bool) : State :=
  let b := bankOf q
  let gi := rowOf q / 512
  let k := (s.chan ch).freshGroups s.ns
  let k := if maint then k
    else { k with thr := k.thr.map (fun x => if x.bank = b ∧ x.dom = d then { x with last := s.ns } else x) }
  let g := Tbl.get {} k.grp (b * 512 + gi)
  let g := { g with count := g.count + 1 }
  let g := if maint then g
    else if g.lcount = 0 then { g with ldom := d, lcount := 1 }
    else if g.ldom = d then { g with lcount := g.lcount + 1 }
    else { g with lcount := g.lcount - 1 }
  if g.count < max 256 (s.f (R.MEM_RDIST_CTL_THRESH ch)) then
    s.setChan ch { k with grp := Tbl.set {} k.grp (b * 512 + gi) g }
  else
    let maj := decide (g.lcount > 0)
    let second := !maint && (!maj || d != g.ldom)
    let s := s.setChan ch { k with
      grp := Tbl.set {} k.grp (b * 512 + gi) { g with count := 0, lcount := 0 }, tref := k.tref ++ [(b, gi)] }
    let s := if maj then s.throttle ch b g.ldom else s
    let s := if second then s.throttle ch b d else s
    let s := (s.incSat (R.MEM_RDIST_COUNT_COUNT ch)).setFs
      [ (R.MEM_RDIST_LAST_BANK ch, b), (R.MEM_RDIST_LAST_GROUP ch, gi)
      , (R.MEM_RDIST_LAST_DOM ch, if maj then g.ldom else d)
      , (R.MEM_RDIST_LAST_SECOND ch, b2n (maj && second)), (R.MEM_RDIST_LAST_NONE ch, b2n (!maj && !second)) ]
    let last := b + gi * 2 ^ 6 + (if maj then g.ldom else d) * 2 ^ 15 + b2n (maj && second) * 2 ^ 27
      + b2n (!maj && !second) * 2 ^ 28
    (s.raise (800 + 5 * ch + 2) 0).record 4 ch 0 0x0304 last 0

/-- R311: the interval in which the bucket loses 1. -/
def State.leakIv (s : State) (ch : Nat) : Nat := max 1 (s.f (R.MEM_CE_CTL_LEAK_MS ch)) * 1000000
/-- R311: the bucket has leaked `n` times. -/
def State.ceLeaks (s : State) (ch n : Nat) : State :=
  let k := s.chan ch
  let left := s.f (R.MEM_CE_BUCKET_COUNT ch) - n
  let s1 := (s.setChan ch { k with leakAt := k.leakAt + n * s.leakIv ch }).setF (R.MEM_CE_BUCKET_COUNT ch) left
  if left ≤ max 1 (s.f (R.MEM_CE_CTL_THRESH ch)) / 2 then s1.setF (R.MEM_CE_BUCKET_ARMED ch) 1 else s1

/-- R311: the leaks that are due. -/
def State.leaksDue (s : State) (ch : Nat) : State :=
  let due := (s.ns - (s.chan ch).leakAt) / s.leakIv ch
  if due = 0 then s else s.ceLeaks ch due

/-- R311: a corrected code word. A leak that is due comes first. -/
def State.correctable (s : State) (ch q cw : Nat) (forager two : Bool) : State :=
  let s := ((s.leaksDue ch).incSat (R.MEM_CE_TOTAL_COUNT ch)).incSat (R.MEM_CE_BUCKET_COUNT ch)
  let s := s.setFs [ (R.MEM_CE_LAST_CW ch, cw), (R.MEM_CE_LAST_Q ch, q)
    , (R.MEM_CE_LAST_SRC ch, b2n forager), (R.MEM_CE_LAST_TWO ch, b2n two) ]
  if s.f (R.MEM_CE_BUCKET_ARMED ch) = 1 ∧
      s.f (R.MEM_CE_BUCKET_COUNT ch) = max 1 (s.f (R.MEM_CE_CTL_THRESH ch)) + 1 then
    ((s.setF (R.MEM_CE_BUCKET_ARMED ch) 0).raise (800 + 5 * ch) 0).record 4 ch 1 0x0300
      (s.f (R.MEM_CE_TOTAL_COUNT ch)) (cw + q * 8 + b2n forager * 2 ^ 32 + b2n two * 2 ^ 33)
  else s

/-- R294, R295: an uncorrectable code word is counted, rewritten as poison and reported. `src` 0 demand, 1
read-modify-write, 2 Forager. -/
def State.uncorrectable (s : State) (ch q L cw src dom : Nat) : State :=
  let s := (s.setCw (L * 8 + cw) poisonWord).incSat (R.MEM_UE_TOTAL_COUNT ch)
  let s := s.setFs [(R.MEM_UE_LAST_CW ch, cw), (R.MEM_UE_LAST_Q ch, q), (R.MEM_UE_LAST_SRC ch, src)]
  (s.raise (800 + 5 * ch + 1) 0).deferred 4 ch 0x0301 (if src = 2 then 0 else dom) (cw + q * 8 + src * 2 ^ 32)

/-- Put decoded code word `w` (poisoned or not) into place `i` of a line. -/
def LineD.putCw (d : LineD) (i w : Nat) : LineD :=
  if cwPois w then { d with poison := d.poison ||| ((1 : BitVec 8) <<< i) }
  else { (d.write (8 * i) 8 (cwData w)) with
    locks := setLock (setLock d.locks (2 * i) (cwLocks w % 16)) (2 * i + 1) (cwLocks w / 16)
    poison := d.poison &&& ~~~((1 : BitVec 8) <<< i) }

/-- One code word of a demand or Forager read: decode, account, rewrite where R294, R295 and R309 say. -/
def State.readCw (s : State) (ch q L src dom : Nat) (i : Nat) : State × Nat :=
  let (w, n) := codeDec (s.rawCw (L * 8 + i))
  if n = 3 then (s.uncorrectable ch q L i src dom, poisonWord)
  else
    let s := if n = 0 then s else s.correctable ch q i (src == 2) (n == 2)
    let s := if src = 2 ∧ n ≠ 0 then s.setCw (L * 8 + i) w else s
    let s := if cwPois w then s.incSat (R.MEM_POISON_RD_COUNT ch) else s
    (s, w)

/-- R300: the channel leaves self-refresh by itself, at once; the request waits. -/
def State.srefWake (s : State) (ch : Nat) : State :=
  let s1 := s.setFs [(R.MEM_STAT_SREF ch, 0), (R.MEM_STAT_SRWAKE ch, 1)]
  s1.setChan ch { s1.chan ch with exiting := true }

/-- R288, R300, R301: the channel takes and performs requests. -/
def State.chanOpen (s : State) (ch : Nat) : Bool :=
  (s.f (R.MEM_STAT_TRAINED ch) == 1 || s.f (R.MEM_STAT_FAILED ch) == 1) && s.f (R.MEM_STAT_PAUSED ch) == 0 && s.f (R.MEM_STAT_SREF ch) == 0
    && !(s.chan ch).exiting

/-- R306: an activate of bank `b` for domain `d` must still wait. -/
def State.throttled (s : State) (ch b d : Nat) : Bool :=
  (s.chan ch).thr.any (fun x => x.bank == b && x.dom == d && decide (s.ns < x.till ∧ s.ns < x.last + x.space))
/-- R308: the lowest covered line index from `q` on. -/
def State.nextCovered (s : State) (ch q : Nat) : Option Nat :=
  let ok (g : Nat) : Bool := bitOf (s.f (R.MEM_PASR_CTL_KEEP ch)) g && !(bitOf (s.f (R.MEM_PASR_CTL_FSKIP ch)) g)
  let cands := (List.range 8).flatMap (fun i =>
    if s.f (R.MEM_SCRUB_RANGE_V ch i) = 0 then []
    else (List.range 8).filterMap (fun g =>
      let lo := max q (max (s.f (R.MEM_SCRUB_RANGE_FIRST ch i)) (g * 2 ^ 26))
      let hi := min (s.f (R.MEM_SCRUB_RANGE_LAST ch i)) ((g + 1) * 2 ^ 26 - 1)
      if ok g ∧ lo ≤ hi then some lo else none))
  cands.foldl (fun m x => match m with | none => some x | some y => some (min x y)) none

/-- R301: when the next retraining falls due; R530: or was asked for. -/
def State.trainDue (s : State) (ch : Nat) : Nat :=
  let due := (s.chan ch).trainAt + s.f (R.MEM_TRAIN_CTL_INTERVAL ch) * 500000
  match (s.chan ch).asked with | some a => min a due | none => due
/-- R308, R309: the line that the Forager reads next, and whether it begins a new pass. -/
def State.forageNext (s : State) (ch : Nat) : Option (Nat × Bool) :=
  match s.nextCovered ch (s.f (R.MEM_FORAGE_POS_Q ch)), s.nextCovered ch 0 with
  | some q, _ => some (q, false)
  | none, some q => some (q, true)
  | none, none => none
/-- R308: the Forager's next read is due. -/
def State.forageDue (s : State) (ch : Nat) : Bool :=
  s.f (R.MEM_FORAGE_CTL_EN ch) == 1
    && decide ((s.chan ch).forageAt + max 100 (s.f (R.MEM_FORAGE_STEP_NS ch)) ≤ s.ns)
/-- R290 item 1: a retraining is due, or the Forager's read of this bank: it goes before every request. -/
def State.maintDue (s : State) (ch b : Nat) : Bool :=
  (decide (s.trainDue ch ≤ s.ns) && s.f (R.MEM_TRAIN_STAT_DEFERRED ch) == 0)
    || (s.forageDue ch && match s.forageNext ch with | some (q, _) => bankOf q == b | none => false)
/-- R287, R305: the bank takes operations: no targeted refresh, and no refresh that may wait no longer. -/
def State.bankFree (s : State) (ch b : Nat) : Bool :=
  let k := s.chan ch
  !(k.tref.any (·.1 == b)) && decide (Tbl.get 0 k.refDue b < 8)
/-- R290: the bank serves requests. -/
def State.bankOpen (s : State) (ch b : Nat) : Bool := s.bankFree ch b && !(s.maintDue ch b)

/-- A line's array access for domain `d` may start now. -/
def State.arrayOpen (s : State) (L d : Nat) : Bool :=
  let ch := chanOf L
  let b := bankOf (L / 24)
  s.chanOpen ch && s.bankOpen ch b && !(s.throttled ch b d)

/-- An access that finds its channel in self-refresh wakes it and waits (R300); any other wait changes nothing. -/
def State.arrayWait (s : State) (L : Nat) : Out :=
  let ch := chanOf L
  if s.f (R.MEM_STAT_SREF ch) = 1 ∧ !(s.chan ch).exiting then .next (s.srefWake ch) else turnedAway s

def lineZero : LineD := ⟨0, 0, 0⟩
/-- Every code word poisoned. -/
def linePoison : LineD := ⟨0, 0, 0xFF⟩

/-- R299, R303: the array does not serve this line. -/
def State.chanGone (s : State) (L : Nat) : Bool :=
  let ch := chanOf L
  s.f (R.MEM_STAT_FAILED ch) == 1 || !(bitOf (s.f (R.MEM_PASR_CTL_KEEP ch)) (segOf (L / 24)))

def State.countGone (s : State) (L : Nat) : State :=
  let ch := chanOf L
  if bitOf (s.f (R.MEM_PASR_CTL_KEEP ch)) (segOf (L / 24)) then s else s.incSat (R.MEM_SEG_REFUSED_COUNT ch)

/-- A read of a line at its channel. -/
def State.dramRead (s : State) (L dom src : Nat) : State × LineD :=
  if s.chanGone L then (s.countGone L, linePoison)
  else
    let ch := chanOf L
    let q := L / 24
    let s := s.activate ch q dom (src == 2)
    (List.range 8).foldl
      (fun (acc : State × LineD) i => let (t, w) := acc.1.readCw ch q L src dom i; (t, acc.2.putCw i w)) (s, lineZero)

/-- A whole-line write from the home (R296): poison marks become the poison pattern. -/
def State.dramWriteLine (s : State) (L dom : Nat) (d : LineD) : State :=
  if s.chanGone L then s.countGone L
  else
    let s := s.activate (chanOf L) (L / 24) dom false
    (List.range 8).foldl (fun (t : State) i =>
      t.setCw (L * 8 + i) (if d.poison.getLsbD i then poisonWord
        else codeEnc (d.read (8 * i) 8) (lockAt d.locks (2 * i) + 16 * lockAt d.locks (2 * i + 1)) false)) s

/-- The lock a policy leaves in word `i` (R166). -/
def polLock (pol : LockPol) (old new : BitVec 64) (i : Nat) : Nat :=
  match pol with
  | .preserve => lockAt old i
  | .set v => v.toNat
  | .clear => 0
  | .carried => lockAt new i

/-- The byte mask covers byte `b` of the line. -/
def maskAt (m : BitVec 64) (b : Nat) : Bool := m.getLsbD b

/-- Merge a masked write with its lock policy into a line (R166): a poisoned code word takes it only whole and under a
policy that supplies its locks (R165). The second part: some bytes were discarded for poison. -/
def mergeWr (old : LineD) (w : WrReq) : LineD × Bool :=
  (List.range 8).foldl (fun (acc : LineD × Bool) i =>
    let d := acc.1
    let m := bits w.mask.toNat (8 * i) 8
    if m = 0 then acc
    else
      let whole := m == 255 && w.pol != .preserve
      if !whole && d.poison.getLsbD i then (d, true)
      else if w.pol = .carried ∧ w.d.poison.getLsbD i then
        ({ d with poison := d.poison ||| ((1 : BitVec 8) <<< i) }, acc.2)
      else
        let v := (List.range 8).foldl (fun (x : Nat) b =>
          x + (if maskAt w.mask (8 * i + b) then w.d.read (8 * i + b) 1 else d.read (8 * i + b) 1) * 2 ^ (8 * b)) 0
        let lk := [2 * i, 2 * i + 1].foldl (fun (l : BitVec 64) j =>
          if bits w.mask.toNat (4 * j) 4 = 0 then l else setLock l j (polLock w.pol d.locks w.d.locks j)) d.locks
        ({ (d.write (8 * i) 8 v) with locks := lk, poison := d.poison &&& ~~~((1 : BitVec 8) <<< i) }, acc.2))
    (old, false)

/-- A masked write at the channel: whole code words are written, the others read-modify-written (R296, R297). The
second part: an error status (poison, discarded segment or failed channel) for the writer. -/
def State.dramPartial (s : State) (L dom : Nat) (w : WrReq) : State × Bool :=
  if s.chanGone L then (s.countGone L, true)
  else
    let ch := chanOf L
    let q := L / 24
    let s := s.activate ch q dom false
    (List.range 8).foldl (fun (acc : State × Bool) i =>
      let m := bits w.mask.toNat (8 * i) 8
      if m = 0 then acc
      else if m = 255 ∧ w.pol ≠ .preserve then
        let (d, _) := mergeWr lineZero w
        (acc.1.setCw (L * 8 + i) (if d.poison.getLsbD i then poisonWord
          else codeEnc (d.read (8 * i) 8) (lockAt d.locks (2 * i) + 16 * lockAt d.locks (2 * i + 1)) false), acc.2)
      else
        let s := acc.1.incSat (R.MEM_RMW_COUNT ch)
        let (s, cw) := s.readCw ch q L 1 dom i
        if cwPois cw then (s.setCw (L * 8 + i) poisonWord, true)
        else
          let (d, _) := mergeWr (lineZero.putCw i cw) w
          (s.setCw (L * 8 + i)
            (codeEnc (d.read (8 * i) 8) (lockAt d.locks (2 * i) + 16 * lockAt d.locks (2 * i + 1)) false), acc.2))
      (s, false)

/-- The masked write that a Device store asks for (R161, R296). -/
def devWrReq (off size : Nat) (data : BitVec 512) (lockOnly : Bool) : WrReq :=
  if lockOnly then ⟨0, ⟨data, 0, 0⟩, .preserve⟩
  else ⟨BitVec.ofNat 64 ((2 ^ size - 1) * 2 ^ off), ⟨data <<< (8 * off), 0, 0⟩, .preserve⟩

/-- Write the locks of words `off/4 …` of a line: word `i` takes nibble `i` counted from the first word (R108). -/
def writeLocks (locks : BitVec 64) (off size : Nat) (v : Nat) : BitVec 64 :=
  (List.range (size / 4)).foldl (fun l i => setLock l (off / 4 + i) (v / 16 ^ i % 16)) locks

/-- R158, R160, R297: a Device store performed at the controller: 0 done, 1 lock mismatch (refused in precise mode), 2
poison; with the mismatching word and its lock. -/
def State.devStore (s : State) (L dom off size : Nat) (data : BitVec 512) (lockOnly : Bool) (lk : LockReq) :
    State × (Nat × Nat × Nat × Bool) :=
  if s.chanGone L then (s.countGone L, (2, 0, 0, true))
  else
    let ch := chanOf L
    let q := L / 24
    let s := s.activate ch q dom false
    let cws := (List.range ((off + size - 1) / 8 + 1 - off / 8)).map (· + off / 8)
    let (s, d) := cws.foldl (fun (acc : State × LineD) i =>
      let (t, w) := (acc.1.incSat (R.MEM_RMW_COUNT ch)).readCw ch q L 1 dom i; (t, acc.2.putCw i w)) (s, lineZero)
    if spanPoison d.poison off size then (s, (2, 0, 0, true))
    else
      let miss := if lockOnly then none else lockMiss lk d.locks off size
      if miss.isSome ∧ lk.mode = .precise then
        (s, (1, (miss.getD (0, 0)).1, (miss.getD (0, 0)).2, true))
      else
        let d2 := if lockOnly then { d with locks := writeLocks d.locks off size data.toNat }
          else d.write off size data.toNat
        let s := cws.foldl (fun (t : State) i => t.setCw (L * 8 + i)
          (codeEnc (d2.read (8 * i) 8) (lockAt d2.locks (2 * i) + 16 * lockAt d2.locks (2 * i + 1)) false)) s
        (s, (if miss.isSome then 1 else 0, (miss.getD (0, 0)).1, (miss.getD (0, 0)).2, false))

/-- What the array and the queued writes of a line's channel would give a read of it now, nothing counted. -/
def State.dramPeek (s : State) (L : Nat) : LineD :=
  if s.chanGone L then linePoison
  else
    let base := (List.range 8).foldl (fun (d : LineD) i =>
      let (w, n) := codeDec (s.rawCw (L * 8 + i))
      d.putCw i (if n = 3 then poisonWord else w)) lineZero
    let k := s.chan (chanOf L)
    (k.wrq ++ k.inq).foldl (fun (d : LineD) r =>
      if r.L ≠ L then d else
      match r.op with
      | .homeWr x _ => x
      | .ncWr m => match m.wr with | some w => (mergeWr d w).1 | none => d
      | .devWr _ _ off size data lo _ =>
        if lo then { d with locks := writeLocks d.locks off size data.toNat }
        else (mergeWr d (devWrReq off size data false)).1
      | .homeRd .. => d) base

/-- R289: the write queue holds a write of this line. -/
def State.chanHasWrite (s : State) (L : Nat) : Bool :=
  let k := s.chan (chanOf L)
  (k.inq ++ k.wrq).any (fun r => r.L == L && match r.op with | .homeRd .. => false | _ => true)

/-- The latest whole-line write that the channel holds for this line (R289). -/
def State.chanQueued (s : State) (L : Nat) : Option LineD :=
  let k := s.chan (chanOf L)
  ((k.wrq ++ k.inq).reverse.findSome? (fun r => if r.L == L then
    (match r.op with | .homeWr d _ => some d | _ => none) else none))

/-- R238: the data of a line whose entry into the LLC waits for a victim's write to be accepted. -/
def State.fillWaits (s : State) (L : Nat) : Option LineD :=
  s.chans.findSome? (fun e => e.2.inq.findSome? (fun r => match r.op with
    | .homeWr _ (some f) => if f.L = L then some f.e.d else none
    | _ => none))

/-- The channel holds a request of this line. -/
def State.chanHas (s : State) (L : Nat) : Bool :=
  let k := s.chan (chanOf L)
  (k.inq ++ k.rdq ++ k.wrq).any (fun r => r.L == L)

/-- The youngest write of this line that the channel holds. -/
def State.chanLast (s : State) (L : Nat) : Option ChReq :=
  let k := s.chan (chanOf L)
  (k.wrq ++ k.inq).reverse.find? (fun r => r.L == L && match r.op with | .homeRd .. => false | _ => true)

/-- R289, R290: a read of the line that comes to the channel now can be answered now: from a whole-line write that waits there,
or from the array where no request of the line waits. -/
def State.readOpen (s : State) (L dom : Nat) : Bool :=
  match s.chanLast L with
  | some r => (match r.op with | .homeWr .. => s.chanOpen (chanOf L) | _ => false)
  | none => !(s.chanHas L) && s.arrayOpen L dom

/-- R289, R299: that read. -/
def State.chanRead (s : State) (L dom src : Nat) : State × LineD :=
  match s.chanQueued L with
  | some d => if s.chanGone L then (s.countGone L, linePoison) else (s, d)
  | none => s.dramRead L dom src

end Sys2Proof.Machine
end

