-- ==== Sys2Proof/Machine/Home.lean ====
section
/-! DEFINITION. The home of a line: directory slice, LLC slice, transactions (R236 to R263), and the whole-transaction
accesses that agents without a cache and atomics make through it (R188, R254). -/

namespace Sys2Proof.Machine
open Sys2Proof

/-! ### Pseudo-LRU trees of 16 ways: 15 bits a set, node `i` at bit `i` (R240; PRESUMED tree form). -/

/-- The ways of the subtree at depth `d` with path `p`. -/
def plruWays (d p : Nat) : Nat := (2 ^ (2 ^ (4 - d)) - 1) * 2 ^ (p * 2 ^ (4 - d))
/-- Follow the bits, avoiding halves with no allowed way. -/
def plruWalk (t allowed : Nat) : Nat → Nat → Nat → Nat
  | 0, _, p => p
  | k + 1, d, p =>
    let want := b2n (t.testBit (2 ^ d + p))
    let go := if allowed &&& plruWays (d + 1) (2 * p + want) = 0 then 1 - want else want
    plruWalk t allowed k (d + 1) (2 * p + go)
def plruVictim (t allowed : Nat) : Nat := plruWalk t allowed 4 0 0
/-- Point every node on the way's path away from it. -/
def plruTouch (t way : Nat) : Nat :=
  (List.range 4).foldl (fun t d =>
    let p := way / 2 ^ (4 - d)
    if way / 2 ^ (3 - d) % 2 = 0 then setBit t (2 ^ d + p) else clrBit t (2 ^ d + p)) t

/-- Lowest way of `allowed` not in `used`. Which of several invalid ways a new entry takes the spec does not say (R261, R237):
the lowest-numbered is the model's choice (DESIGN CHOICE, notes/assumptions/32.md). -/
def freeWay (allowed used : Nat) : Option Nat :=
  (List.range 16).find? (fun w => allowed.testBit w && !used.testBit w)

/-! ### Lines in tiles -/

def cacheKey (t L : Nat) : Nat := t * 2 ^ 64 + L
def State.l2 (s : State) (t L : Nat) : L2Line := Tbl.get {} s.caches (cacheKey t L)
def State.setL2 (s : State) (t L : Nat) (x : L2Line) : State :=
  { s with caches := Tbl.set {} s.caches (cacheKey t L) x }

def LSt.valid : LSt → Bool
  | .S | .E | .M | .SM | .KP => true
  | _ => false

def State.send (s : State) (m : Msg) : State := { s with msgs := s.msgs ++ [m] }

/-- R265, R283: the clock that awaited answers are timed by: it stands while the mesh is QUIESCED or RELEASING. -/
def State.waitClock (s : State) : Nat := s.ns - s.meshIdle

/-- R234: a tile awaits the answer of a request of kind `k`. -/
def State.await (s : State) (t L : Nat) (k : MsgK) : State := { s with outReq := s.outReq ++ [⟨t, L, k, s.waitClock⟩] }
/-- R234: a tile sends a request whose answer is awaited beside the states of R243. -/
def State.ask (s : State) (m : Msg) : State := (s.send m).await m.agent m.L m.k
def Ask.is (t L : Nat) (k : MsgK) (r : Ask) : Bool := r.t == t && r.L == L && r.k == k
/-- The answer to such a request has come; none where no such request is out. -/
def State.answered (s : State) (t L : Nat) (k : MsgK) : Option State :=
  if s.outReq.any (Ask.is t L k) then some { s with outReq := s.outReq.eraseP (Ask.is t L k) } else none

def MsgK.toHome : MsgK → Bool
  | .rdS | .rdO | .upg | .rdSpec | .promote | .rdFetch | .rdNc | .wrNc | .atomic | .flush | .wb
  | .ownerAck | .invAck | .notPresent | .wbInflight | .complete => true
  | _ => false
/-- R247: the response class. -/
def MsgK.isRsp : MsgK → Bool
  | .wb | .data | .grant | .notServed | .replay | .ownerAck | .invAck | .notPresent | .wbInflight | .wbAck | .flushAck | .wrDone
  | .complete => true
  | _ => false
/-- R248, R267: the virtual network that a message travels on. -/
def MsgK.vn (k : MsgK) : Nat := if k.isRsp then 2 else if k.toHome then 0 else 1

/-! ### Network interfaces (R22, R24, R275) -/

/-- SEG, EXIT and V of entry `i` of NI `ni`. -/
def niEntry (ni i : Nat) : Fld × Fld × Fld :=
  if ni < 256 then (R.TIL_RT_SEG ni i, R.TIL_RT_EXIT ni i, R.TIL_RT_V ni i)
  else if ni < 280 then (R.MEM_RT_SEG (ni - 256) i, R.MEM_RT_EXIT (ni - 256) i, R.MEM_RT_V (ni - 256) i)
  else if ni < 288 then (R.HEP_RT_SEG (ni - 280) i, R.HEP_RT_EXIT (ni - 280) i, R.HEP_RT_V (ni - 280) i)
  else (R.FAB_RTE_SEG (ni - 288) i, R.FAB_RTE_EXIT (ni - 288) i, R.FAB_RTE_V (ni - 288) i)
/-- R22, R24, R275: the NI by which agent `g` sends to the tile `n`: a tile's own, a stop of the destination's column for the host
endpoint and the fabric interface, that of tile-in-hive 0 for a hive's shared agents. -/
def agentNi (g n : Nat) : Nat :=
  if g < 256 then g else if g = 256 then 280 + tileX n / 2 else if g = 257 then 288 + tileX n / 2 else (g - 258) % 32 * 8
/-- R275: the route-table index of agent `g`. -/
def agentIdx (g : Nat) : Nat := if g < 256 then g else if g = 256 then 280 else if g = 257 then 281 else (g - 258) % 32 * 8
/-- The NI that a message was injected at, the index of its destination there, and its VN. -/
def Msg.path (m : Msg) : Nat × Nat × Nat :=
  if m.k.toHome then (agentNi m.agent (homeOf m.L), homeOf m.L, m.k.vn)
  else (m.src.getD (homeOf m.L), agentIdx m.agent, m.k.vn)
/-- R277: the NI's entry is valid; a packet whose entry is not is held there. -/
def State.routed (s : State) (ni idx : Nat) : Bool := s.f (niEntry ni idx).2.2 == 1

/-- R38 to R41, R275: the route-table index of the unit that holds the control-space register at offset `o`. -/
def ctlIdx (o : Nat) : Nat :=
  if o < 0x4000_0000 then (if o / 2 ^ 20 = 9 then 281 else 280)
  else if o < 0x8000_0000 then (o - 0x4000_0000) / 2 ^ 16 % 256
  else if o < 0xA000_0000 then (o - 0x8000_0000) / 2 ^ 20 % 32 * 8
  else if o < 0xB000_0000 then 256 + (o - 0xA000_0000) / 2 ^ 16 % 24
  else 281
/-- R24: the NI by which the destination `i` answers tile `t`. -/
def idxNi (i t : Nat) : Nat := if i < 280 then i else if i = 280 then 280 + tileX t / 2 else 288 + tileX t / 2
/-- R22, R277: tile NI `t` and destination `i` have a valid route each way. -/
def State.linked (s : State) (t i : Nat) : Bool := s.routed t i && s.routed (idxNi i t) t

/-- Take a message of kind `k` in flight from or to agent `g` for line `L`: its NI has a valid route (R277), and no earlier packet of
the same route and VN is still on its way (R251, R273). -/
def State.take (s : State) (k : MsgK) (g L : Nat) : Option (Msg × State) :=
  let sel (m : Msg) : Bool := m.agent == g && m.L == L && m.k == k
  match s.msgs.find? sel with
  | some m =>
    if s.routed m.path.1 m.path.2.1 && !((s.msgs.takeWhile (fun o => !sel o)).any (fun o => o.path == m.path)) then
      some (m, { s with msgs := s.msgs.eraseP sel })
    else none
  | none => none

/-! ### The directory and the LLC -/

def State.dirE (s : State) (L : Nat) : Option DirE := Tbl.get none s.dir L
def State.setDir (s : State) (L : Nat) (e : Option DirE) : State := { s with dir := Tbl.set none s.dir L e }
def dirSetOf (L : Nat) : Nat := bits L 8 12 ^^^ bits L 20 12
def llcSetOf (L : Nat) : Nat := bits L 8 11 ^^^ bits L 19 11
def dirKey (L : Nat) : Nat := homeOf L * 4096 + dirSetOf L
def llcKey (L : Nat) : Nat := homeOf L * 2048 + llcSetOf L

def State.cnt (s : State) (L : Nat) : Nat := Tbl.get 0 s.setCnt (dirKey L)
/-- R242: the set counter advances. -/
def State.count (s : State) (L : Nat) : State :=
  { s with setCnt := Tbl.set 0 s.setCnt (dirKey L) ((s.cnt L + 1) % 2 ^ 24) }
def State.stamp (s : State) (L : Nat) : Nat :=
  s.f (R.TIL_HOME_EPOCH_EPOCH (homeOf L)) * 2 ^ 24 + s.cnt L
def State.stampOk (s : State) (L st : Nat) : Bool :=
  let e := s.f (R.TIL_HOME_EPOCH_EPOCH (homeOf L))
  st % 2 ^ 24 == s.cnt L && (st / 2 ^ 24 == e || st / 2 ^ 24 == (e + 255) % 256)

/-- R240: the tiles an entry lists; the coarse form lists every enabled tile of each marked hive. -/
def State.listed (s : State) (e : DirE) : List Nat :=
  match e.st with
  | .coarse => (List.range 256).filter (fun t => e.mask.getLsbD (t / 8) && !(s.fused t))
  | _ => e.ptrs

/-- R240: add a sharer; a fifth turns the entry coarse. -/
def DirE.add (e : DirE) (r : Nat) : DirE :=
  match e.st with
  | .coarse => { e with mask := e.mask ||| ((1 : BitVec 32) <<< (r / 8)) }
  | _ =>
    if e.ptrs.contains r then e
    else if e.ptrs.length < 4 then { e with st := .S, ptrs := e.ptrs ++ [r] }
    else { e with st := .coarse, ptrs := [],
                  mask := (e.ptrs ++ [r]).foldl (fun m t => m ||| ((1 : BitVec 32) <<< (t / 8))) e.mask }

/-- Remove a tile (FLUSH with DROP): a coarse mark stays, since other tiles of the hive may hold the line. -/
def DirE.rem (e : DirE) (r : Nat) : Option DirE :=
  match e.st with
  | .coarse => some e
  | _ => let p := e.ptrs.filter (· != r); if p.isEmpty then none else some { e with ptrs := p }

def State.llcE (s : State) (L : Nat) : Option LlcE := Tbl.get none s.llc L
def State.setLlc (s : State) (L : Nat) (e : Option LlcE) : State := { s with llc := Tbl.set none s.llc L e }
def State.llcTouch (s : State) (L way : Nat) : State :=
  { s with llcPlru := Tbl.set 0 s.llcPlru (llcKey L) (plruTouch (Tbl.get 0 s.llcPlru (llcKey L)) way) }
def State.dirTouch (s : State) (L way : Nat) : State :=
  { s with dirPlru := Tbl.set 0 s.dirPlru (dirKey L) (plruTouch (Tbl.get 0 s.dirPlru (dirKey L)) way) }

/-- Send a request to the line's channel: it waits at the memory Seam (R288). -/
def State.toChan (s : State) (L dom : Nat) (op : ChOp) : State :=
  let ch := chanOf L
  s.setChan ch { s.chan ch with inq := (s.chan ch).inq ++ [{ L := L, dom := dom, op := op }] }

/-- What stands in way `w` of the slice's set that `L` maps to. -/
def State.llcAt (s : State) (L w : Nat) : Option (Nat × LlcE) :=
  s.llc.findSome? (fun e => match e.2 with
    | some x => if llcKey e.1 == llcKey L && x.way == w then some (e.1, x) else none
    | none => none)

/-- R237: the way an allocation of `L` in the class of `dom` takes: its own, an invalid one, or the pseudo-LRU victim's; none
where the class allows no way. -/
def State.llcWay (s : State) (L dom : Nat) : Option Nat :=
  match s.llcE L with
  | some e => some e.way
  | none =>
    let ways := s.f (R.TIL_LLC_CLASS_WAYS (homeOf L) (s.f (R.DOM_CFG_LLC_CLASS dom)))
    if ways = 0 then none
    else
      let used := (s.llc.filter (fun e => llcKey e.1 == llcKey L)).foldl (fun m e => match e.2 with
        | some x => setBit m x.way | none => m) 0
      some ((freeWay ways used).getD (plruVictim (Tbl.get 0 s.llcPlru (llcKey L)) ways))

/-- The line enters way `w`, whose old line leaves; a line that stands in the slice keeps its way. -/
def State.llcIn (s : State) (L w : Nat) (d : LineD) (dirty : Bool) : State :=
  let s := match s.llcE L, s.llcAt L w with | none, some (V, _) => s.setLlc V none | _, _ => s
  (s.setLlc L (some ⟨d, dirty, w⟩)).llcTouch L w

/-- R236, R237, R238: a response's data is allocated or updated in its slice, in the class of `dom`; a dirty victim goes to its
channel. -/
def State.llcPut (s : State) (L dom : Nat) (d : LineD) (dirty : Bool) : State :=
  match s.llcE L, s.llcWay L dom with
  | some e, _ => s.llcIn L e.way d (e.dirty || dirty)
  | none, none => if dirty then s.toChan L dom (.homeWr d none) else s
  | none, some w =>
    match s.llcAt L w with
    | some (V, x) => (if x.dirty then s.toChan V dom (.homeWr x.d none) else s).llcIn L w d dirty
    | none => s.llcIn L w d dirty

/-! ### Transactions -/

def State.txnOf (s : State) (L : Nat) : Option Txn := s.txns.find? (fun t => t.L == L)
/-- A transaction is open on the line, or its entry is being evicted (R249, R261). -/
def State.lineBusy (s : State) (L : Nat) : Bool := s.txns.any (fun t => t.L == L || t.evict == some L)
def State.setTxn (s : State) (x : Txn) : State :=
  { s with txns := s.txns.map (fun t => if t.L = x.L then x else t) }
def State.openTxn (s : State) (x : Txn) : State := { s with txns := s.txns ++ [{ x with at_ := s.waitClock }] }

/-- Unpin the line's entry. -/
def State.unpin (s : State) (L : Nat) : State :=
  match s.dirE L with
  | some e => s.setDir L (some { e with pin := false })
  | none => s
def State.pin (s : State) (L : Nat) : State :=
  match s.dirE L with
  | some e => s.setDir L (some { e with pin := true })
  | none => s

/-- R249: the transaction on `L` closes. -/
def State.closeTxn (s : State) (L : Nat) : State :=
  ({ s with txns := s.txns.filter (fun t => t.L != L) }).unpin L

/-- R238: a request's line enters way `f.e.way`, its messages leave and its transaction may close; where a dirty line stands in
the way, its write to the channel must be accepted first. -/
def State.llcFill (s : State) (dom : Nat) (f : LlcFill) : State :=
  let go (s : State) : State :=
    let s := f.msgs.foldl State.send (s.llcIn f.L f.e.way f.e.d f.e.dirty)
    if f.close then s.closeTxn f.L else s
  match s.llcAt f.L f.e.way with
  | some (V, x) =>
    if x.dirty && V != f.L then (s.setLlc V (some { x with dirty := false })).toChan V dom (.homeWr x.d (some f)) else go s
  | none => go s

/-- R236 to R238: a request's line is allocated in the class of `dom`, and then its messages leave and its transaction may close. -/
def State.llcReq (s : State) (L dom : Nat) (d : LineD) (dirty : Bool) (msgs : List Msg) (close : Bool) : State :=
  match s.llcWay L dom with
  | some w => s.llcFill dom ⟨L, ⟨d, dirty || (match s.llcE L with | some e => e.dirty | none => false), w⟩, msgs, close⟩
  | none =>
    let s := msgs.foldl State.send (if dirty then s.toChan L dom (.homeWr d none) else s)
    if close then s.closeTxn L else s

/-- The line's entry becomes EX{r}. -/
def State.dirEx (s : State) (L r : Nat) : State :=
  match s.dirE L with
  | some e => s.setDir L (some { e with st := .EX, ptrs := [r], mask := 0 })
  | none => s
def State.dirAdd (s : State) (L r : Nat) : State :=
  match s.dirE L with
  | some e => s.setDir L (some (e.add r))
  | none => s

/-- The transaction awaits COMPLETE from its requester. -/
def State.sentTxn (s : State) (L : Nat) : State :=
  match s.txnOf L with
  | some x => s.setTxn { x with sent := true, fwdTo := none, waitInv := [] }
  | none => s

/-- "Served" (R246): DATA from the LLC, or a read of the channel. -/
def State.serve (s : State) (m : Msg) (kind : Kind) (alloc : Bool) : State :=
  match s.llcE m.L with
  | some e =>
    let s := if alloc then s.llcTouch m.L e.way else s
    s.send { k := .data, L := m.L, agent := m.agent, core := m.core, dom := m.dom, kind := kind, d := some e.d }
  | none => s.toChan m.L m.dom (.homeRd m kind alloc)

/-- R249: a snapshot (RD_NC, RD_FETCH) served by the home: the line's transaction stays open until the data is sent. -/
def State.serveSnap (s : State) (m : Msg) : State :=
  if (s.llcE m.L).isSome then (s.serve m .none false).closeTxn m.L else s.serve m .none false

/-- Send INV to each tile of a list. -/
def State.sendInvs (s : State) (L dom : Nat) (ts : List Nat) : State :=
  ts.foldl (fun s t => s.send { k := .inv, L := L, agent := t, dom := dom }) s

/-- R254 step 3: the atomic on the home's copy; DATA carries the old value and the status: 0 done, 1 lock mismatch
refused, 2 poison, 3 done with a mismatch to log. `val` of a mismatch names the word and its lock. -/
def atomLine (d : LineD) (a : AtomReq) : LineD × Nat × Nat × Nat :=
  let off := a.addr % 64
  if spanPoison d.poison off a.size then (d, 2, 0, 0)
  else
    let old := d.read off a.size
    let miss := lockMiss a.lk d.locks off a.size
    let mv := match miss with | some (i, l) => i * 16 + l | none => 0
    if miss.isSome ∧ a.lk.mode = .precise then (d, 1, old, mv)
    else
      (d.write off a.size (atomNew a.op a.size old a.opnd.toNat a.cmp.toNat), if miss.isSome then 3 else 0, old, mv)

/-- The line's data at the home, from the LLC or from its channel, where no private copy stands. -/
def State.homeFetch (s : State) (L dom : Nat) : State × LineD :=
  match s.llcE L with
  | some e => (s, e.d)
  | none => s.chanRead L dom 0

/-- R188, R254 steps 3 and 4: the atomic of message `m` on the line's data at its home; the line is then held dirty in the LLC
(R236), and DATA carries the old value and the status. -/
def State.atomHome (s : State) (m : Msg) (d : LineD) : State :=
  match m.at_ with
  | some a =>
    let (d2, st, old, mv) := atomLine d a
    s.llcReq m.L m.dom d2 true
      [{ k := .data, L := m.L, agent := m.agent, core := m.core, val := old + mv * 2 ^ 64, stat := st, kind := .none }] true
  | none => s.closeTxn m.L

/-- Execute ATOMIC or WR_NC once no private copy is left (R254), and close. -/
def State.execNc (s : State) (x : Txn) : State :=
  let m := x.m
  match m.k with
  | .atomic =>
    match s.llcE m.L with
    | some e => s.atomHome m e.d
    | none => s.toChan m.L m.dom (.homeRd m .none true)
  | .wrNc =>
    match m.wr, s.llcE m.L with
    | some w, some e =>
      let (d, bad) := mergeWr e.d w
      ((s.llcPut m.L m.dom d true).send
        { k := .wrDone, L := m.L, agent := m.agent, stat := b2n bad }).closeTxn m.L
    | some _, none => s.toChan m.L m.dom (.ncWr m)
    | none, _ => s.closeTxn m.L
  | _ => s

/-- Every answer has come: go on with the request (R246, R253, R261). -/
def State.proceed (s : State) (L : Nat) : State :=
  match s.txnOf L with
  | none => s
  | some x =>
    let r := x.m.agent
    match x.evict with
    | some V =>
      let way := match s.dirE V with | some e => e.way | none => 0
      let s := (s.setDir V none).setTxn { x with evict := none, coarse := false }
      let s := ((s.setDir L (some ⟨.EX, [r], 0, way, true⟩)).dirTouch L way).count L
      let s := match x.m.k with
        | .promote => s.send { k := .grant, L := L, agent := r, core := x.m.core, kind := .E }
        | .rdS => s.serve x.m .E true
        | _ => s.serve x.m .M true
      s.sentTxn L
    | none =>
      match x.m.k with
      | .upg =>
        let listedBefore := match s.dirE L with | some e => (s.listed e).contains r | none => false
        let s := s.dirEx L r
        (if listedBefore then s.send { k := .grant, L := L, agent := r, kind := .M } else s.serve x.m .M true).sentTxn L
      | .rdO => ((s.dirEx L r).serve x.m .M true).sentTxn L
      | .atomic | .wrNc => (s.setDir L none).execNc x
      | _ => s

/-- R261: a request that needs a new entry takes an invalid way, a victim's way, or the retry queue. -/
def State.allocEntry (s : State) (m : Msg) : State :=
  let inSet := s.dir.filter (fun e => dirKey e.1 == dirKey m.L)
  let usedWays (f : DirE → Bool) := inSet.foldl (fun u e => match e.2 with
    | some x => if f x then setBit u x.way else u | none => u) 0
  let used := usedWays (fun _ => true)
  match freeWay 0xFFFF used with
  | some w =>
    let s := ((s.setDir m.L (some ⟨.EX, [m.agent], 0, w, true⟩)).dirTouch m.L w).count m.L
    let s := s.openTxn { L := m.L, m := m, sent := true }
    match m.k with
    | .promote => s.send { k := .grant, L := m.L, agent := m.agent, core := m.core, kind := .E }
    | .rdS => s.serve m .E true
    | _ => s.serve m .M true
  | none =>
    let unp := usedWays (fun x => !x.pin)
    if unp = 0 then
      { s.incSat (R.TIL_DIR_RETRY_COUNT (homeOf m.L)) with retryQ := s.retryQ ++ [m] }
    else
      let w := plruVictim (Tbl.get 0 s.dirPlru (dirKey m.L)) unp
      match inSet.find? (fun e => match e.2 with | some x => x.way == w | none => false) with
      | some (V, some e) =>
        let ts := s.listed e
        let s := (s.setDir V (some { e with pin := true })).incSat (R.TIL_DIR_EVICT_COUNT (homeOf m.L))
        let s := s.openTxn { L := m.L, m := m, waitInv := ts, evict := some V, coarse := decide (e.st = .coarse) }
        let s := s.sendInvs V m.dom ts
        if ts.isEmpty then s.proceed m.L else s
      | _ => s

/-- Open the transaction of a request on a line with none open (R246, R256). -/
def State.openReq (s : State) (m : Msg) : State :=
  let L := m.L
  let r := m.agent
  let e := s.dirE L
  -- R240, R261: a request that finds its entry makes its way the most recently used
  let s := match e with
    | some x => if m.k = .rdFetch ∨ m.k = .rdNc then s else s.dirTouch L x.way
    | none => s
  let invOthers (s : State) (e : DirE) (ts : List Nat) : State :=
    let s := (s.pin L).openTxn { L := L, m := m, waitInv := ts, coarse := decide (e.st = .coarse) }
    let s := s.sendInvs L m.dom ts
    if ts.isEmpty then s.proceed L else s
  let fwd (s : State) (k : MsgK) (o : Nat) : State :=
    ((s.pin L).openTxn { L := L, m := m, fwdTo := some o }).send
      { k := k, L := L, agent := o, req := r, core := m.core, dom := m.dom }
  match m.k with
  | .rdS | .rdO | .upg =>
    match e with
    | none => s.allocEntry m
    | some e =>
      match e.st with
      | .EX =>
        let o := e.ptrs.headD 0
        if o = r then
          ((((s.pin L).openTxn { L := L, m := m }).count L).serve m (if m.k = .rdS then .E else .M) true).sentTxn L
        else if m.k = .rdS then fwd s .fwdS o
        else fwd (s.count L) .fwdO o
      | _ =>
        if m.k = .rdS then
          ((((s.pin L).openTxn { L := L, m := m }).dirAdd L r).serve m .S true).sentTxn L
        else invOthers (s.count L) e ((s.listed e).filter (· != r))
  | .atomic | .wrNc =>
    let ts := match e with | some e => s.listed e | none => []
    let s := s.count L
    match e with
    | some e => invOthers s e ts
    | none => (s.openTxn { L := L, m := m }).proceed L
  | .rdFetch | .rdNc =>
    match e with
    | some e =>
      if e.st = .EX ∧ e.ptrs.headD 0 ≠ r then fwd s .fwdPeek (e.ptrs.headD 0)
      else ((s.pin L).openTxn { L := L, m := m }).serveSnap m
    | none => (s.openTxn { L := L, m := m }).serveSnap m
  | .promote =>
    if s.stampOk L m.stamp then
      match e with
      | none => s.allocEntry m
      | some e =>
        if e.st = .EX then
          if e.ptrs.headD 0 = r then
            ((((s.pin L).openTxn { L := L, m := m, sent := true }).count L).send
              { k := .grant, L := L, agent := r, core := m.core, kind := .E })
          -- R256 names no outcome where the stamp is unchanged and another tile owns the line: REPLAY, not counted in
          -- TIL_HOME_LATE, is the model's choice (DESIGN CHOICE, notes/assumptions/107.md)
          else s.send { k := .replay, L := L, agent := r, core := m.core }
        else
          (((s.pin L).openTxn { L := L, m := m, sent := true }).dirAdd L r).send
            { k := .grant, L := L, agent := r, core := m.core, kind := .S }
    else (s.incSat (R.TIL_HOME_LATE_COUNT (homeOf L))).send { k := .replay, L := L, agent := r, core := m.core }
  | .flush =>
    let s := match s.llcE L with
      | some x =>
        let s := if x.dirty then s.toChan L m.dom (.homeWr x.d none) else s
        if m.drop then s.setLlc L none else s.setLlc L (some { x with dirty := false })
      | none => s
    let s := if m.drop then (match s.dirE L with | some e => s.setDir L (e.rem r) | none => s) else s
    s.send { k := .flushAck, L := L, agent := r, core := m.core }
  | _ => s

/-- R232: the slice of the line's home is invalidated and takes requests. -/
def State.homeReady (s : State) (L : Nat) : Bool := s.f (R.TIL_HOME_STAT_READY (homeOf L)) == 1

/-- Accept a request at its home (R232, R247, R249, R250, R262): open it, queue it, or (none) withhold the credit. -/
def State.accept (s : State) (m : Msg) : Option State :=
  let h := homeOf m.L
  let ofHome (L : Nat) : Bool := homeOf L == h
  if !(s.homeReady m.L) then none
  else if s.lineBusy m.L ∨ (s.pendQ ++ s.retryQ).any (fun q => q.L == m.L) then
    if (s.pendQ.filter (fun q => ofHome q.L)).length < 64 then some { s with pendQ := s.pendQ ++ [m] } else none
  else if (s.txns.filter (fun t => ofHome t.L)).length ≥ 64 then none
  else if (s.retryQ.filter (fun q => ofHome q.L)).length ≥ 32 then none
  else some (s.openReq m)

/-- R265, R513: a fatal condition at tile `n` for line `L`: `kind` enters TIL_HOME_ERR where it is not 0, and the record of unit
class `cls` carries `d0` and `d1`. -/
def State.fatal (s : State) (n kind L cls code d0 d1 : Nat) : State :=
  if s.isFatal then s else
  let s := if s.f (R.TIL_HOME_ERR_KIND n) = 0 ∧ kind ≠ 0 then
    s.setFs [(R.TIL_HOME_ERR_KIND n, kind), (R.TIL_HOME_ERR_LINE n, L)] else s
  let s := s.setFs [(R.ER_STAT_FATAL, 1), (R.HEP_DV_DEV_FATAL, 1), (R.ER_STAT_FLUSHING, 1), (R.FAB_TAGS_INUSE, 0)]
  -- step 4: AER Uncorrectable Internal Error (bit 22 at 0x104); outstanding fabric requests are abandoned
  let aer := (Tbl.get none s.cfg 0x104).getD 0
  let s : State := { s with cfg := Tbl.set none s.cfg 0x104 (some (setBit aer 22)), ftags := [] }
  s.record cls n 4 code d0 d1
/-- At the slice of home `h`: a record with TIL_HOME_ERR. -/
def State.fatalAt (s : State) (h kind L : Nat) : State := s.fatal h kind L 6 0x0700 kind L
/-- At tile `t`: a state error (TIL_HOME_ERR has no KIND for it, notes/assumptions/38.md) or silence. -/
def State.fatalTile (s : State) (t kind L : Nat) : State :=
  s.fatal t (if kind = 5 then 5 else 0) L 1 0x0701 kind (L * 64)

/-- A response that matches nothing open is a protocol error (R265). -/
def State.protoErr (s : State) (L : Nat) : State := s.fatalAt (homeOf L) 4 L

/-- R236: what the data of an accepted WB does to the LLC and the channel. -/
def State.wbStore (s : State) (L dom : Nat) (kind : Kind) (d : LineD) : State :=
  match kind with
  | .evict => s.llcPut L dom d true
  | _ =>
    let s := s.toChan L dom (.homeWr d none)
    match s.llcE L with
    | some e => if kind = .memDrop then s.setLlc L none else s.setLlc L (some { e with d := d, dirty := false })
    | none => s

/-- The tile `t` has answered an INV of line `L` (R246, R253, R261): `d` the data that came, of an INV_ACK (kind EVICT: the LLC
takes it dirty) or of a WB, which does with it what its kind says (R236), in the class of `dom`. -/
def State.invAnswered (s : State) (t L dom : Nat) (d : Option (Kind × LineD)) (absent : Bool) : State :=
  match s.txns.find? (fun x => x.waitInv.contains t && (x.evict == some L || (x.evict == none && x.L == L))) with
  | none => s.protoErr L
  | some x =>
    let h := homeOf L
    let s := match d with | some (k, d) => s.wbStore L dom k d | none => s
    let s := if absent then s.incSat (if x.coarse then R.TIL_DIR_COARSE_COUNT h else R.TIL_DIR_STALE_COUNT h) else s
    let rest := x.waitInv.filter (· != t)
    let s := s.setTxn { x with waitInv := rest, infl := false, wbData := none }
    if rest.isEmpty then s.proceed x.L else s

/-- The owner's copy has gone: serve the forwarded request from the home (R246). -/
def State.ownerGone (s : State) (x : Txn) : State :=
  let r := x.m.agent
  match x.m.k with
  | .rdS => (((s.count x.L).dirEx x.L r).serve x.m .E true).sentTxn x.L
  | .rdO | .upg => ((s.dirEx x.L r).serve x.m .M true).sentTxn x.L
  | _ => (s.setTxn { x with fwdTo := none, infl := false }).serveSnap x.m

/-- R257: writeback data, of a WB of domain `dom` and this kind, and the owner's answer are both there. For an RD_S R257 does not
say what becomes of the data: the model stores it as R236 says for the WB's kind, counts, and serves the request as kind E
(DESIGN CHOICE, notes/assumptions/34.md). -/
def State.wbJoin (s : State) (x : Txn) (dom : Nat) (kind : Kind) (d : LineD) : State :=
  let r := x.m.agent
  match x.m.k with
  | .rdO | .upg =>
    ((s.dirEx x.L r).send
      { k := .data, L := x.L, agent := r, core := x.m.core, kind := .M, d := some d, dirty := true }).sentTxn x.L
  | .rdS => (s.wbStore x.L dom kind d).ownerGone x
  | _ =>
    let s := (s.send { k := .data, L := x.L, agent := r, core := x.m.core, kind := .none, d := some d })
    ((s.wbStore x.L dom kind d).setDir x.L none).closeTxn x.L

/-- R246, R257 to R259: a WB arrives at the home. -/
def State.wbArrive (s : State) (m : Msg) : State :=
  let L := m.L
  let t := m.agent
  match m.d with
  | none => s.protoErr L
  | some d =>
    let ack (s : State) : State := s.send { k := .wbAck, L := L, agent := t }
    let store (s : State) : State := s.wbStore L m.dom m.kind d
    match s.txns.find? (fun x => (x.fwdTo == some t && x.L == L) ||
        (x.waitInv.contains t && (x.evict == some L || (x.evict == none && x.L == L)))) with
    | some x =>
      if m.kind = .keep then ack (store s)
      else if x.fwdTo = some t then
        if x.infl then ack (s.wbJoin x m.dom m.kind d)
        else ack (s.setTxn { x with wbData := some d, wbKind := m.kind, wbDom := m.dom })
      else if x.infl then ack (s.invAnswered t L m.dom (some (m.kind, d)) false)
      else ack (s.setTxn { x with wbData := some d, wbKind := m.kind, wbDom := m.dom })
    | none =>
      match s.dirE L with
      | some e =>
        if e.st = .EX ∧ e.ptrs.headD 0 = t ∧ !(s.lineBusy L) then
          let s := ack (store s)
          if m.kind = .keep then s else s.setDir L none
        else s.protoErr L
      | none => s.protoErr L

/-- R257, R258, R263: the tile has no copy to give; `infl`: its writeback is on the way. -/
def State.noCopy (s : State) (t L : Nat) (infl : Bool) : State :=
  match s.txns.find? (fun x => x.fwdTo == some t && x.L == L) with
  | some x =>
    match x.wbData with
    | some d => s.wbJoin x x.wbDom x.wbKind d
    | none =>
      if infl then s.setTxn { x with infl := true }
      else (s.incSat (R.TIL_DIR_STALE_COUNT (homeOf L))).ownerGone x
  | none =>
    match s.txns.find? (fun x => x.waitInv.contains t && (x.evict == some L || (x.evict == none && x.L == L))) with
    | some x =>
      match x.wbData with
      | some d => s.invAnswered t L x.wbDom (some (x.wbKind, d)) false
      | none => if infl then s.setTxn { x with infl := true } else s.invAnswered t L 0 none true
    | none => s.protoErr L

/-- OWNER_ACK at the home (R252, R246). -/
def State.ownerAcked (s : State) (m : Msg) : State :=
  match s.txns.find? (fun x => x.fwdTo == some m.agent && x.L == m.L) with
  | none => s.protoErr m.L
  | some x =>
    let s := match m.d with | some d => s.llcPut m.L m.dom d true | none => s
    match x.m.k with
    | .rdS =>
      let s := (match s.dirE m.L with
        | some e => s.setDir m.L (some (({ e with st := .S, ptrs := [m.agent] }).add x.m.agent))
        | none => s)
      if x.done then s.closeTxn m.L else s.setTxn { x with ans := true, sent := true, fwdTo := none }
    | _ => s.closeTxn m.L

/-- COMPLETE at the home (R249). -/
def State.completed (s : State) (t L : Nat) : State :=
  match s.txnOf L with
  | none => s.protoErr L
  | some x =>
    if x.m.agent ≠ t then s.protoErr L
    else if x.fwdTo.isSome ∧ x.m.k = .rdS then s.setTxn { x with done := true }
    else if x.fwdTo.isSome then (s.dirEx L t).closeTxn L
    else if x.sent then s.closeTxn L
    else s.protoErr L

/-! ### Whole accesses by agents without a cache, and atomics of cores (R188, R254) -/

/-- Nothing about the line is in flight. -/
def State.lineQuiet (s : State) (L : Nat) : Bool :=
  !(s.lineBusy L) && (s.fillWaits L).isNone && !((s.pendQ ++ s.retryQ).any (fun q => q.L == L)) && !(s.msgs.any (fun m => m.L == L))
    && !((s.chan (chanOf L)).inq ++ (s.chan (chanOf L)).rdq).any (fun r => r.L == L &&
      (match r.op with | .homeRd .. => true | _ => false))

/-- The tile that holds the line in E or M, with its copy. -/
def State.ownerCopy (s : State) (L : Nat) : Option (Nat × L2Line) :=
  s.caches.findSome? (fun e =>
    if e.1 % 2 ^ 64 = L ∧ (e.2.st = LSt.M ∨ e.2.st = LSt.E) then some (e.1 / 2 ^ 64, e.2) else none)

/-- The line's current value as every other agent would see it (R172, R173). -/
def State.coherent (s : State) (L : Nat) : LineD :=
  match s.ownerCopy L with
  | some (_, x) => x.d
  | none =>
    match s.msgs.findSome? (fun m => if m.L = L ∧
        (m.k = MsgK.wb ∨ m.k = MsgK.ownerAck ∨ m.k = MsgK.invAck ∨
          (m.k = MsgK.data ∧ (m.kind = Kind.M ∨ m.kind = Kind.E))) then m.d
        else none) with
    | some d => d
    | none =>
      match s.txns.findSome? (fun x => if x.L = L ∨ x.evict = some L then x.wbData else none) with
      | some d => d
      | none =>
        match s.fillWaits L, s.llcE L with
        | some d, _ => d
        | none, some e => e.d
        | none, none => s.dramPeek L

/-- The home can serve the line now: from a private copy, from the LLC, or from an array that is ready. -/
def State.homeOpen (s : State) (L dom : Nat) : Bool :=
  (s.ownerCopy L).isSome || (s.llcE L).isSome || s.readOpen L dom

/-- The same for a write, which waits behind every request of the line that its channel holds (R290). -/
def State.writeOpen (s : State) (L dom : Nat) : Bool :=
  s.homeOpen L dom && ((s.llcE L).isSome || !(s.chanHas L))

/-- R254 steps 1 and 2, R263: INV goes to every listed tile and every answer comes: each copy is given up, a dirty one to the
LLC in the class of its tile's domain, and a listed tile that holds none counts as NOT_PRESENT. -/
def State.recall (s : State) (L : Nat) : State :=
  match s.dirE L with
  | none => s
  | some e =>
    let s := (s.listed e).foldl (fun (s : State) t =>
      let x := s.l2 t L
      match x.st with
      | .M => (s.llcPut L (s.domOf t) x.d true).setL2 t L {}
      | .E | .S => s.setL2 t L {}
      | _ => s.incSat (if e.st = DirSt.coarse then R.TIL_DIR_COARSE_COUNT (homeOf L) else R.TIL_DIR_STALE_COUNT (homeOf L))) s
    s.setDir L none

/-- An atomic at the home as one step: old value and status as `atomLine` (R188, R254). -/
def State.homeAtomic (s : State) (L dom : Nat) (a : AtomReq) : State × Nat × Nat × Nat :=
  let s := (s.count L).recall L
  let (s, d) := s.homeFetch L dom
  let (d2, st, old, mv) := atomLine d a
  (s.llcPut L dom d2 true, st, old, mv)

/-- A read of a line by an agent without a cache (RD_NC): FWD_PEEK to an owner, which answers with its copy or counts as
NOT_PRESENT (R246), else from the home. -/
def State.ncRead (s : State) (L dom : Nat) : State × LineD :=
  match s.ownerCopy L with
  | some (_, x) => (s, x.d)
  | none =>
    (match s.dirE L with
     | some e => if e.st = DirSt.EX then s.incSat (R.TIL_DIR_STALE_COUNT (homeOf L)) else s
     | none => s).homeFetch L dom

/-- A masked write of a line by an agent without a cache (WR_NC); the second part: the error status of R165, R299. A copy that the
class of its domain keeps out of the LLC is at the channel, and is written there. -/
def State.ncWrite (s : State) (L dom : Nat) (w : WrReq) : State × Bool :=
  let s := (s.count L).recall L
  match s.llcE L with
  | some e => let (d, bad) := mergeWr e.d w; (s.llcPut L dom d true, bad)
  | none =>
    match s.chanQueued L with
    | some q => let (d, bad) := mergeWr q w; (s.toChan L dom (.homeWr d none), bad)
    | none => s.dramPartial L dom w

end Sys2Proof.Machine
end

