-- ==== Sys2Proof/Machine/Trap.lean ====
section
/-! DEFINITION. Taking an exception or interrupt and returning from it (R129 to R136), predictor clearing (R62), the
stop of a core (R134, R346) and the contained error of a domain (R361), as shared operations. -/

namespace Sys2Proof.Machine
open Sys2Proof

def Priv.code : Priv → Nat | .U => 0 | .S => 1 | .M => 3
def Priv.of (n : Nat) : Priv := match n with | 0 => .U | 1 => .S | _ => .M

/-- R62: every counter 0b01, buffer and both return stacks empty. -/
def Core.clearPred (k : Core) : Core := { k with dirT := [], btb := [], btbLru := [], retR := [], retS := [] }

/-- What a trap reports beside its code (R138 TCAUSE). -/
structure Cause where
  code  : Nat
  acc   : Acc := .fetch
  walk  : Bool := false
  lvl   : Nat := 0
  sub   : Nat := 0
  key   : Nat := 0
  lock  : Nat := 0
  scode : Nat := 0
  intr  : Bool := false
  val   : W64 := 0
  val2  : W64 := 0
  deriving DecidableEq, Repr

def Cause.word (x : Cause) : W64 :=
  BitVec.ofNat 64 (x.code + x.acc.code * 2 ^ 8 + b2n x.walk * 2 ^ 10 + x.lvl * 2 ^ 11 + x.sub * 2 ^ 14
    + x.key * 2 ^ 16 + x.lock * 2 ^ 20 + x.scode * 2 ^ 24 + b2n x.intr * 2 ^ 63)

/-- R130: codes fixed to M. -/
def fixedM (code : Nat) : Bool := [0x04, 0x0C, 0x0D, 0x0F, 0x18].contains code
/-- R130, R138: the M_EDELEG bits that exist. -/
def edelegMask : W64 := 0x003F_4F6E

/-- The writable bits of a control register; reserved bits read zero. -/
def crMask (n : Nat) : W64 :=
  match n with
  | 0x000 => 0x7F
  | 0x400 => 0x7
  | 0x401 | 0xC01 => 0xFFFF_FFFF_FFFF_FFFC
  | 0x403 | 0xC03 => 0x8000_0003_FFFF_FFFF
  | 0x402 | 0x404 | 0x405 | 0x406 | 0xC02 | 0xC04 | 0xC05 | 0xC06 | 0xC07 => BitVec.allOnes 64
  | 0x407 | 0xC08 => 0xF
  | 0x409 | 0xC0B => 1
  | 0x40A => 0x3FFF_FFFF_FFFF_FFFB
  | 0xC00 => 0xF
  | 0xC0A => edelegMask
  | 0xC0C => 0x03FF_FFFF_FFFF_FFF9
  | _ => 0

/-- Control-register numbers of the trap registers of level `m` (M) or S. -/
def crTSTAT (m : Bool) : Nat := if m then 0xC00 else 0x400
def crTVEC (m : Bool) : Nat := if m then 0xC01 else 0x401
def crTPC (m : Bool) : Nat := if m then 0xC02 else 0x402
def crTCAUSE (m : Bool) : Nat := if m then 0xC03 else 0x403
def crTVAL (m : Bool) : Nat := if m then 0xC04 else 0x404

/-- R92: a value as the PC holds it. -/
def pcMask (x : W64) : W64 := x &&& 0x0FFF_FFFF_FFFF_FFFC

/-- Whether an instruction of the window uses line `L` of the shadow fill buffer, or a walk of `va`'s page (R63, R69). -/
def WinE.usesLine (L : Nat) : WinE → Bool
  | .access _ _ _ _ _ l _ _ => l == some L
  | .branch _ _ => false
def WinE.usesWalk (b : WalkB) : WinE → Bool
  | .access _ va acc _ _ _ w _ => w && (acc == .fetch) == b.fetch && va.toNat % 2 ^ 60 / 2 ^ b.w.e.sz * 2 ^ b.w.e.sz == b.w.e.va
  | .branch _ _ => false
/-- R63: the count of unretired loads that read an entry. -/
def Core.users (k : Core) (L : Nat) : Nat := k.win.countP (WinE.usesLine L)

/-- R66, R69: entries of the shadow fill buffer and the walk buffer that no instruction uses are discarded; a promote already
sent belongs to the instruction at its commit point. -/
def Core.dropUnused (k : Core) : Core :=
  { k with sfb := k.sfb.filter (fun e => e.prom || k.win.any (WinE.usesLine e.L))
           walkB := k.walkB.filter (fun b => k.win.any (WinE.usesWalk b)) }
/-- R60, R66, R72: every instruction after the first `n` of the window is squashed. -/
def Core.squashAfter (k : Core) (n : Nat) : Core := { k with win := k.win.take n, retS := k.retR }.dropUnused
/-- A squash of every instruction younger than the one at the pc. -/
def Core.squash (k : Core) : Core := k.squashAfter 0

/-- R133: enter level M (`m`) or S, saving `tpc`. -/
def Core.enter (k : Core) (m : Bool) (x : Cause) (tpc : W64) : Core :=
  let st := k.cr0 (crTSTAT m)
  let st := putBits st 1 1 (st.toNat % 2)
  let st := putBits st 0 1 0
  let st := if m then putBits st 2 2 k.priv.code else putBits st 2 1 (if k.priv = .U then 0 else 1)
  let k1 := (((k.setCr (crTPC m) tpc).setCr (crTCAUSE m) x.word).setCr (crTVAL m) x.val).setCr (crTSTAT m) st
  let k1 := if m then k1.setCr 0xC05 x.val2 else k1
  let lvl : Priv := if m then .M else .S
  let k1 := { k1.squash with pc := pcMask (k.cr0 (crTVEC m) &&& ~~~(3 : W64)), priv := lvl, commit := false, fill := [] }
  if lvl = k.priv then k1 else k1.clearPred

/-- R132: the level an exception is taken at; true for M. -/
def Core.trapToM (k : Core) (code : Nat) : Bool :=
  !((k.cr0 0xC0A).getLsbD code && !(fixedM code) && k.priv != .M)

/-- The tiles assigned to domain `d`. -/
def State.domTiles (s : State) (d : Nat) : List Nat := (List.range 256).filter (fun t => s.domOf t == d)

/-- R361 step 1: the cores of a tile stop at their boundary: at once in U or S, or in M where an M-level interrupt could be
taken; a core elsewhere in M when it returns (R484). -/
def Core.holdAt (k : Core) : Core :=
  if k.priv = .M ∧ k.cr0 0xC00 &&& 1 = 0 ∧ !k.waitev then k else { k with halt := true, waitev := false }
/-- HALT of a tile follows its cores (R484, R499). -/
def State.haltFlag (s : State) (t : Nat) : State :=
  s.setF (R.TIL_PWR_STAT_HALT t) (b2n ((s.core (2 * t)).halt && (s.core (2 * t + 1)).halt))
def State.holdTile (s : State) (t : Nat) : State :=
  let s := { s with tilePark := Tbl.set 0 s.tilePark t 1 }
  ((s.updCore (2 * t) Core.holdAt).updCore (2 * t + 1) (fun k => if s.paired t then k else k.holdAt)).haltFlag t

/-- R361 step 2, R368: the jobs of domain `d`'s tenant rings are to be abandoned. -/
def State.abandonJobs (s : State) (d : Nat) : State :=
  let mark (j : Job) : Job := if j.ten ∧ j.dom = d then { j with stop := true } else j
  { s with tjobs := s.tjobs.map (fun e => (e.1, e.2.map mark))
           engines := s.engines.map (fun e => (e.1, { e.2 with run := e.2.run.map mark })) }

/-- R361: a contained error puts the domain in FAULTED; the record names the record of its cause. -/
def State.domFault (s : State) (d causeSeq : Nat) : State :=
  if d = 0 ∨ s.f (R.DOM_STATE_STATE d) = domFREE ∨ s.f (R.DOM_STATE_STATE d) = domFAULTED then s
  else
    let s := (s.setFs [(R.DOM_STATE_STATE d, domFAULTED), (R.DOM_STATE_NRUN d, 0)]).dpend d
    let s := ((s.domTiles d).foldl (fun s t => s.holdTile t) s).abandonJobs d
    (s.record 8 0 3 0x0120 d causeSeq).trigger 1001

/-- R346: what CUF_STAT and the mismatch registers record of a stop of kind `kind`; both cores stop. -/
def State.tileStop (s : State) (t kind group : Nat) : State :=
  let s := { s with stopDom := Tbl.set 0 s.stopDom t (s.domOf t) }
  let s := s.setFs [(R.CUF_STAT_STOPPED t, 1), (R.CUF_STAT_KIND t, kind), (R.CUF_STAT_GROUP t, group),
    (R.CUF_MISM_PC_PC t, (s.core (2 * t + (if kind = 3 then group else 0))).pc.toNat), (R.CUF_MISM_TIME_NS t, s.time)]
  (s.updCore (2 * t) (fun k => { k with stopped := true })).updCore (2 * t + 1) (fun k => { k with stopped := true })

/-- R134, R346, R510: core `c` stops, its tile with it. -/
def State.coreStop (s : State) (c : Nat) : State :=
  let t := c / 2
  let d := s.domOf t
  let s0 := s
  let s := s.record 2 (s.cix c) 3 0x0101 d (s.core c).pc.toNat
  let seq := s0.lastRecSeq s
  let s := s.tileStop t 3 (s.cix c % 2)
  (s.raise (512 + t) (2 + s.cix c % 2)).domFault d seq

/-- R129, R131 to R134: an exception of the instruction at the core's pc. `tpc` is the saved address. A machine check
in M with IE clear stops the core (R134). -/
def State.exception (s : State) (c : Nat) (x : Cause) (tpc : W64) : State :=
  let k := s.core c
  if x.code = 0x18 ∧ k.priv = .M ∧ k.cr0 0xC00 &&& 1 = 0 then s.coreStop c
  else s.setCore c (k.enter (k.trapToM x.code) x tpc)

/-- An exception that reports the instruction's own address (R133). -/
def State.trap (s : State) (c : Nat) (x : Cause) : State := s.exception c x (s.core c).pc

/-- R511: poison consumed by core `c`: its record, then the machine check. -/
def State.machineCheck (s : State) (c : Nat) (x : Cause) : State :=
  let s := s.record 2 (s.cix c) 2 0x0100
    (s.domOf (c / 2) + x.acc.code * 2 ^ 12 + b2n x.walk * 2 ^ 14) x.val2.toNat
  s.trap c { x with code := 0x18 }

/-- R135: return from a trap at level M or S. -/
def Core.tret (k : Core) : Core :=
  let m := decide (k.priv = .M)
  let st := k.cr0 (crTSTAT m)
  let lv : Priv := if m then Priv.of (bits st.toNat 2 2) else Priv.of (bits st.toNat 2 1)
  let st1 := putBits st 0 1 (bits st.toNat 1 1)
  let st1 := putBits st1 1 1 1
  let st1 := if m then putBits st1 2 2 0 else putBits st1 2 1 0
  let k1 := { (k.setCr (crTSTAT m) st1).squash with pc := pcMask (k.cr0 (crTPC m)), priv := lv, commit := false, fill := [] }
  if lv = k.priv then k1 else k1.clearPred

/-- R140: the S or M timer is pending. -/
def State.timerPend (s : State) (k : Core) (m : Bool) : Bool :=
  decide (s.time ≥ (k.cr0 (if m then 0xC07 else 0x406)).toNat)

/-- R145, R146: an entry of the level that may interrupt. -/
def Core.evPend (k : Core) (m : Bool) : Bool :=
  let thr := bits (k.cr0 (if m then 0xC08 else 0x407)).toNat 0 4
  k.held.any (fun h => (h.dom == 0) == m && h.pri ≥ thr)

/-- R146: the interrupt to take: level M?, code of R145. M before S, the timer before events. -/
def State.intrOf (s : State) (c : Nat) : Option (Bool × Nat) :=
  let k := s.core c
  let ieM := (k.cr0 0xC00).getLsbD 0
  let ieS := (k.cr0 0x400).getLsbD 0
  let mOk := k.priv != .M || ieM
  let sOk := !k.halt && (k.priv == .U || (k.priv == .S && ieS))
  if mOk && s.timerPend k true then some (true, 3)
  else if mOk && k.evPend true then some (true, 1)
  else if sOk && s.timerPend k false then some (false, 2)
  else if sOk && k.evPend false then some (false, 1)
  else none

/-- R148: what ends a WAITEV. -/
def State.wakeable (s : State) (k : Core) : Bool := !k.held.isEmpty || s.timerPend k true || s.timerPend k false

/-- The tile's clock runs and it is in T0 (R25, R85, R89). -/
def State.tileRuns (s : State) (t : Nat) : Bool :=
  !(s.fused t) && s.f (R.TIL_PWR_STAT_STATE t) == 0 && Tbl.get 0 s.tileClk t != 2 && !s.isFatal
/-- The tile's L2 and Seam answer: T0 or raised for service (R235, R490). -/
def State.seamOpen (s : State) (t : Nat) : Bool :=
  Tbl.get 0 s.tileClk t != 2 && ((s.f (R.TIL_PWR_STAT_STATE t) == 0 && s.f (R.TIL_PWR_STAT_ENTERING t) == 0)
    || Tbl.get 0 s.tileSvc t == 1) && !s.isFatal

/-- R53, R55, R83: core `c` may execute its next instruction: it runs, its tile runs, and it waits for nothing; a halt, or an interrupt
that has been recognised, lets only an instruction go on that has reached its commit point. -/
def State.canIssue (s : State) (c : Nat) : Bool :=
  let k := s.core c
  decide (c < 512) && s.tileRuns (c / 2) && k.run && !k.stopped && !k.waitev && k.wait.isNone && k.parked.isNone
    && k.mark.isNone && (!(k.recog || k.halt) || k.commit)

end Sys2Proof.Machine
end

