-- ==== Sys2Proof/Machine/Xlate.lean ====
section
/-! DEFINITION. Regions and memory types (R35, R47), two-stage translation with its caches (R194 to R224), byte access
to DRAM by agents, and the lock log (R168 to R170). -/

namespace Sys2Proof.Machine
open Sys2Proof

/-- R35. -/
inductive Region where
  | dram | host | ctl | ksram | none
  deriving DecidableEq, Repr

def regionOf (pa : Nat) : Region :=
  if pa < dramEnd then .dram
  else if 0x1000_0000_0000 ≤ pa ∧ pa < 0x1100_0000_0000 then .host
  else if 0x3F00_0000_0000 ≤ pa ∧ pa < 0x3F01_0000_0000 then .ctl
  else if 0x3F01_0000_0000 ≤ pa ∧ pa < 0x3F01_0200_0000 then .ksram
  else .none

/-- R47: the region accepts the type. -/
def typeOk (mt : MT) (r : Region) : Bool :=
  match mt with
  | .normal => r == .dram
  | .device => r == .dram || r == .ctl || r == .ksram
  | .hostOrdered => r == .host
  | .global | .gcached => true

/-- R128: the type of an untranslated access. -/
def mTypeOf (r : Region) : MT :=
  match r with | .dram => .normal | .host => .hostOrdered | _ => .device

/-! ### Byte access to DRAM by agents without a cache -/

/-- The part of a byte string that falls into line `L`, as a masked write. -/
def lineWr (L addr : Nat) (bs : List Nat) (pol : LockPol) : WrReq :=
  let lo := max addr (L * 64)
  let hi := min (addr + bs.length) (L * 64 + 64)
  let part := (bs.drop (lo - addr)).take (hi - lo)
  let v := part.foldr (fun b acc => b % 256 + 256 * acc) 0
  ⟨BitVec.ofNat 64 ((2 ^ (hi - lo) - 1) * 2 ^ (lo - L * 64)),
   ⟨BitVec.ofNat 512 v <<< (8 * (lo - L * 64)), 0, 0⟩, pol⟩

/-- The lines of [addr, addr + n). -/
def linesOf (addr n : Nat) : List Nat :=
  if n = 0 then [] else (List.range ((addr + n - 1) / 64 + 1 - addr / 64)).map (· + addr / 64)

/-- Little-endian bytes of a number (R14). -/
def leBytes (n v : Nat) : List Nat := (List.range n).map (fun i => v / 256 ^ i % 256)
def ofLe (bs : List Nat) : Nat := bs.foldr (fun b acc => b % 256 + 256 * acc) 0

/-- The bytes of [addr, addr + n) as an agent reads them, with a mark where a code word was poisoned. -/
def State.peekBytes (s : State) (addr n : Nat) : List Nat × Bool :=
  (linesOf addr n).foldl (fun (acc : List Nat × Bool) L =>
    let d := s.coherent L
    let lo := max addr (L * 64)
    let hi := min (addr + n) (L * 64 + 64)
    (acc.1 ++ leBytes (hi - lo) (d.read (lo - L * 64) (hi - lo)),
     acc.2 || spanPoison d.poison (lo - L * 64) (hi - lo))) ([], false)

/-- Every line of a span is quiet. -/
def State.spanQuiet (s : State) (addr n : Nat) : Bool := (linesOf addr n).all s.lineQuiet

/-! ### The lock log -/

/-- R169: records leave for their rings in order, each once its line is quiet and its home open; its event follows it. -/
def logDrain : List LogW → State → State
  | [], s => { s with lockQ := [] }
  | q :: rest, s =>
    if s.lineQuiet q.L && s.writeOpen q.L q.dom && s.meshRuns then
      let s1 := (s.ncWrite q.L q.dom q.wr).1
      logDrain rest (match q.evt with | some e => s1.regTrig e q.dom | none => s1)
    else { s with lockQ := q :: rest }
def State.logGo (s : State) : State := logDrain s.lockQ s

/-- R168, R169, R170: one record for domain `d`. -/
def State.lockRecord (s : State) (d core priv acc : Nat) (late far drop : Bool) (key lock : Nat) (addr pc : W64) :
    State :=
  if s.f (R.DOM_LOCKCTL_LOG_EN d) = 0 then s.incSat (R.DOM_LOCKMISS_COUNT d)
  else
    let seq := s.f (R.DOM_LOCKLOG_SEQ_SEQ d)
    let n := min 16 (max 6 (s.f (R.DOM_LOCKLOG_SIZE_LOG2N d)))
    let at_ := s.f (R.DOM_LOCKLOG_BASE_BASE d) * 4096 + seq % 2 ^ n * 32
    let s := s.setF (R.DOM_LOCKLOG_SEQ_SEQ d) (seq + 1)
    if at_ + 32 > dramEnd then s.incSat (R.DOM_LOCKMISS_COUNT d)
    else
      let bs := leBytes 4 seq
        ++ leBytes 2 (core + priv * 2 ^ 9 + acc * 2 ^ 11 + b2n late * 2 ^ 13 + b2n far * 2 ^ 14 + b2n drop * 2 ^ 15)
        ++ leBytes 1 (key + lock * 16) ++ [0] ++ leBytes 8 addr.toNat ++ leBytes 8 pc.toNat ++ leBytes 8 s.time
      let evt := if s.f (R.DOM_LOCKCTL_EVT_EN d) = 1 then some (s.f (R.DOM_LOCKCTL_EVT d)) else none
      ({ s with lockQ := s.lockQ ++
        [(⟨at_ / 64, d, lineWr (at_ / 64) at_ bs .clear, evt⟩ : LogW)] } : State).logGo

/-- R153: the domain that governs lock checks of core `c`. -/
def State.govDom (s : State) (c : Nat) : Nat := if (s.core c).priv = .M then 0 else s.domOf (c / 2)

/-- R153, R155, R159: key, check mode and KEY0 in force for an access of core `c` at `ea`. -/
def State.lockReq (s : State) (c : Nat) (ea : W64) : LockReq :=
  let d := s.govDom c
  let (m, z) := match (s.core c).priv with
    | .U => (s.f (R.DOM_LOCKCTL_CHK_U d), s.f (R.DOM_LOCKCTL_KEY0_U d))
    | .S => (s.f (R.DOM_LOCKCTL_CHK_S d), s.f (R.DOM_LOCKCTL_KEY0_S d))
    | .M => (s.f (R.DOM_LOCKCTL_CHK_M d), s.f (R.DOM_LOCKCTL_KEY0_M d))
  ⟨bits ea.toNat 60 4, match m with | 0 => .off | 2 => .log | _ => .precise, z == 1⟩

/-! ### A tile's requests (R234, R244) -/

/-- R234: a request or a writeback of the line is outstanding. -/
def LSt.transient : LSt → Bool
  | .IS | .IM | .SM | .WBP | .KP => true
  | _ => false

/-- The tile may send no new request for the line (R234): one is outstanding. -/
def State.lineOut (s : State) (t L : Nat) : Bool :=
  (s.l2 t L).st.transient || s.outReq.any (fun r => r.t == t && r.L == L)

/-- R244, R65: an access at its commit point that misses asks for its line: a promote where its data came speculatively, else
RD_S. Data copied from the tile's own L2 carries no stamp, so it is not promoted (notes/assumptions/108.md). -/
def State.wantShare (s : State) (c L : Nat) : State :=
  let t := c / 2
  let k := s.core c
  let x := s.l2 t L
  if s.lineOut t L ∨ x.st ≠ .I then s
  else
    match k.sfb.find? (fun e => e.L == L && e.d.isSome && !e.own) with
    | some e =>
      (s.setCore c { k with sfb := k.sfb.map (fun e => if e.L = L then { e with prom := true } else e) }).ask
        { k := .promote, L := L, agent := t, core := s.cix c, dom := s.govDom c, stamp := e.stamp }
    | none =>
      ((s.setCore c { k with sfb := k.sfb.filter (fun e => e.L != L) }).setL2 t L { x with st := .IS, at_ := s.waitClock }).send
        { k := .rdS, L := L, agent := t, core := s.cix c, dom := s.govDom c }

/-- R55: the instruction at the pc of core `c` has reached its commit point and waits for line `L`. -/
def State.waitLine (s : State) (c L : Nat) : State :=
  (s.wantShare c L).updCore c (fun k => { k with commit := true })

/-! ### Table entries -/

def mtOf (n : Nat) : MT :=
  match n with | 0 => .normal | 1 => .device | 2 => .hostOrdered | 3 => .global | _ => .gcached

/-- R208. -/
def combineMT (m1 : Nat) (m2 : MT) : MT :=
  if m1 = 1 then
    match m2 with | .normal => .device | .gcached => .global | x => x
  else m2

/-- R198, R202: a well-formed table pointer at level `l`. -/
def isPtr (e l : Nat) : Bool := e.testBit 0 && e.testBit 1 && l != 0 && !e.testBit 2 && bits e 46 10 == 0
/-- R200, R202, R203: a well-formed stage-2 leaf. -/
def isLeaf2 (e l : Nat) : Bool :=
  e.testBit 0 && !e.testBit 1 && (e.testBit 2 || !e.testBit 3) && bits e 5 3 ≤ 4
    && bits e 8 4 ≤ (if l = 3 then 7 else 8)
/-- R199, R202, R203: a well-formed stage-1 leaf. -/
def isLeaf1 (e l : Nat) : Bool :=
  e.testBit 0 && !e.testBit 1 && (e.testBit 2 || !e.testBit 3) && !e.testBit 11 && bits e 46 3 ≤ 4
    && bits e 49 4 ≤ (if l = 4 then 7 else 8) && bits e 53 3 == 0

/-- What a stage-2 lookup ends in. -/
inductive S2Res where
  | leaf (x : S2E)
  | noLeaf
  | walkLoc
  | poison (line : Nat)
  | miss (line : Nat)
  deriving DecidableEq, Repr

/-- What reading an aligned 8-byte table entry meets: its value, poison, or a line that is not at hand. -/
inductive Rd8 where
  | val (v : Nat)
  | poison
  | miss
  deriving DecidableEq, Repr

/-- R214 s2: from level `l` down; `rd` reads an aligned 8-byte entry. -/
def s2Walk (rd : Nat → Rd8) (dpa : Nat) : Nat → Nat → S2Res
  | fuel, base =>
    match fuel with
    | 0 => .noLeaf
    | l + 1 =>
      let idx := if l = 3 then bits dpa 39 7 else bits dpa (12 + 9 * l) 9
      let ea := base + 8 * idx
      if ea ≥ dramEnd then .walkLoc
      else
        match rd ea with
        | .poison => .poison (ea / 64)
        | .miss => .miss (ea / 64)
        | .val e =>
          if isPtr e l then s2Walk rd dpa l (bits e 3 43 * 8)
          else if isLeaf2 e l then
            let sz := 12 + 9 * l + bits e 8 4
            .leaf ⟨dpa / 2 ^ sz * 2 ^ sz, sz, e.testBit 2, e.testBit 3, e.testBit 4, mtOf (bits e 5 3),
                   e / 2 ^ sz * 2 ^ sz⟩
          else .noLeaf

/-- The output of a stage-2 leaf for a DPA. -/
def S2E.out (x : S2E) (dpa : Nat) : Nat := x.pa + dpa % 2 ^ x.sz

inductive WRes where
  | ok (w : WalkOut)
  | flt (x : Cause)
  | miss (line : Nat)
  deriving DecidableEq, Repr

/-- R234: the tile's readable copy of a line: none while it is on its way to the home (WBP, KP). -/
def State.tileCopy (s : State) (t L : Nat) : Option LineD :=
  let x := s.l2 t L
  if x.st.valid && x.st != .KP then some x.d else none

/-- R214, R218: a core reads a table entry through its tile's L1D and L2; a speculative walk (`spec`) also from the shadow fill
buffer, where a SPEC request has brought the line. -/
def State.rdEntry (s : State) (c : Nat) (spec : Bool) (ea : Nat) : Rd8 :=
  let L := ea / 64
  let at_ (d : LineD) : Rd8 := if spanPoison d.poison (ea % 64) 8 then .poison else .val (d.read (ea % 64) 8)
  match s.tileCopy (c / 2) L with
  | some d => at_ d
  | none =>
    match if spec then (s.core c).sfb.findSome? (fun e => if e.L = L then e.d else none) else none with
    | some d => at_ d
    | none => .miss

/-- The stage-2 lookup of a core: its cache, then the walk; R212 gates it. -/
def State.s2Look (s : State) (c : Nat) (spec : Bool) (dpa : Nat) : S2Res :=
  let k := s.core c
  let root := (k.cr0 0xC0C).toNat
  if !(root.testBit 0) || bits root 46 12 != s.domOf (c / 2) || dpa ≥ 2 ^ 46 then .noLeaf
  else
    match k.s2C.find? (fun x => dpa / 2 ^ x.sz * 2 ^ x.sz == x.dpa) with
    | some x => .leaf x
    | none => s2Walk (s.rdEntry c spec) dpa 4 (bits root 3 43 * 8)

def mcCause (line lvl : Nat) (va : W64) (acc : Acc) : Cause :=
  { code := 0x18, acc := acc, walk := true, lvl := lvl, val := va, val2 := BitVec.ofNat 64 (line * 64) }

/-- R214 translate, the stage-1 loop: level `l` table at DPA `base`. -/
def State.s1Walk (s : State) (c : Nat) (spec : Bool) (va : W64) (acc : Acc) (ptrs : List WalkE) (s2s : List S2E) :
    Nat → Nat → WRes ⊕ (Nat × Nat × S2E × Nat × Nat × List WalkE × List S2E)
  | fuel, base =>
    match fuel with
    | 0 => .inl (.flt { code := 0x08, acc := acc, val := va })
    | l + 1 =>
      let v := va.toNat
      let dpaE := base + 8 * bits v (12 + 9 * l) 9
      let d64 := BitVec.ofNat 64 dpaE
      match s.s2Look c spec dpaE with
      | .miss n => .inl (.miss n)
      | .noLeaf => .inl (.flt { code := 0x0C, acc := acc, walk := true, lvl := l, val := va, val2 := d64 })
      | .walkLoc => .inl (.flt { code := 0x0F, acc := acc, walk := true, lvl := l, val := va, val2 := d64 })
      | .poison n => .inl (.flt (mcCause n l va acc))
      | .leaf x =>
        if !x.r then .inl (.flt { code := 0x0C, sub := 1, acc := acc, walk := true, lvl := l, val := va, val2 := d64 })
        else
          let pa := x.out dpaE
          if x.mt ≠ .normal ∨ pa ≥ dramEnd then
            .inl (.flt { code := 0x0B, acc := acc, walk := true, lvl := l, val := va })
          else
            match s.rdEntry c spec pa with
            | .miss => .inl (.miss (pa / 64))
            | .poison => .inl (.flt (mcCause (pa / 64) l va acc))
            | .val e =>
              if isPtr e l then
                let nb := bits e 3 43 * 8
                let p : WalkE := ⟨l, v % 2 ^ 60 / 2 ^ (12 + 9 * l), bits (s.core c |>.cr0 0x40A).toNat 46 16, nb⟩
                State.s1Walk s c spec va acc (ptrs ++ [p]) (s2s ++ [x]) l nb
              else if isLeaf1 e l then .inr (e, l, x, pa, dpaE, ptrs, s2s ++ [x])
              else .inl (.flt { code := 0x08, acc := acc, lvl := l, val := va })

/-- What an access needs of a pair of permissions (R206). -/
def Acc.needs (acc : Acc) (r w x : Bool) : Bool :=
  match acc with
  | .fetch => x | .load => r | .store => w | .atomic => r && w

/-- R206, R207: guard, then stage-1 permission, of an access through a stage-1 leaf of level `lvl`. -/
def stage1Check (k : Core) (u ag xg r w x : Bool) (lvl : Nat) (va : W64) (acc : Acc) : Option Cause :=
  let alift := (k.cr0 0x40A).getLsbD 1
  let c0 : Cause := { code := 0, acc := acc, lvl := lvl, val := va }
  if k.priv == .S && u && acc != .fetch && ag && !alift then some { c0 with code := 0x0A }
  else if k.priv == .S && u && acc == .fetch && xg then some { c0 with code := 0x0A, sub := 1 }
  else if !(acc.needs r w x) || (k.priv == .U && !u) then some { c0 with code := 0x09 }
  else none

/-- R206, R207, R214: guard, stage-1 permission, stage-2 permission and address size of a use of an entry, in that order. -/
def useCheck (k : Core) (e : TlbE) (va : W64) (acc : Acc) : Option Cause :=
  let dpa := e.dpa + (e.pa + va.toNat % 2 ^ e.sz) % 2 ^ e.s2sz
  let c0 : Cause := { code := 0, acc := acc, lvl := 7, val := va, val2 := BitVec.ofNat 64 dpa }
  match if e.byp then none else stage1Check k e.u e.ag e.xg e.r e.w e.x e.lvl va acc with
  | some x => some x
  | none =>
    if !(acc.needs e.r2 e.w2 e.x2) then some { c0 with code := 0x0C, sub := 1 }
    else if e.mt ≠ .global ∧ e.mt ≠ .gcached ∧ e.pa ≥ 2 ^ 46 then some { c0 with code := 0x0D }
    else none

/-- The whole translation of R214 with nothing cached at stage 1 unless `useC` (the walk cache); the combined entry. Guard and
stage-1 permission come before the final stage-2 lookup. -/
def State.walk (s : State) (c : Nat) (spec : Bool) (va : W64) (acc : Acc) (useC : Bool) : WRes :=
  let k := s.core c
  let root := (k.cr0 0x40A).toNat
  let v := va.toNat
  let fin (e1 : Option (Nat × Nat)) (dpa : Nat) (ptrs : List WalkE) (s2s : List S2E) (leaf : Nat) (lw : Bool)
      (ldpa : Nat) : WRes :=
    let d64 := BitVec.ofNat 64 dpa
    match s.s2Look c spec dpa with
    | .miss n => .miss n
    | .noLeaf => .flt { code := 0x0C, acc := acc, lvl := 7, val := va, val2 := d64 }
    | .walkLoc => .flt { code := 0x0F, acc := acc, walk := true, lvl := 7, val := va, val2 := d64 }
    | .poison n => .flt (mcCause n 7 va acc)
    | .leaf x =>
      let (e, l) := e1.getD (0, 0)
      let s1 := match e1 with | some (e, l) => 12 + 9 * l + bits e 49 4 | none => 46
      let sz := min s1 x.sz
      let byp := e1.isNone
      let pa := x.out dpa
      .ok { e := { va := v % 2 ^ 60 / 2 ^ sz * 2 ^ sz, sz := sz, pa := pa / 2 ^ sz * 2 ^ sz
                   r := byp || e.testBit 2, w := byp || e.testBit 3, x := byp || e.testBit 4
                   u := e.testBit 5, ag := e.testBit 7, xg := e.testBit 8
                   a := byp || e.testBit 9, d := byp || e.testBit 10, lvl := l
                   r2 := x.r, w2 := x.w, x2 := x.x
                   mt := combineMT (if byp then 0 else bits e 46 3) x.mt
                   asid := bits root 46 16, g := e.testBit 6, byp := byp, dpa := x.dpa, s2sz := x.sz }
            ptrs := ptrs, s2s := s2s ++ [x], leaf := leaf, raw := e, leafW := lw, leafDpa := ldpa }
  if !(root.testBit 0) then
    if bits v 46 10 ≠ 0 then .flt { code := 0x08, acc := acc, lvl := 4, val := va }
    else fin none (v % 2 ^ 46) [] [] 0 false 0
  else
    let hit := [1, 2, 3, 4].findSome? (fun l => if useC then
      k.walkC.find? (fun p => p.lvl == l && p.pre == v % 2 ^ 60 / 2 ^ (12 + 9 * l) && p.asid == bits root 46 16)
      else none)
    let (l0, b0) := match hit with | some p => (p.lvl, p.base) | none => (5, bits root 3 43 * 8)
    match s.s1Walk c spec va acc [] [] l0 b0 with
    | .inl r => r
    | .inr (e, l, x, pa, dpaE, ptrs, s2s) =>
      match stage1Check k (e.testBit 5) (e.testBit 7) (e.testBit 8) (e.testBit 2) (e.testBit 3) (e.testBit 4) l va acc with
      | some x => .flt x
      | none =>
      let sz := 12 + 9 * l + bits e 49 4
      let dpa := (bits e 12 34 * 4096) / 2 ^ sz * 2 ^ sz + v % 2 ^ sz
      fin (some (e, l)) (dpa % 2 ^ 46) ptrs s2s pa x.w dpaE

/-- Put an entry into a bounded list; when full, an unspecified one leaves. -/
def putBounded {α : Type} (n free : Nat) (l : List α) (x : α) : List α :=
  if l.length < n then l ++ [x] else l.eraseIdx (free % l.length) ++ [x]

/-- R219: the 4 KiB fragment of a combined entry that covers `va`, as the L2 TLB keeps it. -/
def TlbE.fragment (e : TlbE) (va : W64) : TlbE :=
  let base := va.toNat % 2 ^ 60 / 2 ^ 12 * 2 ^ 12
  { e with va := base, sz := 12, pa := e.pa + (base - e.va) }

/-- R219: the set of the stage-2 cache: the low 6 bits of the page number of the size. -/
def S2E.set (x : S2E) : Nat := x.dpa / 2 ^ x.sz % 64

/-- R219: install what a walk for `va` found. -/
def Core.install (k : Core) (free : Nat) (w : WalkOut) (fetch : Bool) (va : W64) : Core :=
  let e := w.e
  let k := if fetch then { k with itlb := putBounded 64 free k.itlb e }
    else { k with dtlb := putBounded 96 free k.dtlb e }
  let k := if e.sz ≥ 21 then { k with l2big := putBounded 64 free k.l2big e }
    else
      let f := e.fragment va
      let same (x : TlbE) : Bool := bits x.va 12 8 == bits f.va 12 8
      let mine := k.l2tlb.filter same
      { k with l2tlb := k.l2tlb.filter (fun x => !same x) ++ putBounded 8 free mine f }
  { k with walkC := w.ptrs.foldl (fun l p => if l.contains p then l else putBounded 32 free l p) k.walkC
           s2C := w.s2s.foldl (fun l x => if l.contains x then l else
             l.filter (fun y => y.set != x.set) ++ putBounded 4 free (l.filter (fun y => y.set == x.set)) x) k.s2C }

/-- R69, R218: the instruction at the pc retires: the walk it used moves into the TLB, the walk cache and the stage-2 cache. -/
def Core.settle (k : Core) : Core :=
  { k.fill.foldl (fun (k : Core) b => k.install b.free b.w b.fetch b.va) k with fill := [], commit := false }

/-- R221: the entry may be used now, and covers `va`. -/
def tlbMatch (k : Core) (va : W64) (e : TlbE) : Bool :=
  let root := (k.cr0 0x40A).toNat
  va.toNat % 2 ^ 60 / 2 ^ e.sz * 2 ^ e.sz == e.va &&
    (if root.testBit 0 then !e.byp && (e.g || e.asid == bits root 46 16) else e.byp)

/-- What a translation of an access ends in: the physical address and type, and whether a mark must still be set (R216); a
fault; or a table line that the core waits for. -/
inductive XRes where
  | ok (pa : Nat) (mt : MT) (mark : Bool) (s : State)
  | flt (x : Cause) (s : State)
  | wait (s : State)
  deriving DecidableEq, Repr

/-- R47 on a translated address. -/
def regionCheck (pa : Nat) (mt : MT) (mark : Bool) (va : W64) (acc : Acc) (s : State) : XRes :=
  let bad : XRes := .flt { code := 0x10, acc := acc, val := va } s
  if mt = .global ∨ mt = .gcached then (if acc = .fetch then bad else .ok pa mt mark s)
  else if !(typeOk mt (regionOf pa)) then bad
  else if acc = .fetch ∧ mt ≠ .normal then bad
  else .ok pa mt mark s

/-- R217: a use of an entry needs a mark set first. -/
def TlbE.needsMark (e : TlbE) (acc : Acc) : Bool := !(e.a && (e.d || !(acc == .store || acc == .atomic)))

/-- R205, R219: the entry that an access through the TLBs uses: of differing ones any, afresh at each access. -/
def State.tlbPick (s : State) (c : Nat) (va : W64) (acc : Acc) : Option TlbE × State :=
  let k := s.core c
  match ((if acc = .fetch then k.itlb else k.dtlb) ++ k.l2tlb ++ k.l2big).filter (tlbMatch k va) with
  | [] => (none, s)
  | e :: rest => if rest.all (· == e) then (some e, s) else (some ((e :: rest).getD (s.freeVal % (rest.length + 1)) e), s.tickFree)

/-- R128, R194, R214: the translation of an access of core `c` at its commit point. What a walk finds waits in `fill` until the
instruction retires (R69). -/
def State.xlate (s : State) (c : Nat) (va : W64) (acc : Acc) : XRes :=
  let k := s.core c
  let v := va.toNat
  if k.priv = .M then
    let pa := v % 2 ^ 46
    if bits v 46 14 ≠ 0 ∨ regionOf pa = .none then .flt { code := 0x10, acc := acc, val := va } s
    else regionCheck pa (mTypeOf (regionOf pa)) false va acc s
  else if bits v 55 5 ≠ 0 ∧ bits v 55 5 ≠ 31 then .flt { code := 0x0E, acc := acc, val := va } s
  else
    let use (s : State) (e : TlbE) : XRes :=
      match useCheck k e va acc with
      | some x => .flt x s
      | none => regionCheck (e.pa + v % 2 ^ e.sz) e.mt (e.needsMark acc) va acc s
    match s.tlbPick c va acc with
    | (some e, s1) => use s1 e
    | (none, _) =>
      match s.walk c false va acc true with
      | .flt x => .flt x s
      | .miss n => .wait (s.waitLine c n)
      | .ok w =>
        let others := k.fill.filter (fun b => b.fetch != (acc == .fetch))
        use ((s.setCore c { k with fill := others ++ [⟨acc == .fetch, va, s.freeVal, w⟩] }).tickFree) w.e

/-- R228: translation of a DPA for an engine or the fabric, through the stage-2 root of domain `d`'s descriptor:
the local address with the leaf's R and W, or the status cause 0 no leaf, 1 walk location, 2 poison. -/
def State.engXlate (s : State) (d dpa : Nat) : Nat ⊕ S2E :=
  if s.f (R.DOM_S2ROOT_V d) = 0 ∨ dpa ≥ 2 ^ 46 then .inl 0
  else
    let rd (ea : Nat) : Rd8 :=
      let l := s.coherent (ea / 64)
      if spanPoison l.poison (ea % 64) 8 then .poison else .val (l.read (ea % 64) 8)
    match s2Walk rd dpa 4 (s.f (R.DOM_S2ROOT_BASE d) * 8) with
    | .leaf x => .inr x
    | .noLeaf => .inl 0
    | .walkLoc => .inl 1
    | .poison _ | .miss _ => .inl 2

end Sys2Proof.Machine
end

