-- ==== Sys2Proof/Machine/FabOps.lean ====
section
/-! DEFINITION. Sending on the fabric: routes, ports, holds, tags and requests (R33, R454 to R477), shared by cores,
tiles, engines and send rings. -/

namespace Sys2Proof.Machine
open Sys2Proof

/-- R460 packet types. -/
def tyRD : Nat := 1
def tyWR : Nat := 2
def tyPART : Nat := 3
def tyATOM : Nat := 4
def tyMSG : Nat := 5
def tyRSP : Nat := 8
def tyACK : Nat := 9
def tyARSP : Nat := 10
def tyERR : Nat := 11
def tyRUN : Nat := 12

def Pkt.isReply (p : Pkt) : Bool := p.ty ≥ 8
/-- R460: flits of a packet. -/
def Pkt.flits (p : Pkt) : Nat := match p.ty with | 1 => 1 | 2 => 3 | 3 => 2 | 4 => 2 | 5 => 3 | 8 => 3 | 10 => 2 | _ => 1
/-- R454: VC of a packet: REQL, REQH, RSPL, RSPH. -/
def Pkt.vc (p : Pkt) : Nat := (if p.isReply then 2 else 0) + b2n p.vcH

/-- R459: the header flit. -/
def Pkt.header (p : Pkt) : BitVec 288 :=
  let hops := (List.range 24).foldl (fun a i => a + (p.hop.getD i 0 % 16) * 2 ^ (4 * i)) 0
  BitVec.ofNat 288 (hops + p.ptr * 2 ^ 96 + p.nhop * 2 ^ 101 + p.srcDev * 2 ^ 106 + p.dstDev * 2 ^ 124
    + p.ty * 2 ^ 142 + p.tag * 2 ^ 146 + p.ep * 2 ^ 158 + p.ep2 * 2 ^ 170 + b2n p.d0 * 2 ^ 182
    + p.loc * 2 ^ 184 + p.aux * 2 ^ 230 + p.key * 2 ^ 238 + p.chk * 2 ^ 242 + b2n p.key0 * 2 ^ 244
    + p.op * 2 ^ 245 + b2n p.sz * 2 ^ 249 + b2n p.lkonly * 2 ^ 250 + p.woff * 2 ^ 251 + p.elock * 2 ^ 255)

/-- Data flit `j` (0 or 1): eight 36-bit words, each 32 data bits then its lock. -/
def Pkt.dataFlit (p : Pkt) (j : Nat) : BitVec 288 :=
  (List.range 8).foldl (fun a i =>
    let w := 8 * j + i
    a ||| (BitVec.ofNat 288 ((p.data >>> (32 * w)).toNat % 2 ^ 32 + lockAt p.dl w * 2 ^ 32) <<< (36 * i))) 0

def Pkt.toFlits (p : Pkt) : List (BitVec 288) :=
  p.header :: (List.range (p.flits - 1)).map p.dataFlit

/-- Read a packet back from its flits. -/
def Pkt.ofFlits (fs : List (BitVec 288)) (vc : Nat) : Pkt :=
  let h := (fs.headD 0).toNat
  let b := bits h
  let word (w : Nat) : Nat := bits ((fs.getD (1 + w / 8) 0).toNat) (36 * (w % 8)) 36
  let ws := (List.range 16).map word
  { hop := (List.range 24).map (fun i => b (4 * i) 4), ptr := b 96 5, nhop := b 101 5, srcDev := b 106 18
    dstDev := b 124 18, ty := b 142 4, tag := b 146 12, ep := b 158 12, ep2 := b 170 12, d0 := h.testBit 182
    loc := b 184 46, aux := b 230 8, key := b 238 4, chk := b 242 2, key0 := h.testBit 244, op := b 245 4
    sz := h.testBit 249, lkonly := h.testBit 250, woff := b 251 4, elock := b 255 4
    data := BitVec.ofNat 512 ((List.range 16).foldl (fun a i => a + (ws.getD i 0 % 2 ^ 32) * 2 ^ (32 * i)) 0)
    dl := BitVec.ofNat 64 ((List.range 16).foldl (fun a i => a + (ws.getD i 0 / 2 ^ 32) * 2 ^ (4 * i)) 0)
    vcH := vc % 2 == 1 }

def State.port (s : State) (p : Nat) : Port := Tbl.get {} s.ports p
def State.setPort (s : State) (p : Nat) (x : Port) : State := { s with ports := Tbl.set {} s.ports p x }

/-- R454: CRC-16 over bits [319:0], polynomial 0x8BB7, initial value all ones, the highest bit first. -/
def crc16 (v : Nat) : Nat → Nat → Nat
  | 0, r => r
  | k + 1, r =>
    let fb := (if v.testBit k then 1 else 0) ^^^ r / 2 ^ 15 % 2
    crc16 v k ((r * 2 % 2 ^ 16) ^^^ (if fb = 1 then 0x8BB7 else 0))
def frameCrc (v : Nat) : Nat := crc16 (v % 2 ^ 320) 320 0xFFFF

/-- R468, R474: credits of VC `v` are withheld at port `p`: in a drain all of them, and those of requests while 1,024
inbound requests are in progress. -/
def State.withhold (s : State) (p v : Nat) : Bool :=
  s.f (R.FAB_PORT_STAT_STATE p) == 3 || s.f (R.FAB_PORT_STAT_STATE p) == 4
    || (decide (v < 2) && decide ((s.fabIn.filter (fun k => !k.isReply)).length ≥ 1024))

/-- R454, R455, R456: the port puts one frame on the link: a flit of VC `v` with its SEQ, or idle; with it go the
acknowledgement or NAK and credits to return, of a VC of which they are not withheld. -/
def Port.emit (x : Port) (no : Nat → Bool) (fl : Option (Nat × BitVec 288)) : Port :=
  let open_ := (List.range 4).find? (fun v => decide (x.ret.getD v 0 > 0) && !(no v))
  let vc := open_.getD 0
  let n := if open_.isSome then min 15 (x.ret.getD vc 0) else 0
  let body := (match fl with
      | some (v, f) => f.toNat + v * 2 ^ 288 + 2 ^ 290 + x.txSeq * 2 ^ 291
      | none => 0)
    + ((x.rxSeq + 2047) % 2048) * 2 ^ 302 + b2n x.nak * 2 ^ 313 + vc * 2 ^ 314 + n * 2 ^ 316
  { x with
    out := x.out ++ [BitVec.ofNat 336 (body + frameCrc body * 2 ^ 320)]
    ret := x.ret.set vc (x.ret.getD vc 0 - n)
    nak := false
    unack := (match fl with | some f => x.unack ++ [f] | none => x.unack)
    txSeq := if fl.isSome then (x.txSeq + 1) % 2048 else x.txSeq }

/-- R455, R456: transmit waiting packets while replay space is held; one without credits for all its flits waits, and with
it (`kept`) the later ones of its VC. -/
def portPump (no : Nat → Bool) : List Pkt → List Pkt → Port → Nat → Port × Nat
  | [], kept, x, n => ({ x with q := kept }, n)
  | p :: rest, kept, x, n =>
    let v := p.vc
    if x.unack.length + p.flits > 1024 then ({ x with q := kept ++ p :: rest }, n)
    else if x.cred.getD v 0 ≥ p.flits ∧ !(kept.any (fun k => k.vc == v)) then
      portPump no rest kept (p.toFlits.foldl (fun y f => y.emit no (some (v, f)))
        { x with cred := x.cred.set v (x.cred.getD v 0 - p.flits) }) (n + p.flits)
    else portPump no rest (kept ++ [p]) x n

/-- R456: the input that a packet at an output came by; 16 for one injected here. -/
def Pkt.input (k : Pkt) : Nat := if k.ptr ≤ 1 then 16 else k.hop.getD (k.ptr - 2) 0 % 16
/-- How many inputs stand before that of `k` in the round of VC `v`. -/
def Port.before (x : Port) (v : Nat) (k : Pkt) : Nat := (k.input + 16 - x.rr.getD v 0 % 17) % 17
/-- R456: the packet of VC `v` whose turn it is: inputs round-robin, each in its order. -/
def Port.turn (x : Port) (v : Nat) : Option Pkt :=
  let c := x.q.filter (fun k => k.vc == v)
  c.find? (fun k => c.all (fun j => decide (x.before v k ≤ x.before v j)))

/-- R456: RSPL and RSPH before REQL and REQH; a VC whose next packet lacks credits waits. `shut`: VCs on which a packet from the
hold waits. -/
def portServe (no shut : Nat → Bool) : Nat → Port → Nat → Port × Nat
  | 0, x, n => (x, n)
  | f + 1, x, n =>
    match [2, 3, 0, 1].findSome? (fun v =>
        if shut v then none else (x.turn v).filter (fun k => decide (k.flits ≤ x.cred.getD v 0))) with
    | none => (x, n)
    | some k =>
      let v := k.vc
      if x.unack.length + k.flits > 1024 then (x, n)
      else portServe no shut f (k.toFlits.foldl (fun y f => y.emit no (some (v, f)))
        { x with q := x.q.erase k, rr := x.rr.set v k.input, cred := x.cred.set v (x.cred.getD v 0 - k.flits) }) (n + k.flits)

/-- R455: frames sent now carry the time. -/
def Port.stamp (x : Port) (now : Nat) : Port :=
  { x with sentAt := x.sentAt ++ List.replicate (x.unack.length - x.sentAt.length) now }

/-- R456, R474: packets leave while credits and replay space are held: those from the hold in their order, then the others by
their turns. -/
def State.pump (s : State) (p : Nat) : State :=
  let x := s.port p
  let held := x.q.take x.first
  let (y, n) := portPump (s.withhold p) held [] x 0
  let rest := x.q.drop x.first
  let (z, n) := portServe (s.withhold p) (fun v => y.q.any (fun k => k.vc == v)) rest.length { y with q := rest } n
  (s.setPort p (({ z with q := y.q ++ z.q, first := x.first - (held.length - y.q.length) } : Port).stamp s.ns)).addSat
    (R.FAB_PORT_TXF_COUNT p) n

def State.ownDev (s : State) : Nat := s.f R.FAB_DEVNUM_NUM

/-- R461: the reverse of the first `k` hops. -/
def Pkt.reply (p : Pkt) (k : Nat) (ty : Nat) (own : Nat) : Pkt :=
  { hop := (p.hop.take k).reverse, ptr := 0, nhop := k, srcDev := own, dstDev := p.srcDev, ty := ty, tag := p.tag }

/-- R457, R461, R473, R475: hand a packet to output port `p`; the hop is spent. `inp` is the input pair it came by. The
second part: the packet was dropped. -/
def State.portSend (s : State) (p : Nat) (inp : Option Nat) (k : Pkt) : State × Bool :=
  let turn := match inp with | none => true | some q => q / 2 != p / 2
  let k := { k with ptr := k.ptr + 1
                    vcH := (if turn then false else k.vcH) || s.f (R.FAB_PORT_CTL_DATELINE p) == 1 }
  let x := s.port p
  if s.f (R.FAB_PORT_STAT_STATE p) = 2 then
    ((s.setPort p { x with q := x.q ++ [k] }).pump p, false)
  else if x.hold.length ≥ 64 ∨ s.f R.FAB_HOLD_US = 0 then
    ((s.incSat (R.FAB_PORT_DROP_COUNT p)).raise (920 + p) 3, true)
  else
    (((s.setPort p { x with hold := x.hold ++ [(k, s.ns)] }).setF (R.FAB_PORT_STAT_HELD p) (x.hold.length + 1)), false)

/-- A reply leaves for its requester: by loopback, or on its own hops; a dropped reply gets no answer (R461). -/
def State.sendReply (s : State) (k : Pkt) (loop : Bool) : State :=
  if loop then { s with fabIn := s.fabIn ++ [k] }
  else
    let (s, dropped) := s.portSend (k.hop.getD 0 0) none k
    if dropped then s.incSat R.FAB_BADPKT_COUNT else s

/-- A request injected here: loopback, or through HOP[0]; a drop at this device returns ROUTE_UNAVAIL at once. -/
def State.inject (s : State) (k : Pkt) : State :=
  if k.dstDev = s.ownDev then { s with fabIn := s.fabIn ++ [k] }
  else
    let (s, dropped) := s.portSend (k.hop.getD 0 0) none k
    if dropped then { s with fabIn := s.fabIn ++ [{ (k.reply 0 tyRUN s.ownDev) with op := 6 }] } else s

/-- R462: the entry of a destination: hops and length, none where V = 0. -/
def State.routeTo (s : State) (dev : Nat) : Option (List Nat × Nat) :=
  let e := Tbl.get 0 s.routes dev
  if e.testBit 127 then some ((List.range 24).map (fun i => bits e (4 * i) 4), bits e 96 5) else none

def State.rto (s : State) : Nat := min 50000 (max 10 (s.f R.FAB_RTO_US)) * 1000

/-- The lowest tag neither in use nor in quarantine (R472). -/
def State.freeFTag (s : State) : Option Nat :=
  (List.range 4096).find? (fun t => !(s.ftags.any (·.tag == t)) && !(s.fquar.any (·.1 == t)))

/-- Why a Global access cannot leave (R458, R462, R464), or that it must wait. -/
inductive FabErr where
  | fault (code : Nat)
  | wait
  deriving DecidableEq, Repr

/-- R371 meter item: fabric payload bytes. -/
def mtrFAB : Nat := 21

/-- A domain's fabric rights (R464): its first endpoint. -/
def State.fabEp (s : State) (d : Nat) : Option Nat :=
  if s.f (R.DOM_CFG_GLOBAL_EN d) = 1 ∧ s.f (R.DOM_FABEP_COUNT d) ≠ 0 then some (s.f (R.DOM_FABEP_FIRST d)) else none

/-- R468: the core (or, for a writeback, the tile) a request is from, where it is a core's. -/
def FOrig.tile : FOrig → Option Nat
  | .core c | .post c | .fill c => some (c / 2)
  | .wb t => some t
  | _ => none
/-- R468: an older access `a` holds back an access `b` of the same core to the same line; a writeback holds back, and
waits for, the accesses of its tile's cores. -/
def FOrig.holds (a b : FOrig) : Bool :=
  match a, b with
  | .core c, .core d | .core c, .post d | .core c, .fill d | .post c, .core d | .post c, .post d | .post c, .fill d
  | .fill c, .core d | .fill c, .post d | .fill c, .fill d => c == d
  | _, _ => a.tile.isSome && a.tile == b.tile
def State.fabHeld (s : State) (orig : FOrig) (dev loc : Nat) : Bool :=
  s.ftags.any (fun t => t.dev == dev && t.line == loc / 64 && t.orig.holds orig)

/-- R22: the tile whose NI a fabric request enters the mesh by; none for a send ring, which lies on the I/O chiplet. -/
def origTile : FOrig → Option Nat
  | .core c | .post c | .fill c => some (c / 2)
  | .wb t => some t
  | .job h => some (8 * h)
  | .ring _ _ => none

/-- R466, R467, R472: a request enters the fabric with a tag of its own; `bytes` are charged to the domain. -/
def State.fabSend (s : State) (orig : FOrig) (dom dev loc bytes : Nat) (k : Pkt) : State ⊕ FabErr :=
  if s.f R.FAB_DEVNUM_LOCK = 0 then .inr (.fault 0x13)
  else
    match (if dom = 0 ∨ k.ty = tyMSG then some 0 else s.fabEp dom) with
    | none => .inr (.fault 0x10)
    | some ep =>
      let own := decide (dev = s.ownDev)
      match (if own then some ([], 0) else s.routeTo dev) with
      | none => .inr (.fault 0x14)
      | some (hops, n) =>
        if !((origTile orig).all (fun t => s.linked t 281)) then .inr .wait
        else match s.freeFTag with
        | none => .inr .wait
        | some tag =>
          let t : FTag := ⟨tag, orig, s.ns + s.rto, dev, loc / 64, dom⟩
          let s := { s with ftags := s.ftags ++ [t] }
          let s := if dom = 0 then s else s.meter dom mtrFAB bytes
          .inl ((s.setF R.FAB_TAGS_INUSE s.ftags.length).inject
            { k with hop := hops, ptr := 0, nhop := n, srcDev := s.ownDev, dstDev := dev, tag := tag,
                     ep := if k.ty = tyMSG then k.ep else ep, d0 := dom == 0, loc := loc })

/-- R468: the same for one access, behind the older ones to its line. -/
def State.fabRequest (s : State) (orig : FOrig) (dom dev loc bytes : Nat) (k : Pkt) : State ⊕ FabErr :=
  match s.fabSend orig dom dev loc bytes k with
  | .inr (.fault x) => .inr (.fault x)
  | r => if s.fabHeld orig dev loc then .inr .wait else r

/-- R192: write back a GlobalCached line by WR_LINE under CARRIED, for tile `t` or an access of a core. -/
def State.gcWriteback (s : State) (orig : FOrig) (dom key : Nat) (d : LineD) : State ⊕ FabErr :=
  let pa := (key - 2 ^ 60) * 64
  s.fabRequest orig dom (pa / 2 ^ 46) (pa % 2 ^ 46) 64
    { ty := tyWR, data := d.data, dl := d.locks, aux := d.poison.toNat }

def State.tagsRegs (s : State) : State :=
  s.setFs [(R.FAB_TAGS_INUSE, s.ftags.length), (R.FAB_TAGS_QUAR, s.fquar.length)]

end Sys2Proof.Machine
end

