-- ==== Sys2Proof/Machine/Tile.lean ====
section
/-! DEFINITION. A tile's side of coherence (R234, R243 to R245), and the coherence commands: each takes one message in
flight and acts on it, at the home (R246 to R263) or at the tile. -/

namespace Sys2Proof.Machine
open Sys2Proof

/-! ### A tile's L2 -/

/-- A line of this state occupies a way. -/
def LSt.inWay : LSt → Bool
  | .S | .E | .M | .SM | .KP => true
  | _ => false
def l2Key (t L : Nat) : Nat := t * 2048 + L % 2048
def State.l2Touch (s : State) (t L way : Nat) : State :=
  { s with l2plru := Tbl.set 0 s.l2plru (l2Key t L) (plruTouch (Tbl.get 0 s.l2plru (l2Key t L)) way) }

/-- The lines of `L`'s set that occupy a way in tile `t`'s L2. -/
def State.l2Set (s : State) (t L : Nat) : List (Nat × L2Line) :=
  (s.caches.filter (fun e => e.1 / 2 ^ 64 == t && e.1 % 2048 == L % 2048 && e.2.st.inWay)).map
    (fun e => (e.1 % 2 ^ 64, e.2))

/-- R244: eviction: silent from S and E, a WB of kind EVICT from M; a dirty GlobalCached line goes by remote write
(R192). None where the line may not leave now. -/
def State.evictLine (s : State) (t V : Nat) : Option State :=
  let x := s.l2 t V
  match x.st with
  | .S | .E => some (s.setL2 t V {})
  | .M =>
    if V ≥ 2 ^ 60 then
      match s.gcWriteback (.wb t) (s.domOf t) V x.d with
      | .inl s => some (s.setL2 t V {})
      | .inr _ => none
    else
      some ((s.setL2 t V { st := .WBP, at_ := s.waitClock }).send
        { k := .wb, L := V, agent := t, dom := s.domOf t, kind := .evict, d := some x.d })
  | _ => none

/-! ### A core's L1D: 8 ways of 128 sets, of lines that the L2 holds (R53, R230, R233) -/

/-- The lines of `L`'s set in the L1D of core `c`. -/
def State.l1dSet (s : State) (c L : Nat) : List (Nat × L2Line) :=
  (s.caches.filter (fun e => e.1 / 2 ^ 64 == c / 2 && e.1 % 128 == L % 128 && e.2.l1.getLsbD (s.cix c % 2))).map
    (fun e => (e.1 % 2 ^ 64, e.2))
def L2Line.l1way (x : L2Line) (i : Nat) : Nat := if i = 0 then x.w0 else x.w1
def L2Line.enterL1 (x : L2Line) (i w : Nat) : L2Line :=
  { x with l1 := x.l1 ||| ((1 : BitVec 2) <<< i), w0 := if i = 0 then w else x.w0, w1 := if i = 0 then x.w1 else w }
/-- The pseudo-LRU state of an L1D set: the tree of `plruVictim` over ways 0 to 7 (notes/assumptions/32.md). -/
def State.l1Touch (s : State) (c L way : Nat) : State :=
  s.updCore c (fun k => { k with l1dLru := Tbl.set 0 k.l1dLru (L % 128) (plruTouch (Tbl.get 0 k.l1dLru (L % 128)) way) })
/-- Line `L` of the tile's L2 is read or written through the L1D of core `c`, which takes it if it does not hold it; a full set
gives up its pseudo-LRU way, whose line stays in the L2. -/
def State.l1Use (s : State) (c L : Nat) : State :=
  let t := c / 2
  let i := s.cix c % 2
  let x := s.l2 t L
  if x.l1.getLsbD i then s.l1Touch c L (x.l1way i)
  else
    let inSet := s.l1dSet c L
    let used := inSet.foldl (fun m e => setBit m (e.2.l1way i)) 0
    let w := (freeWay 0xFF used).getD (plruVictim (Tbl.get 0 (s.core c).l1dLru (L % 128)) 0xFF)
    let s1 := match inSet.find? (fun e => e.2.l1way i == w) with
      | some (V, v) => s.setL2 t V { v with l1 := v.l1 &&& ~~~((1 : BitVec 2) <<< i) }
      | none => s
    ((s1.setL2 t L (x.enterL1 i w)).l2Touch t L x.way).l1Touch c L w

/-- Put a line into the tile's L2 in state `st`, and into the L1D of the core that asked; a full set evicts its pseudo-LRU victim
(R240's tree form, PRESUMED). None where every way of the set is held by a line that may not leave now. -/
def State.l2Install (s : State) (t L core : Nat) (st : LSt) (d : LineD) : Option State :=
  let old := s.l2 t L
  let put (s : State) (w : Nat) : State :=
    ((s.setL2 t L { st := st, d := d, way := w }).l2Touch t L w).l1Use (2 * t + core % 2) L
  if old.st.inWay then some (put s old.way)
  else
    let inSet := s.l2Set t L
    let used := inSet.foldl (fun m e => setBit m e.2.way) 0
    match freeWay 0xFFFF used with
    | some w => some (put s w)
    | none =>
      let ok := inSet.foldl (fun m e => match e.2.st with
        | .S | .E | .M => setBit m e.2.way | _ => m) 0
      if ok = 0 then none
      else
        let w := plruVictim (Tbl.get 0 s.l2plru (l2Key t L)) ok
        match inSet.find? (fun e => e.2.way == w) with
        | some (V, _) => (s.evictLine t V).map (fun s => put s w)
        | none => some (put s w)

/-- R244: what a reply grants is installed, and COMPLETE sent. -/
def State.fill (s : State) (m : Msg) : Option State :=
  (s.l2Install m.agent m.L m.core (match m.kind with | .E => .E | .S => .S | _ => .M) (m.d.getD lineZero)).map (fun s =>
    { s.send { k := .complete, L := m.L, agent := m.agent, dom := m.dom } with outReq := s.outReq.eraseP (Ask.is m.agent m.L .promote) })
/-- R247: a fill is accepted whenever it is presented; where its set has no way to give, it waits in the tile for one. -/
def State.fillIn (s : State) (m : Msg) : State := (s.fill m).getD { s with fillQ := s.fillQ ++ [m] }
/-- The waiting fills of tile `t` take the ways that have become free. -/
def State.fillsGo (s : State) (t : Nat) : State :=
  (s.fillQ.filter (fun m => m.agent == t)).foldl (fun (s : State) m =>
    match s.fill m with | some s1 => { s1 with fillQ := s1.fillQ.erase m } | none => s) s

/-- R71: a fetched line enters a core's L1I, 4 ways of 256 sets. -/
def Core.l1iPut (k : Core) (free line : Nat) (d : LineD) : Core :=
  let same (x : IcE) : Bool := x.line % 256 == line % 256
  let mine := (k.l1i.filter same).filter (fun x => x.line != line)
  { k with l1i := k.l1i.filter (fun x => !same x) ++ putBounded 4 free mine ⟨line, d.data, d.poison⟩ }

/-- R245: the tile of message `m` answers it. -/
def State.tileAnswer (s : State) (m : Msg) : State :=
  let t := m.agent
  let L := m.L
  let x := s.l2 t L
  let dom := s.domOf t
  let rsp (k : MsgK) (d : Option LineD) : Msg := { k := k, L := L, agent := t, dom := dom, d := d }
  let dat (kind : Kind) (dirty : Bool) : Msg :=
    { k := .data, L := L, agent := m.req, core := m.core, dom := m.dom, kind := kind, d := some x.d, dirty := dirty, src := some t }
  match x.st, m.k with
  | .M, .fwdS => ((s.send (dat .S false)).send (rsp .ownerAck (some x.d))).setL2 t L { x with st := .S }
  | .E, .fwdS => ((s.send (dat .S false)).send (rsp .ownerAck none)).setL2 t L { x with st := .S }
  | .M, .fwdO => (s.send (dat .M true)).setL2 t L {}
  | .E, .fwdO => (s.send (dat .M false)).setL2 t L {}
  | .M, .fwdPeek | .E, .fwdPeek => (s.send (dat .none false)).send (rsp .ownerAck none)
  | .M, .inv => (s.send (rsp .invAck (some x.d))).setL2 t L {}
  | .S, .inv | .E, .inv => (s.send (rsp .invAck none)).setL2 t L {}
  | .SM, .inv => (s.send (rsp .invAck none)).setL2 t L { x with st := .IM }
  | .WBP, _ => s.send (rsp .wbInflight none)
  | .KP, _ => s.setL2 t L { x with held := some m }
  | .I, _ | .IS, _ | .IM, _ => s.send (rsp .notPresent none)
  | _, _ => s.protoErr L

/-- A command that a message in flight of kind `k` from or to agent `g` for `L` carries: act on it, or turn away. -/
def onMsg (s : State) (k : MsgK) (g L : Nat) (f : Msg → State → Out) : Out :=
  match s.take k g L with
  | some (m, s1) => f m s1
  | none => turnedAway s

/-- R239, R250: the home withholds the credit of a request for a full queue; TIL_HOME_BP counts the cycle. -/
def State.backPressed (s : State) (L : Nat) : State :=
  if s.homeReady L then s.incSat (R.TIL_HOME_BP_COUNT (homeOf L)) else s

/-- R247: a request message in flight reaches its home: accepted, or held back by credits. -/
def atHome (s : State) (k : MsgK) (g L : Nat) : Out :=
  if !s.meshRuns then turnedAway s
  else onMsg s k g L (fun m s1 => match s1.accept m with | some s2 => .next s2 | none => .next (s.backPressed L))

/-- A forward in flight reaches its tile (R235, R245). -/
def atTile (s : State) (k : MsgK) (t L : Nat) : Out :=
  if s.seamOpen t then onMsg s k t L (fun m s1 => .next ((s1.tileAnswer m).fillsGo t)) else turnedAway s

/-! ### Requests at the home -/

/-- R231, R265: what the home's arrays answer when they are read for line `L`: an uncorrectable LLC code word becomes poison, once
reported; any other uncorrectable error is fatal. -/
def State.homeErr (s : State) (L dom : Nat) (e : ArrErr) : State :=
  let h := homeOf L
  match e with
  | .none | .fixed => s
  | .data i =>
    (match s.llcE L with
     | some x => (s.setLlc L (some { x with d := { x.d with poison := x.d.poison ||| ((1 : BitVec 8) <<< (i % 8)) } })).deferred
        6 h 0x0200 dom (L * 64)
     | none => s)
  | .dir => s.fatalAt h 1 L
  | .tag => s.fatalAt h 2 L
  | .slot => s.fatalAt h 3 L

/-- RD_S at its home, which reads its arrays. -/
def execRdS (r : Nat) (x : ArrRead) (s : State) : Out :=
  if (s.take .rdS r x.L).isSome && s.meshRuns then atHome (s.homeErr x.L (s.domOf r) x.e) .rdS r x.L else turnedAway s
def execRdO (r L : Nat) (s : State) : Out := atHome s .rdO r L
def execUpg (r L : Nat) (s : State) : Out := atHome s .upg r L
def execRdFetch (r L : Nat) (s : State) : Out := atHome s .rdFetch r L
def execPromote (c L : Nat) (s : State) : Out := atHome s .promote (c / 2) L
def execFlush (r L : Nat) (s : State) : Out := atHome s .flush r L
def execWb (r L : Nat) (s : State) : Out := onMsg s .wb r L (fun m s1 => .next (s1.wbArrive m))

/-- R64, R255: the home's answer to a SPEC request of tile `t` for core `c`, changing nothing of its own; none where the channel
cannot read the line now. -/
def State.specAnswer (s : State) (t c L dom : Nat) : Option State :=
  let other := match s.dirE L with | some e => e.st == .EX && e.ptrs.headD 0 != t | none => false
  let dat (s : State) (d : LineD) : State :=
    s.send { k := .data, L := L, agent := t, core := c, req := 1, d := some d, stamp := s.stamp L }
  if s.txns.any (·.L == L) || other then some (s.send { k := .notServed, L := L, agent := t, core := c })
  else
    match s.llcE L with
    | some e => some (dat s e.d)
    | none =>
      if !(s.readOpen L dom) then none
      else
        let (s1, d) := s.chanRead L dom 0
        some (dat s1 d)

/-- R26, R27: the Seam between an agent without a cache and its NI passes what it holds while both sides run: the hive service
domains and the I/O domains run until a fatal error. -/
def State.agentSeam (s : State) : Bool := !s.isFatal
/-- A request of an agent that has no cache, accepted at the home of its line. -/
def fromAgent (s : State) (m : Msg) : Out :=
  if m.L < dramLines ∧ s.meshRuns ∧ s.agentSeam ∧ s.routed m.path.1 m.path.2.1 then
    (match s.accept m with | some s1 => .next s1 | none => .next (s.backPressed m.L))
  else turnedAway s

/-- The number under which the lock log writes its records (R169). -/
def logAgent : Nat := 290
def execRdNc (g L dom : Nat) (s : State) : Out :=
  if 256 ≤ g then fromAgent s { k := .rdNc, L := L, agent := g, dom := dom } else turnedAway s
def execWrNc (g L dom : Nat) (wr : WrReq) (s : State) : Out :=
  if g = logAgent then .next s.logGo
  else if 256 ≤ g then fromAgent s { k := .wrNc, L := L, agent := g, dom := dom, wr := some wr } else turnedAway s
/-- R254: an ATOMIC reaches its home: a core's own (`g` a tile), or that of an agent without a cache. -/
def execAtomic (g dom : Nat) (at_ : AtomReq) (s : State) : Out :=
  if g < 256 then atHome s .atomic g (at_.addr / 64)
  else if (at_.size = 4 ∨ at_.size = 8) ∧ at_.addr % at_.size = 0 then
    fromAgent s { k := .atomic, L := at_.addr / 64, agent := g, dom := dom, at_ := some at_ }
  else turnedAway s

/-! ### Forwards at the tile -/

def execFwdS (t L : Nat) (s : State) : Out := atTile s .fwdS t L
def execFwdO (t L : Nat) (s : State) : Out := atTile s .fwdO t L
def execFwdPeek (t L : Nat) (s : State) : Out := atTile s .fwdPeek t L
def execInv (t L : Nat) (s : State) : Out := atTile s .inv t L

/-! ### Responses at the home, and acknowledgements at the sender -/

def execOwnerAck (t L : Nat) (s : State) : Out := onMsg s .ownerAck t L (fun m s1 => .next (s1.ownerAcked m))
def execInvAck (t L : Nat) (s : State) : Out :=
  onMsg s .invAck t L (fun m s1 => .next (s1.invAnswered t L m.dom (m.d.map (fun d => (.evict, d))) false))
def execNotPresent (t L : Nat) (s : State) : Out := onMsg s .notPresent t L (fun _ s1 => .next (s1.noCopy t L false))
def execWbInflight (t L : Nat) (s : State) : Out := onMsg s .wbInflight t L (fun _ s1 => .next (s1.noCopy t L true))
def execComplete (t L : Nat) (s : State) : Out := onMsg s .complete t L (fun _ s1 => .next (s1.completed t L))

/-- R244: WB_ACK: WBP becomes I, KP becomes E and answers what it held (R245). -/
def execWbAck (t L : Nat) (s : State) : Out :=
  if !(s.seamOpen t) then turnedAway s else
  onMsg s .wbAck t L (fun _ s1 =>
    let x := s1.l2 t L
    match x.st with
    | .WBP => .next ((s1.setL2 t L {}).fillsGo t)
    | .KP =>
      let s2 := s1.setL2 t L { x with st := .E, held := none }
      .next ((match x.held with | some m => s2.tileAnswer m | none => s2).fillsGo t)
    | _ => .next (s1.protoErr L))

/-- R27, R244: FLUSH_ACK at its tile. One that matches no FLUSH is a protocol error (R265). -/
def execFlushAck (t L : Nat) (s : State) : Out :=
  if !(s.seamOpen t) then turnedAway s else
  onMsg s .flushAck t L (fun _ s1 => .next ((s1.answered t L .flush).getD (s1.protoErr L)))
def execWrDone (g L : Nat) (s : State) : Out := onMsg s .wrDone g L (fun _ s1 => .next s1)

/-- R231, R265: reading the line in the tile's L1D or L2 finds an error: an uncorrectable code word becomes poison, once reported; an
uncorrectable tag or state is fatal. -/
def State.tileErr (s : State) (t L : Nat) (e : ArrErr) : State :=
  let x := s.l2 t L
  match e with
  | .data i =>
    if x.st.inWay then
      (s.setL2 t L { x with d := { x.d with poison := x.d.poison ||| ((1 : BitVec 8) <<< (i % 8)) } }).deferred
        1 t 0x0200 (s.domOf t) (L * 64)
    else s
  | .tag => s.fatalTile t 1 L
  | _ => s
/-- R244: the tile evicts a line, which it reads. -/
def execL2Eviction (t : Nat) (x : ArrRead) (s : State) : Out :=
  if t < 256 ∧ s.tileRuns t then
    let s1 := s.tileErr t x.L x.e
    (match s1.evictLine t x.L with | some s2 => .next s2 | none => .next s1)
  else turnedAway s

/-! ### The home's own events -/

/-- R249: the next waiting request of a line with no open transaction opens its own. -/
def execPendingRestart (L : Nat) (s : State) : Out :=
  let ofHome (t : Txn) : Bool := homeOf t.L == homeOf L
  match s.pendQ.find? (fun m => m.L == L) with
  | some m =>
    if s.lineBusy L ∨ s.retryQ.any (fun q => q.L == L) ∨ (s.txns.filter ofHome).length ≥ 64 then turnedAway s
    else .next (({ s with pendQ := s.pendQ.eraseP (fun q => q.L == L) }).openReq m)
  | none => turnedAway s

/-- Some way of the line's directory set is invalid or unpinned. -/
def State.setOpens (s : State) (L : Nat) : Bool :=
  let inSet := s.dir.filter (fun e => dirKey e.1 == dirKey L)
  inSet.length < 16 || inSet.any (fun e => match e.2 with | some x => !x.pin | none => true)

/-- R262: the oldest request in the retry queue of home `n` whose set has a way to take restarts. -/
def execRetryRestart (n : Nat) (s : State) : Out :=
  let sel (m : Msg) : Bool := homeOf m.L == n && s.setOpens m.L && !(s.lineBusy m.L)
  let ofHome (t : Txn) : Bool := homeOf t.L == n
  match s.retryQ.find? sel with
  | some m =>
    if (s.txns.filter ofHome).length ≥ 64 then turnedAway s
    else .next (({ s with retryQ := s.retryQ.eraseP sel }).openReq m)
  | none => turnedAway s

/-- R242: the epoch of slice `n` advances. -/
def execEpochAdvance (n : Nat) (s : State) : Out :=
  whenOk (decide (n < 256)) s (s.incWrap (R.TIL_HOME_EPOCH_EPOCH n))

/-- R265: 1 ms has passed since `at_` without the answer. -/
def State.late (s : State) (at_ : Nat) : Bool := decide (at_ + 1000000 ≤ s.waitClock)
/-- R265: a home's transaction on the line is overdue. -/
def State.homeSilent (s : State) (L : Nat) : Bool := s.txns.any (fun x => x.L == L && s.late x.at_)
/-- R265, R283: the tile whose own request or writeback of the line is overdue; a request still held at its NI by a mesh that does
not run is not timed. -/
def State.tileSilent (s : State) (L : Nat) : Option Nat :=
  let held (t : Nat) : Bool := !s.meshRuns && s.msgs.any (fun m => m.agent == t && m.L == L && m.k.vn == 0)
  match s.caches.find? (fun e => e.1 % 2 ^ 64 == L && e.2.st.transient && s.late e.2.at_ && !(held (e.1 / 2 ^ 64))) with
  | some e => some (e.1 / 2 ^ 64)
  | none => (s.outReq.find? (fun r => r.L == L && s.late r.at_ && !(held r.t))).map (·.t)

/-- R265: silence for 1 ms is fatal, at the home whose transaction is overdue, else at the tile. -/
def execSilenceTimeout (L : Nat) (s : State) : Out :=
  if s.f R.PWR_MESHQ_STATE ≥ 2 then turnedAway s
  else if s.homeSilent L then .next (s.fatalAt (homeOf L) 5 L)
  else
    match s.tileSilent L with
    | some t => .next (s.fatalTile t 5 L)
    | none => turnedAway s

end Sys2Proof.Machine
end

