-- ==== Sys2Proof/Machine/Issue.lean ====
section
/-! DEFINITION. Issue of an instruction on a P-core or keeper core (R55, R56, R91 to R98), the keeper's traps (R325 to
R327), its delay slots (R125, R126), and the claim and end of events (R147, R328). -/

namespace Sys2Proof.Machine
open Sys2Proof

/-! ### Instruction words (R95), for trap values -/

/-- Format R. -/
def encR (pr maj rd ra rb min : Nat) : Nat :=
  pr * 2 ^ 28 + maj * 2 ^ 22 + rd * 2 ^ 17 + ra * 2 ^ 12 + rb * 2 ^ 7 + min
/-- Format I. -/
def encI (pr maj rd ra imm : Nat) : Nat := pr * 2 ^ 28 + maj * 2 ^ 22 + rd * 2 ^ 17 + ra * 2 ^ 12 + imm
/-- Major 0x33 with the 10-bit code of CALLS, CALLM and BRK (R115). -/
def encSys (pr code min : Nat) : Nat := pr * 2 ^ 28 + 0x33 * 2 ^ 22 + code * 2 ^ 7 + min

/-- R109: the OP field. -/
def AtomOp.code : AtomOp → Nat
  | .swap => 0 | .cas => 1 | .add => 2 | .and => 3 | .or => 4 | .xor => 5 | .min => 6 | .max => 7 | .minu => 8 | .maxu => 9
def AtomOp.of (n : Nat) : Option AtomOp :=
  match n with
  | 0 => some .swap | 1 => some .cas | 2 => some .add | 3 => some .and | 4 => some .or | 5 => some .xor
  | 6 => some .min | 7 => some .max | 8 => some .minu | 9 => some .maxu | _ => none

/-! ### P-core -/

/-- R92: the PC after `pc` in sequence. -/
def pcNext (pc : W64) : W64 := pcMask (pc + 4)
def WinE.pc : WinE → W64
  | .branch p _ => p
  | .access p .. => p
def WinE.isBranch : WinE → Bool
  | .branch _ _ => true
  | .access .. => false
/-- R55, R57, R66, R69: the instruction at the pc retires and control goes to `next`: the walks it used are installed, its accesses
let their entries go, and a branch that fetch predicted otherwise squashes what is younger. -/
def Core.leave (k : Core) (next : W64) : Core :=
  let k1 := { k.settle with pc := next }
  let younger := k.win.dropWhile (fun e => !e.isBranch && e.pc == k.pc)
  match younger with
  | .branch p n :: rest =>
    if p != k.pc then { k1 with win := younger }.dropUnused
    else if n = next then { k1 with win := rest }.dropUnused
    else k1.squash
  | _ => { k1 with win := younger }.dropUnused
def Core.retire (k : Core) : Core := k.leave (pcNext k.pc)
def State.retireP (s : State) (c : Nat) : State := s.updCore c Core.retire

/-- R97: the predicate field holds: p[P] XOR N. -/
def Core.predOk (k : Core) (pr : BitVec 4) : Bool := k.rp (pr.toNat % 8) != decide (pr.toNat ≥ 8)

/-- An instruction of core `c`: turned away where the core cannot issue it or the operands name no legal encoding
(`legal`; PR = 0b1000, R96); a false predicate retires it without effect (R56); else its effect `f`. -/
def pRun (c : Nat) (pr : BitVec 4) (legal : Bool) (s : State) (f : State → Out) : Out :=
  if !legal || pr == 8 || !(s.canIssue c) then turnedAway s
  else if (s.core c).predOk pr then f s
  else .next (s.retireP c)

/-- A trap of the instruction at the pc of core `c`. -/
def pTrap (s : State) (c : Nat) (x : Cause) : Out :=
  .next (if x.code = 0x18 then s.machineCheck c x else s.trap c x)

/-! ### Keeper core -/

def State.keeper (s : State) (h : Nat) : Keeper := Tbl.get {} s.keepers h
def State.setKeeper (s : State) (h : Nat) (k : Keeper) : State := { s with keepers := Tbl.set {} s.keepers h k }
/-- k0 reads zero and discards writes (R93). -/
def Keeper.rg (k : Keeper) (r : Nat) : W64 := if r = 0 then 0 else Tbl.get 0 k.k r
def Keeper.wg (k : Keeper) (r : Nat) (v : W64) : Keeper := if r = 0 then k else { k with k := Tbl.set 0 k.k r v }

/-- R322: reset values of the keeper's control registers. -/
def kcrReset (n : Nat) : W64 := if n = 0x808 then BitVec.allOnes 64 else if n = 0x80B then 20 else 0
def Keeper.cr0 (k : Keeper) (n : Nat) : W64 := Tbl.get (kcrReset n) k.cr n
def Keeper.setCr (k : Keeper) (n : Nat) (v : W64) : Keeper := { k with cr := Tbl.set (kcrReset n) k.cr n v }

/-- R322, R324: the registers whose writes wait for SYNC. -/
def kSyncRegs : List Nat := [0x801, 0x80B, 0x80C, 0x80D, 0x80E, 0x80F, 0x810]
/-- R324: apply the pending writes. -/
def Keeper.applyPend (k : Keeper) : Keeper :=
  let k1 := kSyncRegs.foldl (fun k n => match Tbl.get none k.crP n with | some v => k.setCr n v | none => k) k
  { k1 with crP := [] }

def Keeper.ie (k : Keeper) : Bool := (k.cr0 0x800).getLsbD 0
def Keeper.modMode (k : Keeper) : Bool := (k.cr0 0x800).getLsbD 2
def Keeper.exl (k : Keeper) : Bool := (k.cr0 0x800).getLsbD 4

/-- R332, R333: module unloaded by a trap of its own or by command. -/
def State.modUnload (s : State) (h : Nat) : State :=
  (s.setKeeper h { s.keeper h with mod := none }).setF (R.HIV_KMOD_STAT_STATUS h) 0

/-- What a keeper trap reports (R325). -/
structure KCause where
  code  : Nat
  acc   : Nat := 0
  sub   : Nat := 0
  scode : Nat := 0
  intr  : Bool := false
  val   : W64 := 0
  deriving DecidableEq, Repr

/-- R316, R326: take a trap, which discards the queue; `next`: the saved address is the next instruction's (CALLS, BRK, interrupts). -/
def Keeper.enter (k : Keeper) (x : KCause) (next : Bool) : Keeper :=
  let ds := k.slot.isSome && !x.intr
  let tpc : W64 := match k.slot with
    | some (b, _) => if x.intr then k.pc else b
    | none => if next && !x.intr then k.pc + 4 else k.pc
  let tslot : W64 := if ds then k.pc else 0
  let st := k.cr0 0x800
  let st := putBits st 1 1 (st.toNat % 2)
  let st := putBits st 3 1 (bits st.toNat 2 1)
  let st := putBits (putBits (putBits st 0 1 0) 2 1 0) 4 1 1
  let cause := BitVec.ofNat 64 (x.code + b2n ds * 2 ^ 8 + x.acc * 2 ^ 9 + x.sub * 2 ^ 11 + x.scode * 2 ^ 13
    + b2n x.intr * 2 ^ 63)
  let k1 := ((((k.setCr 0x802 tpc).setCr 0x803 tslot).setCr 0x804 cause).setCr 0x805 x.val).setCr 0x800 st
  let k2 := k1.applyPend
  { k2 with pc := (k2.cr0 0x801) &&& ~~~(3 : W64), slot := none, waitev := false, pq := [] }

/-- R333: a trap of module mode other than CALLS code 0 unloads the module. -/
def State.modTrap (s : State) (h : Nat) (x : KCause) : State :=
  let k := s.keeper h
  if k.modMode && !x.intr && !(x.code == 3 && x.scode == 0) then
    ((s.modUnload h).record 3 h 3 0x0401 x.code ((k.mod.map (·.ver)).getD 0)).raise (768 + h) 1
  else s

/-- R326, R327: an exception of keeper `h`; while EXL is 1 the keeper stops instead. -/
def State.kTrap (s : State) (h : Nat) (x : KCause) (next : Bool := false) : State :=
  let k := s.keeper h
  if k.exl then
    let s := s.setFs [(R.HIV_KSTAT_STATE h, 2), (R.HIV_KSTOP_PC_PC h, k.pc.toNat)]
    (s.record 3 h 3 0x0400 x.code k.pc.toNat).raise (768 + h) 0
  else
    let s1 := s.modTrap h x
    s1.setKeeper h ((s1.keeper h).enter x next)

/-- Keeper `h` may issue: it runs, waits for nothing, and the device is not in the fatal state. -/
def State.kCanIssue (s : State) (h : Nat) : Bool :=
  let k := s.keeper h
  decide (h < 32) && s.f (R.HIV_KSTAT_STATE h) == 1 && !k.waitev && !k.recog && k.wait.isNone && !s.isFatal

/-- The pc after an instruction, whose word leaves the queue: past a delay slot, control goes where the branch decided (R125). -/
def Keeper.retire (k : Keeper) : Keeper :=
  match k.slot with
  | some (_, t) => { k with pc := t, slot := none, pq := k.pq.tail }
  | none => { k with pc := k.pc + 4, pq := k.pq.tail }

/-- R331: the pages of its own SRAM open to module mode. -/
def Keeper.pageOk (k : Keeper) (off : Nat) : Bool :=
  let w := (k.cr0 0x80C).toNat
  !k.modMode || (bits w 0 6 ≤ off / 4096 && off / 4096 ≤ bits w 8 6)

/-! ### The keeper's prefetch queue (R315, R316, R330) -/

def State.kword (s : State) (key : Nat) : Nat := Tbl.get 0 s.ksram key
/-- R315: one fetch at SRAM address `a`: the words from there to the end of its aligned 8 bytes. -/
def State.kWords (s : State) (h a : Nat) : List (Nat × Nat) :=
  let d := s.kword (h * 2 ^ 15 + a / 8)
  if a % 8 = 0 then [(a, d % 2 ^ 32), (a + 4, d / 2 ^ 32 % 2 ^ 32)] else [(a, d / 2 ^ 32 % 2 ^ 32)]
/-- R314, R331: what a fetch at `a` meets. -/
def State.kFetchErr (s : State) (h : Nat) (k : Keeper) (a : Nat) : Option KCause :=
  if a ≥ 0x40000 ∨ !(k.pageOk a) then some { code := 0x10, val := BitVec.ofNat 64 a }
  else if s.ksramBad.contains (h * 2 ^ 15 + a / 8) then some { code := 0x18, val := BitVec.ofNat 64 a }
  else none
/-- The word at the pc stands in the queue. -/
def Keeper.queued (k : Keeper) : Bool := k.pq.head?.any (fun w => w.1 == k.pc.toNat)
/-- R314, R331: what fetching at the keeper's pc meets; a word already in the queue is not fetched again. -/
def State.kFetchBad (s : State) (h : Nat) : Option KCause :=
  let k := s.keeper h
  if k.queued then none else s.kFetchErr h k k.pc.toNat
/-- R315, R316: where the next fetch reads: behind the queue's last word, at the target behind a delay slot. -/
def Keeper.fetchAddr (k : Keeper) : Nat :=
  match k.pq.getLast?, k.slot with
  | none, _ => k.pc.toNat
  | some w, some (_, t) => if k.pq.length = 1 then t.toNat else w.1 + 4
  | some w, none => w.1 + 4
/-- R315: one fetch ahead, where the queue holds at most 2 words. -/
def State.kFetch1 (s : State) (h : Nat) (k : Keeper) : Keeper :=
  if k.pq.length ≤ 2 ∧ (s.kFetchErr h k k.fetchAddr).isNone then { k with pq := k.pq ++ s.kWords h k.fetchAddr } else k
/-- The fetches between this issue and the next: at most 2 change anything, and how many there are is a free value
(notes/assumptions/114.md). -/
def State.kAhead (s : State) (h : Nat) (k : Keeper) : Keeper :=
  let n := Config.keeperFetches h k.issued
  let k1 := if n = 0 then k else if n = 1 then s.kFetch1 h k else s.kFetch1 h (s.kFetch1 h k)
  { k1 with issued := k.issued + 1 }
/-- The fetch of the instruction at the pc, where it is not in the queue. -/
def State.kFill (s : State) (h : Nat) : State :=
  let k := s.keeper h
  if k.queued then s else s.setKeeper h { k with pq := s.kWords h k.pc.toNat }

def State.retireK (s : State) (h : Nat) : State := s.setKeeper h (s.kAhead h (s.keeper h).retire)

/-- An instruction of keeper `h`: `legal` its operands name a legal encoding; `noSlot`: its word where a delay slot may
not hold it (R126). -/
def kRun (h : Nat) (legal : Bool) (noSlot : Option Nat) (s : State) (f : State → Out) : Out :=
  if !legal || !(s.kCanIssue h) then turnedAway s
  else
    match s.kFetchBad h with
    | some x => .next (s.kTrap h x)
    | none =>
      let s := s.kFill h
      match noSlot with
      | some w =>
        if (s.keeper h).slot.isSome then .next (s.kTrap h { code := 1, val := BitVec.ofNat 64 w }) else f s
      | none => f s

/-! ### Either agent -/

/-- Run an instruction of the agent; registers must lie in the agent's file (R96). -/
def agRun (a : Agent) (pr : BitVec 4) (regs : List (BitVec 5)) (s : State) (f : State → Out) : Out :=
  match a with
  | .core c => pRun c pr true s f
  | .keeper h => kRun h (pr == 0 && regs.all (fun r => r.toNat < 16)) none s f

/-- R315: the state in which the instruction at the agent's pc runs: a keeper has fetched its word. -/
def State.fillA (s : State) (a : Agent) : State :=
  match a with
  | .core _ => s
  | .keeper h => s.kFill h
def State.rgA (s : State) (a : Agent) (r : BitVec 5) : W64 :=
  match a with
  | .core c => (s.core c).rg r.toNat
  | .keeper h => (s.keeper h).rg r.toNat
def State.wgA (s : State) (a : Agent) (r : BitVec 5) (v : W64) : State :=
  match a with
  | .core c => s.updCore c (fun k => k.wg r.toNat v)
  | .keeper h => s.setKeeper h ((s.keeper h).wg r.toNat v)
def State.pcA (s : State) (a : Agent) : W64 :=
  match a with
  | .core c => (s.core c).pc
  | .keeper h => (s.keeper h).pc
def State.retireA (s : State) (a : Agent) : State :=
  match a with
  | .core c => s.retireP c
  | .keeper h => s.retireK h

/-- A register operation: `rd` takes `v`, control goes on. -/
def regOp (a : Agent) (pr : BitVec 4) (rd : BitVec 5) (srcs : List (BitVec 5)) (v : State → W64) (s : State) : Out :=
  agRun a pr (rd :: srcs) s (fun s => .next ((s.wgA a rd (v s)).retireA a))

/-! ### Events at a core (R143 to R148) -/

/-- R147: the entry a claim takes, among `l` with priority at least `thr` and of the level. -/
def bestHeld (l : List Held) : Option Held :=
  l.foldl (fun b h => match b with
    | none => some h
    | some x => if h.pri > x.pri ∨ (h.pri = x.pri ∧ h.src < x.src) then some h else b) none

def claimWord (h : Option Held) : W64 :=
  match h with
  | some h => BitVec.ofNat 64 (h.src + h.pri * 2 ^ 16 + 2 ^ 31)
  | none => 0

/-- The hub's side of a claim (R381). -/
def State.hubClaim (s : State) (src : Nat) : State := s.setFs [(R.EVT_STAT_HELD src, 0), (R.EVT_STAT_ACTIVE src, 1)]

/-- R147: claim at level M or S of core `c`. -/
def State.claim (s : State) (c : Nat) (m : Bool) : State × W64 :=
  let k := s.core c
  let thr := bits (k.cr0 (if m then 0xC08 else 0x407)).toNat 0 4
  let b := bestHeld (k.held.filter (fun h => (h.dom == 0) == m && h.pri ≥ thr))
  match b with
  | some h => ((s.setCore c { k with held := k.held.erase h }).hubClaim h.src, claimWord b)
  | none => (s, 0)

/-- R147: end the active event `src`; ignored unless it is active for this holder and level. -/
def State.evEnd (s : State) (holder : Nat) (lvl : Option Bool) (src : Nat) : State :=
  let own := s.f (R.EVT_OWN_OWNER src)
  if s.f (R.EVT_STAT_ACTIVE src) == 1 && s.f (R.EVT_STAT_HOLDER src) == holder
      && (match lvl with | some m => (own == 0) == m | none => true) then
    s.setF (R.EVT_STAT_ACTIVE src) 0
  else s

/-- R328: claim by keeper `h`. -/
def State.kClaim (s : State) (h : Nat) : State × W64 :=
  let k := s.keeper h
  let thr := bits (k.cr0 0x809).toNat 0 4
  let b := bestHeld (k.held.filter (fun x => x.pri ≥ thr))
  match b with
  | some x => ((s.setKeeper h { k with held := k.held.erase x }).hubClaim x.src, claimWord b)
  | none => (s, 0)

/-- R83, R135, R148: where core `c` can take an interrupt now, it is recognised and no further instruction issues before it. -/
def State.recogNow (s : State) (c : Nat) : State :=
  if (s.intrOf c).isSome then s.updCore c (fun k => { k.squash with recog := true }) else s

/-- R148: a core in WAITEV goes on once something wakes it. -/
def State.wakeCore (s : State) (c : Nat) : State :=
  let k := s.core c
  if k.waitev && s.wakeable k then (s.setCore c { k.retire with waitev := false }).recogNow c else s

def State.kTimer (s : State) (k : Keeper) : Bool := decide (s.time ≥ (k.cr0 0x808).toNat)
/-- R328, R329: the code of the interrupt that a keeper can take at this boundary, the timer first. -/
def State.kIntr (s : State) (k : Keeper) : Option Nat :=
  let thr := bits (k.cr0 0x809).toNat 0 4
  if !k.ie || k.exl || k.slot.isSome then none
  else if s.kTimer k then some 2
  else if k.held.any (fun x => x.pri ≥ thr) then some 1
  else none
/-- R148, R329: an interrupt that keeper `h` can take now comes before its next instruction. -/
def State.kRecog (s : State) (h : Nat) : State :=
  let k := s.keeper h
  if (s.kIntr k).isSome then s.setKeeper h { k with recog := true } else s
/-- R148, R328: the same for a keeper. -/
def State.wakeKeeper (s : State) (h : Nat) : State :=
  let k := s.keeper h
  if k.waitev && (!k.held.isEmpty || s.kTimer k) then (s.setKeeper h { k.retire with waitev := false }).kRecog h else s

end Sys2Proof.Machine
end

