-- ==== Sys2Proof/Machine/Branch.lean ====
section
/-! DEFINITION. Branches of both profiles (R58 to R62, R113, R114, R124 to R126), with what a retired branch trains. -/

namespace Sys2Proof.Machine
open Sys2Proof

/-! ### Predictors (R58 to R61) -/

def dirIdx (pc : W64) : Nat := bits pc.toNat 2 14
/-- R61: one step toward the outcome, saturating; 0b01 after clearing. -/
def Core.trainDir (k : Core) (pc : W64) (taken : Bool) : Core :=
  let i := dirIdx pc
  let v := (Tbl.get (1 : BitVec 2) k.dirT i).toNat
  { k with dirT := Tbl.set 1 k.dirT i (BitVec.ofNat 2 (if taken then min 3 (v + 1) else v - 1)) }

/-- R59: the entry of the target buffer for a branch of this kind at `pc`: its tag is bits [23:12] and the kind. -/
def Core.btbHit (k : Core) (pc : W64) (kind : BrK) : Option BtbE :=
  k.btb.find? (fun e => e.set == bits pc.toNat 2 10 && e.tag == bits pc.toNat 12 12 && e.kind == kind)

/-- R59, R61: the target buffer records a retired taken branch, in its entry, in an invalid way or in the pseudo-LRU one (the tree
of `plruVictim` over ways 0 to 3, notes/assumptions/32.md). -/
def Core.trainBtb (k : Core) (pc : W64) (kind : BrK) (tgt : W64) : Core :=
  let st := bits pc.toNat 2 10
  let inSet := k.btb.filter (fun e => e.set == st)
  let lru := Tbl.get 0 k.btbLru st
  let way := match k.btbHit pc kind with
    | some e => e.way
    | none => ((List.range 4).find? (fun w => inSet.all (fun e => e.way != w))).getD (plruVictim lru 0xF)
  { k with btb := k.btb.filter (fun e => !(e.set == st && e.way == way)) ++ [⟨st, way, bits pc.toNat 12 12, kind, lo32 tgt⟩]
           btbLru := Tbl.set 0 k.btbLru st (plruTouch lru way) }

/-- R60: a push, which wraps at 32. -/
def pushStack (l : List W64) (x : W64) : List W64 := (l ++ [x]).drop (l.length + 1 - 32)

/-- R58 to R60: where fetch goes on after a branch at `pc`, and the return stack it leaves: not taken without an entry in the target
buffer, nor by a conditional one whose counter says so; a return goes where the speculative stack says, zero when it is empty;
any other target takes its upper bits from the branch's own address. -/
def Core.predict (k : Core) (pc : W64) (kind : BrK) (cond : Bool) : W64 × List W64 :=
  match k.btbHit pc kind with
  | none => (pcNext pc, k.retS)
  | some e =>
    if cond && !((Tbl.get (1 : BitVec 2) k.dirT (dirIdx pc)).getLsbD 1) then (pcNext pc, k.retS)
    else
      let t := BitVec.ofNat 64 (pc.toNat / 2 ^ 32 * 2 ^ 32 + e.tgt.toNat)
      match kind with
      | .ret => (k.retS.getLastD 0, k.retS.dropLast)
      | .call => (t, pushStack k.retS (pcNext pc))
      | _ => (t, k.retS)

/-- A retired branch of core `k` at its pc: taken to `tgt`, or not taken (R57, R60, R61). Where no branch is in flight the
speculative return stack is the retired one. -/
def Core.branch (k : Core) (kind : BrK) (tgt : Option W64) : Core :=
  let k3 := match tgt with
    | none => (k.trainDir k.pc false).retire
    | some t =>
      let k1 := (k.trainDir k.pc true).trainBtb k.pc kind t
      let k2 := match kind with
        | .call => { k1 with retR := pushStack k1.retR (pcNext k.pc) }
        | .ret => { k1 with retR := k1.retR.dropLast }
        | _ => k1
      k2.leave t
  if k3.win.any WinE.isBranch then k3 else { k3 with retS := k3.retR }

/-- A P-profile branch: `link` names the register that takes the return address (R113). A false predicate counts as not
taken (R58, R98). -/
def pBranch (c : Nat) (pr : BitVec 4) (legal : Bool) (kind : BrK) (link : Option Nat) (tgt : Core → W64) (s : State) :
    Out :=
  if !legal || pr == 8 || !(s.canIssue c) then turnedAway s
  else
    let k := s.core c
    if k.predOk pr then
      let k1 := match link with | some r => k.wg r (pcNext k.pc) | none => k
      .next (s.setCore c (k1.branch kind (some (tgt k))))
    else .next (s.setCore c (k.branch kind none))

/-- R113: PC + imm22 × 4. -/
def relTgt (pc : W64) (imm : BitVec 22) : W64 := pcMask (pc + (imm.signExtend 64) <<< 2)

def execB (c : Nat) (pr : BitVec 4) (imm : BitVec 22) (s : State) : Out :=
  pBranch c pr true .direct none (fun k => relTgt k.pc imm) s
def execBl (c : Nat) (pr : BitVec 4) (imm : BitVec 22) (s : State) : Out :=
  pBranch c pr true .call (some 31) (fun k => relTgt k.pc imm) s
def execJr (c : Nat) (pr : BitVec 4) (ra : BitVec 5) (s : State) : Out :=
  pBranch c pr true .indirect none (fun k => pcMask (k.rg ra.toNat)) s
def execJalr (c : Nat) (pr : BitVec 4) (rd ra : BitVec 5) (s : State) : Out :=
  pBranch c pr (rd != 0) .call (some rd.toNat) (fun k => pcMask (k.rg ra.toNat)) s
def execRet (c : Nat) (pr : BitVec 4) (s : State) : Out :=
  pBranch c pr true .ret none (fun k => pcMask (k.rg 31)) s

/-! ### S-profile (R124, R125) -/

/-- R124: the COND field. -/
def Cond.code : Cond → Nat
  | .eq => 0 | .ne => 1 | .lt => 2 | .ge => 3 | .ltu => 4 | .geu => 5 | .tst => 6 | .tstn => 7

/-- Format KB, KJ and KX words, for R126's trap value. -/
def encKB (sk : Bool) (cond : Cond) (ka kb : BitVec 5) (off : BitVec 12) : Nat :=
  b2n sk * 2 ^ 31 + cond.code * 2 ^ 28 + 0x38 * 2 ^ 22 + ka.toNat * 2 ^ 17 + kb.toNat * 2 ^ 12 + off.toNat
def encKJ (sk : Bool) (maj : Nat) (off : BitVec 22) : Nat := b2n sk * 2 ^ 31 + maj * 2 ^ 22 + off.toNat
def encKX (sk : Bool) (kd ka : BitVec 5) : Nat := b2n sk * 2 ^ 31 + 0x3B * 2 ^ 22 + kd.toNat * 2 ^ 17 + ka.toNat * 2 ^ 12

/-- R125: the branch at the keeper's pc is taken to `tgt` or falls through; with SK a transfer skips the slot. R316: on a transfer the
queue keeps the slot's word and discards the words after it. -/
def Keeper.branch (k : Keeper) (sk : Bool) (tgt : Option W64) : Keeper :=
  match tgt with
  | some t =>
    if sk then { k with pc := t, slot := none, pq := [] }
    else { k with pc := k.pc + 4, slot := some (k.pc, t), pq := k.pq.tail.take 1 }
  | none => { k with pc := k.pc + 4, slot := some (k.pc, k.pc + 8), pq := k.pq.tail }

def kBranch (h : Nat) (legal : Bool) (word : Nat) (sk : Bool) (link : Nat) (tgt : Keeper → Option W64) (s : State) :
    Out :=
  kRun h legal (some word) s (fun s =>
    let k := s.keeper h
    .next (s.setKeeper h (s.kAhead h ((k.wg link (k.pc + 8)).branch sk (tgt k)))))

def low16 (r : BitVec 5) : Bool := r.toNat < 16

def execBc (h : Nat) (sk : Bool) (cond : Cond) (ka kb : BitVec 5) (off : BitVec 12) (s : State) : Out :=
  kBranch h (low16 ka && low16 kb) (encKB sk cond ka kb off) sk 0
    (fun k => if cond.holds (k.rg ka.toNat) (k.rg kb.toNat) then some (k.pc + (off.signExtend 64) <<< 2) else none) s
def execJ (h : Nat) (sk : Bool) (off : BitVec 22) (s : State) : Out :=
  kBranch h true (encKJ sk 0x39 off) sk 0 (fun k => some (k.pc + (off.signExtend 64) <<< 2)) s
def execJl (h : Nat) (sk : Bool) (off : BitVec 22) (s : State) : Out :=
  kBranch h true (encKJ sk 0x3A off) sk 15 (fun k => some (k.pc + (off.signExtend 64) <<< 2)) s
def execJx (h : Nat) (sk : Bool) (kd ka : BitVec 5) (s : State) : Out :=
  kBranch h (low16 kd && low16 ka && (kd != ka || kd == 0)) (encKX sk kd ka) sk kd.toNat
    (fun k => some (k.rg ka.toNat &&& ~~~(3 : W64))) s

end Sys2Proof.Machine
end

