-- ==== Sys2Proof/Machine/Crypto.lean ====
section
/-! DEFINITION. Digests and checksums that the spec names by their standards: SHA-256 and HMAC (R376, R529; FIPS 180-4,
FIPS 198-1), SHA-384 (R332, R528), CRC-32C (R446). -/

namespace Sys2Proof.Machine

/-! ### SHA-2: both sizes from one round function. The constants are the fractional parts of roots of primes (FIPS 180-4),
computed here. -/

/-- Integer root: the largest `r` below `2 ^ n` with `r ^ k ≤ v`. -/
def iroot (k v : Nat) : Nat → Nat → Nat
  | 0, r => r
  | n + 1, r => let t := r + 2 ^ n; iroot k v n (if t ^ k ≤ v then t else r)

/-- The first 80 primes. -/
def shaPrimes : List Nat :=
  (List.range 410).filter (fun n => n ≥ 2 && (List.range n).all (fun d => d < 2 || n % d != 0))

/-- The first `w` bits of the fractional part of the `k`-th root of `p`. -/
def rootFrac (k w p : Nat) : Nat := iroot k (p * 2 ^ (k * w)) (w + 5) 0 % 2 ^ w

/-- Rotations and shifts of the round and schedule functions for one word size. -/
structure ShaP where
  w  : Nat
  b0 : List Nat
  b1 : List Nat
  s0 : List Nat
  s1 : List Nat
  rounds : Nat

def sha256P : ShaP := ⟨32, [2, 13, 22], [6, 11, 25], [7, 18, 3], [17, 19, 10], 64⟩
def sha512P : ShaP := ⟨64, [28, 34, 39], [14, 18, 41], [1, 8, 7], [19, 61, 6], 80⟩

def rotR (w x n : Nat) : Nat := x / 2 ^ n + x % 2 ^ n * 2 ^ (w - n)
def shaBig (w : Nat) (r : List Nat) (x : Nat) : Nat :=
  rotR w x (r.getD 0 0) ^^^ rotR w x (r.getD 1 0) ^^^ rotR w x (r.getD 2 0)
def shaSmall (w : Nat) (r : List Nat) (x : Nat) : Nat :=
  rotR w x (r.getD 0 0) ^^^ rotR w x (r.getD 1 0) ^^^ x / 2 ^ r.getD 2 0

/-- The message schedule, latest word first. -/
def shaSched (p : ShaP) : Nat → List Nat → List Nat
  | 0, ws => ws
  | n + 1, ws =>
    let x := (shaSmall p.w p.s1 (ws.getD 1 0) + ws.getD 6 0 + shaSmall p.w p.s0 (ws.getD 14 0) + ws.getD 15 0) % 2 ^ p.w
    shaSched p n (x :: ws)

/-- One block. -/
def shaBlock (p : ShaP) (ks : List Nat) (h : List Nat) (blk : List Nat) : List Nat :=
  let ws := (shaSched p (p.rounds - 16) blk.reverse).reverse
  let m := 2 ^ p.w
  let out := (ks.zip ws).foldl (fun (v : List Nat) (kw : Nat × Nat) =>
    match v with
    | [a, b, c, d, e, f, g, hh] =>
      let t1 := (hh + shaBig p.w p.b1 e + ((e &&& f) ^^^ ((m - 1 - e) &&& g)) + kw.1 + kw.2) % m
      let t2 := (shaBig p.w p.b0 a + ((a &&& b) ^^^ (a &&& c) ^^^ (b &&& c))) % m
      [(t1 + t2) % m, a, b, c, (d + t1) % m, e, f, g]
    | _ => v) h
  (h.zip out).map (fun x => (x.1 + x.2) % m)

def ofBe (bs : List Nat) : Nat := bs.foldl (fun a b => a * 256 + b % 256) 0
def beBytes (n v : Nat) : List Nat := (List.range n).map (fun i => v / 256 ^ (n - 1 - i) % 256)

/-- Split into pieces of `n`. -/
def chunksOf {α : Type} (n : Nat) : Nat → List α → List (List α)
  | 0, _ => []
  | k + 1, l => if l.isEmpty then [] else l.take n :: chunksOf n k (l.drop n)

/-- The padded message as blocks of words. -/
def shaBlocks (p : ShaP) (msg : List Nat) : List (List Nat) :=
  let bw := p.w / 8
  let bl := 16 * bw
  let z := (bl - (msg.length + 1 + 2 * bw) % bl) % bl
  let bytes := msg ++ [0x80] ++ List.replicate z 0 ++ beBytes (2 * bw) (8 * msg.length)
  (chunksOf bl (bytes.length / bl) bytes).map (fun b => (chunksOf bw 16 b).map ofBe)

def shaDigest (p : ShaP) (h0 : List Nat) (msg : List Nat) : List Nat :=
  let ks := (shaPrimes.take p.rounds).map (rootFrac 3 p.w)
  ((shaBlocks p msg).foldl (shaBlock p ks) h0).flatMap (beBytes (p.w / 8))

def sha256 (msg : List Nat) : List Nat := shaDigest sha256P ((shaPrimes.take 8).map (rootFrac 2 32)) msg
/-- SHA-384: SHA-512's rounds from its own initial value, cut to 48 bytes. -/
def sha384 (msg : List Nat) : List Nat :=
  (shaDigest sha512P (((shaPrimes.drop 8).take 8).map (rootFrac 2 64)) msg).take 48

/-- FIPS 198-1 over SHA-256, for keys of at most 64 bytes. -/
def hmac256 (key msg : List Nat) : List Nat :=
  let k := key ++ List.replicate (64 - key.length) 0
  sha256 (k.map (· ^^^ 0x5C) ++ sha256 (k.map (· ^^^ 0x36) ++ msg))

/-! ### CRC-32C (R446) -/

def crc32cBit : Nat → Nat → Nat
  | 0, r => r
  | n + 1, r => crc32cBit n (if r % 2 = 1 then r / 2 ^^^ 0x82F63B78 else r / 2)
def crc32c (bs : List Nat) : Nat := bs.foldl (fun r b => crc32cBit 8 (r ^^^ b % 256)) 0xFFFFFFFF ^^^ 0xFFFFFFFF

end Sys2Proof.Machine
end

