-- ==== Sys2Proof/Machine/Inflate.lean ====
section
/-! DEFINITION. The compressed container (R446 to R449): a decoder for raw DEFLATE streams (RFC 1951) that names the first
error it meets, and the container's coder and decoder. -/

namespace Sys2Proof.Machine
open Sys2Proof

/-- Engine status codes (R449). -/
def csOUTFULL : Nat := 0x40
def csILLEGAL : Nat := 0x41
def csDIST : Nat := 0x42
def csOVERRUN : Nat := 0x43
def csTABLE : Nat := 0x44
def csBLOCK : Nat := 0x45
def csTRUNC : Nat := 0x46
def csSUM : Nat := 0x47
def csCONT : Nat := 0x48
def csTRANS : Nat := 0x49
def csREMOTE : Nat := 0x4A
def csABANDON : Nat := 0x4B
def csPOISON : Nat := 0x4C

/-- Bits of a byte string, the lowest of each byte first. -/
def bitsOf (bs : List Nat) : List Bool := bs.flatMap (fun b => (List.range 8).map (fun i => b.testBit i))

/-- Take `n` bits, the first the lowest; none past the end. -/
def takeBits : Nat → List Bool → Option (Nat × List Bool)
  | 0, l => some (0, l)
  | _ + 1, [] => none
  | n + 1, b :: l => match takeBits n l with | some (v, r) => some ((if b then 1 else 0) + 2 * v, r) | none => none

/-- A canonical code: (length, code, symbol), from the code lengths of its symbols (RFC 1951, 3.2.2). -/
def canonCodes (lens : List Nat) : List (Nat × Nat × Nat) :=
  let syms := (List.range lens.length).zip lens
  ((List.range 16).foldl (fun (acc : Nat × List (Nat × Nat × Nat)) l =>
    if l = 0 then acc
    else
      let mine := (syms.filter (fun x => x.2 == l)).map (·.1)
      let start := acc.1 * 2
      (start + mine.length, acc.2 ++ ((List.range mine.length).zip mine).map (fun x => (l, start + x.1, x.2)))) (0, [])).2

/-- Kraft sum in units of 2^-15, with the number of symbols used. -/
def kraft (lens : List Nat) : Nat × Nat :=
  lens.foldl (fun a l => if l = 0 then a else (a.1 + 2 ^ (15 - l), a.2 + 1)) (0, 0)

/-- Read one symbol: `some none` a code that is not assigned. -/
def readSym (codes : List (Nat × Nat × Nat)) : Nat → Nat → Nat → List Bool → Option (Option Nat × List Bool)
  | 0, _, _, l => some (none, l)
  | _ + 1, _, _, [] => none
  | n + 1, len, acc, b :: l =>
    let acc := acc * 2 + (if b then 1 else 0)
    match codes.find? (fun c => c.1 == len + 1 && c.2.1 == acc) with
    | some c => some (some c.2.2, l)
    | none => readSym codes n (len + 1) acc l
def nextSym (codes : List (Nat × Nat × Nat)) (l : List Bool) : Option (Option Nat × List Bool) := readSym codes 15 0 0 l

def lenBase : List Nat := [3, 4, 5, 6, 7, 8, 9, 10, 11, 13, 15, 17, 19, 23, 27, 31, 35, 43, 51, 59, 67, 83, 99, 115, 131, 163,
  195, 227, 258]
def lenExtra : List Nat := [0, 0, 0, 0, 0, 0, 0, 0, 1, 1, 1, 1, 2, 2, 2, 2, 3, 3, 3, 3, 4, 4, 4, 4, 5, 5, 5, 5, 0]
def distBase : List Nat := [1, 2, 3, 4, 5, 7, 9, 13, 17, 25, 33, 49, 65, 97, 129, 193, 257, 385, 513, 769, 1025, 1537, 2049,
  3073, 4097, 6145, 8193, 12289, 16385, 24577]
def distExtra (d : Nat) : Nat := if d < 2 then 0 else d / 2 - 1

/-- Copy `n` bytes from `dist` back; the output is kept latest first. -/
def copyBack : Nat → Nat → List Nat → List Nat
  | 0, _, out => out
  | n + 1, d, out => copyBack n d (out.getD (d - 1) 0 :: out)

/-- What a stage answers: an error code, or the bits left and the output, latest byte first. -/
abbrev Inf := Nat ⊕ (List Bool × List Nat)

/-- The symbols of one compressed block up to its end-of-block code; `blen` the limit of the output. -/
def infBlock (lit dist : List (Nat × Nat × Nat)) (blen : Nat) : Nat → List Bool → List Nat → Inf
  | 0, _, _ => .inl csTRUNC
  | n + 1, l, out =>
    match nextSym lit l with
    | none => .inl csTRUNC
    | some (none, _) => .inl csILLEGAL
    | some (some s, l) =>
      if s < 256 then
        if out.length ≥ blen then .inl csOVERRUN else infBlock lit dist blen n l (s :: out)
      else if s = 256 then .inr (l, out)
      else if s > 285 then .inl csILLEGAL
      else
        match takeBits (lenExtra.getD (s - 257) 0) l with
        | none => .inl csTRUNC
        | some (e, l) =>
          let len := lenBase.getD (s - 257) 0 + e
          match nextSym dist l with
          | none => .inl csTRUNC
          | some (none, _) => .inl csILLEGAL
          | some (some d, l) =>
            if d > 29 then .inl csILLEGAL
            else
              match takeBits (distExtra d) l with
              | none => .inl csTRUNC
              | some (e, l) =>
                let back := distBase.getD d 0 + e
                if back > out.length then .inl csDIST
                else if out.length + len > blen then .inl csOVERRUN
                else infBlock lit dist blen n l (copyBack len back out)

/-- The code lengths of a dynamic block: repeats expanded. -/
def readLens (codes : List (Nat × Nat × Nat)) (want : Nat) : Nat → List Bool → List Nat → Nat ⊕ (List Bool × List Nat)
  | 0, _, _ => .inl csTRUNC
  | n + 1, l, acc =>
    if acc.length = want then .inr (l, acc)
    else if acc.length > want then .inl csTABLE
    else
      match nextSym codes l with
      | none => .inl csTRUNC
      | some (none, _) => .inl csILLEGAL
      | some (some s, l) =>
        if s < 16 then readLens codes want n l (acc ++ [s])
        else
          let (nb, base) := match s with | 16 => (2, 3) | 17 => (3, 3) | _ => (7, 11)
          if s = 16 ∧ acc.isEmpty then .inl csTABLE
          else
            match takeBits nb l with
            | none => .inl csTRUNC
            | some (e, l) => readLens codes want n l (acc ++ List.replicate (base + e) (if s = 16 then acc.getLastD 0 else 0))

def clOrder : List Nat := [16, 17, 18, 0, 8, 7, 9, 6, 10, 5, 11, 4, 12, 3, 13, 2, 14, 1, 15]

/-- Code length code lengths in the order they come. -/
def readCl : Nat → List Bool → List Nat → Option (List Bool × List Nat)
  | 0, l, acc => some (l, acc)
  | n + 1, l, acc => match takeBits 3 l with | some (v, l) => readCl n l (acc ++ [v]) | none => none

/-- A code that R449 refuses: over-subscribed, or incomplete and not a distance code of a single symbol. -/
def badCode (lens : List Nat) (isDist : Bool) : Bool :=
  let (k, n) := kraft lens
  decide (k > 2 ^ 15) || (decide (k < 2 ^ 15) && !(isDist && decide (n ≤ 1)))

def fixedLit : List Nat :=
  List.replicate 144 8 ++ List.replicate 112 9 ++ List.replicate 24 7 ++ List.replicate 8 8
def fixedDist : List Nat := List.replicate 32 5

/-- Tables of a dynamic block. -/
def dynTables (l : List Bool) : Nat ⊕ (List Bool × List Nat × List Nat) :=
  match takeBits 14 l with
  | none => .inl csTRUNC
  | some (h, l) =>
    let hlit := h % 32 + 257
    let hdist := h / 32 % 32 + 1
    if hlit > 286 ∨ hdist > 30 then .inl csTABLE
    else
      match readCl (h / 1024 + 4) l [] with
      | none => .inl csTRUNC
      | some (l, cl) =>
        let lens := (List.range 19).map (fun s => ((clOrder.zip cl).find? (fun x => x.1 == s)).elim 0 (·.2))
        if badCode lens false then .inl csTABLE
        else
          match readLens (canonCodes lens) (hlit + hdist) (hlit + hdist + 1) l [] with
          | .inl e => .inl e
          | .inr (l, all) =>
            let lit := all.take hlit
            let dist := all.drop hlit
            if badCode lit false ∨ badCode dist true ∨ lit.getD 256 0 = 0 then .inl csTABLE else .inr (l, lit, dist)

/-- A raw stream, block after block; `total` its bits, to find byte boundaries. -/
def infStream (total blen : Nat) : Nat → List Bool → List Nat → Inf
  | 0, _, _ => .inl csTRUNC
  | n + 1, l, out =>
    match takeBits 3 l with
    | none => .inl csTRUNC
    | some (h, l) =>
      let r : Inf :=
        match h / 2 with
        | 0 =>
          let l := l.drop ((8 - (total - l.length) % 8) % 8)
          (match takeBits 32 l with
           | none => .inl csTRUNC
           | some (v, l) =>
             let len := v % 2 ^ 16
             if len + v / 2 ^ 16 ≠ 0xFFFF then .inl csBLOCK
             else if l.length < 8 * len then .inl csTRUNC
             else if out.length + len > blen then .inl csOVERRUN
             else
               let bs := (List.range len).map (fun i => ((takeBits 8 (l.drop (8 * i))).getD (0, [])).1)
               .inr (l.drop (8 * len), bs.reverse ++ out))
        | 1 => infBlock (canonCodes fixedLit) (canonCodes fixedDist) blen (l.length + 1) l out
        | 2 =>
          (match dynTables l with
           | .inl e => .inl e
           | .inr (l, lit, dist) => infBlock (canonCodes lit) (canonCodes dist) blen (l.length + 1) l out)
        | _ => .inl csBLOCK
      match r with
      | .inl e => .inl e
      | .inr (l, out) => if h % 2 = 1 then .inr (l, out) else infStream total blen n l out

/-- R447, R449: a payload of CLEN bytes that must give exactly `blen` bytes. -/
def inflate (payload : List Nat) (blen : Nat) : Nat ⊕ List Nat :=
  let l := bitsOf payload
  match infStream l.length blen (l.length + 1) l [] with
  | .inl e => .inl e
  | .inr (rest, out) => if out.length < blen ∨ rest.length ≥ 8 then .inl csOVERRUN else .inr out.reverse

/-! ### The container (R446) -/

def le (n v : Nat) : List Nat := (List.range n).map (fun i => v / 256 ^ i % 256)
def unle (bs : List Nat) : Nat := bs.foldr (fun b a => b % 256 + 256 * a) 0

/-- R447: one block: its stream where the encoder's choice is a shorter stream that gives the block back, else raw. -/
def packBlock (bs : List Nat) (log2 level : Nat) : List Nat :=
  let ch := (Config.deflateChoice bs log2 level).map (· % 256)
  let raw := level == 0 || decide (ch.length ≥ bs.length) ||
    (match inflate ch bs.length with | .inr o => decide (o ≠ bs) | .inl _ => true)
  let pay := if raw then bs else ch
  le 4 (pay.length + if raw then 2 ^ 31 else 0) ++ le 4 bs.length ++ le 4 (crc32c bs) ++ pay

def pack (bs : List Nat) (log2 level : Nat) : List Nat :=
  [0x55, 0x4B, 0x43, 0x5A, 1, log2, 0, 0] ++ le 8 bs.length
    ++ (chunksOf (2 ^ log2) (bs.length / 2 ^ log2 + 1) bs).flatMap (fun b => packBlock b log2 level) ++ le 4 (crc32c bs)

/-- R448, R449: a payload that must give `blen` bytes, where only `room` bytes of destination are left. -/
def inflateIn (raw : Bool) (pay : List Nat) (blen room : Nat) : Nat ⊕ List Nat :=
  if blen ≤ room then (if raw then .inr pay else inflate pay blen)
  else if raw then .inl csOUTFULL
  else
    let l := bitsOf pay
    match infStream l.length room (l.length + 1) l [] with
    | .inl e => .inl (if e = csOVERRUN then csOUTFULL else e)
    | .inr _ => .inl csOVERRUN

/-- No status: the bytes at hand end before the container does. -/
def csMORE : Nat := 0

/-- R449: blocks from offset `off` on, into `lim` bytes: the output so far, or an error with the offset of the block's
header (0 for OUTPUT_FULL). A stream is checked as far as its bytes are at hand. -/
def unpackBlocks (src : List Nat) (log2 ulen lim : Nat) : Nat → Nat → List Nat → (Nat × Nat) ⊕ (Nat × List Nat)
  | 0, off, out => .inr (off, out)
  | n + 1, off, out =>
    if out.length = ulen then .inr (off, out)
    else
      let h := (src.drop off).take 12
      if h.length < 12 then .inl (csMORE, off)
      else
        let c := unle (h.take 4)
        let clen := c % 2 ^ 31
        let raw := decide (c ≥ 2 ^ 31)
        let blen := unle ((h.drop 4).take 4)
        let want := min (2 ^ log2) (ulen - out.length)
        if raw ∧ clen ≠ blen then .inl (csCONT, off)
        else if blen ≠ want then .inl (csOVERRUN, off)
        else
          let pay := (src.drop (off + 12)).take clen
          let part := decide (pay.length < clen)
          match inflateIn raw pay blen (lim - out.length) with
            | .inl e => .inl (if part ∧ e = csTRUNC then csMORE else e, if e = csOUTFULL then 0 else off)
            | .inr o =>
              if part then .inl (csMORE, off)
              else if crc32c o ≠ unle (h.drop 8) then .inl (csSUM, off)
              else unpackBlocks src log2 ulen lim n (off + 12 + clen) (out ++ o)

/-- R449: the bytes at hand of a container of `total` source bytes, into `lim` bytes; an error with its RESULT. -/
def unpackAt (src : List Nat) (total lim : Nat) : (Nat × Nat) ⊕ List Nat :=
  let log2 := src.getD 5 0
  let ulen := unle ((src.drop 8).take 8)
  if src.length < 16 then .inl (csMORE, 0)
  else if src.take 5 ≠ [0x55, 0x4B, 0x43, 0x5A, 1] ∨ log2 < 12 ∨ log2 > 20 ∨ src.getD 6 0 ≠ 0 ∨ src.getD 7 0 ≠ 0 then
    .inl (csCONT, 0)
  else
    match unpackBlocks src log2 ulen lim (src.length + 1) 16 [] with
    | .inl e => .inl e
    | .inr (off, out) =>
      let t := (src.drop off).take 4
      if t.length < 4 then .inl (csMORE, 0)
      else if unle t ≠ crc32c out then .inl (csSUM, 0)
      else if total ≠ off + 4 then .inl (csCONT, 0)
      else .inr out

/-- R449: a whole container into `lim` bytes: bytes that are missing now never come. -/
def unpack (src : List Nat) (lim : Nat) : (Nat × Nat) ⊕ List Nat :=
  match unpackAt src src.length lim with
  | .inl (e, off) => .inl (if e = csMORE then csTRUNC else e, off)
  | .inr out => .inr out

end Sys2Proof.Machine
end

