-- ==== Sys2Proof/Machine/Events.lean ====
section
/-! DEFINITION. The event network's commands (R380 to R395) and interrupts of P-cores (R83, R140, R145, R146). MSI-X
messages stand with the host endpoint. -/

namespace Sys2Proof.Machine
open Sys2Proof

/-- R388, R394: configuration of a source in force: enabled, target kind, priority, target. -/
def State.evtCfg (s : State) (src : Nat) : Bool × Nat × Nat × Nat :=
  if src < 512 then (s.evtEn src, 0, 15, src)
  else (s.evtEn src, s.f (R.EVT_CFG_TKIND src), s.f (R.EVT_CFG_PRI src), s.f (R.EVT_CFG_TARGET src))

/-- R383, R384, R385: the holder a source would be presented to (a core number, or 512 + hive), where it may be. -/
def State.evtHolder (s : State) (src : Nat) : Option Nat :=
  let (_, tk, _, tgt) := s.evtCfg src
  let own := s.f (R.EVT_OWN_OWNER src)
  let onCore (c : Nat) : Option Nat :=
    let t := c / 2
    if own = 0 ∨ (s.domOf t = own ∧ Tbl.get 0 s.tilePark t = 0 ∧ s.f (R.DOM_STATE_STATE own) ≠ domPARKED) then some (s.cix c) else none
  match tk with
  | 0 => onCore tgt
  | 1 => if own = 0 then some (512 + tgt % 32) else none
  | 2 =>
    let c := s.f (R.EVT_DESIG_CORE own)
    if s.f (R.EVT_DESIG_V own) = 0 then none
    else if own ≠ 0 ∧ !(bitOf (s.f (R.DOM_TILES_SET own (c / 2 / 32))) (c / 2 % 32)) then none
    else onCore c
  | _ => none

/-- R381: the source may be presented now as far as its own flags go. -/
def State.evtReady (s : State) (src : Nat) : Bool :=
  (s.evtCfg src).1 && s.f (R.EVT_STAT_PEND src) == 1 && s.f (R.EVT_STAT_HELD src) == 0
    && s.f (R.EVT_STAT_ACTIVE src) == 0

/-- Free entries of a holder's holding list, arrivals on the way counted (R143, R328). -/
def State.holderFree (s : State) (hd : Nat) : Bool :=
  let out := (s.arrivals.filter (fun a => a.holder == hd)).length
  if hd < 512 then (s.core hd).held.length + out < 32 else (s.keeper (hd - 512)).held.length + out < 16

/-- R531: a self-test of tile `t`'s arrays or Cuff is in progress. -/
def State.tileTest (s : State) (t : Nat) : Bool :=
  s.cmds.any (fun e => match e.2 with
    | some c => c.d.op == 0x25 && decide (c.phase > 0) && (c.d.p.getD 0 0 == 1 || c.d.p.getD 0 0 == 2) && c.d.p.getD 1 0 == t
    | none => false)

/-- R392: the holder can take a presentation: its tile not in a hand-over or self-test; a keeper that is not stopped. To a tile
that sleeps it is a wake (R488), and the arrival waits at the tile's Seam (R85). -/
def State.holderOpen (s : State) (hd : Nat) : Bool :=
  if hd < 512 then s.f (R.CUF_STAT_HANDOVER (hd / 2)) == 0 && !(s.tileTest (hd / 2))
  else s.f (R.HIV_KSTAT_STATE (hd - 512)) == 1

/-- Every source whose PEND is set. -/
def State.pendSrcs (s : State) : List Nat :=
  (s.csr.filter (fun e =>
    let a := e.1 / 128
    e.1 % 128 == 0 && 0x400000 ≤ a && a < 0x420000 && a % 16 == 8 && e.2 == 1)).map
      (fun e => (e.1 / 128 - 0x400000) / 16)

/-- R392: no other ready source of the same holder goes first: higher priority, then lower number. -/
def State.evtFirst (s : State) (src hd : Nat) : Bool :=
  let pri (x : Nat) : Nat := (s.evtCfg x).2.2.1
  s.pendSrcs.all (fun x => x == src || !(s.evtReady x) || s.evtHolder x != some hd
    || pri x < pri src || (pri x == pri src && src < x))

/-- R381, R391, R392: present a source at its target. -/
def execPresentation (src : Nat) (s : State) : Out :=
  match s.evtHolder src with
  | some hd =>
    whenOk (s.evtReady src && s.holderFree hd && s.holderOpen hd && s.evtFirst src hd) s
      (let h : Held := ⟨src, (s.evtCfg src).2.2.1, s.f (R.EVT_OWN_OWNER src)⟩
       let s1 := s.setFs [(R.EVT_STAT_PEND src, 0), (R.EVT_STAT_HELD src, 1), (R.EVT_STAT_HOLDER src, hd)]
       { s1.dpend h.dom with arrivals := s1.arrivals ++ [⟨hd, h⟩] })
  | none => turnedAway s

/-- R143, R85: an arrival enters the holding list of its core or keeper and may end a WAITEV (R148). -/
def execEventArrival (src : Nat) (s : State) : Out :=
  match s.arrivals.find? (fun a => a.h.src == src) with
  | some a =>
    let s1 := { s with arrivals := s.arrivals.erase a }
    if a.holder < 512 then
      whenOk (s.tileRuns (a.holder / 2) && decide ((s.core a.holder).held.length < 32)) s
        ((s1.updCore a.holder (fun k => { k with held := k.held ++ [a.h] })).wakeCore a.holder)
    else
      let h := a.holder - 512
      whenOk (s.f (R.HIV_KSTAT_STATE h) == 1) s
        ((s1.setKeeper h { s1.keeper h with held := (s1.keeper h).held ++ [a.h] }).wakeKeeper h)
  | none => turnedAway s

def execEvtTrig (src : Nat) (s : State) : Out := .next (s.softTrig (src % 8192))

/-- R43, R389, R390: a store of value `v` to TRIG of page `n` by a requester of domain `dom`. The second part: accepted
(R43). -/
def State.tpgTrig (s : State) (n dom v : Nat) : State × Bool :=
  let own := s.f (R.EVT_TPG_OWNER n)
  let src := v % 8192
  if dom ≠ 0 ∧ dom ≠ own then (s, false)
  else if src < 1024 then (s.softTrig src, true)
  else if s.f (R.EVT_OWN_OWNER src) ≠ own then (s.incSat (R.EVT_TPG_BAD n), true)
  else (s.trigger src, true)

def execTrig (n dom v : Nat) (s : State) : Out := whenOk (decide (n < 2048)) s (s.tpgTrig n dom v).1

/-- R389: PEND written 1. -/
def execPendSet (src : Nat) (s : State) : Out := whenOk (decide (src < 8192)) s (s.trigger src)
/-- R394 CLRP. -/
def State.clrPend (s : State) (src : Nat) : State :=
  let s1 := s.setF (R.EVT_STAT_PEND src) 0
  s1.dpend (s1.f (R.EVT_OWN_OWNER src))
def execClrp (src : Nat) (s : State) : Out := whenOk (decide (src < 8192)) s (s.clrPend src)
/-- R394 CAUSE: a 1 clears (R15). -/
def State.clrCause (s : State) (src mask : Nat) : State :=
  let v := s.f (R.EVT_STAT_CAUSE src)
  s.setF (R.EVT_STAT_CAUSE src) (v - (v &&& mask))
def execCauseClear (src mask : Nat) (s : State) : Out :=
  whenOk (decide (src < 1024)) s (s.clrCause src mask)

/-- R383, R388, R387, R29: a write of EVT_CFG[src]. -/
def State.evtCfgWrite (s : State) (src v : Nat) : State :=
  let tk := bits v 1 2
  let tgt := bits v 8 11
  if s.deadSource src then s
  else
    let bad := src < 512 || (tk == 0 && (tgt > 511 || s.fused (tgt / 2))) || (tk == 1 && tgt > 31)
      || (tk == 1 && s.f (R.EVT_OWN_OWNER src) != 0)
    if bad then s.setFs [(R.EVT_ERR_BADTGT, 1), (R.EVT_ERR_SRC, src)]
    else
      let s1 := s.setFs [(R.EVT_CFG_EN src, bits v 0 1), (R.EVT_CFG_TKIND src, tk),
        (R.EVT_CFG_RMT src, if src < 1024 then 0 else bits v 3 1), (R.EVT_CFG_PRI src, bits v 4 4),
        (R.EVT_CFG_TARGET src, tgt)]
      s1.dpend (s1.f (R.EVT_OWN_OWNER src))
def execEvtCfgWrite (src v : Nat) (s : State) : Out := whenOk (decide (src < 8192)) s (s.evtCfgWrite src v)

/-- R384, R395. -/
def State.evtDesigWrite (s : State) (d v : Nat) : State :=
  s.setFs [(R.EVT_DESIG_CORE d, bits v 0 9), (R.EVT_DESIG_V d, bits v 9 1)]
def execEvtDesigWrite (d v : Nat) (s : State) : Out := whenOk (decide (d < 4096)) s (s.evtDesigWrite d v)
/-- R395: a write of EVT_TPG also sets BAD to zero. -/
def State.evtTpgWrite (s : State) (n v : Nat) : State :=
  s.setFs [(R.EVT_TPG_OWNER n, bits v 0 12), (R.EVT_TPG_BAD n, 0)]
def execEvtTpgWrite (n v : Nat) (s : State) : Out := whenOk (decide (n < 2048)) s (s.evtTpgWrite n v)

/-! ### Interrupts of a P-core -/

/-- The core may take interrupts: it runs, and no instruction that has reached its commit point is unfinished (R67, R83, R84). -/
def State.intrReady (s : State) (c : Nat) : Bool :=
  let k := s.core c
  decide (c < 512) && s.tileRuns (c / 2) && k.run && !k.stopped && !k.waitev && !k.commit && k.wait.isNone && k.parked.isNone
    && k.mark.isNone

/-- R83: an event or timer that may be taken is recognised; what has not reached its commit point is squashed. -/
def execInterruptRecognition (c : Nat) (s : State) : Out :=
  let k := s.core c
  whenOk (decide (c < 512) && s.tileRuns (c / 2) && k.run && !k.stopped && !k.waitev && !k.recog
      && (s.intrOf c).isSome) s
    (s.updCore c (fun k => { k.squash with recog := true }))

/-- R133, R145, R146: the recognised interrupt is taken at the boundary. -/
def execInterruptEntry (c : Nat) (s : State) : Out :=
  if !(s.intrReady c && (s.core c).recog) then turnedAway s
  else
    let s1 := s.updCore c (fun k => { k with recog := false })
    match s1.intrOf c with
    | some (m, code) =>
      .next ((s1.updCore c (fun k => { k.enter m { code := code, intr := true } k.pc with halt := false })).haltFlag (c / 2))
    | none => .next s1

/-- R140, R142, R148: the M (`m`) or S comparator of core `c` matches: a core in WAITEV goes on. -/
def execTimerMatch (c : Nat) (m : Bool) (s : State) : Out :=
  whenOk (decide (c < 512) && s.tileRuns (c / 2) && s.timerPend (s.core c) m) s (s.wakeCore c)

/-- R323, R328: the keeper's comparator. -/
def execKeeperTimerMatch (h : Nat) (s : State) : Out :=
  whenOk (decide (h < 32) && s.f (R.HIV_KSTAT_STATE h) == 1 && s.kTimer (s.keeper h)) s (s.wakeKeeper h)

/-- R328, R329: keeper `h` takes the timer or event interrupt at an issue boundary outside a delay slot. -/
def execKeeperInterrupt (h : Nat) (s : State) : Out :=
  let k := s.keeper h
  let k0 := { k with recog := false }
  if !(decide (h < 32) && s.f (R.HIV_KSTAT_STATE h) == 1 && k.wait.isNone && !k.waitev && !s.isFatal) then turnedAway s
  else
    match s.kIntr k with
    | some code => .next (s.setKeeper h (k0.enter { code := code, intr := true } false))
    | none => if k.recog then .next (s.setKeeper h k0) else turnedAway s

end Sys2Proof.Machine
end

