-- ==== Sys2Proof/Machine/HostOut.lean ====
section
/-! DEFINITION. The host endpoint's outbound side (R182, R184, R403, R406 to R412) and its state of containment, shared
by every agent that reaches the host. -/

namespace Sys2Proof.Machine
open Sys2Proof

/-! ### Configuration space (R397 to R399; the register layouts are those of the PCI Express specification R396 names) -/

/-- Reset values of configuration dwords. -/
def State.cfgReset (s : State) (o : Nat) : Nat :=
  match o with
  | 0x00 => 0x1F4B + (if s.f R.BOOT_PART_CODE = 1 then 0x0448 else 0x0512) * 2 ^ 16
  | 0x04 => 0x0010_0000
  | 0x08 => 0x1200_0000 + Config.siliconRev % 256
  | 0x10 => 0x4
  | 0x18 => 0xC
  | 0x2C => 0x1F4B
  | 0x34 => 0x40
  | 0x40 => 0x0002_8010
  | 0x44 => 0x1000_8002
  | 0x48 => 0x2810
  | 0x4C => 0x106
  | 0x64 => 0x3_0000
  | 0x6C => 0x7E
  | 0x80 => 0x0003_9001
  | 0x84 => 0x8
  | 0x90 => 0x07FF_0011
  | 0x94 => 0x0B0_0000
  | 0x98 => 0x0B0_8000
  | 0x100 => 0x1482_0001
  | 0x108 => 0
  | 0x10C => 0x0046_2030
  | 0x114 => 0x2000
  | 0x148 => 0x1581_0003
  | 0x14C => Config.serialNumber % 2 ^ 32
  | 0x150 => Config.serialNumber / 2 ^ 32 % 2 ^ 32
  | 0x158 => 0x1801_0019
  | 0x180 => 0x1901_0025
  | 0x190 => 0x1C01_0026
  | 0x1C0 => 0x1E01_002A
  | 0x1E0 => 0x2001_0031
  | 0x200 => 0x4001_0027
  | _ => 0
def State.cfgGet (s : State) (o : Nat) : Nat := (Tbl.get none s.cfg o).getD (s.cfgReset o)
def State.cfgSet (s : State) (o v : Nat) : State := { s with cfg := Tbl.set none s.cfg o (some (v % 2 ^ 32)) }

def State.mse (s : State) : Bool := bitOf (s.cfgGet 0x04) 1
def State.bme (s : State) : Bool := bitOf (s.cfgGet 0x04) 2
def State.d3 (s : State) : Bool := bits (s.cfgGet 0x84) 0 2 == 3
def State.msixOn (s : State) : Bool := bitOf (s.cfgGet 0x90) 31 && !(bitOf (s.cfgGet 0x90) 30)
def State.contained (s : State) : Bool := s.f R.HEP_DV_STAT_STATE != 0
def State.inFlr (s : State) : Bool := s.f R.HEP_STAT_FLR == 1

/-- R413: an error handled per request is logged as an Advisory Non-Fatal Error: its bit of the uncorrectable status and
bit 13 of the correctable status (AER layout of the PCI Express specification). -/
def State.aerAdvisory (s : State) (bit : Nat) : State :=
  (s.cfgSet 0x104 (setBit (s.cfgGet 0x104) bit)).cfgSet 0x110 (setBit (s.cfgGet 0x110) 13)

/-- R408: Max_Payload_Size and Max_Read_Request_Size in bytes, from Device Control. -/
def State.mps (s : State) : Nat := min 512 (128 * 2 ^ bits (s.cfgGet 0x48) 5 3)
def State.mrrs (s : State) : Nat := min 4096 (128 * 2 ^ bits (s.cfgGet 0x48) 12 3)

/-! ### Outbound requests -/

/-- R409, first two rows: the SUB with which every request now ends. -/
def State.hepRefuse (s : State) : Option Nat :=
  if s.contained then some 0 else if !s.bme || s.d3 then some 3 else none

/-- R409: the SUB with which a request to host aperture address `pa` (or an untranslated one, none) ends unsent. -/
def State.outRefuse (s : State) (pa : Option Nat) : Option Nat :=
  match s.hepRefuse with
  | some x => some x
  | none =>
    if s.inFlr then some 2
    else match pa with
      | none => none
      | some a =>
        let w := bits a 32 8
        if s.f (R.HEP_OWIN_V w) = 0 ∨ bits a 0 32 ≥ 2 ^ s.f (R.HEP_OWIN_LOG2SZ w) then some 2 else none

/-- R410, R416: what travels to the tiles; a release is told while STATE is RELEASING. -/
def State.hepTold (s : State) : Option Nat :=
  if s.f R.HEP_DV_STAT_STATE = 1 then some 0 else if !s.bme || s.d3 then some 3 else none
/-- `s1` follows `s`: a change of what the tiles are told starts on its way now. -/
def State.hepChange (s s1 : State) : State :=
  if s1.hepTold = s.hepTold then s1 else { s1 with hepWas := s.hepTold, hepAt := s1.ns }
/-- R410: the refusal as a tile or keeper knows it: within 200 ns of a change the old or the new, unspecified which. -/
def State.tileKnows (s : State) : Option Nat × State :=
  if s.ns < s.hepAt + 200 then
    (if s.freeVal % 2 = 0 then s.hepWas else s.hepTold, s.tickFree)
  else (s.hepTold, s)

/-- Not a SUB: the DMA request of an agent that does not translate lay outside the host aperture (R49). It never reaches
the endpoint. -/
def subREGION : Nat := 4
/-- R49: [pa, pa + len) lies in the host aperture. -/
def inHost (pa len : Nat) : Bool := regionOf pa == .host && regionOf (pa + (len - 1)) == .host

/-- R409, R420, R421: an outbound request has ended with `sub`. -/
def State.outErr (s : State) (sub : Nat) : State :=
  if sub = subREGION then s
  else
    let s1 := s.incSat R.HEP_OUT_ERR_COUNT
    if sub = 0 then s1.incSat R.HEP_DV_OUTERR_COUNT else s1

/-- R406: the host address of a host aperture address. -/
def State.hostAddr (s : State) (a : Nat) : Nat :=
  (s.f (R.HEP_OWIN_BASE (bits a 32 8)) * 4096 + bits a 0 32) % 2 ^ 64
def State.outNs (s : State) (a : Nat) : Bool :=
  s.f (R.HEP_OWIN_NS (bits a 32 8)) == 1 && bitOf (s.cfgGet 0x48) 11

/-- R411: T in ns. -/
def State.cto (s : State) : Nat := min 50000 (max 50 (s.f R.HEP_CTO_US)) * 1000

def State.freeHTag (s : State) : Option Nat :=
  (List.range 512).find? (fun t => !(s.htags.any (·.tag == t)) && !(s.hquar.any (·.1 == t)))

def State.hepTags (s : State) : State :=
  s.setFs [(R.HEP_TAGS_INUSE, s.htags.length), (R.HEP_TAGS_QUAR, s.hquar.length)]

/-- R182: a TLP is transmitted, with Relaxed Ordering and ID-Based Ordering 0. -/
def State.transmit (s : State) (b : TlpBody) : State := { s with tx := s.tx ++ [({ body := b, ro := false, ido := false } : Tlp)] }

/-- R184, R408: transmit from the head of the queue in order; a read without a free tag holds everything behind it. -/
def pumpOut : Nat → State → State
  | 0, s => s
  | n + 1, s =>
    match s.outq with
    | [] => s
    | q :: rest =>
      if q.write then pumpOut n (({ s with outq := rest } : State).transmit (.req q 0))
      else
        match s.freeHTag with
        | none => s
        | some t => pumpOut n (({ s with outq := rest, htags := s.htags ++ [⟨t, q, s.ns + s.cto⟩] } : State).transmit (.req q t))
def State.pumpHost (s : State) : State := (pumpOut s.outq.length s).hepTags

/-- R49, R407, R409: an access to the host aperture at `pa`: accepted and translated, or refused with a SUB, or not
performed at all because it lies outside the aperture. -/
def State.hostAccess (s : State) (orig : HOrig) (write : Bool) (pa len : Nat) (data : List Nat) : State ⊕ Nat :=
  if !(inHost pa len) then .inr subREGION
  else match s.outRefuse (some pa) with
  | some x => .inr x
  | none => .inl ({ s with outq := s.outq ++ [(⟨orig, write, s.hostAddr pa, len, data, s.outNs pa⟩ : OutReq)] }).pumpHost

/-- A posted write to the host aperture: a refusal discards and counts it (R409, R129). -/
def State.hostPost (s : State) (orig : HOrig) (pa len : Nat) (data : List Nat) : State :=
  match s.hostAccess orig true pa len data with
  | .inl s1 => s1
  | .inr sub => s.outErr sub

/-! ### MSI-X (R393, R403) -/

/-- The message of vector `v` may be sent now. -/
def State.msixOpen (s : State) (v : Nat) : Bool :=
  s.msixOn && !(Tbl.get {} s.msix v).mask && s.outRefuse none == none

/-- R381, R393: a source of TKIND 3 whose message may be sent now. -/
def State.msixReady (s : State) (src : Nat) : Bool :=
  decide (512 ≤ src ∧ src < 8192) && s.f (R.EVT_CFG_TKIND src) == 3 && s.evtReady src && s.msixOpen (s.f (R.EVT_CFG_TARGET src))

/-- R393: a pending source of TKIND 3 is delivered as its vector's message, highest priority first; it stays pending until the
outbound queue can transmit it (R184, R409). -/
def execMsixMessage (src : Nat) (s : State) : Out :=
  let v := s.f (R.EVT_CFG_TARGET src)
  let e := Tbl.get {} s.msix v
  whenOk (s.msixReady src && s.outq.isEmpty
      && s.pendSrcs.all (fun x => !(s.msixReady x) || decide (s.f (R.EVT_CFG_PRI x) ≤ s.f (R.EVT_CFG_PRI src)))) s
    (let s1 := s.setF (R.EVT_STAT_PEND src) 0
     let s2 := s1.dpend (s1.f (R.EVT_OWN_OWNER src))
     ({ s2 with outq := s2.outq ++
        [(⟨.msix src, true, e.addr + e.upper * 2 ^ 32, 4, leBytes 4 e.data, false⟩ : OutReq)] }).pumpHost)

end Sys2Proof.Machine
end

