-- ==== Sys2Proof/Machine/Fabric.lean ====
section
/-! DEFINITION. Flamon ports, frames, transit, holds and the fabric's own registers (R454 to R463, R473 to R481). -/

namespace Sys2Proof.Machine
open Sys2Proof

def State.raiseFab (s : State) (bit : Nat) : State := s.raise 1004 bit
def State.badPkt (s : State) : State := (s.incSat R.FAB_BADPKT_COUNT).raiseFab 4

/-- R460: the types that exist. -/
def tyKnown (t : Nat) : Bool := (1 ≤ t && t ≤ 5) || (8 ≤ t && t ≤ 12)

/-- R461: a request dropped here after `hops` hops is answered ROUTE_UNAVAIL; a dropped reply is only counted. -/
def State.dropPkt (s : State) (k : Pkt) (hops : Nat) : State :=
  if k.isReply then s.incSat R.FAB_BADPKT_COUNT
  else
    let r := { (k.reply hops tyRUN s.ownDev) with op := 6 }
    if hops = 0 ∧ k.srcDev = s.ownDev then { s with fabIn := s.fabIn ++ [r] } else s.sendReply r false

/-- R461: a bad or misrouted packet is dropped. -/
def State.dropBad (s : State) (k : Pkt) (hops : Nat) : State := if k.isReply then s.badPkt else s.badPkt.dropPkt k hops

/-- R458, R460, R461: a packet whole at port `p`. -/
def State.arrive (s : State) (p : Nat) (k : Pkt) : State :=
  if s.f R.FAB_DEVNUM_LOCK = 0 ∨ !(tyKnown k.ty) ∨ k.ptr = 0 ∨ k.ptr > k.nhop ∨ k.nhop > 24 then s.badPkt
  else
    let k := { k with hop := k.hop.set (k.ptr - 1) p }
    if k.ptr < k.nhop then { s with transit := s.transit ++ [k] }
    else if k.dstDev ≠ s.ownDev then s.dropBad k k.nhop
    else { s with fabIn := s.fabIn ++ [k] }

/-- Flits of the packet that a header flit opens; of an unknown type only the header. -/
def flitsOf (hdr : BitVec 288) : Nat := ({ ty := bits hdr.toNat 142 4 } : Pkt).flits

/-- R456: a flit of VC `v` enters the input buffer; with the last flit of a packet, the packet and its credits. -/
def Port.push (x : Port) (v : Nat) (fl : BitVec 288) : Port × Option Pkt :=
  let cur := ((x.asm.find? (fun a => a.1 == v)).map (·.2)).getD [] ++ [fl]
  let rest := x.asm.filter (fun a => a.1 != v)
  let n := flitsOf (cur.headD 0)
  if cur.length ≥ n then
    ({ x with asm := rest, ret := x.ret.set v (x.ret.getD v 0 + cur.length) }, some (Pkt.ofFlits cur v))
  else ({ x with asm := rest ++ [(v, cur)] }, none)

/-- R455: what an acknowledgement frees. -/
def Port.acked (x : Port) (ack : Nat) : Port :=
  let first := (x.txSeq + 2048 - x.unack.length % 2048) % 2048
  let n := (ack + 2049 - first) % 2048
  if 0 < n ∧ n ≤ x.unack.length then { x with unack := x.unack.drop n, sentAt := x.sentAt.drop n, tries := 0 } else x

/-- R475: packets for a port that is not UP go to its hold; one that finds it full is dropped. -/
def State.holdAll (s : State) (p : Nat) (ks : List Pkt) : State :=
  ks.foldl (fun s k =>
    let x := s.port p
    if x.hold.length ≥ 64 ∨ s.f R.FAB_HOLD_US = 0 then
      ((s.incSat (R.FAB_PORT_DROP_COUNT p)).raise (920 + p) 3).dropPkt k (k.ptr - 1)
    else (s.setPort p { x with hold := x.hold ++ [(k, s.ns)] }).setF (R.FAB_PORT_STAT_HELD p) (x.hold.length + 1)) s

/-- R476: the link of port `p` is lost: DOWN, unacknowledged frames discarded. -/
def State.linkLost (s : State) (p : Nat) : State :=
  let x := s.port p
  let s := s.setPort p { hold := x.hold, out := x.out }
  let s := (s.setFs [(R.FAB_PORT_STAT_STATE p, 0), (R.FAB_PORT_STAT_LANES p, 0)]).incSat (R.FAB_PORT_DOWNS_COUNT p)
  let s := (s.holdAll p x.q).raise (920 + p) 0
  s.record 5 p 1 0x0600 (s.f (R.FAB_PORT_DOWNS_COUNT p)) s.time

/-- R455: resend every unacknowledged frame; after 16 times without progress the link is lost. -/
def State.replay (s : State) (p : Nat) : State :=
  let x := s.port p
  if x.unack.isEmpty then s
  else if x.tries ≥ 16 then s.linkLost p
  else
    let s := s.incSat (R.FAB_PORT_REPLAY_COUNT p)
    let y := { x with unack := [], sentAt := [], txSeq := (x.txSeq + 2048 - x.unack.length % 2048) % 2048, tries := x.tries + 1 }
    let s := s.setPort p ((x.unack.foldl (fun y f => y.emit (s.withhold p) (some f)) y).stamp s.ns)
    if x.tries = 15 then s.raise (920 + p) 4 else s

def portUp (s : State) (p : Nat) : Bool :=
  let st := s.f (R.FAB_PORT_STAT_STATE p)
  decide (p < 16) && (st == 2 || st == 3)

/-- R454 to R456: a frame reaches port `p`: its CRC, sequence, acknowledgement, credits and flit. -/
def execFrameReceive (p : Nat) (frame : BitVec 336) (s : State) : Out :=
  if !(portUp s p) then turnedAway s
  else
    let v := frame.toNat
    let x := s.port p
    if bits v 320 16 ≠ frameCrc v then
      .next ((s.setPort p ({ x with nak := true }.emit (s.withhold p) none)).incSat (R.FAB_PORT_CRC_COUNT p))
    else
      let x := x.acked (bits v 302 11)
      let cv := bits v 314 2
      let x := { x with cred := x.cred.set cv (min 32 (x.cred.getD cv 0 + bits v 316 4)) }
      let s1 := s.setPort p x
      let s1 := if v.testBit 313 then s1.replay p else s1
      let x := s1.port p
      let s2 :=
        if !(v.testBit 290) then s1
        else if bits v 291 11 ≠ x.rxSeq then s1.setPort p { x with nak := true }
        else
          let (y, pk) := { x with rxSeq := (x.rxSeq + 1) % 2048 }.push (bits v 288 2) (frame.truncate 288)
          let s2 := (s1.setPort p y).incSat (R.FAB_PORT_RXF_COUNT p)
          match pk with
          | some k => s2.arrive p k
          | none => s2
      let s3 := if s2.f (R.FAB_PORT_STAT_STATE p) = 2 then s2.pump p else s2
      .next (s3.setPort p ((s3.port p).emit (s3.withhold p) none))

def execNak (p : Nat) (s : State) : Out := whenOk (portUp s p && !(s.port p).unack.isEmpty) s (s.replay p)
/-- R455: the oldest frame has had no acknowledgement for 1,024 link cycles (384 ns). -/
def execReplayTimeout (p : Nat) (s : State) : Out :=
  whenOk (portUp s p && !(s.port p).unack.isEmpty && decide ((s.port p).sentAt.headD 0 + 384 ≤ s.ns)) s (s.replay p)

def execLinkLoss (p : Nat) (s : State) : Out :=
  whenOk (decide (p < 16) && s.f (R.FAB_PORT_STAT_STATE p) != 0) s
    (let s1 := s.linkLost p
     if s1.f (R.FAB_PORT_CTL_EN p) = 1 then s1.setF (R.FAB_PORT_STAT_STATE p) 1 else s1)

/-- Held packets leave first, in their order (R474, R476). -/
def State.releaseHold (s : State) (p : Nat) : State :=
  let x := s.port p
  ((s.setPort p { x with hold := [], q := x.hold.map (·.1) ++ x.q, first := x.hold.length }).setF (R.FAB_PORT_STAT_HELD p) 0).pump p

/-- R473, R476: training ends: UP, or DRAINED where DRAIN stands. -/
def execLinkUp (p : Nat) (s : State) : Out :=
  let st := s.f (R.FAB_PORT_STAT_STATE p)
  whenOk (decide (p < 16) && s.f (R.FAB_PORT_CTL_EN p) == 1 && (st == 0 || st == 1)) s
    (let s1 := s.setF (R.FAB_PORT_STAT_LANES p) 8
     if s.f (R.FAB_PORT_CTL_DRAIN p) = 1 then s1.setF (R.FAB_PORT_STAT_STATE p) 4
     else ((s1.raise (920 + p) 1).setF (R.FAB_PORT_STAT_STATE p) 2).releaseHold p)

/-- R457, R461, R463: the oldest packet in transit leaves for its next port. -/
def execTransitForward (s : State) : Out :=
  match s.transit with
  | [] => turnedAway s
  | k :: rest =>
    let s1 := { s with transit := rest }
    let out := k.hop.getD k.ptr 0
    if out ≥ 16 then .next (s1.dropBad k k.ptr)
    else
      let (s2, dropped) := s1.portSend out (some (k.hop.getD (k.ptr - 1) 0)) k
      .next (if dropped then s2.dropPkt k k.ptr else s2)

/-! ### Drain, retraining, holds (R474 to R476) -/

/-- R474: in a drain, packets for this output go to its hold, those that wait for credits among them. -/
def State.drainWrite (s : State) (p : Nat) : State :=
  let s1 := s.setF (R.FAB_PORT_CTL_DRAIN p) 1
  if s.f (R.FAB_PORT_STAT_STATE p) = 2 then
    let s2 := s1.setF (R.FAB_PORT_STAT_STATE p) 3
    let x := s2.port p
    if x.q.isEmpty then s2 else (s2.setPort p { x with q := [], first := 0 }).holdAll p x.q
  else s1
def execDrain (p : Nat) (s : State) : Out := whenOk (decide (p < 16)) s (s.drainWrite p)

def execDrainDone (p : Nat) (s : State) : Out :=
  let x := s.port p
  whenOk (decide (p < 16) && s.f (R.FAB_PORT_STAT_STATE p) == 3 && x.unack.isEmpty && x.asm.isEmpty) s
    ((s.setF (R.FAB_PORT_STAT_STATE p) 4).raise (920 + p) 2)

def State.undrainWrite (s : State) (p : Nat) : State :=
  let s1 := s.setF (R.FAB_PORT_CTL_DRAIN p) 0
  if s.f (R.FAB_PORT_STAT_STATE p) = 4 then (s1.setF (R.FAB_PORT_STAT_STATE p) 2).releaseHold p else s1
def execUndrain (p : Nat) (s : State) : Out := whenOk (decide (p < 16)) s (s.undrainWrite p)

def State.retrainWrite (s : State) (p : Nat) : State :=
  if s.f (R.FAB_PORT_STAT_STATE p) = 4 then s.setFs [(R.FAB_PORT_STAT_STATE p, 1), (R.FAB_PORT_STAT_LANES p, 0)] else s
def execRetrain (p : Nat) (s : State) : Out := whenOk (decide (p < 16)) s (s.retrainWrite p)

/-- R481: EN = 0 holds the port DOWN; EN = 1 lets it train. -/
def State.portEnWrite (s : State) (p : Nat) (en : Bool) : State :=
  let s1 := s.setF (R.FAB_PORT_CTL_EN p) (b2n en)
  if en then (if s.f (R.FAB_PORT_STAT_STATE p) = 0 then s1.setF (R.FAB_PORT_STAT_STATE p) 1 else s1)
  else if s.f (R.FAB_PORT_STAT_STATE p) = 0 then s1 else s1.linkLost p
def execFabPortCtlEn (p : Nat) (en : Bool) (s : State) : Out := whenOk (decide (p < 16)) s (s.portEnWrite p en)

/-- R475: the oldest held packet of port `p` has stood FAB_HOLD.US and is dropped. -/
def execHoldExpiry (p : Nat) (s : State) : Out :=
  let x := s.port p
  match x.hold with
  | [] => turnedAway s
  | (k, at_) :: rest =>
    whenOk (decide (at_ + s.f R.FAB_HOLD_US * 1000 ≤ s.ns)) s
      ((((s.setPort p { x with hold := rest }).setF (R.FAB_PORT_STAT_HELD p) rest.length).incSat
        (R.FAB_PORT_DROP_COUNT p)).raise (920 + p) 3 |>.dropPkt k (k.ptr - 1))

/-! ### Registers -/

/-- R458: NUM until LOCK is set. -/
def State.devnumWrite (s : State) (v : Nat) : State :=
  let s1 := if s.f R.FAB_DEVNUM_LOCK = 1 then s else s.setF R.FAB_DEVNUM_NUM (bits v 0 18)
  if v.testBit 31 then s1.setF R.FAB_DEVNUM_LOCK 1 else s1
def execFabDevnumWrite (v : W32) (s : State) : Out := .next (s.devnumWrite v.toNat)

/-- R480. -/
def State.rtIdxWrite (s : State) (v : Nat) : State :=
  let i := bits v 0 18
  s.setFs [(R.FAB_RT_IDX_IDX, i), (R.FAB_RT_DATA_ENTRY, Tbl.get 0 s.routes i)]
def execFabRtIdxWrite (v : W32) (s : State) : Out := .next (s.rtIdxWrite v.toNat)

/-- The value of a word from its fields. -/
def State.wordOf (s : State) (fs : List Fld) : Nat := fs.foldl (fun a x => a + s.f x * 2 ^ x.lo) 0
/-- Set every field of a word. -/
def State.setWordOf (s : State) (fs : List Fld) (v : Nat) : State := fs.foldl (fun s x => s.setF x (bits v x.lo x.w)) s

def State.stagedAt (s : State) (o : Nat) : Option Nat := Tbl.get none s.staged o
def State.stage (s : State) (o : Nat) (v : Option Nat) : State := { s with staged := Tbl.set none s.staged o v }

def rwin1 (n : Nat) : List Fld :=
  [R.FAB_RWIN_V n, R.FAB_RWIN_R n, R.FAB_RWIN_W n, R.FAB_RWIN_A n, R.FAB_RWIN_D0 n, R.FAB_RWIN_LOG2SZ n,
   R.FAB_RWIN_BASE n, R.FAB_RWIN_SRCDEV n]
def rwin2 (n : Nat) : List Fld := [R.FAB_RWIN2_SRCEP n, R.FAB_RWIN2_DOM n]

/-- R465: a write of `size` bytes at byte `o` of window entry `n`: staged, or the whole entry applied. -/
def State.rwinWrite (s : State) (n o size v : Nat) : State :=
  let key := 0x920000 + 16 * n
  let lo (v : Nat) := v % 2 ^ 32
  let hi (v : Nat) := v / 2 ^ 32 % 2 ^ 32
  let cur1 := s.wordOf (rwin1 n)
  let cur2 := s.wordOf (rwin2 n)
  let apply (w0 w1 : Nat) : State :=
    let w2 := (s.stagedAt (key + 8)).getD (lo cur2)
    let w3 := (s.stagedAt (key + 12)).getD (hi cur2)
    let s1 := (s.setWordOf (rwin1 n) (w0 + w1 * 2 ^ 32)).setWordOf (rwin2 n) (w2 + w3 * 2 ^ 32)
    ((s1.stage key none).stage (key + 8) none).stage (key + 12) none
  if o = 0 ∧ size = 8 then apply (lo v) (hi v)
  else if o = 4 ∧ size = 4 then apply ((s.stagedAt key).getD (lo cur1)) (lo v)
  else if size = 8 then (s.stage (key + 8) (some (lo v))).stage (key + 12) (some (hi v))
  else s.stage (key + o) (some (lo v))
def execFabRwinWrite (n o size : Nat) (v : W64) (s : State) : Out :=
  whenOk (decide (n < 256) && ((size == 4 && (o == 0 || o == 4 || o == 8 || o == 12)) || (size == 8 && (o == 0 || o == 8)))) s
    (s.rwinWrite n o size v.toNat)

/-- R479. -/
def State.fabClr (s : State) : State :=
  s.setFs [(R.FAB_TMO_COUNT, 0), (R.FAB_LATE_COUNT, 0), (R.FAB_RUNAV_COUNT, 0), (R.FAB_POSTERR_COUNT, 0),
    (R.FAB_INBREF_COUNT, 0), (R.FAB_BADPKT_COUNT, 0)]
def execFabClr (s : State) : Out := .next s.fabClr
/-- R481. -/
def State.fabPortClr (s : State) (p : Nat) : State :=
  s.setFs [(R.FAB_PORT_CRC_COUNT p, 0), (R.FAB_PORT_REPLAY_COUNT p, 0), (R.FAB_PORT_DROP_COUNT p, 0),
    (R.FAB_PORT_DOWNS_COUNT p, 0), (R.FAB_PORT_TXF_COUNT p, 0), (R.FAB_PORT_RXF_COUNT p, 0)]
def execFabPortClr (p : Nat) (s : State) : Out := whenOk (decide (p < 16)) s (s.fabPortClr p)

end Sys2Proof.Machine
end

