-- ==== Sys2Proof/Machine/Mesh.lean ====
section
/-! DEFINITION. The Comb: routers, route tables and port enables (R269 to R281). The quiesce and release commands stand
with the mode changes. -/

namespace Sys2Proof.Machine
open Sys2Proof

/-! ### Header flits (R269) -/

/-- The fields of a header flit, SEG in [47:0], EXIT [50:48], SP [53:51], LEFT [57:54], NEXTP [60:58], VN [62:61], FLITS
[63]. -/
structure Hdr where
  seg   : Nat
  exit  : Nat
  sp    : Nat
  left  : Nat
  nextp : Nat
  vn    : Nat
  flits : Nat
  deriving DecidableEq, Repr

def hdrOf (w : W64) : Hdr :=
  let v := w.toNat
  ⟨bits v 0 48, bits v 48 3, bits v 51 3, bits v 54 4, bits v 58 3, bits v 61 2, bits v 63 1⟩
def hdrWord (x : Hdr) : W64 :=
  BitVec.ofNat 64 (x.seg % 2 ^ 48 + x.exit % 8 * 2 ^ 48 + x.sp % 8 * 2 ^ 51 + x.left % 16 * 2 ^ 54
    + x.nextp % 8 * 2 ^ 58 + x.vn % 4 * 2 ^ 61 + x.flits % 2 * 2 ^ 63)

/-- The LEN and DIR of segment `i`. -/
def segLen (seg i : Nat) : Nat := if i < 8 then bits seg (6 * i) 4 else 0
def segDir (seg i : Nat) : Nat := bits seg (6 * i + 4) 2

/-- R270: a header flit at a router: LEFT counts down, SP moves on, and the port at the next router is worked out. The
output of this router is NEXTP as it came. -/
def Hdr.forward (x : Hdr) : Hdr :=
  if x.nextp = 0 ∨ segLen x.seg x.sp = 0 then x
  else
    let left := x.left - 1
    let sp := if left = 0 then x.sp + 1 else x.sp
    let left := if left = 0 then segLen x.seg sp else left
    { x with sp := sp, left := left, nextp := if segLen x.seg sp = 0 then x.exit else segDir x.seg sp + 1 }

/-- The header of a packet as an NI injects it on a route. -/
def hdrInject (seg exit vn flits : Nat) : Hdr :=
  ⟨seg, exit, 0, segLen seg 0, if segLen seg 0 = 0 then exit else segDir seg 0 + 1, vn, flits⟩

/-- R271: credits of an input buffer. -/
def vnCredits (vn : Nat) : Nat := if vn = 2 then 4 else 2

/-- The router one link away through mesh port `p` (1 north, 2 east, 3 south, 4 west), if there is one. -/
def nbr (n p : Nat) : Option Nat :=
  let x := tileX n
  let y := tileY n
  match p with
  | 1 => if y > 0 then some (tileAt x (y - 1)) else none
  | 2 => if x < 15 then some (tileAt (x + 1) y) else none
  | 3 => if y < 15 then some (tileAt x (y + 1)) else none
  | 4 => if x > 0 then some (tileAt (x - 1) y) else none
  | _ => none
/-- R26: the link of port `p` crosses a chiplet boundary. -/
def atBoundary (n p : Nat) : Bool :=
  match p with
  | 1 => tileY n % 4 == 0
  | 2 => tileX n == 7
  | 3 => tileY n % 4 == 3
  | 4 => tileX n == 8
  | _ => false
def oppPort (p : Nat) : Nat := match p with | 1 => 3 | 2 => 4 | 3 => 1 | 4 => 2 | q => q

def State.portLive (s : State) (n p : Nat) : Bool := bitOf (s.f (R.TIL_RTR_STAT_ACTIVE n)) p
def inKey (n p vn : Nat) : Nat := (n * 8 + p) * 4 + vn
/-- R26, R271: the flits of one VN that the input port holds, with those of a boundary Seam before it (8 on each side). -/
def inCap (n p vn : Nat) : Nat := vnCredits vn + (if (nbr n p).isSome && atBoundary n p then 16 else 0)
def MPkt.flits (k : MPkt) : Nat := 1 + b2n k.d.isSome
def State.meshQ (s : State) (n p vn : Nat) : List MPkt := Tbl.get [] s.meshIn (inKey n p vn)
def State.setMeshQ (s : State) (n p vn : Nat) (q : List MPkt) : State :=
  { s with meshIn := Tbl.set [] s.meshIn (inKey n p vn) q }
/-- R271: credits for a whole packet are held at input `p` of router `n`. -/
def State.roomAt (s : State) (n p vn : Nat) (k : MPkt) : Bool :=
  decide (((s.meshQ n p vn).map MPkt.flits).sum + k.flits ≤ inCap n p vn)

/-- R281: the link that output `o` of router `n` feeds is in effect: its port, and the one at the far end. -/
def State.linkLive (s : State) (n o : Nat) : Bool :=
  s.portLive n o && match nbr n o with | some m => s.portLive m (oppPort o) | none => true
/-- R271: the packet may leave by output `o`: to the next router's buffer, or to the unit attached there, which always has room. -/
def State.canLeave (s : State) (n o vn : Nat) (k : MPkt) : Bool :=
  match nbr n o with | some m => s.roomAt m (oppPort o) vn k | none => true

/-- The packets that want output `o` of router `n` and hold credits: input, VN, and whether a VN0 header has waited 32 mesh
cycles (16 ns). -/
def State.wanting (s : State) (n o : Nat) : List (Nat × Nat × Bool) :=
  (List.range 5).flatMap (fun q => (List.range 3).filterMap (fun v =>
    match s.meshQ n q v with
    | k :: _ => if (hdrOf k.h).nextp = o ∧ s.canLeave n o v k then some (q, v, v == 0 && decide (k.at_ + 16 ≤ s.ns)) else none
    | [] => none))
/-- R272: input `p` with VN `vn` is the one that output `o` serves now: a VN0 header that has waited its time first, else VN2
before VN1 before VN0; within a VN the inputs take turns. -/
def State.wins (s : State) (n o p vn : Nat) : Bool :=
  let all := s.wanting n o
  let aged := all.filter (·.2.2)
  let cls := if aged.isEmpty then all.filter (fun c => c.2.1 == (all.map (·.2.1)).foldl max 0) else aged
  let rank (q : Nat) : Nat := (q + 5 - Tbl.get 0 s.meshRr (inKey n o vn) % 5) % 5
  cls.any (fun c => c.1 == p && c.2.1 == vn) && cls.all (fun c => decide (rank p ≤ rank c.1))

/-- The NI of the agents attached at port `p` of router `n` (R22 to R24). -/
def niAt (n p : Nat) : Option Nat :=
  let x := tileX n
  let y := tileY n
  let row := decide (2 ≤ y ∧ y ≤ 13)
  match p with
  | 0 => some n
  | 1 => if y = 0 ∧ x % 2 = 0 then some (280 + x / 2) else none
  | 2 => if x = 15 && row then some (266 + y) else none
  | 3 => if y = 15 ∧ x % 2 = 0 then some (288 + x / 2) else none
  | 4 => if x = 0 && row then some (254 + y) else none
  | _ => none
/-- R24: an I/O chiplet agent sends through the stop of the destination's column. -/
def stopFits (ni idx : Nat) : Bool := decide (ni < 280 ∨ 280 ≤ idx) || (routeEnd ni idx).1 / 2 == niStop ni

/-- R269, R271, R277, R278, R282: the NI at port `p` of router `n` injects a packet for destination `idx` on VN `vn`, with a data flit
or without: its header is written from the NI's entry, and it waits at the NI while that is not valid, the buffer of the port is
full, or the quiesce stops its VN. -/
def State.flitInject (s : State) (n p vn idx : Nat) (d : Option LineD) : Out :=
  match niAt n p with
  | none => turnedAway s
  | some ni =>
    let (fs, fe, _) := niEntry ni idx
    let k : MPkt := ⟨hdrWord (hdrInject (s.f fs) (s.f fe) vn (b2n d.isSome)), d, s.ns⟩
    if !(decide (idx < 282) && stopFits ni idx && s.routed ni idx) || s.f R.PWR_MESHQ_STATE == 3
        || (vn == 0 && !s.meshRuns) || !(s.roomAt n p vn k) then turnedAway s
    else if !(s.portLive n p) then .next (s.fatalAt n 4 0)
    else .next (s.setMeshQ n p vn (s.meshQ n p vn ++ [k]))

/-- R270 to R273, R280: router `n` takes the first packet of VN `vn` at input `p`: a corrected bit is counted, an uncorrectable flit
(`err` 2) or a port not in effect is a protocol error; where the arbitration gives it the output that NEXTP names, the header
moves on with its next step worked out, and its data flit behind it. -/
def State.flitMove (s : State) (n p vn err : Nat) : Out :=
  match s.meshQ n p vn with
  | [] => turnedAway s
  | k :: rest =>
    let x := hdrOf k.h
    let o := x.nextp
    if err = 2 ∨ !(s.portLive n p) ∨ o > 4 ∨ !(s.linkLive n o) then .next ((s.setMeshQ n p vn rest).fatalAt n 4 0)
    else if !(s.wins n o p vn) then turnedAway s
    else
      let s1 := (if err = 1 then s.incSat (R.TIL_RTR_CORR_COUNT n) else s).setMeshQ n p vn rest
      let s2 : State := { s1 with meshRr := Tbl.set 0 s1.meshRr (inKey n o vn) ((p + 1) % 5) }
      .next (match nbr n o with
        | some m => s2.setMeshQ m (oppPort o) vn (s2.meshQ m (oppPort o) vn ++ [{ k with h := hdrWord x.forward, at_ := s.ns }])
        | none => s2)

/-- A flit at port `p` of router `n`: injected, or forwarded. -/
def execFlitArrival (n p : Nat) (f : FlitOp) (s : State) : Out :=
  if !(decide (n < 256 ∧ p < 5 ∧ f.vn < 3)) then turnedAway s
  else match f.inj with
    | some (idx, d) => s.flitInject n p f.vn idx d
    | none => s.flitMove n p f.vn f.err

/-! ### Route tables (R275 to R278) -/

/-- BADRTE, BADIDX and WHY of an NI. -/
def niStat (ni : Nat) : Fld × Fld × Fld :=
  if ni < 256 then (R.TIL_NI_STAT_BADRTE ni, R.TIL_NI_STAT_BADIDX ni, R.TIL_NI_STAT_WHY ni)
  else if ni < 280 then (R.MEM_NI_STAT_BADRTE (ni - 256), R.MEM_NI_STAT_BADIDX (ni - 256), R.MEM_NI_STAT_WHY (ni - 256))
  else if ni < 288 then (R.HEP_NI_STAT_BADRTE (ni - 280), R.HEP_NI_STAT_BADIDX (ni - 280), R.HEP_NI_STAT_WHY (ni - 280))
  else (R.FAB_NI_STAT_BADRTE (ni - 288), R.FAB_NI_STAT_BADIDX (ni - 288), R.FAB_NI_STAT_WHY (ni - 288))

/-- The segments of a route, in order. -/
def routeSegs (seg : Nat) : List (Nat × Nat) :=
  ((List.range 8).map (fun i => (segDir seg i, segLen seg i))).takeWhile (fun x => x.2 != 0)

/-- R277: segments after the first zero LEN are zero. -/
def segForm (seg : Nat) : Bool := seg % 2 ^ 48 / 2 ^ (6 * ((routeSegs seg).length + 1)) == 0

/-- R277: west first, and no two consecutive segments of equal or opposite direction. -/
def turnsOk : List (Nat × Nat) → Bool
  | a :: b :: r => b.1 != 3 && a.1 % 2 != b.1 % 2 && turnsOk (b :: r)
  | _ => true

def stepXY (d : Nat) (x y : Int) : Int × Int :=
  match d with | 0 => (x, y - 1) | 1 => (x + 1, y) | 2 => (x, y + 1) | _ => (x - 1, y)

/-- The routers of a route, the first included; none beyond the grid. -/
def routePath : List (Nat × Nat) → Int → Int → List (Int × Int)
  | [], _, _ => []
  | (d, l) :: r, x, y =>
    let pts := (List.range l).map (fun i =>
      let k : Int := i + 1
      match d with | 0 => (x, y - k) | 1 => (x + k, y) | 2 => (x, y + k) | _ => (x - k, y))
    let e := pts.getLastD (x, y)
    pts ++ routePath r e.1 e.2
def inGrid (p : Int × Int) : Bool := decide (0 ≤ p.1 ∧ p.1 < 16 ∧ 0 ≤ p.2 ∧ p.2 < 16)

/-- R277: what is wrong with a route (TIL_NI_STAT.WHY), 0 nothing. -/
def routeWhy (ni idx seg exit : Nat) : Nat :=
  let segs := routeSegs seg
  let x0 : Int := (niXY ni).1
  let y0 : Int := (niXY ni).2
  let path := routePath segs x0 y0
  let (ex, ey, ep) := routeEnd ni idx
  if !(segForm seg) then 1
  else if !(turnsOk segs) then 2
  else if !(path.all inGrid) then 3
  else if path.getLastD (x0, y0) ≠ ((ex : Int), (ey : Int)) ∨ exit ≠ ep then 4
  else 0

/-- R277: apply a whole entry, or refuse it. -/
def State.applyRoute (s : State) (ni idx v : Nat) : State :=
  let why := if v.testBit 63 then routeWhy ni idx (bits v 0 48) (bits v 48 3) else 0
  let (fs, fe, fv) := niEntry ni idx
  if why = 0 then s.setFs [(fs, bits v 0 48), (fe, bits v 48 3), (fv, bits v 63 1)]
  else
    let (b, i, w) := niStat ni
    s.setFs [(b, 1), (i, idx), (w, why)]

/-- R277: a write of `size` bytes at byte `o` of entry `idx` of NI `ni`. -/
def State.routeWrite (s : State) (ni idx o size v : Nat) : State :=
  let (fs, fe, fv) := niEntry ni idx
  let key := fs.addr
  let cur := s.wordOf [fs, fe, fv]
  if size = 8 then (s.applyRoute ni idx (v % 2 ^ 64)).stage key none
  else if o = 0 then s.stage key (some (v % 2 ^ 32))
  else (s.applyRoute ni idx ((s.stagedAt key).getD (cur % 2 ^ 32) + v % 2 ^ 32 * 2 ^ 32)).stage key none
def execRouteEntryWrite (ni idx o size : Nat) (v : W64) (s : State) : Out :=
  whenOk (decide (ni < 296 ∧ idx < 282) && ((size == 4 && (o == 0 || o == 4)) || (size == 8 && o == 0))) s
    (s.routeWrite ni idx o size v.toNat)

/-- R279 DEFAULT. -/
def State.routesDefault (s : State) (ni : Nat) : State :=
  (List.range 282).foldl (fun s i =>
    let (fs, fe, fv) := niEntry ni i
    s.setFs [(fs, defSeg ni i), (fe, defExit ni i), (fv, 1)]) s
def execTilNiCtlDefault (ni : Nat) (s : State) : Out := whenOk (decide (ni < 296)) s (s.routesDefault ni)

/-! ### Router registers (R279, R281) -/

def State.portEnaWrite (s : State) (n v : Nat) : State :=
  if s.f R.PWR_MESHQ_STATE = 2 then s.setF (R.TIL_RTR_PORT_EN_EN n) (v &&& portsConnected n)
  else s.setF (R.TIL_RTR_STAT_WERR n) 1
def execTilRtrPortEnWrite (n v : Nat) (s : State) : Out := whenOk (decide (n < 256)) s (s.portEnaWrite n (v % 32))
def execTilRtrClr (n : Nat) (s : State) : Out := whenOk (decide (n < 256)) s (s.setF (R.TIL_RTR_CORR_COUNT n) 0)
/-- R239. -/
def State.homeClr (s : State) (n : Nat) : State :=
  s.setFs [(R.TIL_DIR_STALE_COUNT n, 0), (R.TIL_DIR_COARSE_COUNT n, 0), (R.TIL_DIR_EVICT_COUNT n, 0),
    (R.TIL_DIR_RETRY_COUNT n, 0), (R.TIL_HOME_BP_COUNT n, 0), (R.TIL_HOME_LATE_COUNT n, 0)]
def execTilHomeClr (n : Nat) (s : State) : Out := whenOk (decide (n < 256)) s (s.homeClr n)

/-! ### The release check (R281, R282) -/

/-- The port that a route takes at each router, with the router. -/
def routeHops : List (Nat × Nat) → Int → Int → List ((Int × Int) × Nat)
  | [], _, _ => []
  | (d, l) :: r, x, y =>
    let hops := (List.range l).map (fun i =>
      let k : Int := i
      ((match d with | 0 => (x, y - k) | 1 => (x + k, y) | 2 => (x, y + k) | _ => (x - k, y)), d + 1))
    let e := (routePath [(d, l)] x y).getLastD (x, y)
    hops ++ routeHops r e.1 e.2

def tileOfXY (p : Int × Int) : Nat := tileAt p.1.toNat p.2.toNat
def State.enPort (s : State) (n p : Nat) : Bool := bitOf (s.f (R.TIL_RTR_PORT_EN_EN n)) p

/-- PWR_MESHQ_BAD.WHY of one valid entry under the new enables, 0 nothing. A link enabled at one end only is not in effect either:
where WHY 1 and 3 both apply the model shows 3, and 1 first where another link of the route is closed at both ends (DESIGN CHOICE,
notes/assumptions/111.md). -/
def State.routeBad (s : State) (ni idx : Nat) : Nat :=
  let (fs, fe, fv) := niEntry ni idx
  if s.f fv = 0 then 0
  else
    let segs := routeSegs (s.f fs)
    let x0 : Int := (niXY ni).1
    let y0 : Int := (niXY ni).2
    let hops := routeHops segs x0 y0
    let ends := fun (h : (Int × Int) × Nat) =>
      let n := tileOfXY h.1
      (s.enPort n h.2, match nbr n h.2 with | some m => s.enPort m (oppPort h.2) | none => false)
    let last := (routePath segs x0 y0).getLastD (x0, y0)
    if hops.any (fun h => !(ends h).1 && !(ends h).2) then 1
    else if hops.any (fun h => (ends h).1 != (ends h).2) then 3
    else if !(s.enPort (tileOfXY last) (s.f fe)) then 2
    else 0

/-- R281: the router of tile `n` cuts off its home share, a channel or a stop. -/
def State.unitCut (s : State) (n : Nat) : Bool :=
  let p := portsConnected n
  let edge (q : Nat) : Bool := bitOf p q && (nbr n q).isNone
  !(s.enPort n 0) || [1, 2, 3, 4].all (fun q => !(s.enPort n q) || edge q)
    || [1, 2, 3, 4].any (fun q => edge q && !(s.enPort n q))

/-- R282: a link of router `n` whose port is enabled at one end only. -/
def State.halfLink (s : State) (n : Nat) : Bool :=
  [2, 3].any (fun p => match nbr n p with | some m => s.enPort n p != s.enPort m (oppPort p) | none => false)

/-- The first fault of the check of step 7: NI, index and WHY. Where no entry is at fault, NI and IDX both show the number of the
tile whose router has the half-enabled link (WHY 3), or cuts off its unit (WHY 4) (DESIGN CHOICE, notes/assumptions/111.md). -/
def State.releaseFault (s : State) : Option (Nat × Nat × Nat) :=
  match (List.range 296).findSome? (fun ni => (List.range 282).findSome? (fun i =>
      let w := s.routeBad ni i
      if w = 0 then none else some (ni, i, w))) with
  | some x => some x
  | none =>
    match (List.range 256).find? s.halfLink with
    | some n => some (n, n, 3)
    | none =>
      if s.f R.BOOT_STAT_SELFTEST = 1 then none
      else (List.range 256).findSome? (fun n => if s.unitCut n then some (n, n, 4) else none)

end Sys2Proof.Machine
end

