-- ==== Sys2Proof/Machine/RingOps.lean ====
section
/-! DEFINITION. Command rings (R422 to R431, R437, R438) and the doorbells of tenant and send rings: registers, descriptor
fetch, completions, and what every command shares. -/

namespace Sys2Proof.Machine
open Sys2Proof

/-! ### Status codes (R437) -/

def stOK : Nat := 0x00
def stPARTIAL : Nat := 0x01
def stOPCODE : Nat := 0x02
def stPARAM : Nat := 0x03
def stSTATE : Nat := 0x04
def stDISABLED : Nat := 0x05
def stTBUSY : Nat := 0x06
def stSTOPPED : Nat := 0x07
def stTESTFAIL : Nat := 0x08
def stC1TIME : Nat := 0x09
def stPMISM : Nat := 0x0A
def stNOTILE : Nat := 0x0B
def stOWNED : Nat := 0x0C
def stDRUN : Nat := 0x0D
def stSBUSY : Nat := 0x0E
def stMTIME : Nat := 0x0F
def stUACT : Nat := 0x10
def stMESH : Nat := 0x11
def stREGION : Nat := 0x20
def stPOISON : Nat := 0x21
def stPOLICY : Nat := 0x22
def stHOST : Nat := 0x23
def stIMGBAD : Nat := 0x25
def stIMGSPACE : Nat := 0x26

/-- Ring states (R423): CMD_RING_STAT.STATE. -/
def rgIDLE : Nat := 0
def rgRUN : Nat := 1
def rgHALT : Nat := 2
def rgBME : Nat := 3
def rgCONT : Nat := 4

def State.cmd (s : State) (r : Nat) : Option Cmd := Tbl.get none s.cmds r
def State.cmdCount (s : State) : State := s.setF R.CMD_STAT_ACTIVE s.cmds.length
/-- BUSY does not show a command that a function-level reset has cut off from its ring (R423). -/
def State.setCmd (s : State) (r : Nat) (c : Option Cmd) : State :=
  ({ s with cmds := Tbl.set none s.cmds r c }.setF (R.CMD_RING_STAT_BUSY r) (b2n (match c with | some x => !x.orphan | none => false))).cmdCount

def State.ringN (s : State) (r : Nat) : Nat := 2 ^ min 16 (max 6 (s.f (R.CMD_RING_CFG_LOG2N r)))
def State.ringState (s : State) (r : Nat) : Nat := s.f (R.CMD_RING_STAT_STATE r)
def State.setRing (s : State) (r x : Nat) : State := s.setF (R.CMD_RING_STAT_STATE r) x

/-- R426, R438: the ring enters HALTED. -/
def State.ringHalt (s : State) (r err : Nat) : State :=
  (s.setFs [(R.CMD_RING_STAT_STATE r, rgHALT), (R.CMD_RING_STAT_ERR r, err)]).raise (936 + r) 1
/-- R426: the data of a descriptor read in flight is discarded when it comes. -/
def State.dropReads (s : State) (r : Nat) : State :=
  let f (o : HOrig) : HOrig := if o == .ring r && (s.cmd r).isNone then .gone else o
  { s with htags := s.htags.map (fun t => { t with req := { t.req with orig := f t.req.orig } })
           outq := s.outq.map (fun q => if q.write then q else { q with orig := f q.orig }) }
/-- R426, R438: HELD_BME or HELD_CONT. -/
def State.ringHeld (s : State) (r x : Nat) : State := ((s.dropReads r).setRing r x).raise (936 + r) 2

/-- R445: an engine job. -/
def isJob (o : Nat) : Bool := 0x10 ≤ o && o ≤ 0x13

/-! ### Completions (R428, R431) -/

/-- Bytes of completion number `i` of a ring of 2^LOG2N entries. -/
def cplBytes (i n tag status idx result : Nat) : List Nat :=
  leBytes 4 tag ++ [status, 1 - i / n % 2] ++ leBytes 2 idx ++ leBytes 8 result

/-- R185: a completion entry [tag, status, index, result, flags] may end in the hardware source and CAUSE bit that report
it; they are raised once it is written, or discarded. -/
def State.cplNote (s : State) (x : List Nat) : State :=
  if x.getD 5 0 = 0 then s else s.raise (x.getD 5 0) (x.getD 6 0)

/-- R431, R437: the status of an access to the host aperture that was refused: DMA_REGION outside the aperture (R49). -/
def hostStatus (sub : Nat) : Nat := if sub = subREGION then stREGION else stHOST

/-- R428: write a completion [tag, status, index, result, flags] at HEAD; the second part: the status with which it was
refused. -/
def State.writeCpl (s : State) (r : Nat) (x : List Nat) : State × Option Nat :=
  let n := s.ringN r
  let i := s.f (R.CMD_CQ_HEAD_HEAD r)
  let at_ := s.f (R.CMD_CQ_BASE_BASE r) * 4096 + i % n * 16
  match s.hostAccess (.ring r) true at_ 16 (cplBytes i n (x.getD 0 0) (x.getD 1 0) (x.getD 2 0) (x.getD 3 0)) with
  | .inl s1 =>
    let s2 := (s1.incWrap (R.CMD_CQ_HEAD_HEAD r)).cplNote x
    (if bitOf (x.getD 4 0) 0 then s2.raise (936 + r) 0 else s2, none)
  | .inr sub => (s.outErr sub, some (hostStatus sub))

def State.hold (s : State) (r : Nat) (x : Option (List Nat)) : State :=
  ({ s with heldC := Tbl.set none s.heldC r x }).setF (R.CMD_RING_STAT_HOLD r) (b2n x.isSome)

/-- After a completion is written: STOP and EN act (R426). -/
def State.afterCpl (s : State) (r : Nat) (x : List Nat) : State :=
  if bitOf (x.getD 4 0) 1 ∧ x.getD 1 0 > 1 then s.ringHalt r (x.getD 1 0)
  else if s.f (R.CMD_RING_CFG_EN r) = 0 then s.setRing r rgIDLE
  else s

/-- Write a completion, or hold it where the host path fails (R431). -/
def State.postCpl (s : State) (r : Nat) (x : List Nat) : State :=
  let st := s.ringState r
  if (st = rgBME ∨ st = rgCONT) ∧ s.f (R.CMD_RING_CFG_EN r) = 0 then ((s.incSat R.CMD_LOST_COUNT).cplNote x).setRing r rgIDLE
  else if st = rgBME ∨ st = rgCONT then s.hold r (some x)
  else
    match s.writeCpl r x with
    | (s1, some st) => (s1.hold r (some x)).ringHalt r st
    | (s1, none) => s1.afterCpl r x

/-- R428: the command of ring `r` completes; `note` is empty or the source and CAUSE bit that report the completion. -/
def State.finishNote (s : State) (r status result : Nat) (note : List Nat) : State :=
  match s.cmd r with
  | none => s
  | some c =>
    let s1 := s.setCmd r none
    let s1 := if c.phase > 0 ∧ !(isJob c.d.op) then s1.setF (R.DOM_STATE_BUSY c.d.dom) 0 else s1
    let x := [c.d.tag, status, c.idx % 2 ^ 16, result, c.d.flags] ++ note
    if c.orphan then (s1.incSat R.CMD_LOST_COUNT).cplNote x else s1.postCpl r x
def State.finish (s : State) (r status result : Nat) : State := s.finishNote r status result []
/-- A held completion is lost. -/
def State.dropHeld (s : State) (r : Nat) : State :=
  match Tbl.get none s.heldC r with
  | none => s
  | some x => ((s.hold r none).incSat R.CMD_LOST_COUNT).cplNote x

/-- A held completion is written first when the ring runs again (R426). -/
def State.releaseHeld (s : State) (r : Nat) : State :=
  match Tbl.get none s.heldC r with
  | none => s
  | some x => (s.hold r none).postCpl r x

/-! ### Ring registers -/

/-- R425: PROD − CONS modulo 2^32 is at most the ring's size. -/
def dbOk (prod cons n : Nat) : Bool := decide ((prod + 2 ^ 32 - cons) % 2 ^ 32 ≤ n)
/-- R425: HEAD − TAIL at most the size, and TAIL does not move backward. -/
def tailOk (head old new n : Nat) : Bool :=
  let d := (head + 2 ^ 32 - new) % 2 ^ 32
  decide (d ≤ n) && decide (d ≤ (head + 2 ^ 32 - old) % 2 ^ 32)

def State.ringDb (s : State) (r v : Nat) : State :=
  if dbOk v (s.f (R.CMD_RING_CONS_CONS r)) (s.ringN r) then s.setF (R.CMD_RING_DB_PROD r) v
  else s.setF (R.CMD_RING_STAT_BADDB r) 1
def execCmdRingDb (r : Nat) (v : W32) (s : State) : Out := whenOk (decide (r < 64)) s (s.ringDb r v.toNat)

def State.cqTail (s : State) (r v : Nat) : State :=
  if tailOk (s.f (R.CMD_CQ_HEAD_HEAD r)) (s.f (R.CMD_CQ_TAIL_TAIL r)) v (s.ringN r) then s.setF (R.CMD_CQ_TAIL_TAIL r) v
  else s.setF (R.CMD_RING_STAT_BADDB r) 1
def execCmdCqTail (r : Nat) (v : W32) (s : State) : Out := whenOk (decide (r < 64)) s (s.cqTail r v.toNat)

/-- R426: RESTART; without Bus Master Enable the ring is HELD_BME at once, as when EN is written. -/
def State.ringRestart (s : State) (r : Nat) : State :=
  let st := s.ringState r
  if (st = rgHALT ∨ st = rgCONT) ∧ !s.contained then
    if !s.bme || s.d3 then s.ringHeld r rgBME else (s.setRing r rgRUN).releaseHeld r
  else s
def execCmdRingRestart (r : Nat) (s : State) : Out := whenOk (decide (r < 64)) s (s.ringRestart r)

/-- R423, R426: a write of CMD_RING_CFG. -/
def State.ringCfg (s : State) (r v : Nat) : State :=
  let en := bits v 5 1
  let st := s.ringState r
  if s.f (R.CMD_RING_CFG_EN r) = 1 then
    let s := if bits v 0 5 ≠ s.f (R.CMD_RING_CFG_LOG2N r) then s.setF (R.CMD_RING_STAT_BADCFG r) 1 else s
    if en = 1 then s
    else
      let s := s.setF (R.CMD_RING_CFG_EN r) 0
      if (s.cmd r).isSome then s
      else
        let s := s.dropHeld r
        (s.dropReads r).setRing r rgIDLE
  else
    let s := s.setFs [(R.CMD_RING_CFG_LOG2N r, bits v 0 5), (R.CMD_RING_CFG_EN r, en)]
    if en = 1 ∧ st = rgIDLE then
      if s.contained then s.ringHeld r rgCONT
      else if !s.bme || s.d3 then s.ringHeld r rgBME
      else s.setRing r rgRUN
    else s
def execCmdRingEnWrite (r : Nat) (v : W32) (s : State) : Out := whenOk (decide (r < 64)) s (s.ringCfg r v.toNat)

/-- R423: a write of CMD_RING_BASE (`cq` false) or CMD_CQ_BASE. -/
def State.ringBase (s : State) (r : Nat) (cq : Bool) (v : Nat) : State :=
  if s.f (R.CMD_RING_CFG_EN r) = 1 then s.setF (R.CMD_RING_STAT_BADCFG r) 1
  else s.setF (if cq then R.CMD_CQ_BASE_BASE r else R.CMD_RING_BASE_BASE r) (bits v 12 34)

def execCmdClr (s : State) : Out := .next (s.setF R.CMD_LOST_COUNT 0)
/-- R424: a write of CMD_MONEV with V = 1 and a BASE out of range is ignored. -/
def State.monev (s : State) (v : Nat) : State :=
  let b := bits v 0 13
  if v.testBit 13 ∧ ¬ (1024 ≤ b ∧ b ≤ 7680) then s
  else s.setFs [(R.CMD_MONEV_BASE, b), (R.CMD_MONEV_V, bits v 13 1)]

/-! ### Descriptors (R427) -/

def descOf (bs : List Nat) : Desc :=
  let at_ (o n : Nat) : Nat := ofLe ((bs.drop o).take n)
  { op := at_ 0 1, flags := at_ 1 1, tag := at_ 4 4, dom := at_ 8 2 % 4096, tile := at_ 10 2 % 256
    rsv := at_ 1 1 ≥ 4 || at_ 2 2 != 0 || at_ 8 2 ≥ 4096 || at_ 10 2 ≥ 256 || at_ 12 4 != 0
    p := (List.range 6).map (fun i => at_ (16 + 8 * i) 8) }

def Desc.par (d : Desc) (i : Nat) : Nat := d.p.getD i 0
/-- The parameters hold no bit outside `masks`, and DOMAIN and TILE are used only where `dom` and `tile` say so. -/
def Desc.okP (d : Desc) (dom tile : Bool) (masks : List Nat) : Bool :=
  !d.rsv && (dom || d.dom == 0) && (tile || d.tile == 0)
    && (List.range 6).all (fun i => d.par i &&& masks.getD i 0 == d.par i)

def mAll : Nat := 2 ^ 64 - 1
def mLow (n : Nat) : Nat := 2 ^ n - 1

/-- R434: mode codes that exist. -/
def modeKnown (c : Nat) : Bool := [0x01, 0x02, 0x10, 0x11, 0x12, 0x13, 0x20].contains c
/-- R531. -/
def testKnown (c : Nat) : Bool := (1 ≤ c && c ≤ 7) || c == 0x10 || c == 0x11
/-- R432. -/
def opKnown (o : Nat) : Bool := (1 ≤ o && o ≤ 0xE) || (0x10 ≤ o && o ≤ 0x13) || (0x20 ≤ o && o ≤ 0x26)

/-- The status with which a descriptor ends as soon as it is read, if it does. -/
def State.descRefuse (s : State) (d : Desc) : Option Nat :=
  if !(opKnown d.op) then some stOPCODE
  else if s.f R.BOOT_STAT_SELFTEST = 1 ∧
      !(d.op == 0x25 || d.op == 0x21 || d.op == 0x26 || (d.op == 0x20 && (d.par 0 == 1 || d.par 0 == 2))) then
    some stSTATE
  else if d.op = 0x20 ∧ !(modeKnown (d.par 0)) then some stPARAM
  else if d.op = 0x21 ∧ d.par 0 > 6 then some stPARAM
  else if d.op = 0x25 ∧ !(testKnown (d.par 0)) then some stPARAM
  else none

/-! ### Engine queues (R440, R445) -/

def State.engine (s : State) (h : Nat) : Engine := Tbl.get {} s.engines h
def State.setEngine (s : State) (h : Nat) (e : Engine) : State :=
  ({ s with engines := Tbl.set {} s.engines h e }).setFs
    [ (R.CMP_STAT_BUSY h, b2n e.run.isSome), (R.CMP_STAT_HOSTQ h, e.hostq.length)
    , (R.CMP_STAT_HOSTJOB h, match e.run with | some j => b2n (!j.ten) | none => 0)
    , (R.CMP_STAT_RING h, match e.run with | some j => if j.ten then j.ring else 0 | none => 0) ]

/-- The control parameter of a job. -/
def Desc.ctl (d : Desc) : Nat := if d.op = 0x10 ∨ d.op = 0x11 then d.par 3 else d.par 4
def Desc.srcOf (d : Desc) : Nat × Nat := match d.op with | 0x10 => (d.par 0, d.par 2) | 0x11 => (0, 0) | _ => (d.par 0, d.par 1)
def Desc.dstOf (d : Desc) : Nat × Nat :=
  match d.op with | 0x10 => (d.par 1, d.par 2) | 0x11 => (d.par 0, d.par 1) | _ => (d.par 2, d.par 3)

/-- The checks of R427, R442, R443 and R445 that need no address map: the status, none where they pass. `ten`: on a
tenant ring. -/
def jobRefuse (d : Desc) (ten : Bool) : Option Nat :=
  let c := d.ctl
  let cm := if d.op = 0x12 then mLow 13 else mLow 6
  let (sa, sl) := d.srcOf
  let (da, dl) := d.dstOf
  let masks := match d.op with
    | 0x10 => [mAll, mAll, mAll, cm, 0, if ten then 0 else mLow 6]
    | 0x11 => [mAll, mAll, mAll, cm, 0, if ten then 0 else mLow 6]
    | _ => [mAll, mAll, mAll, mAll, cm, if ten then 0 else mLow 6]
  let blk := bits c 8 5
  if !(d.okP (!ten) false masks) then some stPARAM
  else if !ten ∧ d.par 5 ≥ 32 ∧ d.par 5 ≠ 63 then some stPARAM
  else if sl > 2 ^ 36 ∨ dl > 2 ^ 36 then some stPARAM
  else if bits c 0 2 = 3 then some stPOLICY
  else if d.op = 0x12 ∧ ¬ (12 ≤ blk ∧ blk ≤ 20) then some stPARAM
  else if d.op = 0x11 ∧ (da % 8 ≠ 0 ∨ dl % 8 ≠ 0 ∨ bits c 0 2 = 0) then some stPARAM
  else if d.op ≠ 0x11 ∧ sl ≠ 0 ∧ dl ≠ 0 ∧ sa < da + dl ∧ da < sa + sl then some stPARAM
  else none

/-- R445: the engine that takes a host job now, if any has room. -/
def State.pickEngine (s : State) (want : Nat) : Option Nat :=
  let room (h : Nat) : Bool := (s.engine h).hostq.length < 8
  let load (h : Nat) : Nat := (s.engine h).hostq.length + b2n (s.engine h).run.isSome
  if want < 32 then (if room want then some want else none)
  else (List.range 32).foldl (fun b h => if !(room h) then b else match b with
    | none => some h
    | some x => if load h < load x then some h else some x) none

/-- A host job that waits in the command processor reaches an engine (R445), or completes refused. -/
def State.jobIntake (s : State) (r : Nat) : State :=
  match s.cmd r with
  | some c =>
    if isJob c.d.op ∧ c.phase = 0 then
      match jobRefuse c.d false with
      | some st => s.finish r st 0
      | none =>
        match s.pickEngine (c.d.par 5) with
        | none => s
        | some h =>
          let e := s.engine h
          (s.setCmd r (some { c with phase := 1, at_ := s.ns })).setEngine h
            { e with hostq := e.hostq ++ [({ d := c.d, idx := c.idx, ring := r, ten := false, dom := c.d.dom } : Job)] }
    else s
  | none => s

/-! ### Fetch (R429, R431) -/

/-- The completion ring has room for one more (R429). -/
def State.cqRoom (s : State) (r : Nat) : Bool :=
  (s.f (R.CMD_CQ_HEAD_HEAD r) + 2 ^ 32 - s.f (R.CMD_CQ_TAIL_TAIL r)) % 2 ^ 32 != s.ringN r

/-- A descriptor read of the ring is on its way. -/
def State.ringReading (s : State) (r : Nat) : Bool :=
  s.outq.any (fun q => q.orig == .ring r && !q.write) || s.htags.any (fun t => t.req.orig == .ring r)

/-- R429: the command processor reads the descriptor at CONS of ring `r`. -/
def execDescriptorFetch (r : Nat) (s : State) : Out :=
  let cons := s.f (R.CMD_RING_CONS_CONS r)
  if !(decide (r < 64) && s.f R.CMD_STAT_READY == 1 && !s.isFatal && s.ringState r == rgRUN
      && s.f (R.CMD_RING_CFG_EN r) == 1 && s.f (R.CMD_RING_DB_PROD r) != cons && (s.cmd r).isNone
      && (Tbl.get none s.heldC r).isNone && !(s.ringReading r) && s.cqRoom r) then turnedAway s
  else
    match s.hostAccess (.ring r) false (s.f (R.CMD_RING_BASE_BASE r) * 4096 + cons % s.ringN r * 64) 64 [] with
    | .inl s1 => .next s1
    | .inr sub => .next ((s.outErr sub).ringHalt r (hostStatus sub))

/-- The descriptor of ring `r` has come: it is consumed where the ring still runs. -/
def State.gotDesc (s : State) (r : Nat) (bs : List Nat) : State :=
  if s.ringState r ≠ rgRUN then s
  else
    let i := s.f (R.CMD_RING_CONS_CONS r)
    let d := descOf bs
    let s1 := (s.incWrap (R.CMD_RING_CONS_CONS r)).setCmd r (some { d := d, idx := i })
    match s1.descRefuse d with
    | some st => s1.finish r st 0
    | none => if isJob d.op then s1.jobIntake r else s1
/-- The read failed (R431). -/
def State.descFail (s : State) (r : Nat) : State := if s.ringState r = rgRUN then s.ringHalt r stHOST else s

/-! ### Carrying out a command -/

/-- R430: another ring's command in progress for the same domain or for one of the tiles. -/
def State.clash (s : State) (r dom : Nat) (tiles : List Nat) : Bool :=
  s.cmds.any (fun e => e.1 != r && match e.2 with
    | some c => decide (c.phase > 0) && !(isJob c.d.op) &&
        ((dom != 0 && c.d.dom == dom) || tiles.any (fun t => c.aux.contains t))
    | none => false)

/-- Ring `r`'s command is opcode `op` with P0 chosen by `sub`; the command processor works. -/
def onCmd (s : State) (r op : Nat) (sub : Nat → Bool) (f : Cmd → Out) : Out :=
  match s.cmd r with
  | some c => if c.d.op = op ∧ sub (c.d.par 0) ∧ s.f R.CMD_STAT_READY = 1 ∧ !s.isFatal then f c else turnedAway s
  | none => turnedAway s

/-- The command goes on: it is marked as in progress (R357 BUSY), holding `tiles`. -/
def State.begin (s : State) (r : Nat) (c : Cmd) (tiles : List Nat) : State :=
  (s.setCmd r (some { c with phase := 1, at_ := s.ns, aux := tiles })).setF (R.DOM_STATE_BUSY c.d.dom)
    (if c.d.dom = 0 then 0 else 1)

def done (s : State) (r status result : Nat) : Out := .next (s.finish r status result)

/-! ### Tenant and send ring doorbells (R451, R470) -/

def State.trN (s : State) (h t : Nat) : Nat := 2 ^ min 12 (max 6 (s.f (R.CMP_TR_CFG_LOG2N h t)))
def State.trDb (s : State) (h t v : Nat) : State :=
  if dbOk v (s.f (R.TR_CONS_CONS h t)) (s.trN h t) then s.setF (R.TR_DB_PROD h t) v else s
def execTrDb (h t : Nat) (v : W32) (s : State) : Out := whenOk (decide (h < 32 ∧ t < 64)) s (s.trDb h t v.toNat)
def State.trTail (s : State) (h t v : Nat) : State :=
  if tailOk (s.f (R.TR_HEAD_HEAD h t)) (s.f (R.TR_TAIL_TAIL h t)) v (s.trN h t) then s.setF (R.TR_TAIL_TAIL h t) v else s
def execTrTail (h t : Nat) (v : W32) (s : State) : Out := whenOk (decide (h < 32 ∧ t < 64)) s (s.trTail h t v.toNat)
def State.trRestart (s : State) (h t : Nat) : State :=
  if s.f (R.TR_STAT_STATE h t) = rgHALT then s.setF (R.TR_STAT_STATE h t) rgRUN else s
def execTrRestart (h t : Nat) (s : State) : Out := whenOk (decide (h < 32 ∧ t < 64)) s (s.trRestart h t)

/-- R453: a write of CMP_TR_CFG; LOG2N and DOMAIN stay while EN = 1. -/
def State.trCfg (s : State) (h t v : Nat) : State :=
  let s1 := if s.f (R.CMP_TR_CFG_EN h t) = 1 then s
    else s.setFs [(R.CMP_TR_CFG_LOG2N h t, bits v 0 5), (R.CMP_TR_CFG_DOMAIN h t, bits v 6 12)]
  let s2 := s1.setFs [(R.CMP_TR_CFG_EN h t, bits v 5 1), (R.CMP_TR_CFG_EVT h t, bits v 18 13),
    (R.CMP_TR_CFG_EVT_EN h t, bits v 31 1)]
  if bits v 5 1 = 1 ∧ s.f (R.TR_STAT_STATE h t) = rgIDLE then s2.setF (R.TR_STAT_STATE h t) rgRUN
  else if bits v 5 1 = 0 ∧ (Tbl.get none s.tjobs (h * 64 + t)).isNone then s2.setF (R.TR_STAT_STATE h t) rgIDLE
  else s2
def execCmpTrCfgWrite (h t : Nat) (v : W32) (s : State) : Out :=
  whenOk (decide (h < 32 ∧ t < 64)) s (s.trCfg h t v.toNat)
def State.trBase (s : State) (h t : Nat) (cq : Bool) (v : Nat) : State :=
  if s.f (R.CMP_TR_CFG_EN h t) = 1 then s
  else s.setF (if cq then R.CMP_TR_CQ_CQ h t else R.CMP_TR_BASE_BASE h t) (bits v 12 34)

def State.sqN (s : State) (n : Nat) : Nat := 2 ^ min 12 (max 6 (s.f (R.FAB_SQ_CFG_LOG2N n)))
def State.sqDb (s : State) (n v : Nat) : State :=
  if dbOk v (s.f (R.SQ_CONS_CONS n)) (s.sqN n) then s.setF (R.SQ_DB_PROD n) v else s
def execSqDb (n : Nat) (v : W32) (s : State) : Out := whenOk (decide (n < 96)) s (s.sqDb n v.toNat)
def State.sqRestart (s : State) (n : Nat) : State :=
  if s.f (R.SQ_STAT_STATE n) = rgHALT then s.setF (R.SQ_STAT_STATE n) rgRUN else s
def execSqRestart (n : Nat) (s : State) : Out := whenOk (decide (n < 96)) s (s.sqRestart n)
def State.sqCfg (s : State) (n v : Nat) : State :=
  let s1 := if s.f (R.FAB_SQ_CFG_EN n) = 1 then s
    else s.setFs [(R.FAB_SQ_CFG_LOG2N n, bits v 0 5), (R.FAB_SQ_CFG_DOMAIN n, bits v 6 12),
      (R.FAB_SQ_CFG_SRCEP n, bits v 18 12)]
  let s2 := s1.setF (R.FAB_SQ_CFG_EN n) (bits v 5 1)
  if bits v 5 1 = 0 then s2.setF (R.SQ_STAT_STATE n) rgIDLE
  else if s.f (R.SQ_STAT_STATE n) = rgIDLE then s2.setF (R.SQ_STAT_STATE n) rgRUN else s2
def execFabSqCfgWrite (n : Nat) (v : W32) (s : State) : Out := whenOk (decide (n < 96)) s (s.sqCfg n v.toNat)
def State.sqBase (s : State) (n v : Nat) : State :=
  if s.f (R.FAB_SQ_CFG_EN n) = 1 then s else s.setF (R.FAB_SQ_BASE_BASE n) (bits v 12 34)

end Sys2Proof.Machine
end

