-- ==== Sys2Proof/Machine/Power.lean ====
section
/-! DEFINITION. Tile clocks (R88 to R90), tile power states (R482 to R492), thermal and current limits (R540, R542). -/

namespace Sys2Proof.Machine
open Sys2Proof

def State.tpw (s : State) (t : Nat) : TilePwr := Tbl.get {} s.tilePwr t
def State.setTpw (s : State) (t : Nat) (x : TilePwr) : State := { s with tilePwr := Tbl.set {} s.tilePwr t x }
def State.tclk (s : State) (t : Nat) : Nat := Tbl.get 0 s.tileClk t
def State.setTclk (s : State) (t v : Nat) : State := { s with tileClk := Tbl.set 0 s.tileClk t v }

/-! ### Frequency (R88 to R90) -/

/-- R90, R540: the CODE the tile should run at. -/
def State.clkWant (s : State) (t : Nat) : Nat := min (s.f (R.TIL_CLK_CTL_TARGET t)) (s.f (R.PWR_HCAP_CAP (t / 8)))

/-- R90: LIMIT while the cap holds CUR below TARGET. -/
def State.clkLimit (s : State) (t : Nat) : State :=
  s.setF (R.TIL_CLK_STAT_LIMIT t) (b2n (decide (s.f (R.PWR_HCAP_CAP (t / 8)) < s.f (R.TIL_CLK_CTL_TARGET t))))

/-- R89, R486, R352: a change begins where CUR is not what it should be and nothing holds the change back. -/
def State.clkStart (s : State) (t : Nat) : State :=
  let s := s.clkLimit t
  let want := s.clkWant t
  let cur := s.f (R.TIL_CLK_STAT_CUR t)
  if s.fused t || s.f (R.TIL_CLK_STAT_BUSY t) == 1 || want == cur || s.f (R.TIL_PWR_STAT_STATE t) != 0
      || s.f (R.TIL_PWR_STAT_PREP t) == 1 || s.f (R.TIL_PWR_STAT_ENTERING t) == 1
      || s.f (R.CUF_STAT_HANDOVER t) == 1 then s
  else
    ((s.setTpw t { s.tpw t with clk := want }).setF (R.TIL_CLK_STAT_BUSY t) 1).setTclk t (if want > cur then 1 else 2)

/-- R88. -/
def State.clkWrite (s : State) (t v : Nat) : State :=
  if s.fused t then s
  else if bits v 0 7 > 96 then s.setF (R.TIL_CLK_STAT_BADCODE t) 1
  else (s.setF (R.TIL_CLK_CTL_TARGET t) (bits v 0 7)).clkStart t
def execTilClkCtlWrite (n : Nat) (v : W32) (s : State) : Out := whenOk (decide (n < 256)) s (s.clkWrite n v.toNat)

/-- Every ring whose POWER subop 0 waits for tile `t` completes once CUR = TARGET or LIMIT = 1 (R434). -/
def State.clkDone (s : State) (t : Nat) : State :=
  if s.f (R.TIL_CLK_STAT_CUR t) = s.f (R.TIL_CLK_CTL_TARGET t) ∨ s.f (R.TIL_CLK_STAT_LIMIT t) = 1 then
    (s.cmds.filter (fun e => match e.2 with
      | some c => c.d.op == 0x21 && c.d.par 0 == 0 && c.phase == 1 && c.d.tile == t
      | none => false)).foldl (fun s e => s.finish e.1 stOK 0) s
  else s

/-- R89 steps 4 and 5. -/
def execPllLock (n : Nat) (s : State) : Out :=
  let x := s.tpw n
  let cur := s.f (R.TIL_CLK_STAT_CUR n)
  whenOk (decide (n < 256) && s.tclk n == 2) s
    ((((s.setFs [(R.TIL_CLK_STAT_CUR n, x.clk), (R.TIL_CLK_STAT_BUSY n, 0)]).setTclk n
      (if x.clk < cur then 3 else 0)).clkStart n).clkDone n)

/-- R89 steps 2 and 6, R492. -/
def execVoltageReached (n : Nat) (s : State) : Out :=
  match s.tclk n with
  | 1 => .next (s.setTclk n 2)
  | 3 => .next (s.setTclk n 0)
  | _ => turnedAway s

/-! ### Entry of a tile power state (R483, R485, R489) -/

/-- R482, R483: the state of least power whose exit time fits. -/
def powerGoal (ns : Nat) : Nat := if ns ≥ 120000 then 3 else if ns ≥ 15000 then 2 else if ns ≥ 50 then 1 else 0

/-- R489 code 0: an L2 request, writeback or uncached access of the tile is outstanding. -/
def State.tileOut (s : State) (t : Nat) : Bool :=
  (s.msgs ++ s.fillQ).any (fun m => m.agent == t) || s.caches.any (fun e => e.1 / 2 ^ 64 == t && e.2.st.transient)
    || s.outReq.any (fun r => r.t == t) || s.arrivals.any (fun a => a.holder < 512 && a.holder / 2 == t)
    || [s.core (2 * t), s.core (2 * t + 1)].any (fun k => k.commit || k.mark.isSome || k.wait.isSome || !k.posted.isEmpty
      || !k.sb.isEmpty)

/-- R488: the M timer, or the S timer of a domain that is not parked, would wake core `c`. -/
def State.timerWakes (s : State) (c : Nat) : Bool :=
  let k := s.core c
  s.timerPend k true || (s.timerPend k false && s.domOf (c / 2) != 0 && Tbl.get 0 s.tilePark (c / 2) == 0)

/-- R489 code 2: an event, a timer, or a core that has left its halt. -/
def State.evRefuses (s : State) (t : Nat) : Bool :=
  [2 * t, 2 * t + 1].any (fun c => !(s.core c).held.isEmpty || s.timerWakes c || !(s.core c).halt)

/-- R489: the lowest refuser at step 1. -/
def State.refuser (s : State) (t : Nat) : Option Nat :=
  if s.tileOut t then some 0
  else if s.f (R.TIL_CLK_STAT_BUSY t) = 1 then some 1
  else if s.evRefuses t then some 2
  else if s.f (R.CUF_STAT_HANDOVER t) = 1 then some 4
  else none

/-- R489, R500: a refusal or abort of state `st` is counted and reported. -/
def State.entryRefused (s : State) (t st who : Nat) (abort : Bool) : State :=
  let h := t / 8
  let s := s.incSat (if abort then R.PWR_HABT_COUNT h (st - 1) who else R.PWR_HREF_COUNT h (st - 1) who)
  (s.setFs [(R.PWR_HLAST_TILE h, t % 8), (R.PWR_HLAST_STATE h, st), (R.PWR_HLAST_WHO h, who),
    (R.PWR_HLAST_ABORT h, b2n abort)]).raise (768 + h) 2

/-- R485 step 1: entry of state `st`, asked for by ring `ring`. -/
def State.enterState (s : State) (t st : Nat) (ring : Option Nat) : State :=
  if st = 0 then s
  else match s.refuser t with
    | some w => s.entryRefused t st w false
    | none => (s.setTpw t { s.tpw t with goal := st, at_ := s.ns, ring := ring }).setF (R.TIL_PWR_STAT_PREP t) 1

/-- R366, R483: the command of ring `r` completes once none of its tiles is preparing or entering. -/
def State.entryDone (s : State) (ring : Option Nat) : State :=
  match ring with
  | none => s
  | some r =>
    match s.cmd r with
    | none => s
    | some c =>
      if !c.todo.isEmpty
          || c.aux.any (fun t => s.f (R.TIL_PWR_STAT_PREP t) == 1 || s.f (R.TIL_PWR_STAT_ENTERING t) == 1) then s
      else s.finish r (if s.f (R.DOM_STATE_STATE c.d.dom) = domFAULTED then stSTATE else stOK) 0

/-- The entry ends without its state. -/
def State.abortEntry (s : State) (t who : Nat) : State :=
  let x := s.tpw t
  (((s.setFs [(R.TIL_PWR_STAT_PREP t, 0), (R.TIL_PWR_STAT_ENTERING t, 0)]).setTpw t { x with ring := none }).entryRefused
    t x.goal who true).entryDone x.ring |>.clkStart t

/-- R485 steps 3 and 4: preparation has ended. -/
def execPreparationEnd (t : Nat) (s : State) : Out :=
  if !(decide (t < 256) && s.f (R.TIL_PWR_STAT_PREP t) == 1 && !(s.tileOut t)) then turnedAway s
  else if s.evRefuses t then .next (s.abortEntry t 2)
  else .next (s.setFs [(R.TIL_PWR_STAT_PREP t, 0), (R.TIL_PWR_STAT_ENTERING t, 1)])

/-- R485: preparation has not ended after 4 µs. -/
def execPreparationTimeout (t : Nat) (s : State) : Out :=
  whenOk (decide (t < 256) && s.f (R.TIL_PWR_STAT_PREP t) == 1 && decide ((s.tpw t).at_ + 4000 ≤ s.ns)) s
    (s.abortEntry t 0)

/-- An exit to T0 begins. -/
def State.exitBegin (s : State) (t : Nat) : State :=
  (s.incSat (R.TIL_PWR_WAKES_COUNT t)).setF (R.TIL_PWR_STAT_EXITING t) 1
/-- R490: a service wake begins. -/
def State.svcBegin (s : State) (t : Nat) : State :=
  ({ s with tileSvc := Tbl.set 0 s.tileSvc t 1 }.incSat (R.TIL_PWR_SVC_COUNT t)).setF (R.TIL_PWR_STAT_EXITING t) 1

/-- R487: the latched wake is served. -/
def State.unlatch (s : State) (t : Nat) : State :=
  if s.f (R.TIL_PWR_STAT_LATCHED t) = 0 then s
  else
    let x := s.tpw t
    let s := (s.setF (R.TIL_PWR_STAT_LATCHED t) 0).setTpw t { x with core := false }
    if x.core then s.exitBegin t else s.svcBegin t

/-- R485 step 5, R487: the state is reached; with a wake latched, exit begins at once. -/
def execStateReached (t : Nat) (s : State) : Out :=
  let x := s.tpw t
  whenOk (decide (t < 256) && s.f (R.TIL_PWR_STAT_ENTERING t) == 1) s
    (((((s.setFs [(R.TIL_PWR_STAT_STATE t, x.goal), (R.TIL_PWR_STAT_ENTERING t, 0)]).setTpw t
      { x with ring := none })).unlatch t).entryDone x.ring)

/-- R487: a wake meets a tile that is entering, asleep, or in a service wake. `full`: core or command wake. -/
def State.wakeTile (s : State) (t : Nat) (full : Bool) : State :=
  let x := s.tpw t
  if s.f (R.TIL_PWR_STAT_ENTERING t) = 1 ∨ (x.back ∧ !full) then
    (s.setTpw t { x with core := x.core || full }).setF (R.TIL_PWR_STAT_LATCHED t) 1
  else if full then
    ({ s with tileSvc := Tbl.set 0 s.tileSvc t 0 }.setTpw t { x with back := false }).exitBegin t
  else s.svcBegin t

/-- R488: a core wake of the tile is at hand: a timer, or an event that is presented, or may be, to one of its cores. -/
def State.coreWakeDue (s : State) (t : Nat) : Bool :=
  s.timerWakes (2 * t) || s.timerWakes (2 * t + 1) || s.arrivals.any (fun a => a.holder < 512 && a.holder / 2 == t)
    || s.pendSrcs.any (fun src => s.evtReady src &&
        (match s.evtHolder src with | some hd => hd < 512 && hd / 2 == t | none => false))

/-- The tile rests in T1 to T3 or is entering, with no full exit under way. -/
def State.asleep (s : State) (t : Nat) : Bool :=
  s.f (R.TIL_PWR_STAT_ENTERING t) == 1 ||
    (s.f (R.TIL_PWR_STAT_STATE t) != 0 && (s.f (R.TIL_PWR_STAT_EXITING t) == 0 || Tbl.get 0 s.tileSvc t == 1))

def execWake (t : Nat) (s : State) : Out :=
  whenOk (decide (t < 256) && s.asleep t && s.coreWakeDue t && s.f (R.CUF_STAT_STOPPED t) == 0) s (s.wakeTile t true)

/-- A forward or invalidation waits at the tile's Seam (R235). -/
def State.fwdWaits (s : State) (t : Nat) : Bool :=
  s.msgs.any (fun m => m.agent == t && (match m.k with | .fwdS | .fwdO | .fwdPeek | .inv => true | _ => false))

def execServiceWake (t : Nat) (s : State) : Out :=
  whenOk (decide (t < 256) && s.fwdWaits t && s.asleep t
      && (Tbl.get 0 s.tileSvc t == 0 || (s.tpw t).back) && s.f (R.TIL_PWR_STAT_LATCHED t) == 0) s (s.wakeTile t false)

/-- R490: the L2 has sent its answers, and the island is back in its state; a wake latched meanwhile is served. -/
def execServiceReturnDone (t : Nat) (s : State) : Out :=
  whenOk (decide (t < 256) && Tbl.get 0 s.tileSvc t == 1 && !(s.fwdWaits t && !(s.tpw t).back)) s
    ((({ s with tileSvc := Tbl.set 0 s.tileSvc t 0 }.setTpw t { s.tpw t with back := false }).setF
      (R.TIL_PWR_STAT_EXITING t) 0).unlatch t)

/-- R482, R486: the first tile cycle in T0. A core of a tile that runs no domain goes on in the monitor (R484). -/
def execExitDone (t : Nat) (s : State) : Out :=
  whenOk (decide (t < 256) && s.f (R.TIL_PWR_STAT_EXITING t) == 1 && Tbl.get 0 s.tileSvc t == 0) s
    (let s1 := s.setFs [(R.TIL_PWR_STAT_STATE t, 0), (R.TIL_PWR_STAT_EXITING t, 0)]
     let s2 := if s1.domOf t = 0 then
         ((s1.updCore (2 * t) (fun k => { k with halt := false })).updCore (2 * t + 1)
           (fun k => { k with halt := false })).haltFlag t
       else s1
     let s3 := s2.clkStart t
     (s3.cmds.filter (fun e => match e.2 with
       | some c => c.d.op == 0x21 && c.d.par 0 == 6 && c.phase == 1 && c.d.tile == t
       | none => false)).foldl (fun s e => s.finish e.1 stOK 0) s3)

/-- R500. -/
def State.hclr (s : State) (h : Nat) : State :=
  let cs := (List.range 3).flatMap (fun i => (List.range 5).flatMap (fun j =>
    [(R.PWR_HREF_COUNT h i j, 0), (R.PWR_HABT_COUNT h i j, 0)]))
  let ts := (List.range 8).flatMap (fun j =>
    [(R.TIL_PWR_SVC_COUNT (8 * h + j), 0), (R.TIL_PWR_WAKES_COUNT (8 * h + j), 0)])
  s.setFs (cs ++ ts)
def execPwrHclr (h : Nat) (s : State) : Out := whenOk (decide (h < 32)) s (s.hclr h)
/-- R501. -/
def State.pclr (s : State) : State :=
  s.setFs ((List.range 3).flatMap (fun i => (List.range 5).flatMap (fun j =>
    [(R.PWR_REF_COUNT i j, 0), (R.PWR_ABT_COUNT i j, 0)])))
def execPwrClr (s : State) : Out := .next s.pclr

/-! ### Limits (R540) -/

/-- A two's complement byte as a temperature. -/
def degC (b : Nat) : Int := if b % 256 < 128 then b % 256 else (b % 256 : Nat) - 256
def State.hiveTemp (s : State) (h : Nat) : Int := degC (Tbl.get 0 s.temps h)
def State.memHot (s : State) : Bool := decide (degC (s.f R.PWR_TEMP_TMEM) ≥ 95)
def State.curHot (s : State) : Bool := decide (s.f R.PWR_IMAIN_DA ≥ 6000)
/-- A rule of R540 steps hive `h` now. -/
def State.stepsNow (s : State) (h : Nat) : Bool := decide (s.hiveTemp h ≥ 102) || s.memHot || s.curHot
/-- Every condition is clear. -/
def State.allClear (s : State) : Bool :=
  (List.range 32).all (fun h => decide (s.hiveTemp h ≤ 98)) && decide (degC (s.f R.PWR_TEMP_TMEM) ≤ 92) && !s.curHot
    && s.pins.limN

/-- R540, R548: the level of SMBALERT_N: low while the limit of some hive is set. -/
def State.smbAlertN (s : State) : Bool := (List.range 32).all (fun h => s.f (R.PWR_HCAP_CAP h) == 96)

/-- R540: hive `h`'s CAP becomes `v`; the first step below 96 and the return to it are reported; tiles follow (R90). -/
def State.setCap (s : State) (h v : Nat) : State :=
  let old := s.f (R.PWR_HCAP_CAP h)
  if v = old then s
  else
    let s := s.setFs [(R.PWR_HCAP_CAP h, v), (R.PWR_HCAP_CAPPED h, b2n (decide (v < 96)))]
    let s := { s with capAt := Tbl.set 0 s.capAt h s.ns }
    let s := if old = 96 ∨ v = 96 then (s.record 10 h 0 0x0800 (v + (if v < 96 then 128 else 0)) s.time).trigger 1005 else s
    let s := if (List.range 32).all (fun h => s.f (R.PWR_HCAP_CAP h) == 96) then
        s.setFs [(R.PWR_LIMSTAT_THERM, 0), (R.PWR_LIMSTAT_MEM, 0), (R.PWR_LIMSTAT_CURR, 0)]
      else s
    (List.range 8).foldl (fun s j => s.clkStart (8 * h + j)) s

def State.maxCur (s : State) (h : Nat) : Nat :=
  (List.range 8).foldl (fun m j => if s.fused (8 * h + j) then m else max m (s.f (R.TIL_CLK_STAT_CUR (8 * h + j)))) 0

/-- The first step of hive `h` under the rule whose flag is `fl`. -/
def State.firstStep (s : State) (fl : Fld) (h : Nat) : State :=
  (s.setF fl 1).setCap h (min (s.f (R.PWR_HCAP_CAP h)) (s.maxCur h - 4))

/-- R540, R542: the sensors are read: the hottest of hive `h`, the hottest stack, the 1 ms current in 0.1 A. -/
def execSensorRead (h tj tmem da : Nat) (s : State) : Out :=
  let s1 : State := { s with temps := Tbl.set 0 s.temps h (tj % 256) }
  let hot := (List.range 32).foldl (fun (m : Nat) i => if degC (Tbl.get 0 s1.temps i) > degC m then Tbl.get 0 s1.temps i else m)
    (Tbl.get 0 s1.temps 0)
  let s1 := s1.setFs [(R.PWR_TEMP_TJ, hot), (R.PWR_TEMP_TMEM, tmem % 256), (R.PWR_IMAIN_DA, da)]
  let s2 : State := if s.hiveTemp h < (102 : Int) ∧ s1.hiveTemp h ≥ (102 : Int) then s1.firstStep R.PWR_LIMSTAT_THERM h else s1
  let s3 : State := if s1.hiveTemp h ≥ (105 : Int) then s2.setCap h (min (s2.f (R.PWR_HCAP_CAP h)) 32) else s2
  let s4 := if !s.memHot ∧ s1.memHot then (List.range 32).foldl (fun s h => s.firstStep R.PWR_LIMSTAT_MEM h) s3 else s3
  let s5 := if !s.curHot ∧ s1.curHot then (List.range 32).foldl (fun s h => s.firstStep R.PWR_LIMSTAT_CURR h) s4 else s4
  let s6 := if s5.allClear && !s.allClear then { s5 with clearAt := s5.ns } else s5
  whenOk (decide (h < 32)) s s6

/-- R540: a hive's CAP goes 4 lower while a rule steps it, or 4 higher once every condition has been clear for 1 ms; with
PWRLIM_N low it does not rise past PWR_PWRLIM. -/
def execCapStep (h : Nat) (s : State) : Out :=
  let cap := s.f (R.PWR_HCAP_CAP h)
  let last := Tbl.get 0 s.capAt h
  if h ≥ 32 then turnedAway s
  else if s.stepsNow h then whenOk (decide (last + 100000 ≤ s.ns)) s (s.setCap h (cap - 4))
  else whenOk (s.allClear && decide (cap < 96 ∧ s.clearAt + 1000000 ≤ s.ns ∧ last + 1000000 ≤ s.ns)) s
    (s.setCap h (min 96 (cap + 4)))

/-- R540: PWRLIM_N goes low (`low`) or high. -/
def execPwrlimN (low : Bool) (s : State) : Out :=
  let s1 : State := { s with pins := { s.pins with limN := !low } }
  let s1 := s1.setF R.PWR_LIMSTAT_PIN (b2n low)
  if low then
    .next ((List.range 32).foldl (fun s h =>
      s.setCap h (min (s.f (R.PWR_HCAP_CAP h)) (min 96 (s.f R.PWR_PWRLIM_CODE)))) s1)
  else .next (if s1.allClear && !s.allClear then { s1 with clearAt := s1.ns } else s1)

end Sys2Proof.Machine
end

