-- ==== Sys2Proof/Machine/Channel.lean ====
section
/-! DEFINITION. The memory channels' own commands: acceptance and scheduling (R288 to R291), refresh and the disturbance
defence (R287, R304 to R306), retraining (R301 to R303), segments and self-refresh (R299, R300), the Forager (R308 to R310)
and correctable-error accounting (R311). -/

namespace Sys2Proof.Machine
open Sys2Proof

def ChReq.isRead (r : ChReq) : Bool := match r.op with | .homeRd .. => true | _ => false
def ChReq.bank (r : ChReq) : Nat := bankOf (r.L / 24)

/-! ### Queues -/

/-- R27, R288, R290: the memory Seam passes what the homes sent in the order they sent it. While the queue of one kind is full,
the first request of the other kind may pass, unless an earlier request of its line stands before it. -/
def firstFit (rd wr : Nat) (l : List ChReq) : Option (ChReq × List ChReq) :=
  let room (r : ChReq) : Bool := if r.isRead then decide (rd < 64) else decide (wr < 64)
  match l with
  | [] => none
  | h :: rest =>
    if room h then some (h, rest)
    else
      match rest.find? (fun r => r.isRead != h.isRead) with
      | some r => if room r && !((h :: rest).takeWhile (fun o => o != r)).any (·.L == r.L) then some (r, l.erase r) else none
      | none => none

/-- R289: a WR_NC of every protected bit of the line: what it stores. -/
def ChOp.wholeLine : ChOp → Option LineD
  | .ncWr m => m.wr.bind (fun w => if w.mask = BitVec.allOnes 64 ∧ w.pol ≠ .preserve then some (mergeWr lineZero w).1 else none)
  | _ => none
/-- What stands in the queue: a WR_NC that reads nothing is a write of the line. -/
def ChOp.accepted (o : ChOp) : ChOp := match o.wholeLine with | some d => .homeWr d none | none => o

/-- R254: WR_DONE to the writer, and its transaction closes. -/
def State.ncDone (s : State) (L : Nat) (m : Msg) (bad : Bool) : State :=
  if s.txns.any (fun t => t.L == L && t.m == m) then
    (s.send { k := .wrDone, L := L, agent := m.agent, stat := b2n bad }).closeTxn L
  else s

/-- R165, R299: the status that a WR_NC will meet at its line: it is refused, or one of its partly written code words is
poisoned. -/
def State.ncBad (s : State) (L : Nat) (m : Msg) : Bool :=
  s.chanGone L || match m.wr with | some w => (mergeWr (s.dramPeek L) w).2 | none => false

/-- R177, R238, R254: what the acceptance of request `r` lets go: the fill whose victim it writes, WR_DONE, the Device store that is
complete now. -/
def State.onAccept (s : State) (r : ChReq) : State :=
  match r.op with
  | .homeWr _ (some f) => s.llcFill r.dom f
  | .ncWr m => s.ncDone r.L m (s.ncBad r.L m)
  | .devWr c tag .. =>
    s.updCore c (fun k => { k with posted := k.posted.map (fun p => if !p.fab && p.tag == tag then { p with done := true } else p) })
  | _ => s

/-- R288: the channel accepts a request into its queue. -/
def execChannelRequestAccept (ch : Nat) (s : State) : Out :=
  let k := s.chan ch
  if !(decide (ch < 24) && s.chanOpen ch) then turnedAway s
  else
    match firstFit k.rdq.length k.wrq.length k.inq with
    | none => turnedAway s
    | some (r, rest) =>
      let r1 := { r with op := (match r.op with | .homeWr d _ => .homeWr d none | o => o.accepted), n := k.accN, at_ := s.ns }
      let wrq := if r.isRead then k.wrq else k.wrq ++ [r1]
      let s1 := s.setChan ch { k with
        inq := rest, accN := k.accN + 1, rdq := if r.isRead then k.rdq ++ [r1] else k.rdq, wrq := wrq
        drain := k.drain || decide (wrq.length ≥ 48) }
      .next (s1.onAccept r)

/-- A request leaves its queue; draining stops at 16 writes (R290). -/
def State.chanTake (s : State) (ch : Nat) (r : ChReq) : State :=
  let k := s.chan ch
  let wrq := k.wrq.filter (·.n != r.n)
  s.setChan ch { k with rdq := k.rdq.filter (·.n != r.n), wrq := wrq, drain := k.drain && decide (wrq.length > 16) }

/-- What answers a read: the atomic that waited for the line is performed; DATA of the line, which the LLC takes first where it
allocates (R236, R238). -/
def State.chanReply (s : State) (r : ChReq) (m : Msg) (kind : Kind) (alloc : Bool) (d : LineD) : State :=
  if m.k = .atomic then s.atomHome m d
  else
    let data : Msg := { k := .data, L := r.L, agent := m.agent, core := m.core, dom := m.dom, kind := kind, d := some d }
    if alloc ∧ (s.llcE r.L).isNone then s.llcReq r.L r.dom d false [data] false
    else
      let s2 := s.send data
      if kind = .none ∧ s2.txns.any (fun t => t.L == r.L && t.m == m) then s2.closeTxn r.L else s2

/-- What a request does at the array (R296, R297, R299). -/
def State.chanDo (s : State) (r : ChReq) : State :=
  match r.op with
  | .homeRd m kind alloc =>
    let (s1, d) := s.dramRead r.L r.dom 0
    s1.chanReply r m kind alloc d
  | .homeWr d _ => s.dramWriteLine r.L r.dom d
  | .ncWr m => (match m.wr with | some w => (s.dramPartial r.L r.dom w).1 | none => s)
  | .devWr c tag off size data lo lk =>
    let (s1, st, o, l, drop) := s.devStore r.L r.dom off size data lo lk
    { s1 with devRep := s1.devRep ++ [(⟨c, tag, st, o, l, drop⟩ : DevReply)] }

/-- R289: the queued whole-line write that answers a read, where the latest older write of the line is one. -/
def Chan.answering (k : Chan) (r : ChReq) : Option LineD :=
  ((k.wrq.filter (fun w => w.L == r.L && decide (w.n < r.n))).getLast?).bind (fun w => match w.op with
    | .homeWr d _ => some d
    | _ => none)

/-- R290: a request with no older request of its line, and no throttle in its way. -/
def State.chanEligible (s : State) (ch : Nat) (r : ChReq) : Bool :=
  let k := s.chan ch
  !((k.rdq ++ k.wrq).any (fun o => o.L == r.L && decide (o.n < r.n))) && !(s.throttled ch r.bank r.dom)

/-- R290: `r` is a request that its bank may serve next. -/
def State.chanTurn (s : State) (ch : Nat) (r : ChReq) : Bool :=
  let k := s.chan ch
  let mine := (k.rdq ++ k.wrq).filter (fun o => o.bank == r.bank && s.chanEligible ch o)
  let older := mine.filter (fun o => decide (o.n < r.n))
  s.chanEligible ch r && !(older.any (fun o => decide (o.at_ + 1000 ≤ s.ns)))
    && (decide (r.at_ + 1000 ≤ s.ns)
      || (if r.isRead then !(older.any (·.isRead))
          else !(older.any (fun o => !o.isRead)) && (k.drain || !(mine.any (·.isRead)))))

/-- R289, R290, R299: the channel serves the oldest queued read (`rd`) or write of line `L`; a read that a queued write answers needs
no bank. How long a bank is busy is the environment's part. -/
def execBankOperation (ch L : Nat) (rd : Bool) (s : State) : Out :=
  let k := s.chan ch
  if !(decide (ch < 24) && s.chanOpen ch) then turnedAway s
  else
    match (if rd then k.rdq else k.wrq).find? (·.L == L) with
    | none => turnedAway s
    | some r =>
      match r.op, k.answering r with
      | .homeRd m kind alloc, some d =>
        whenOk (!(k.rdq.any (fun o => o.L == L && decide (o.n < r.n)))) s
          (if s.chanGone L then ((s.chanTake ch r).countGone L).chanReply r m kind alloc linePoison
           else (s.chanTake ch r).chanReply r m kind alloc d)
      | _, _ =>
        whenOk (s.bankOpen ch r.bank && s.chanTurn ch r) s ((s.chanTake ch r).chanDo r)

/-! ### Refresh and the disturbance defence -/

/-- R305: the targeted refresh of `bank` ends. -/
def execTargetedRefreshDone (ch bank : Nat) (s : State) : Out :=
  let k := s.chan ch
  whenOk (decide (ch < 24) && k.tref.any (·.1 == bank)) s
    (s.setChan ch { k with tref := k.tref.eraseP (·.1 == bank) })

/-- R306. -/
def execThrottleExpiry (ch bank dom : Nat) (s : State) : Out :=
  let k := s.chan ch
  let sel (x : Throttle) : Bool := x.bank == bank && x.dom == dom && decide (x.till ≤ s.ns)
  whenOk (decide (ch < 24) && k.thr.any sel) s (s.setChan ch { k with thr := k.thr.filter (fun x => !(sel x)) })

/-- R304. -/
def execGroupCounterReset (ch : Nat) (s : State) : Out :=
  let k := s.chan ch
  whenOk (decide (ch < 24 ∧ k.grpAt + 32000000 ≤ s.ns)) s (s.setChan ch (k.freshGroups s.ns))

/-- R287: a refresh of `bank` falls due: it is performed with those postponed before it, or postponed (`busy`), at most 8
of them. -/
def execRefresh (ch bank : Nat) (busy : Bool) (s : State) : Out :=
  let k := s.chan ch
  let due := Tbl.get 0 k.refDue bank
  if !(decide (ch < 24 ∧ bank < 64) && s.f (R.MEM_STAT_TRAINED ch) == 1 && s.f (R.MEM_STAT_SREF ch) == 0) then turnedAway s
  else if busy then whenOk (decide (due < 8)) s (s.setChan ch { k with refDue := Tbl.set 0 k.refDue bank (due + 1) })
  else whenOk (s.f (R.MEM_STAT_PAUSED ch) == 0 && !(k.tref.any (·.1 == bank))) s
    (s.setChan ch { k with refDue := Tbl.set 0 k.refDue bank 0 })

/-! ### Retraining -/

/-- R302: when a deferral ends: at its own time, or 16 ms past the due time; none is due in self-refresh (R300). -/
def State.deferEnd (s : State) (ch : Nat) : Nat :=
  if s.f (R.MEM_STAT_SREF ch) = 1 ∨ (s.chan ch).exiting then (s.chan ch).deferTo
  else min (s.chan ch).deferTo (s.trainDue ch + 16000000)

/-- R301: a retraining starts. -/
def State.trainStart (s : State) (ch : Nat) : State :=
  (s.setF (R.MEM_STAT_PAUSED ch) 1).setChan ch { s.chan ch with trainAt := s.ns, asked := none }
def execRetraining (ch : Nat) (s : State) : Out :=
  whenOk (decide (ch < 24) && s.chanOpen ch && decide (s.trainDue ch ≤ s.ns)
    && s.f (R.MEM_TRAIN_STAT_DEFERRED ch) == 0) s (s.trainStart ch)

/-- R303: a retraining has ended, converged or not. -/
def State.trainEnd (s : State) (ch : Nat) (conv : Bool) : State :=
  let s := s.incSat (R.MEM_TRAIN_COUNT_COUNT ch)
  if conv then s.setF (R.MEM_TRAIN_STAT_FAILS ch) 0
  else
    let n := min 3 (s.f (R.MEM_TRAIN_STAT_FAILS ch) + 1)
    let s := s.setF (R.MEM_TRAIN_STAT_FAILS ch) n
    let s := (s.raise (800 + 5 * ch + 3) 0).record 4 ch 1 0x0302 n s.time
    if n = 3 ∧ s.f (R.MEM_STAT_FAILED ch) = 0 then
      ((s.setF (R.MEM_STAT_FAILED ch) 1).raise (800 + 5 * ch + 4) 0).deferred 4 ch 0x0303 0 s.time
    else s

/-- R301 step 4; `conv`: it converged; `len`: the pause in ns. Refreshes that fell due are issued first. -/
def execRetrainingDone (ch : Nat) (conv : Bool) (len : Nat) (s : State) : Out :=
  whenOk (decide (ch < 24 ∧ len ≤ 200) && s.f (R.MEM_STAT_PAUSED ch) == 1) s
    (let s1 := s.setFs [(R.MEM_STAT_PAUSED ch, 0), (R.MEM_TRAIN_STAT_LAST_NS ch, len)]
     (s1.setChan ch { s1.chan ch with refDue := [] }).trainEnd ch conv)

/-- R302. -/
def State.trainDefer (s : State) (ch v : Nat) : State :=
  let n := min 16000 (bits v 0 15)
  let s1 := (s.setF (R.MEM_TRAIN_STAT_DEFERRED ch) (b2n (n != 0))).setChan ch
    { s.chan ch with deferTo := if n = 0 then s.ns else s.ns + n * 1000 }
  if n = 0 ∧ s.f (R.MEM_TRAIN_STAT_DEFERRED ch) = 1 ∧ s1.chanOpen ch ∧ s1.trainDue ch ≤ s1.ns then s1.trainStart ch else s1
def execMemTrainDeferWrite (ch : Nat) (v : W32) (s : State) : Out := whenOk (decide (ch < 24)) s (s.trainDefer ch v.toNat)

/-- R302: the deferral ends, of itself or cut short; a retraining that has fallen due starts at once. -/
def execDeferralEnd (ch : Nat) (s : State) : Out :=
  if !(decide (ch < 24) && s.f (R.MEM_TRAIN_STAT_DEFERRED ch) == 1 && decide (s.deferEnd ch ≤ s.ns)) then turnedAway s
  else
    let cut := decide (s.deferEnd ch < (s.chan ch).deferTo)
    let s1 := s.setF (R.MEM_TRAIN_STAT_DEFERRED ch) 0
    let s1 := if cut then s1.setF (R.MEM_TRAIN_STAT_CAPPED ch) 1 else s1
    .next (if s1.chanOpen ch ∧ s1.trainDue ch ≤ s1.ns then s1.trainStart ch else s1)

/-- R312, R313. -/
def State.trainCtl (s : State) (ch v : Nat) : State :=
  let n := bits v 0 7
  if 1 ≤ n ∧ n ≤ 64 then s.setF (R.MEM_TRAIN_CTL_INTERVAL ch) n else s.setF (R.MEM_TRAIN_STAT_BADVAL ch) 1
def execMemTrainCtlWrite (ch : Nat) (v : W32) (s : State) : Out := whenOk (decide (ch < 24)) s (s.trainCtl ch v.toNat)

/-! ### Segments and self-refresh -/

/-- R299: the contents of segment `g` are lost. -/
def State.loseSegment (s : State) (ch g : Nat) : State :=
  let here (L : Nat) : Bool := chanOf L == ch && segOf (L / 24) == g
  { s with dram := s.dram.filter (fun e => !(here (e.1 / 8)))
           dramEp := Tbl.set 0 s.dramEp (ch * 8 + g) (Tbl.get 0 s.dramEp (ch * 8 + g) + 1) }

/-- R299: requests accepted for segment `g` are performed, in the order accepted. -/
def State.finishSegment (s : State) (ch g : Nat) : State :=
  let k := s.chan ch
  let rs := ((k.rdq ++ k.wrq).filter (fun r => segOf (r.L / 24) == g)).mergeSort (fun a b => decide (a.n ≤ b.n))
  rs.foldl (fun s r => (s.chanTake ch r).chanDo r) s

/-- R299: KEEP becomes `keep`. -/
def State.pasrKeep (s : State) (ch keep : Nat) : State :=
  (List.range 8).foldl (fun s g =>
    let old := bitOf (s.f (R.MEM_PASR_CTL_KEEP ch)) g
    if old && !(bitOf keep g) then
      let s := s.finishSegment ch g
      (s.setF (R.MEM_PASR_CTL_KEEP ch) (clrBit (s.f (R.MEM_PASR_CTL_KEEP ch)) g)).loseSegment ch g
    else if !old && bitOf keep g then
      s.setFs [(R.MEM_PASR_CTL_KEEP ch, setBit (s.f (R.MEM_PASR_CTL_KEEP ch)) g),
        (R.MEM_PASR_CTL_FSKIP ch, setBit (s.f (R.MEM_PASR_CTL_FSKIP ch)) g)]
    else s) s
/-- A write of MEM_PASR_CTL: FSKIP bits clear where a 1 is written, then KEEP acts. -/
def State.pasrWrite (s : State) (ch v : Nat) : State :=
  let fs := s.f (R.MEM_PASR_CTL_FSKIP ch)
  (s.setF (R.MEM_PASR_CTL_FSKIP ch) (fs - (fs &&& bits v 8 8))).pasrKeep ch (bits v 0 8)
def execMemPasrCtlWrite (ch : Nat) (v : W32) (s : State) : Out := whenOk (decide (ch < 24)) s (s.pasrWrite ch v.toNat)

/-- R300. -/
def execSelfRefreshWake (ch : Nat) (s : State) : Out :=
  whenOk (decide (ch < 24) && s.f (R.MEM_STAT_SREF ch) == 1 && !(s.chan ch).exiting && !(s.chan ch).inq.isEmpty) s
    (s.srefWake ch)

/-- R434: every ring whose POWER subop 3 waits for an exit completes once no channel of its mask is exiting. -/
def State.srefDone (s : State) : State :=
  (s.cmds.filter (fun e => match e.2 with
    | some c => c.d.op == 0x21 && c.d.par 0 == 3 && c.phase == 1
        && (List.range 24).all (fun ch => !(bitOf (c.d.par 1) ch) || !(s.chan ch).exiting)
    | none => false)).foldl (fun s e => s.finish e.1 stOK
      ((List.range 24).foldl (fun m ch => m + s.f (R.MEM_STAT_SREF ch) * 2 ^ ch) 0)) s

/-- R300, R301: an exit ends, with its retraining in full, from whose start `len` ns ago the interval counts. -/
def execSelfRefreshExitDone (ch : Nat) (conv : Bool) (len : Nat) (s : State) : Out :=
  whenOk (decide (ch < 24 ∧ len ≤ 200) && (s.chan ch).exiting) s
    (let s1 := s.setFs [(R.MEM_STAT_SREF ch, 0), (R.MEM_TRAIN_STAT_LAST_NS ch, len)]
     ((s1.setChan ch { s1.chan ch with exiting := false, trainAt := s1.ns - len, asked := none, refDue := [] }).trainEnd ch conv).srefDone)

/-! ### The Forager -/

/-- R308, R309. -/
def execForagerRead (ch : Nat) (s : State) : Out :=
  let k := s.chan ch
  if !(decide (ch < 24) && s.chanOpen ch && s.forageDue ch) then turnedAway s
  else
    match s.forageNext ch with
    | none => turnedAway s
    | some (q, wrap) =>
      if !(s.bankFree ch (bankOf q)) then turnedAway s
      else
        let L := lineAt ch q
        let s1 := s.setChan ch { k with forageAt := s.ns }
        let s1 := if wrap then s1.incSat (R.MEM_FORAGE_PASS_COUNT ch) else s1
        let s2 := if k.wrq.any (·.L == L) then s1 else (s1.dramRead L 0 2).1
        .next (match s2.nextCovered ch (q + 1) with
          | some q1 => s2.setF (R.MEM_FORAGE_POS_Q ch) q1
          | none => (s2.setF (R.MEM_FORAGE_POS_Q ch) ((s2.nextCovered ch 0).getD q)).incSat (R.MEM_FORAGE_PASS_COUNT ch))

/-- R312, R313: a write of a scrub-range entry. -/
def State.scrubWrite (s : State) (ch i v : Nat) : State :=
  let s1 := s.setFs [(R.MEM_SCRUB_RANGE_FIRST ch i, bits v 0 29), (R.MEM_SCRUB_RANGE_LAST ch i, bits v 32 29),
    (R.MEM_SCRUB_RANGE_V ch i, bits v 63 1)]
  match s1.nextCovered ch (s1.f (R.MEM_FORAGE_POS_Q ch)) with
  | some q => s1.setF (R.MEM_FORAGE_POS_Q ch) q
  | none => s1
def execMemScrubRangeWrite (ch i : Nat) (v : W64) (s : State) : Out :=
  whenOk (decide (ch < 24 ∧ i < 8)) s (s.scrubWrite ch i v.toNat)

/-! ### Accounting -/

/-- R311: the bucket leaks. -/
def execCeLeak (ch : Nat) (s : State) : Out :=
  whenOk (decide (ch < 24 ∧ (s.chan ch).leakAt + s.leakIv ch ≤ s.ns)) s (s.ceLeaks ch 1)

/-- R312 MEM_CLR.COUNTERS. -/
def State.memClrCounters (s : State) (ch : Nat) : State :=
  s.setFs [(R.MEM_TRAIN_COUNT_COUNT ch, 0), (R.MEM_SEG_REFUSED_COUNT ch, 0), (R.MEM_FORAGE_PASS_COUNT ch, 0),
    (R.MEM_CE_TOTAL_COUNT ch, 0), (R.MEM_UE_TOTAL_COUNT ch, 0), (R.MEM_POISON_RD_COUNT ch, 0), (R.MEM_RMW_COUNT ch, 0),
    (R.MEM_RDIST_COUNT_COUNT ch, 0), (R.MEM_RDIST_OVF_COUNT ch, 0)]
def execMemClrCounters (ch : Nat) (s : State) : Out := whenOk (decide (ch < 24)) s (s.memClrCounters ch)
def State.memClrBucket (s : State) (ch : Nat) : State :=
  s.setFs [(R.MEM_CE_BUCKET_COUNT ch, 0), (R.MEM_CE_BUCKET_ARMED ch, 1)]
def execMemClrBucket (ch : Nat) (s : State) : Out := whenOk (decide (ch < 24)) s (s.memClrBucket ch)

end Sys2Proof.Machine
end

