-- ==== Sys2Proof/Machine/MemOps.lean ====
section
/-! DEFINITION. DRAM as the command processor, engines, keepers and the fabric interface reach it: reads and writes of byte
ranges through the homes, with what must hold before one starts; and events handed back to their hub. -/

namespace Sys2Proof.Machine
open Sys2Proof

/-- R22, R24, R277: agent `g` reaches the home of line `L` and is answered: both route entries are valid. -/
def State.reaches (s : State) (g L : Nat) : Bool :=
  s.routed (agentNi g (homeOf L)) (homeOf L) && s.routed (homeOf L) (agentIdx g)

/-- Agent `g` (R248's number; the command processor and the meter send through the host endpoint's stops) can read (`wr`: write)
every line of [a, a + n) now: the mesh takes requests, a route is valid each way, the home is free for the line, and the line can
be served. -/
def State.memReady (s : State) (a n dom : Nat) (wr : Bool) (g : Nat := 256) : Bool :=
  s.meshRuns && (linesOf a n).all (fun L => s.reaches g L && if wr then s.lineQuiet L && s.writeOpen L dom else !(s.lineBusy L) && s.homeOpen L dom)

/-- Wait for the range: a channel in self-refresh is woken (R300). -/
def State.memWait (s : State) (a n dom : Nat) : Out :=
  match (linesOf a n).find? (fun L => !(s.homeOpen L dom)) with
  | some L => if s.meshRuns then s.arrayWait L else turnedAway s
  | none => turnedAway s

/-- The same, for a unit that looks again by itself. -/
def State.memNudge (s : State) (a n dom : Nat) : State :=
  match (linesOf a n).find? (fun L => !(s.homeOpen L dom)) with
  | some L =>
    let ch := chanOf L
    if s.meshRuns ∧ s.f (R.MEM_STAT_SREF ch) = 1 ∧ !(s.chan ch).exiting then s.srefWake ch else s
  | none => s

/-- The bytes of a range, and whether a code word among them was poisoned. -/
def State.memRead (s : State) (dom a n : Nat) : State × List Nat × Bool :=
  (linesOf a n).foldl (fun (acc : State × List Nat × Bool) L =>
    let (s1, d) := acc.1.ncRead L dom
    let lo := max a (L * 64)
    let hi := min (a + n) (L * 64 + 64)
    (s1, acc.2.1 ++ leBytes (hi - lo) (d.read (lo - L * 64) (hi - lo)),
      acc.2.2 || spanPoison d.poison (lo - L * 64) (hi - lo))) (s, [], false)

/-- Write a range under a lock policy; the second part: an error status (R165, R299). -/
def State.memWrite (s : State) (dom a : Nat) (bs : List Nat) (pol : LockPol) : State × Bool :=
  (linesOf a bs.length).foldl (fun (acc : State × Bool) L =>
    let (s1, bad) := acc.1.ncWrite L dom (lineWr L a bs pol)
    (s1, acc.2 || bad)) (s, false)

/-- Little-endian field of `n` bytes at offset `o`. -/
def leAt (bs : List Nat) (o n : Nat) : Nat := ofLe ((bs.drop o).take n)

/-- R37, R314: the word of keeper SRAM at window offset `o`: none beyond the first 256 KiB. -/
def kwinKey (o : Nat) : Option Nat := if o % 2 ^ 20 < 0x40000 then some (o / 2 ^ 20 * 2 ^ 15 + o % 2 ^ 20 / 8) else none
/-- Read up to 8 bytes inside one word of a window; the second part: uncorrectable. -/
def State.kwinRead (s : State) (o size : Nat) : Nat × Bool :=
  match kwinKey o with
  | some key => (s.kword key / 2 ^ (8 * (o % 8)) % 2 ^ (8 * size), s.ksramBad.contains key)
  | none => (0, false)
def State.kwinWrite (s : State) (o size v : Nat) : State :=
  match kwinKey o with
  | some key =>
    let sh := 2 ^ (8 * (o % 8))
    let old := s.kword key
    let new := old - (old / sh % 2 ^ (8 * size)) * sh + (v % 2 ^ (8 * size)) * sh
    { s with ksram := Tbl.set 0 s.ksram key new
             ksramBad := if size = 8 then s.ksramBad.filter (· != key) else s.ksramBad }
  | none => s

/-- R144: an arrival goes back to its hub: it is pending again. -/
def State.evReturn (s : State) (h : Held) : State :=
  let s1 := s.setFs [(R.EVT_STAT_HELD h.src, 0), (R.EVT_STAT_PEND h.src, 1)]
  s1.dpend h.dom

end Sys2Proof.Machine
end

