-- ==== Sys2Proof/Machine/KeeperCtl.lean ====
section
/-! DEFINITION. Images and their checks (R332, R333, R525, R528), keeper restart, and module load and unload (R334). -/

namespace Sys2Proof.Machine
open Sys2Proof

/-! ### Image checks -/

def State.slotRoll (s : State) (slot : Nat) : Nat :=
  s.fuses.roll.foldl (fun m e => if e.1 = slot then max m e.2 else m) 0
def State.slotKeyed (s : State) (slot : Nat) : Bool := slot == 0 || s.fuses.digest.any (·.1 == slot)

def imgCodeLen (b : List Nat) : Nat := leAt b 0x14 4
def imgCode (b : List Nat) : List Nat := (b.drop 0x100).take (imgCodeLen b)
def imgOff (b : List Nat) : Nat := leAt b 0x10 4
def imgEntry (b : List Nat) : Nat := leAt b 0x18 4
def imgBss (b : List Nat) : Nat := leAt b 0x1C 4
def imgGrants (b : List Nat) : List Nat := (List.range 4).map (fun i => leAt b (0x28 + 8 * i) 8)

/-- R332: the header of an image of kind 0 firmware, 1 module or 2 monitor has the form given; `lim`: the bytes there are
to load into. -/
def imgForm (b : List Nat) (kind lim : Nat) : Bool :=
  let magic := match kind with | 0 => [0x55, 0x4B, 0x46, 0x57] | 1 => [0x55, 0x4B, 0x4D, 0x44] | _ => [0x55, 0x4B, 0x4D, 0x4E]
  let zero (o n : Nat) : Bool := leAt b o n == 0
  b.take 4 == magic && leAt b 4 2 == 1 && leAt b 6 2 == kind
    && imgOff b % 4096 == 0 && imgCodeLen b % 4 == 0 && decide (imgOff b + imgCodeLen b + imgBss b ≤ lim)
    && decide (imgOff b ≤ imgEntry b ∧ imgEntry b < imgOff b + imgCodeLen b)
    && (if kind = 1 then decide (1 ≤ leAt b 0x20 1 ∧ leAt b 0x20 1 ≤ 3) else zero 0x20 1 && zero 0x22 4 && zero 0x28 32)
    && zero 0x21 1 && zero 0x26 2 && zero 0xD8 40

/-- R333, R525, R528: 0 accepted; 1 signature, 2 digest, 3 rollback, 4 layout, 5 read error, 6 slot revoked. The checks are
made in the order R333 lists them. -/
def State.imgCheck (s : State) (b : List Nat) (kind lim : Nat) : Nat :=
  let slot := leAt b 0x20 1
  if b.length < 0x100 ∨ b.length < 0x100 + imgCodeLen b then 5
  else if s.fuses.revoked.contains slot then 6
  else if !(s.slotKeyed slot) || !(Config.signatureOk (slot :: b.take 0x78 ++ (b.drop 0x78).take 96)) then 1
  else if sha384 (imgCode b) ≠ (b.drop 0x48).take 48 then 2
  else if leAt b 0x0C 4 < s.slotRoll slot then 3
  else if !(imgForm b kind lim) then 4
  else 0

/-- Write code and zeroed bytes into keeper `h`'s SRAM; `wipe`: the rest becomes zero (R334). -/
def State.sramLoad (s : State) (h : Nat) (b : List Nat) (wipe : Bool) : State :=
  let mine (k : Nat) : Bool := k / 2 ^ 15 == h
  let s := if wipe then { s with ksram := s.ksram.filter (fun e => !(mine e.1)), ksramBad := s.ksramBad.filter (fun k => !(mine k)) } else s
  let code := imgCode b
  let n := (imgCodeLen b + imgBss b) / 4
  let s := (List.range n).foldl (fun s i => s.kwinWrite (h * 2 ^ 20 + imgOff b + 4 * i) 4 (leAt code (4 * i) 4)) s
  (List.range (imgBss b % 4)).foldl (fun s i => s.kwinWrite (h * 2 ^ 20 + imgOff b + 4 * n + i) 1 0) s

/-! ### Restart -/

/-- R334: RESTART. Events its keeper held or had active go back to the hub. DESIGN CHOICE: HIV_KMOD_STAT.STATUS returns to 0 with
the module that is discarded; the spec names only the two device-wide resets for it (notes/assumptions/53.md). -/
def State.keeperRestart (s : State) (h : Nat) : State :=
  let s1 := (s.keeper h).held.foldl (fun s x => s.evReturn x) s
  let act := (s1.csr.filter (fun e => let a := e.1 / 128
    0x400000 ≤ a && a < 0x420000 && a % 16 == 8)).map (fun e => (e.1 / 128 - 0x400000) / 16)
  let s2 := act.foldl (fun (s : State) src => s.evEnd (512 + h) none src) s1
  (s2.setKeeper h {}).setFs [(R.HIV_KSTAT_STATE h, 0), (R.HIV_KMOD_STAT_STATUS h, 0)]
def execKeeperRestart (h : Nat) (s : State) : Out := whenOk (decide (h < 32)) s (s.keeperRestart h)

/-- R525: the copy of an image to use: copy A first. -/
def State.pickImage (s : State) (a kind lim : Nat) : Option (List Nat × Bool) :=
  let A := s.flash.getD a []
  let B := s.flash.getD (a + 1) []
  if s.imgCheck A kind lim = 0 then some (A, false)
  else if s.imgCheck B kind lim = 0 then some (B, true) else none

/-- Keeper `h` starts the firmware of an accepted image, or fails. -/
def State.keeperStart (s : State) (h : Nat) : State :=
  match s.pickImage 0 0 0x40000 with
  | some (b, _) =>
    ((s.sramLoad h b true).setKeeper h { pc := BitVec.ofNat 64 (imgEntry b) }).setF (R.HIV_KSTAT_STATE h) 1
  | none => s.setF (R.HIV_KSTAT_STATE h) 3
def execKeeperRestartDone (h : Nat) (s : State) : Out :=
  whenOk (decide (h < 32) && s.f (R.HIV_KSTAT_STATE h) == 0 && s.f R.BOOT_STAT_DONE == 1) s (s.keeperStart h)

/-! ### Modules -/

/-- R333: a grant that is valid overlaps BOOT, SEC or a keeper SRAM window. -/
def grantBad (g : Nat) : Bool :=
  let sz := bits g 2 6
  let base := bits g 12 34 * 4096 / 2 ^ sz * 2 ^ sz
  let hits (a n : Nat) : Bool := base < a + n && a < base + 2 ^ sz
  g.testBit 0 && 12 ≤ sz && sz ≤ 45 && (hits 0x3F00_0000_0000 0x20_0000 || hits 0x3F01_0000_0000 0x200_0000)

/-- R333: the module rules beside those of every image, as HIV_KMOD_STAT codes. -/
def modCheck (b : List Nat) : Nat :=
  let n := leAt b 0x22 2
  let e0 := leAt b 0x24 2
  if imgOff b < 0x30000 then 5
  else if n ≠ 0 ∧ (e0 < 1024 ∨ e0 + n > 8192) then 5
  else if (imgGrants b).any grantBad then 6
  else 2

/-- R334: HIV_KMOD_CMD. -/
def State.kmodCmd (s : State) (h op : Nat) : State :=
  if s.f (R.HIV_KMOD_STAT_STATUS h) = 1 then s
  else if op = 1 then s.setF (R.HIV_KMOD_STAT_STATUS h) (if s.f (R.HIV_KSTAT_STATE h) = 1 then 1 else 8)
  else if op = 2 then s.modUnload h
  else s
def execModuleLoad (h : Nat) (s : State) : Out := whenOk (decide (h < 32)) s (s.kmodCmd h 1)
def execModuleUnload (h : Nat) (s : State) : Out := whenOk (decide (h < 32)) s (s.kmodCmd h 2)

/-- R333, R334: the image has been read and verified; one that passes replaces the module loaded before. -/
def execModuleLoadDone (h : Nat) (s : State) : Out :=
  let a := s.f (R.HIV_KMOD_ADDR_ADDR h) * 256
  let status (s : State) (v : Nat) : State := s.setF (R.HIV_KMOD_STAT_STATUS h) v
  if !(decide (h < 32) && s.f (R.HIV_KMOD_STAT_STATUS h) == 1) then turnedAway s
  else if s.f (R.HIV_KSTAT_STATE h) ≠ 1 then .next (status s 8)
  else if a + 256 > dramEnd then .next (status s 7)
  else if !(s.memReady a 256 0 false (258 + h)) then s.memWait a 256 0
  else
    let (s1, hd, bad) := s.memRead 0 a 256
    let n := imgCodeLen hd
    if bad ∨ a + 256 + n > dramEnd then .next (status s1 7)
    else if n > 0x40000 then .next (status s1 5)
    else if !(s.memReady a (256 + n) 0 false (258 + h)) then s.memWait a (256 + n) 0
    else
      let (s2, code, bad2) := s1.memRead 0 (a + 256) n
      let b := hd ++ code
      if bad2 then .next (status s2 7)
      else
        let st := match s2.imgCheck b 1 0x40000 with
          | 0 => modCheck b | 3 => 4 | 4 => 5 | 5 => 7 | _ => 3
        if st ≠ 2 then .next (status s2 st)
        else
          let m : KMod := ⟨imgOff b, n, imgEntry b, leAt b 0x22 2, leAt b 0x24 2, imgGrants b, leAt b 8 4⟩
          let s3 := s2.sramLoad h b false
          .next (status (s3.setKeeper h { s3.keeper h with mod := some m }) 2)

end Sys2Proof.Machine
end

