-- ==== Sys2Proof/Machine/Meter.lean ====
section
/-! DEFINITION. The meter engine (R370 to R379): accrual over device time, periods, usage records and the meter ring. -/

namespace Sys2Proof.Machine
open Sys2Proof

/-! ### Accrual (R371) -/

/-- R372: the band of a CODE under the bands in force. -/
def bandOf (bs : List Nat) (code : Nat) : Nat := (bs.filter (fun b => decide (b ≤ code))).length

/-- The ways of all 256 slices that the domain's class allows (R237, R371). -/
def State.llcWays (s : State) (d : Nat) : Nat :=
  let c := s.f (R.DOM_CFG_LLC_CLASS d)
  (List.range 256).foldl (fun a t =>
    let w := s.f (R.TIL_LLC_CLASS_WAYS t c)
    a + (List.range 16).foldl (fun n i => n + b2n (w.testBit i)) 0) 0

/-- Domains with an open period. -/
def State.metered (s : State) : List Nat := (s.mper.filter (fun e => e.2.isOpen)).map (·.1)

/-- R371: tile `t` runs its domain in T0, and how many of its cores are not halted. -/
def State.coresRun (s : State) (t : Nat) : Nat :=
  let d := s.domOf t
  if d = 0 ∨ s.f (R.DOM_STATE_STATE d) ≠ domRUNNING ∨ Tbl.get 0 s.tilePark t ≠ 0 ∨ s.f (R.TIL_PWR_STAT_STATE t) ≠ 0 then 0
  else [2 * t, 2 * t + 1].foldl (fun n c => let k := s.core c; n + b2n (k.run && !k.stopped && !k.halt)) 0

/-- One nanosecond of device time accrues. -/
def State.accrue (s : State) : State :=
  let s := s.tileDom.foldl (fun s e =>
    let t := e.1
    let n := s.coresRun t
    let s := s.meter e.2 (bandOf s.mbands (s.f (R.TIL_CLK_STAT_CUR t))) n
    if s.paired t && n != 0 then s.meter e.2 4 1 else s) s
  s.metered.foldl (fun s d =>
    let s := (s.meter d 5 (s.f (R.DOM_MEMHELD_PAGES d))).meter d 6 (s.llcWays d)
    if s.f (R.DOM_STATE_STATE d) = domPARKED then s.meter d 7 1 else s) s

/-! ### Records (R374 to R376) -/

/-- Accumulators in the record's order: item, units of accrual in one unit of the record, bytes of the field. -/
def mtrFields : List (Nat × Nat × Nat) :=
  [(0, 1000000, 8), (1, 1000000, 8), (2, 1000000, 8), (3, 1000000, 8), (4, 1000000, 8), (5, 256000000000, 8),
   (6, 1000000, 8), (21, 1, 8), (22, 1, 8), (7, 1000000, 4), (20, 1, 4)]

/-- R374: the value reported, what is carried, and whether the field overflowed. -/
def mtrReport (acc unit bytes : Nat) (last : Bool) : Nat × Nat × Bool :=
  let v := if last then (acc + unit - 1) / unit else acc / unit
  let m := 2 ^ (8 * bytes) - 1
  if v > m then (m, acc - m * unit, true) else (v, if last then 0 else acc % unit, false)

/-- R529: the meter key of a generation. -/
def meterKey (gen : Nat) : List Nat := hmac256 Config.deviceSecret ([0x55, 0x48, 0x2D, 0x4D, 0x45, 0x54, 0x45, 0x52] ++ [gen])

/-- What the flags and bounds of a record are, beside the accumulators. -/
structure RecInfo where
  endT : Nat
  last : Bool := false
  part : Bool := false
  tset : Bool := false
  migr : Bool := false
  deriving DecidableEq, Repr

/-- R375, R376: the 128 bytes of domain `d`'s record, with the accumulators carried. -/
def State.usageRecord (s : State) (d : Nat) (x : RecInfo) : State × List Nat :=
  let p := Tbl.get {} s.mper d
  let rs := mtrFields.map (fun f => (f.1, f.2.2, mtrReport (Tbl.get 0 s.mtr (d * 64 + f.1)) f.2.1 f.2.2 x.last))
  let ovf := rs.any (fun r => r.2.2.2.2)
  let gen := s.mkey.getD 0
  let faulted := p.faulted || s.f (R.DOM_STATE_STATE d) == domFAULTED
  let flags := b2n p.first + b2n x.last * 2 + b2n (x.part || p.part) * 4 + b2n (x.tset || p.tset) * 8 + b2n ovf * 16
    + b2n (p.migr || x.migr) * 32 + b2n p.merged * 64 + b2n faulted * 128 + gen % 256 * 2 ^ 24
  let body := leBytes 2 1 ++ leBytes 2 d ++ leBytes 4 (s.f (R.DOM_MTRSEQ_SEQ d)) ++ leBytes 8 p.start ++ leBytes 8 x.endT
    ++ leBytes 4 (s.f R.FAB_DEVNUM_NUM) ++ leBytes 4 flags ++ rs.flatMap (fun r => leBytes r.2.1 r.2.2.1)
  let mtr := rs.foldl (fun m r =>
    Tbl.set 0 (Tbl.set 0 m (d * 64 + r.1) (r.2.2.2.1 + Tbl.get 0 m (d * 64 + r.1 + 32))) (d * 64 + r.1 + 32) 0) s.mtr
  (({ s with mtr := mtr }).incWrap (R.DOM_MTRSEQ_SEQ d), body ++ (hmac256 (meterKey gen) body).take 16)

def State.backlogStat (s : State) : State := s.setF R.MTR_STAT_BACKLOG s.backlog.length
def State.setMper (s : State) (d : Nat) (p : MPer) : State := { s with mper := Tbl.set {} s.mper d p }

/-- R373, R377: the period of domain `d` closes with a record, or is extended while the backlog is full. A record with LAST
is never merged: its command waits for room. -/
def State.closePeriod (s : State) (d newStart : Nat) (x : RecInfo) : State :=
  let p := Tbl.get {} s.mper d
  if !p.isOpen then s
  else if s.backlog.length ≥ 8192 then
    (s.setMper d { p with merged := true, part := p.part || x.part, tset := p.tset || x.tset }).setF R.MTR_STAT_MERGING 1
  else
    let (s1, bs) := s.usageRecord d x
    let s2 := { s1 with backlog := s1.backlog ++ [(⟨bs, false⟩ : MRec)] }.backlogStat
    if x.last then
      ({ s2 with mtr := s2.mtr.filter (fun e => e.1 / 64 != d) }).setMper d {}
    else s2.setMper d { isOpen := true, start := newStart }

/-- The record formed last is the last of its period. -/
def State.markEnd (s : State) (before : Nat) : State :=
  if s.backlog.length > before then
    { s with backlog := s.backlog.dropLast ++ (s.backlog.getLast?.toList.map (fun r => { r with endP := true })) }
  else s

/-- R373: every open period closes, in ascending domain order. -/
def State.closeAll (s : State) (newStart : Nat) (x : RecInfo) : State :=
  let n := s.backlog.length
  let s1 := if n < 8192 then s.setF R.MTR_STAT_MERGING 0 else s
  ((s1.metered.foldl (fun s d => s.closePeriod d newStart x) s1).markEnd n).setF R.MTR_PERIOD_START_NS newStart

/-- R372: bands and period written earlier come into force; the next boundary after `now`. -/
def State.newPeriod (s : State) (now : Nat) : State :=
  let sec := s.f R.MTR_PERIOD_SEC
  let p := sec * 1000000000
  { s with mbands := [s.f R.MTR_BANDS_B1, s.f R.MTR_BANDS_B2, s.f R.MTR_BANDS_B3], msec := sec,
           mbound := (now / p + 1) * p, mstall := false }

/-- The boundary at `mbound`. -/
def State.periodBoundary (s : State) : State :=
  let b := s.mbound
  (s.closeAll b { endT := b }).newPeriod b

/-- R373. In the fatal state the meter closes no period (R513). -/
def execPeriodBoundary (s : State) : Out := whenOk (decide (s.mbound ≤ s.time) && !s.isFatal) s s.periodBoundary

/-- R373: a domain's first period opens now. -/
def State.openPeriod (s : State) (d : Nat) (migr : Bool) : State :=
  s.setMper d { isOpen := true, start := s.time, first := true, migr := migr }
/-- R368, R369, R374: the final record. -/
def State.finalRecord (s : State) (d : Nat) (migr : Bool) : State :=
  (s.closePeriod d s.time { endT := s.time, last := true, migr := migr }).markEnd s.backlog.length

/-! ### The ring (R377) -/

def State.mtrN (s : State) : Nat := 2 ^ min 16 (max 6 (s.f R.MTR_RING_SIZE_LOG2N))

/-- R377: the oldest record of the backlog is written to the ring, where it may be. -/
def execRecordWrite (s : State) : Out :=
  match s.backlog with
  | [] => turnedAway s
  | r :: rest =>
    let hd := s.f R.MTR_RING_HEAD_HEAD
    if s.f R.MTR_CTL_EN = 0 ∨ s.mstall ∨ (hd + 2 ^ 32 - s.f R.MTR_RING_TAIL_TAIL) % 2 ^ 32 ≥ s.mtrN ∨ s.isFatal
        ∨ s.contained ∨ !s.bme ∨ !s.outq.isEmpty then turnedAway s
    else
      match s.hostAccess .meter true (s.f R.MTR_RING_BASE_BASE * 4096 + hd % s.mtrN * 128) 128 r.bytes with
      | .inl s1 =>
        let s2 := ({ s1 with backlog := rest }.incWrap R.MTR_RING_HEAD_HEAD).backlogStat
        .next (if r.endP then s2.raise 1000 0 else s2)
      | .inr sub =>
        .next { ((s.outErr sub).setF R.MTR_STAT_HOSTERR 1) with mstall := true }

def State.mtrGo (s : State) : State := { s with mstall := false }
def State.mtrCtl (s : State) (v : Nat) : State := (s.setF R.MTR_CTL_EN (bits v 0 1)).mtrGo
def execMtrCtlWrite (v : W32) (s : State) : Out := .next (s.mtrCtl v.toNat)
def State.mtrBase (s : State) (v : Nat) : State := (s.setF R.MTR_RING_BASE_BASE (bits v 12 34)).mtrGo
def execMtrRingBaseWrite (v : W64) (s : State) : Out := .next (s.mtrBase v.toNat)

/-- R377: TAIL between the old TAIL and HEAD. -/
def State.mtrTail (s : State) (v : Nat) : State :=
  let t := s.f R.MTR_RING_TAIL_TAIL
  if (v + 2 ^ 32 - t) % 2 ^ 32 ≤ (s.f R.MTR_RING_HEAD_HEAD + 2 ^ 32 - t) % 2 ^ 32 then s.setF R.MTR_RING_TAIL_TAIL v
  else s.setF R.MTR_STAT_BADVAL 1
def execMtrRingTailWrite (v : W32) (s : State) : Out := .next (s.mtrTail v.toNat)

def State.hosterrClear (s : State) : State := (s.setF R.MTR_STAT_HOSTERR 0).mtrGo
def execHosterrClear (s : State) : Out := .next s.hosterrClear

/-- R379: writes of MTR_PERIOD and MTR_BANDS out of range are ignored. -/
def mtrSecOk (v : Nat) : Bool := 1 ≤ v && v ≤ 3600
def mtrBandsOk (v : Nat) : Bool :=
  let (a, b, c) := (bits v 0 7, bits v 8 7, bits v 16 7)
  0 < a && a ≤ b && b ≤ c && c ≤ 96
def State.mtrPeriodWrite (s : State) (v : Nat) : State :=
  if mtrSecOk (bits v 0 12) then s.setF R.MTR_PERIOD_SEC (bits v 0 12) else s.setF R.MTR_STAT_BADVAL 1
def State.mtrBandsWrite (s : State) (v : Nat) : State :=
  if mtrBandsOk v then
    s.setFs [(R.MTR_BANDS_B1, bits v 0 7), (R.MTR_BANDS_B2, bits v 8 7), (R.MTR_BANDS_B3, bits v 16 7)]
  else s.setF R.MTR_STAT_BADVAL 1

/-- R373, R141: device time becomes `v`; every open period closes with TIMESET. -/
def State.timeSet (s : State) (v : Nat) : State :=
  let s1 := s.closeAll v { endT := s.time, part := true, tset := true }
  let p := s1.msec * 1000000000
  { s1 with time := v, mbound := (v / p + 1) * p }

end Sys2Proof.Machine
end

