-- ==== Sys2Proof/Machine/Tenant.lean ====
section
/-! DEFINITION. What a command does to one tile: boundaries (R550), the walk of its caches, context slots (R362, R551), the
switch sequence (R363) and holding (R366, R367). -/

namespace Sys2Proof.Machine
open Sys2Proof

/-! ### Boundaries -/

/-- R84, R349, R550: nothing of the core that has reached its commit point is unfinished. -/
def Core.settled (k : Core) : Bool :=
  !k.commit && k.wait.isNone && k.parked.isNone && k.mark.isNone && k.sb.isEmpty && k.posted.isEmpty

/-- R550, R84, R349: core `c` is at a boundary for a command. `tenant`: the outgoing domain is a tenant domain. -/
def State.coreAtB (s : State) (c : Nat) (tenant : Bool) : Bool :=
  let k := s.core c
  let pp := bits (k.cr0 0xC00).toNat 2 2
  !k.stopped && k.settled
    && (k.priv != .M || ((k.cr0 0xC00).getLsbD 0 || k.waitev || k.halt) && (!tenant || pp == 0 || pp == 1))

/-- Both cores of tile `t` are at a boundary, and the tile is in T0 with its clock running. -/
def State.tileAtB (s : State) (t : Nat) (tenant : Bool) : Bool :=
  s.tileRuns t && s.f (R.TIL_PWR_STAT_ENTERING t) == 0 && s.f (R.CUF_STAT_HANDOVER t) == 0
    && s.coreAtB (2 * t) tenant && s.coreAtB (2 * t + 1) tenant

/-- Nothing of the tile's L2 is in flight. -/
def State.l2Still (s : State) (t : Nat) : Bool :=
  !((s.msgs ++ s.fillQ).any (fun m => m.agent == t)) && !(s.outReq.any (fun r => r.t == t)) && !(s.caches.any (fun e => e.1 / 2 ^ 64 == t && e.2.st.transient))

/-- R486: a command wakes the tile. -/
def State.cmdWake (s : State) (t : Nat) : State := if s.asleep t then s.wakeTile t true else s

/-! ### Cache walk (R363 steps 2 to 4) -/

/-- Dirty GlobalCached lines of tile `t`. -/
def State.gcDirty (s : State) (t : Nat) : List Nat :=
  (s.caches.filter (fun e => e.1 / 2 ^ 64 == t && e.2.st == .M && decide (e.1 % 2 ^ 64 ≥ 2 ^ 60))).map (·.1 % 2 ^ 64)
/-- A remote writeback of tile `t` awaits its reply. -/
def State.gcOut (s : State) (t : Nat) : Bool := s.ftags.any (fun x => x.orig == .wb t)

/-- Dirty GlobalCached lines leave by remote writes; a line whose write cannot leave at all (no route, no right) is lost, as
one that a remote error meets (R364). -/
def State.gcFlush (s : State) (t : Nat) : State :=
  (s.gcDirty t).foldl (fun s L =>
    match s.evictLine t L with
    | some s1 => s1
    | none =>
      if s.freeFTag.isNone then s
      else (s.setL2 t L {}).deferred 1 t 0x0200 (s.domOf t) ((L - 2 ^ 60) * 64)) s

/-- Steps 2 and 3 for Normal lines: every dirty line reaches its home, and every line is invalid. -/
def State.walkL2 (s : State) (t : Nat) : State :=
  let s := (s.caches.filter (fun e => e.1 / 2 ^ 64 == t && e.2.st == .M && decide (e.1 % 2 ^ 64 < 2 ^ 60))).foldl
    (fun s e => ((s.llcPut (e.1 % 2 ^ 64) (s.domOf t) e.2.d true).setDir (e.1 % 2 ^ 64) none)) s
  { s with caches := s.caches.filter (fun e => e.1 / 2 ^ 64 != t) }

/-- Step 4 and the L1Is: TLBs, walk buffers and predictors empty, nothing speculative left; a line still to come for an L1I is
dropped when it comes. -/
def Core.clearCtx (k : Core) : Core :=
  { k.clearPred with itlb := [], dtlb := [], l2tlb := [], l2big := [], walkC := [], s2C := [], walkB := [], sfb := [], l1i := []
                     win := [], fill := [], fpend := [], holds := [], commit := false }

/-- R143, R386: holding-list entries and arrivals of domain `d` at a core go back to the hub, and its active sources end. -/
def State.returnEvents (s : State) (c d : Nat) : State :=
  let k := s.core c
  let own (h : Held) : Bool := h.dom == d
  let coming := s.arrivals.filter (fun a => a.holder == s.cix c && own a.h)
  let s1 := { s with arrivals := s.arrivals.filter (fun a => !(a.holder == s.cix c && own a.h)) }
  let s1 := s1.setCore c { k with held := k.held.filter (fun h => !(own h)) }
  let s2 := (k.held.filter own ++ coming.map (·.h)).foldl (fun s h => s.evReturn h) s1
  let act := (s2.csr.filter (fun e => let a := e.1 / 128
    0x400000 ≤ a && a < 0x420000 && a % 16 == 8)).map (fun e => (e.1 / 128 - 0x400000) / 16)
  act.eraseDups.foldl (fun (s : State) src =>
    if s.f (R.EVT_STAT_ACTIVE src) = 1 ∧ s.f (R.EVT_STAT_HOLDER src) = s.cix c ∧ s.f (R.EVT_OWN_OWNER src) = d then
      s.setF (R.EVT_STAT_ACTIVE src) 0 else s) s2

/-! ### Context slots -/

def State.slotAddr (s : State) (d t : Nat) : Nat := s.f (R.DOM_CTXBASE_BASE d) * 2 ^ 20 + t * 0x1000

/-- R362: the image of a core; the point of return follows R550. -/
def Core.image (k : Core) : List Nat :=
  let w (v : W64) : List Nat := leBytes 8 v.toNat
  let m := decide (k.priv = .M)
  let pc := if m then k.cr0 0xC02 else k.pc
  let pv := if m then bits (k.cr0 0xC00).toNat 2 2 else k.priv.code
  ((List.range 31).flatMap (fun i => w (k.rg (i + 1)))) ++ w ((k.p ||| 1).zeroExtend 64)
    ++ ((List.range 32).flatMap (fun i => leBytes 32 (k.rv i).toNat)) ++ w (k.cr0 0x000)
    ++ ((List.range 11).flatMap (fun i => if i = 8 then leBytes 8 0 else w (k.cr0 (0x400 + i))))
    ++ w pc ++ leBytes 8 pv ++ List.replicate 144 0

/-- R363 steps 6 and 7: the registers an image holds, loaded; the core stands at RESUME_PC at level RESUME_PRIV. -/
def Core.load (k : Core) (b : List Nat) : Core :=
  let w (o : Nat) : W64 := BitVec.ofNat 64 (leAt b o 8)
  let k1 : Core := { k with
    g := [], v := [], p := BitVec.ofNat 8 (leAt b 0xF8 1) ||| 1
    pc := pcMask (w 0x560), priv := if leAt b 0x568 8 = 0 then .U else .S
    waitev := false, halt := false, run := true, recog := false, parked := none }
  let k2 := (List.range 31).foldl (fun k i => k.wg (i + 1) (w (8 * i))) k1
  let k3 := (List.range 32).foldl (fun k i => k.wv i (BitVec.ofNat 256 (leAt b (0x100 + 32 * i) 32))) k2
  let k4 := k3.setCr 0x000 (w 0x500 &&& crMask 0)
  (List.range 11).foldl (fun k i => if i = 8 then k else k.setCr (0x400 + i) (w (0x508 + 8 * i) &&& crMask (0x400 + i))) k4

/-- An image of zeros at level S. -/
def blankImage : List Nat := (List.replicate 0x600 0).set 0x568 1

/-- R362: the slot's lines: both images (the second one zero for a pair) and the header. -/
def State.slotBytes (s : State) (t : Nat) : List Nat :=
  let pair := s.paired t
  (s.core (2 * t)).image ++ (if pair then List.replicate 0x600 0 else (s.core (2 * t + 1)).image)
    ++ leBytes 8 (1 + 2 * b2n pair) ++ List.replicate 56 0

/-- R551: the reading of [a, a + n): status 0, DMA_REGION or DMA_POISON. -/
def State.slotRead (s : State) (a n : Nat) : State × List Nat × Nat :=
  if a + n > dramEnd then (s, [], stREGION)
  else
    let (s1, b, bad) := s.memRead 0 a n
    (s1, b, if bad then stPOISON else 0)

/-- The slot header of tile `t` for domain `d`: status, VALID, PAIRED. -/
def State.slotHead (s : State) (d t : Nat) : State × Nat × Bool × Bool :=
  let (s1, b, st) := s.slotRead (s.slotAddr d t + 0xC00) 8
  (s1, st, bitOf (leAt b 0 1) 0, bitOf (leAt b 0 1) 1)

/-- R551: record 0x0121. -/
def State.slotLost (s : State) (d t : Nat) (wr : Bool) : State :=
  s.record 8 0 3 0x0121 (d + t * 2 ^ 12 + b2n wr * 2 ^ 20) (s.slotAddr d t)
/-- R551: the record, and FAULTED. -/
def State.slotFault (s : State) (d t : Nat) (wr : Bool) : State :=
  let s1 := s.slotLost d t wr
  s1.domFault d (s.lastRecSeq s1)

/-- R551: write a slot's bytes; a failure is recorded, and faults the domain. -/
def State.slotSave (s : State) (d t : Nat) : State :=
  let a := s.slotAddr d t
  if a + 0xC40 > dramEnd then s.slotFault d t true
  else
    let (s1, bad) := s.memWrite 0 a (s.slotBytes t) .clear
    if bad then s1.slotFault d t true else s1

/-- The DRAM that a switch of tile `t` from `out` to `inc` reaches is ready. -/
def State.slotReady (s : State) (t d n : Nat) (wr : Bool) : Bool :=
  d == 0 || s.slotAddr d t + 0x1000 > dramEnd || s.memReady (s.slotAddr d t) n 0 wr

/-! ### The switch (R363) -/

/-- R363 step 7, R351: core `c` takes the M-level event interrupt of its core-service source with CAUSE `bit`, whatever
M_TSTAT.IE holds. -/
def State.serviceIntr (s : State) (c bit : Nat) : State :=
  let src := s.cix c
  let s := s.setF (R.EVT_STAT_CAUSE src) (setBit (s.f (R.EVT_STAT_CAUSE src)) bit)
  let k := s.core c
  let s :=
    if s.f (R.EVT_STAT_PEND src) = 1 ∨ s.f (R.EVT_STAT_HELD src) = 1 then s.incSat (R.EVT_MERGE_COUNT src)
    else if s.f (R.EVT_STAT_ACTIVE src) = 1 ∨ k.held.length + s.arrivals.countP (fun a => a.holder == src) ≥ 32 then s.setF (R.EVT_STAT_PEND src) 1
    else (s.setFs [(R.EVT_STAT_HELD src, 1), (R.EVT_STAT_HOLDER src, src)]).updCore c
      (fun k => { k with held := k.held ++ [⟨src, 15, 0⟩] })
  s.updCore c (fun k => k.enter true { code := 1, intr := true } k.pc)

def State.setDom (s : State) (t d : Nat) : State := { s with tileDom := Tbl.set 0 s.tileDom t d }

/-- NRUN of `d` changes by one; RUNNING while it is above 0 (R359). -/
def State.nrunUp (s : State) (d : Nat) : State :=
  if d = 0 ∨ s.f (R.DOM_STATE_STATE d) = domFAULTED then s else
  (s.setFs [(R.DOM_STATE_NRUN d, s.f (R.DOM_STATE_NRUN d) + 1), (R.DOM_STATE_STATE d, domRUNNING)]).dpend d
def State.nrunDown (s : State) (d : Nat) : State :=
  if d = 0 ∨ s.f (R.DOM_STATE_STATE d) ≠ domRUNNING then s else
  let n := s.f (R.DOM_STATE_NRUN d) - 1
  ((s.setF (R.DOM_STATE_NRUN d) n).setF (R.DOM_STATE_STATE d) (if n = 0 then domPARKED else domRUNNING)).dpend d

/-- Steps 4 to 7 and the change of the domain, with the tile's caches empty. `save`: the outgoing images are kept (not so in
STOP, R368). The second part: the status of a failed image read, 0 none (R551). -/
def State.switchTile (s : State) (t inc : Nat) (save : Bool) : State × Nat :=
  let out := s.domOf t
  let held := Tbl.get 0 s.tilePark t == 1
  let s := (s.returnEvents (2 * t) out)
  let s := if s.paired t then s else s.returnEvents (2 * t + 1) out
  let s := (s.updCore (2 * t) Core.clearCtx).updCore (2 * t + 1) Core.clearCtx
  let s := if save && out != 0 then s.slotSave out t else s
  let s := if held then s else if save then s.nrunDown out
    else s.setF (R.DOM_STATE_NRUN out) (s.f (R.DOM_STATE_NRUN out) - 1)
  let s := { s with tilePark := Tbl.set 0 s.tilePark t 0 }
  let (s, b, st) := if inc = 0 then (s, [], 0) else s.slotRead (s.slotAddr inc t) 0xC40
  let ok := inc != 0 && st == 0
  let valid := ok && bitOf (leAt b 0xC00 1) 0
  let s := s.setDom t (if ok then inc else 0)
  let img (c : Nat) : List Nat := if valid then (b.drop (c % 2 * 0x600)).take 0x600 else blankImage
  let s := s.updCore (2 * t) (fun k => k.load (img 0))
  let s := if s.paired t then s else s.updCore (2 * t + 1) (fun k => k.load (img 1))
  let s := s.haltFlag t
  let s := if ok then s.nrunUp inc else s
  let s := s.serviceIntr (2 * t) 0
  let s := if s.paired t then s else s.serviceIntr (2 * t + 1) 0
  let s := if ok && s.f (R.DOM_STATE_STATE inc) == domFAULTED then s.holdTile t else s
  if inc != 0 && st != 0 then (s.slotFault inc t false, st) else (s, 0)

/-- How far a switch of tile `t` has come: it must wait; it went one step on; or it is done, with a status. -/
inductive SwRes where
  | wait
  | more (s : State)
  | done (s : State) (st : Nat)
  deriving DecidableEq, Repr

/-- R363: carry the switch of tile `t` to domain `inc` as far as it goes now: wake, boundary, cache walk, remote
writebacks, context. While its remote writebacks are out, the tile's cores stand still. -/
def State.switchStep (s : State) (t inc : Nat) (save : Bool) : SwRes :=
  let out := s.domOf t
  let still := !(s.core (2 * t)).run
  if s.asleep t then (if s.f (R.TIL_PWR_STAT_LATCHED t) = 1 then .wait else .more (s.cmdWake t))
  else if !(s.tileAtB t (out != 0)) || !(s.l2Still t) then .wait
  else if !still || !(s.gcDirty t).isEmpty then
    let s1 := (s.updCore (2 * t) (fun k => { k with run := false, waitev := false })).updCore (2 * t + 1)
      (fun k => { k with run := false, waitev := false })
    .more (s1.gcFlush t)
  else if s.gcOut t then .wait
  else if !(s.slotReady t out 0xC40 true && s.slotReady t inc 0xC40 false) then
    (match (linesOf (s.slotAddr out t) 0xC40 ++ linesOf (s.slotAddr inc t) 0xC40).find?
        (fun L => L < dramLines && !(s.homeOpen L 0)) with
     | some L => if s.meshRuns && s.f (R.MEM_STAT_SREF (chanOf L)) == 1 then .more (s.srefWake (chanOf L)) else .wait
     | none => .wait)
  else
    let (s1, st) := (s.walkL2 t).switchTile t inc save
    .done s1 st

/-- R368: a stopped tile is released at once: nothing is saved or loaded. What becomes of the entries of its domain in the holding
list, and of its arrivals on the way (R143 speaks of switches only), the spec does not say; the model leaves them at the core, as
REARM does, where a later domain meets them as S-level entries (DESIGN CHOICE, notes/assumptions/112.md). -/
def State.releaseStopped (s : State) (t : Nat) : State :=
  { s.setDom t 0 with tilePark := Tbl.set 0 s.tilePark t 0 }

/-- R366 steps 1 to 3: tile `t` at its boundary is held by its domain, and enters a power state for ring `r`. -/
def State.parkTile (s : State) (t r : Nat) (tol : Nat) : State :=
  let f (k : Core) : Core :=
    { k.squash with itlb := [], dtlb := [], l2tlb := [], l2big := [], walkC := [], s2C := [], walkB := [], halt := true, waitev := false }
  let s := { s with tilePark := Tbl.set 0 s.tilePark t 1 }
  (((s.updCore (2 * t) f).updCore (2 * t + 1) f).haltFlag t).enterState t (powerGoal tol) (some r)

/-- R367: a held tile in T0 goes on. -/
def State.unpark (s : State) (t : Nat) : State :=
  let s := { s with tilePark := Tbl.set 0 s.tilePark t 0 }
  ((s.updCore (2 * t) (fun k => { k with halt := false })).updCore (2 * t + 1) (fun k => { k with halt := false })).haltFlag t

end Sys2Proof.Machine
end

