-- ==== Sys2Proof/Machine/Cuff.lean ====
section
/-! DEFINITION. Lockstep pairs (R335 to R354): mismatch, the agreement exchange, REARM, and the split and join hand-overs. -/

namespace Sys2Proof.Machine
open Sys2Proof

/-- Rings whose PAIR_JOIN (`join`) or PAIR_SPLIT waits for tile `t`. -/
def State.handRing (s : State) (t : Nat) (join : Bool) : Option Nat :=
  (s.cmds.find? (fun e => match e.2 with
    | some c => c.d.op == (if join then 0x0D else 0x0E) && c.phase == 1 && c.d.tile == t
    | none => false)).map (·.1)

/-- R344: code words of the pair's dirty lines that differ between the two L1Ds carry poison from here on, and are
reported. `diff`: line and the code words that differ. -/
def State.markDiff (s : State) (t : Nat) (diff : List (Nat × BitVec 8)) : State :=
  diff.foldl (fun s e =>
    let x := s.l2 t e.1
    if x.st = .M ∧ e.2 ≠ 0 then
      (s.setL2 t e.1 { x with d := { x.d with poison := x.d.poison ||| e.2 } }).deferred 1 t 0x0200 (s.domOf t)
        (if e.1 ≥ 2 ^ 60 then (e.1 - 2 ^ 60) * 64 else e.1 * 64)
    else s) s

/-- R343: all work of the core that has not retired, and its store buffer, are discarded; an entry of the shadow fill buffer whose
promote is out stays until its answer comes, which is no protocol error (R264). -/
def Core.dropWork (k : Core) : Core :=
  { k.squash with sb := [], wait := none, parked := none, mark := none, commit := false, fill := [], fpend := [], holds := [] }

/-- R343: a mismatch stop: `kind` 1 core mismatch, 2 comparator fault. -/
def State.mismatch (s : State) (t kind group syn : Nat) (diff : List (Nat × BitVec 8)) : State :=
  let d := s.domOf t
  let s := (s.tileStop t kind group).setF (R.CUF_MISM_SYN_SYN t) syn
  let s := s.updCore (2 * t) Core.dropWork
  let s := if kind = 2 then (s.incSat (R.CUF_CFAULTS_COUNT t)).setF (R.CUF_STAT_TESTFAIL t) 1
    else s.incSat (R.CUF_MISMATCHES_COUNT t)
  let s := s.raise (512 + t) (kind - 1)
  let s1 := s.record 1 t 3 (if kind = 2 then 0x0111 else 0x0110) (if kind = 2 then d else d + group * 2 ^ 12) syn
  let s2 := (s1.domFault d (s.lastRecSeq s1)).markDiff t diff
  match s2.handRing t false with
  | some r => s2.finish r stSTOPPED 0
  | none => s2

/-- The pair runs: the Cuff compares its outputs. -/
def State.pairLive (s : State) (t : Nat) : Bool :=
  decide (t < 256) && s.paired t && s.f (R.CUF_STAT_STOPPED t) == 0 && s.tileRuns t

/-- R339 to R343: the comparators find a difference in output group `group`, with the syndrome given; `fault`: only one of
the two comparators reports it. -/
def execCuffMismatch (t group : Nat) (syn : W64) (fault : Bool) (diff : List (Nat × BitVec 8)) (s : State) : Out :=
  whenOk (s.pairLive t && decide (group < 6)) s (s.mismatch t (if fault then 2 else 1) group syn.toNat diff)

/-- R341: an asynchronous input passes the exchange at once (`tries` 0), after one repeat (1), or disagrees a second time
(2), which is a comparator fault; its GROUP and syndrome the spec does not state. -/
def execAgreementExchange (t tries : Nat) (s : State) : Out :=
  if !(s.pairLive t && decide (tries ≤ 2)) then turnedAway s
  else if tries = 0 then .next s
  else
    let s1 := s.incSat (R.CUF_XRETRY_COUNT t)
    .next (if tries = 1 then s1 else
      (s1.tickFree.tickFree).mismatch t 2 (s1.freeVal % 8) (s1.tickFree.freeVal % 2 ^ 64) [])

/-! ### REARM (R345) -/

/-- A write of REARM: accepted once the domain assigned at the stop, if it was a tenant's, is FREE. -/
def State.rearmWrite (s : State) (t : Nat) : State :=
  let d := Tbl.get 0 s.stopDom t
  if s.fused t then s
  else if s.f (R.CUF_STAT_STOPPED t) = 1 ∧ !(s.rearm.contains t) ∧ (d = 0 ∨ s.f (R.DOM_STATE_STATE d) = domFREE) then
    { s with rearm := s.rearm ++ [t] }
  else s.setF (R.CUF_STAT_WERR t) 1
def execRearm (t : Nat) (s : State) : Out := whenOk (decide (t < 256)) s (s.rearmWrite t)

/-- R345: the core as REARM leaves it: power-on registers, waiting in M at M_TVEC. -/
def Core.rearmed (k : Core) : Core := { held := k.held, run := true, halt := true }

/-- R345: the actions of an accepted REARM; remote writebacks first, then the rest. -/
def execRearmDone (t : Nat) (s : State) : Out :=
  if !(s.rearm.contains t && s.l2Still t) then turnedAway s
  else if !(s.gcDirty t).isEmpty then .next (s.gcFlush t)
  else if s.gcOut t then turnedAway s
  else
    let s1 := s.walkL2 t
    let k0 := s1.core (2 * t)
    let k1 := s1.core (2 * t + 1)
    let indep := s1.f (R.CUF_STAT_TESTFAIL t) == 1
    let s2 := if indep then s1.setF (R.CUF_STAT_PAIR t) 0 else s1
    let s3 := s2.setCore (2 * t) k0.rearmed
    let s3 := if s3.paired t then s3
      else s3.setCore (2 * t + 1) (if s1.paired t then { k1.rearmed with held := [] } else k1.rearmed)
    let s4 := { (s3.setDom t 0) with tilePark := Tbl.set 0 s3.tilePark t 0, stopDom := Tbl.set 0 s3.stopDom t 0, rearm := s3.rearm.filter (· != t) }
    .next ((s4.haltFlag t).setFs [(R.CUF_STAT_STOPPED t, 0), (R.CUF_STAT_KIND t, 0), (R.CUF_STAT_GROUP t, 0)])

/-! ### Hand-overs (R347 to R352) -/

/-- R347: the checks of PAIR_JOIN and PAIR_SPLIT. -/
def pairCmd (join : Bool) (r : Nat) (s : State) : Out :=
  onCmd s r (if join then 0x0D else 0x0E) (fun _ => true) (fun c =>
    let t := c.d.tile
    if c.phase ≠ 0 then turnedAway s
    else if !(c.d.okP false true []) then done s r stPARAM 0
    else if s.clash r 0 [t] then turnedAway s
    else if s.fused t then done s r stDISABLED 0
    else if s.f (R.CUF_STAT_STOPPED t) = 1 then done s r stSTOPPED 0
    else if s.f (R.CUF_STAT_HANDOVER t) = 1 ∨ s.f (R.TIL_PWR_STAT_STATE t) ≠ 0 ∨ s.f (R.TIL_PWR_STAT_PREP t) = 1
        ∨ s.f (R.TIL_PWR_STAT_ENTERING t) = 1 then done s r stTBUSY 0
    else if s.paired t = join then done s r stOK (s.f (R.CUF_HOCYC_CYC t))
    else if join ∧ s.f (R.CUF_STAT_TESTFAIL t) = 1 then done s r 0x08 0
    else
      let s1 := s.begin r c [t]
      .next (if join then s1.setF (R.CUF_STAT_HANDOVER t) 1 else s1))
def execPairJoin (r : Nat) (s : State) : Out := pairCmd true r s
def execPairSplit (r : Nat) (s : State) : Out := pairCmd false r s

/-- R349: nothing of core `c` that has reached its commit point is unfinished. -/
def State.coreDone (s : State) (c : Nat) : Bool :=
  (s.core c).settled

/-- R349 steps 2 and 3: the L1s are empty. -/
def State.emptyL1 (s : State) (t : Nat) : State :=
  { s with caches := s.caches.map (fun e => if e.1 / 2 ^ 64 = t then (e.1, { e.2 with l1 := 0 }) else e) }

/-- R349: the sync point is reached, and the hand-over of tile `n` runs to its end. Where a core of the tile has stopped before
that (R346), the command ends as refused, as R352 says of a mismatch. -/
def execHandoverSync (n : Nat) (s : State) : Out :=
  if s.f (R.CUF_STAT_STOPPED n) = 1 then
    match s.handRing n true, s.handRing n false with
    | some r, _ => done (s.setF (R.CUF_STAT_HANDOVER n) 0) r stSTOPPED 0
    | none, some r => done s r stSTOPPED 0
    | none, none => turnedAway s
  else if !(s.tileRuns n) then turnedAway s
  else
    match s.handRing n true, s.handRing n false with
    | some r, _ =>
      let k0 := s.core (2 * n)
      let k1 := s.core (2 * n + 1)
      whenOk (!(s.paired n) && k1.waitev && k1.priv == .M && s.coreDone (2 * n) && s.coreDone (2 * n + 1)) s
        (let s1 := (s.emptyL1 n).setCore (2 * n + 1) {}
         -- R143: what the holding list of core 1 held, and what is on the way to it, is pending again
         let coming := s1.arrivals.filter (fun a => a.holder == 2 * n + 1)
         let s1 := { s1 with arrivals := s1.arrivals.filter (fun a => a.holder != 2 * n + 1) }
         let s2 := ((k1.held ++ coming.map (·.h)).foldl (fun s h => s.evReturn h) s1).setCore (2 * n) k0.clearCtx
         let s3 := s2.setFs [(R.CUF_STAT_PAIR n, 1), (R.CUF_STAT_HANDOVER n, 0), (R.CUF_HOCYC_CYC n, 14352)]
         (s3.clkStart n).finish r stOK 14352)
    | none, some r =>
      whenOk (s.paired n && s.coreDone (2 * n)) s
        (let k := (s.core (2 * n)).clearCtx
         let s1 := ((s.emptyL1 n).setCore (2 * n) k).setFs [(R.CUF_STAT_PAIR n, 0), (R.CUF_HOCYC_CYC n, 14352)]
         let s2 := s1.setCore (2 * n + 1) { k with held := [], waitev := false, recog := false, halt := false }
         (((s2.serviceIntr (2 * n + 1) 1).haltFlag n).clkStart n).finish r stOK 14352)
    | none, none => turnedAway s

/-- R347 check 6: core 1 was not idle within CUF_HTO. -/
def execCufHtoExpiry (n : Nat) (s : State) : Out :=
  match s.handRing n true with
  | some r =>
    let k1 := s.core (2 * n + 1)
    let since := match s.cmd r with | some c => c.at_ | none => 0
    whenOk (!(k1.waitev && k1.priv == .M) && decide (since + max 1 (s.f (R.CUF_HTO_US n)) * 1000 ≤ s.ns)) s
      (((s.setF (R.CUF_STAT_HANDOVER n) 0).clkStart n).finish r stC1TIME 0)
  | none => turnedAway s

end Sys2Proof.Machine
end

