-- ==== Sys2Proof/Machine/Domain.lean ====
section
/-! DEFINITION. Commands for a domain (R355 to R369, R432, R433, R435, R436, R550, R551): each row carries the command of a
ring as far as it goes now. -/

namespace Sys2Proof.Machine
open Sys2Proof

/-! ### Shared parts -/

/-- The bits that a list of fields of one register covers. -/
def fldMask (fs : List Fld) : Nat := fs.foldl (fun m x => m ||| ((2 ^ x.w - 1) * 2 ^ x.lo)) 0

def domCfgFlds (d : Nat) : List Fld := [R.DOM_CFG_LLC_CLASS d, R.DOM_CFG_DBG d, R.DOM_CFG_GLOBAL_EN d]
def ctxBaseFlds (d : Nat) : List Fld := [R.DOM_CTXBASE_BASE d]
def s2RootFlds (d : Nat) : List Fld := [R.DOM_S2ROOT_V d, R.DOM_S2ROOT_BASE d]
def lockCtlFlds (d : Nat) : List Fld :=
  [R.DOM_LOCKCTL_CHK_U d, R.DOM_LOCKCTL_CHK_S d, R.DOM_LOCKCTL_KEY0_U d, R.DOM_LOCKCTL_KEY0_S d, R.DOM_LOCKCTL_LOG_EN d,
   R.DOM_LOCKCTL_EVT_EN d, R.DOM_LOCKCTL_EVT d]
  ++ (if d = 0 then [R.DOM_LOCKCTL_CHK_M d, R.DOM_LOCKCTL_KEY0_M d] else [])

def State.domSt (s : State) (d : Nat) : Nat := s.f (R.DOM_STATE_STATE d)
/-- States in which MAP and the ASSIGN commands are accepted (R359). -/
def State.domOpen (s : State) (d : Nat) : Bool := [domCREATED, domRUNNING, domPARKED].contains (s.domSt d)
def State.inSet (s : State) (d t : Nat) : Bool := bitOf (s.f (R.DOM_TILES_SET d (t / 32))) (t % 32)
def State.setTiles (s : State) (d : Nat) : List Nat := (List.range 256).filter (s.inSet d)
/-- Write the tile set from a 256-bit map; NSET follows. -/
def State.putTiles (s : State) (d m : Nat) : State :=
  let n := (List.range 256).foldl (fun a i => a + b2n (m.testBit i)) 0
  ((List.range 8).foldl (fun s w => s.setF (R.DOM_TILES_SET d w) (m / 2 ^ (32 * w))) s).setF (R.DOM_STATE_NSET d) n
def State.tilesWord (s : State) (d : Nat) : Nat :=
  (List.range 8).foldl (fun a w => a + s.f (R.DOM_TILES_SET d w) * 2 ^ (32 * w)) 0

/-- A command of phase 0 that needs domain `dom` and tiles `ts` for itself waits while another holds them (R430). -/
def begun (c : Cmd) : Bool := decide (c.phase > 0)

def State.putCmd (s : State) (r : Nat) (c : Cmd) : State := s.setCmd r (some c)

/-- R359, R153: a new domain's descriptor: the lock registers at their reset values, SEQ 0. -/
def State.newDomain (s : State) (d cfg ctx root : Nat) : State :=
  let s := ((s.setWordOf (domCfgFlds d) cfg).setWordOf (ctxBaseFlds d) ctx).setWordOf (s2RootFlds d) root
  (s.setWordOf (lockCtlFlds d) 0).setFs
    [(R.DOM_LOCKLOG_SIZE_LOG2N d, 6), (R.DOM_LOCKLOG_BASE_BASE d, 0), (R.DOM_LOCKLOG_SEQ_SEQ d, 0),
     (R.DOM_LOCKMISS_COUNT d, 0), (R.DOM_LOCKLATE_COUNT d, 0), (R.DOM_MTRSEQ_SEQ d, 0)]

/-- A boundary of the meter that has come is taken before anything closes a period at the same instant. -/
def State.dueBoundary (s : State) : State := if s.mbound ≤ s.time then s.periodBoundary else s

/-! ### CREATE, ASSIGN -/

/-- R358, R359, R373. -/
def execCreate (r : Nat) (s : State) : Out :=
  onCmd s r 1 (fun _ => true) (fun c =>
    let d := c.d.dom
    if d = 0 ∨ !(c.d.okP true false [fldMask (domCfgFlds d), fldMask (ctxBaseFlds d), fldMask (s2RootFlds d)]) then
      done s r stPARAM 0
    else if s.clash r d [] then turnedAway s
    else if s.domSt d ≠ domFREE then done s r stSTATE 0
    else
      let s1 := s.newDomain d (c.d.par 0) (c.d.par 1) (c.d.par 2)
      done ((s1.setF (R.DOM_STATE_STATE d) domCREATED).openPeriod d false) r stOK 0)

/-- R433. -/
def execAssignTiles (r : Nat) (s : State) : Out :=
  onCmd s r 3 (fun _ => true) (fun c =>
    let d := c.d.dom
    let m := c.d.par 1 + c.d.par 2 * 2 ^ 64 + c.d.par 3 * 2 ^ 128 + c.d.par 4 * 2 ^ 192
    let ts := (List.range 256).filter (fun t => m.testBit t)
    if d = 0 ∨ !(c.d.okP true false [1, mAll, mAll, mAll, mAll]) then done s r stPARAM 0
    else if s.clash r d [] then turnedAway s
    else if !(s.domOpen d) then done s r stSTATE 0
    else if ts.any s.fused then done s r stDISABLED 0
    else if c.d.par 0 = 0 then
      if ts.any (fun t => s.f (R.CUF_STAT_STOPPED t) == 1) then done s r stSTOPPED 0
      else
        let s1 := s.putTiles d (s.tilesWord d ||| m)
        done s1 r stOK (s1.f (R.DOM_STATE_NSET d))
    else if ts.any s.rearm.contains then done s r stSTOPPED 0
    else if ts.any (fun t => s.domOf t == d) then done s r stTBUSY 0
    else
      let w := s.tilesWord d
      let s1 := s.putTiles d (w - (w &&& m))
      done s1 r stOK (s1.f (R.DOM_STATE_NSET d)))

/-- R432 ASSIGN_EVENTS. -/
def execAssignEvents (r : Nat) (s : State) : Out :=
  onCmd s r 4 (fun _ => true) (fun c =>
    let d := c.d.dom
    let a := c.d.par 0
    let n := c.d.par 1
    let srcs := (List.range n).map (· + a)
    let own (s : State) (x : Nat) : Nat := s.f (R.EVT_OWN_OWNER x)
    if !(c.d.okP true false [mLow 13, mLow 13]) ∨ a < 1024 ∨ a + n > 8192 then done s r stPARAM 0
    else if s.clash r d [] then turnedAway s
    else if d ≠ 0 ∧ !(s.domOpen d) then done s r stSTATE 0
    else if srcs.any (fun x => own s x != 0 && own s x != d) then done s r stOWNED 0
    else if srcs.any (fun x => s.f (R.EVT_STAT_HELD x) == 1 || s.f (R.EVT_STAT_ACTIVE x) == 1) then done s r stSBUSY 0
    else
      let new := srcs.countP (fun x => own s x != d)
      let s1 := srcs.foldl (fun s x =>
        s.setFs [(R.EVT_OWN_OWNER x, d), (R.EVT_CFG_EN x, 0), (R.EVT_STAT_PEND x, 0)]) s
      if d = 0 then done s1 r stOK (((List.range 7168).map (· + 1024)).countP (fun x => own s1 x == 0))
      else
        let k := s1.f (R.DOM_EVCOUNT_COUNT d) + new
        done ((s1.setF (R.DOM_EVCOUNT_COUNT d) k).dpend d) r stOK k)

/-- R471, R479: the endpoints of `d` return to domain 0, disabled. -/
def State.freeEps (s : State) (d : Nat) : State :=
  ((List.range (s.f (R.DOM_FABEP_COUNT d))).map (· + s.f (R.DOM_FABEP_FIRST d))).foldl
    (fun s e => s.setFs [(R.FAB_EP_OWNER e, 0), (R.FAB_EP_EN e, 0)]) s
/-- R479: so do its send rings. -/
def State.freeSqs (s : State) (d : Nat) : State :=
  (List.range 96).foldl (fun s n =>
    if s.f (R.FAB_SQ_CFG_DOMAIN n) = d then
      s.setFs [(R.FAB_SQ_CFG_EN n, 0), (R.FAB_SQ_CFG_DOMAIN n, 0), (R.SQ_STAT_STATE n, rgIDLE)]
    else s) s

/-- R356, R471, R432 ASSIGN_EP. -/
def execAssignEp (r : Nat) (s : State) : Out :=
  onCmd s r 5 (fun _ => true) (fun c =>
    let d := c.d.dom
    let a := c.d.par 0
    let n := c.d.par 1
    let hits (x : Nat) : Bool :=
      let a2 := s.f (R.DOM_FABEP_FIRST x)
      let n2 := s.f (R.DOM_FABEP_COUNT x)
      x != d && decide (a < a2 + n2 ∧ a2 < a + n ∧ n ≠ 0 ∧ n2 ≠ 0)
    if d = 0 ∨ !(c.d.okP true false [mLow 12, mLow 13]) ∨ a + n > 4096 then done s r stPARAM 0
    else if s.clash r d [] then turnedAway s
    else if !(s.domOpen d) then done s r stSTATE 0
    else if (List.range 4096).any hits then done s r stOWNED 0
    else
      let s1 := (s.freeEps d).setFs [(R.DOM_FABEP_FIRST d, a), (R.DOM_FABEP_COUNT d, n)]
      done (((List.range n).map (· + a)).foldl (fun s e => s.setFs [(R.FAB_EP_OWNER e, d), (R.FAB_EP_EN e, 0)]) s1) r stOK 0)

/-! ### MAP (R435) -/

/-- A core or pair that runs `d`. -/
def State.runners (s : State) (d : Nat) : List Nat :=
  ((s.domTiles d).filter (fun t => Tbl.get 0 s.tilePark t == 0)).flatMap (fun t => if s.paired t then [2 * t] else [2 * t, 2 * t + 1])

/-- Tenant jobs of `d` that run: a number for each, above every tile number. -/
def State.jobsRunning (s : State) (d : Nat) : List Nat :=
  s.engines.filterMap (fun e => match e.2.run with
    | some j => if j.ten ∧ j.dom = d then some (1000 + (e.1 * 64 + j.ring) * 2 ^ 32 + j.idx % 2 ^ 32) else none
    | none => none)

/-- R435 step 4. -/
def State.monAcked (s : State) (d x : Nat) : Bool :=
  s.f (R.CMD_MONACK_SEQ x) == s.f (R.CMD_MONSEQ_SEQ x) || s.domOf (x / 2) != d || Tbl.get 0 s.tilePark (x / 2) == 1

/-- R435 steps 4 to 6: ring `r`'s MAP completes where all that it waits for has come. -/
def State.mapCheck (s : State) (r : Nat) : State :=
  match s.cmd r with
  | some c =>
    if c.d.op = 2 ∧ c.phase = 1 ∧ c.todo.all (s.monAcked c.d.dom)
        ∧ !((s.jobsRunning c.d.dom).any (fun j => c.aux.contains j)) then s.finish r stOK c.todo.length
    else s
  | none => s

/-- Another ring's MAP uses one of these mailboxes (R430). -/
def State.mailBusy (s : State) (r : Nat) (cs : List Nat) : Bool :=
  s.cmds.any (fun e => e.1 != r && match e.2 with
    | some c => c.d.op == 2 && c.phase == 1 && c.todo.any (fun x => cs.contains x)
    | none => false)

def execMap (r : Nat) (s : State) : Out :=
  onCmd s r 2 (fun _ => true) (fun c =>
    let d := c.d.dom
    let p1 := c.d.par 1
    let sz := bits p1 0 6
    let shoot := p1.testBit 8
    let delta : Int := if c.d.par 2 < 2 ^ 31 then (c.d.par 2 : Int) else (c.d.par 2 : Int) - 2 ^ 32
    let held : Int := (s.f (R.DOM_MEMHELD_PAGES d) : Int) + delta
    if c.phase ≠ 0 then .next (s.mapCheck r)
    else if d = 0 ∨ !(c.d.okP true false [mLow 46 - 4095, 0x33F, mLow 32]) ∨ ¬ (12 ≤ sz ∧ (sz ≤ 46 ∨ sz = 63)) then
      done s r stPARAM 0
    else if s.clash r d [] then turnedAway s
    else if !(s.domOpen d) ∨ (shoot ∧ s.f R.CMD_MONEV_V = 0 ∧ s.domSt d = domRUNNING) then done s r stSTATE 0
    else if held < 0 ∨ held ≥ 2 ^ 28 then done s r stPARAM 0
    else
      let cs := if shoot then s.runners d else []
      if s.mailBusy r cs then turnedAway s
      else
        let s1 := s.setF (R.DOM_MEMHELD_PAGES d) held.toNat
        let s2 := s1.begin r { c with todo := cs } (if p1.testBit 9 then s1.jobsRunning d else [])
        let s3 := cs.foldl (fun s x => (s.setFs
          [(R.CMD_MONREQ_LOG2SZ x, sz), (R.CMD_MONREQ_DPA x, c.d.par 0 / 4096), (R.CMD_MONREQ_DOMAIN x, d),
           (R.CMD_MONSEQ_SEQ x, s.f (R.CMD_MONSEQ_SEQ x) + 1)]).trigger (s.f R.CMD_MONEV_BASE + x)) s2
        .next (s3.mapCheck r))

/-- R435 step 3: the monitor writes mailbox `x`. -/
def State.monAck (s : State) (x v : Nat) : State :=
  (List.range 64).foldl (fun s r => s.mapCheck r) (s.setF (R.CMD_MONACK_SEQ x) v)
def execCmdMonack (c : Nat) (v : W32) (s : State) : Out := whenOk (decide (c < 512)) s (s.monAck c v.toNat)

def execMonitorTimeout (r : Nat) (s : State) : Out :=
  onCmd s r 2 (fun _ => true) (fun c =>
    let n := c.todo.countP (s.monAcked c.d.dom)
    if c.phase = 1 ∧ n < c.todo.length ∧ c.at_ + max 1 (s.f R.CMD_MONTO_US) * 1000 ≤ s.ns then done s r stMTIME n
    else turnedAway s)

/-! ### START, RESUME, SWITCH, PARK -/

/-- The first tile of a list whose switch goes on now. -/
def State.tryTiles (s : State) (inc : Nat) (save : Bool) : List Nat → Option (Nat × SwRes)
  | [] => none
  | t :: rest =>
    match s.switchStep t inc save with
    | .wait => s.tryTiles inc save rest
    | x => some (t, x)

/-- R364: read the slot headers of free tiles: those with a slot, those without, one status of a failed read, and whether a
slot's mode differs from its tile's. -/
def State.readHeads (s : State) (d : Nat) (ts : List Nat) : State × List Nat × List Nat × Nat × Bool :=
  ts.foldl (fun acc t =>
    let (s, yes, no, err, bad) := acc
    let (s1, st, v, p) := s.slotHead d t
    if st ≠ 0 then (s1, yes, no, if err = 0 then st else err, bad)
    else if v then (s1, yes ++ [t], no, err, bad || p != s1.paired t)
    else (s1, yes, no ++ [t], err, bad)) (s, [], [], 0, false)

/-- The slots of these tiles can be read now. -/
def State.headsReady (s : State) (d : Nat) (ts : List Nat) : Bool :=
  ts.all (fun t => s.slotAddr d t + 0xC40 > dramEnd || s.memReady (s.slotAddr d t + 0xC00) 8 0 false)
def State.headsWait (s : State) (d : Nat) (ts : List Nat) : Out :=
  match ts.find? (fun t => !(s.headsReady d [t])) with
  | some t => s.memWait (s.slotAddr d t + 0xC00) 8 0
  | none => turnedAway s

/-- Free tiles of the set that can run it. -/
def State.freeTiles (s : State) (d : Nat) : List Nat :=
  (s.setTiles d).filter (fun t => s.domOf t == 0 && !(s.fused t) && s.f (R.CUF_STAT_STOPPED t) == 0)

/-- A command that starts tiles (START, RESUME) goes on: ends in BAD_STATE once its domain is FAULTED, drops tiles that have
stopped, carries one tile on. -/
def startMore (r : Nat) (c : Cmd) (s : State) : Out :=
  let d := c.d.dom
  let todo := c.todo.filter (fun t => s.f (R.CUF_STAT_STOPPED t) == 0)
  let err := if todo.length < c.todo.length ∧ c.err = 0 then stSTOPPED else c.err
  let fin (s : State) (res err : Nat) : Out :=
    if res = 0 then done s r (if err = 0 then stNOTILE else err) 0
    else done s r stOK (if c.d.op = 8 then s.f (R.DOM_STATE_NRUN d) else res)
  if s.domSt d = domFAULTED then done s r stSTATE 0
  else if todo.isEmpty then fin s c.res err
  else
    let one (s : State) (t : Nat) : Out :=
      let rest := todo.filter (· != t)
      if rest.isEmpty then fin s (c.res + 1) err
      else .next (s.putCmd r { c with todo := rest, res := c.res + 1, err := err })
    match todo.find? (fun t => s.domOf t == d && (s.asleep t || s.f (R.TIL_PWR_STAT_STATE t) == 0)
        && s.f (R.TIL_PWR_STAT_LATCHED t) == 0 && s.f (R.CUF_STAT_HANDOVER t) == 0) with
    | some t => if s.asleep t then .next (s.cmdWake t) else one ((s.unpark t).nrunUp d) t
    | none =>
      match s.tryTiles d true (todo.filter (fun t => s.domOf t != d)) with
      | some (_, .more s1) => .next s1
      | some (t, .done s1 st) => if st ≠ 0 then done s1 r st 0 else one s1 t
      | _ => turnedAway s

/-- R363, R432 START. -/
def execStart (r : Nat) (s : State) : Out :=
  onCmd s r 6 (fun _ => true) (fun c =>
    let d := c.d.dom
    let ts := s.freeTiles d
    if c.phase ≠ 0 then startMore r c s
    else if d = 0 ∨ !(c.d.okP true false []) then done s r stPARAM 0
    else if s.clash r d ts then turnedAway s
    else if s.domSt d ≠ domCREATED then done s r stSTATE 0
    else if ts.isEmpty then done s r stNOTILE 0
    else if !(s.headsReady d ts) then s.headsWait d ts
    else
      let (s1, yes, no, err, bad) := s.readHeads d ts
      if bad then done s1 r stPMISM 0
      else if yes.isEmpty && no.isEmpty then done s1 r err 0
      else .next (s1.begin r { c with todo := ts.filter (fun t => (yes ++ no).contains t), err := err } ts))

/-- R367. -/
def execResume (r : Nat) (s : State) : Out :=
  onCmd s r 8 (fun _ => true) (fun c =>
    let d := c.d.dom
    let held := s.domTiles d
    let ts := s.freeTiles d
    if c.phase ≠ 0 then startMore r c s
    else if d = 0 ∨ !(c.d.okP true false []) then done s r stPARAM 0
    else if s.clash r d (held ++ ts) then turnedAway s
    else if s.domSt d ≠ domPARKED then done s r stSTATE 0
    else if !(s.headsReady d ts) then s.headsWait d ts
    else
      let (s1, yes, _, err, bad) := s.readHeads d ts
      if bad then done s1 r stPMISM 0
      else if held.isEmpty && yes.isEmpty then done s1 r (if err = 0 then stNOTILE else err) 0
      else .next (s1.begin r { c with todo := held ++ yes, err := err } (held ++ yes)))

/-- R363, R364 SWITCH; a fused tile is in no set, and R8 and R437 name its own status. -/
def execSwitch (r : Nat) (s : State) : Out :=
  onCmd s r 0x0A (fun _ => true) (fun c =>
    let d := c.d.dom
    let t := c.d.tile
    let out := s.domOf t
    let past := !(s.core (2 * t)).run
    if c.phase ≠ 0 then
      if s.f (R.CUF_STAT_STOPPED t) = 1 then done s r stSTOPPED 0
      else if !past && d != 0 && s.domSt d == domFAULTED then done s r stSTATE 0
      else if !past && out != 0 && s.domSt out == domFAULTED then done s r stTBUSY 0
      else
        match s.switchStep t d true with
        | .wait => turnedAway s
        | .more s1 => .next s1
        | .done s1 st => done s1 r st 0
    else if !(c.d.okP true true []) then done s r stPARAM 0
    else if s.fused t then done s r stDISABLED 0
    else if d ≠ 0 ∧ !(s.inSet d t) then done s r stPARAM 0
    else if s.clash r d [t] then turnedAway s
    else if s.f (R.CUF_STAT_STOPPED t) = 1 then done s r stSTOPPED 0
    else if s.f (R.CUF_STAT_HANDOVER t) = 1 then turnedAway s
    else if out ≠ 0 ∧ s.domSt out = domFAULTED then done s r stTBUSY 0
    else if d ≠ 0 ∧ !(s.domOpen d) then done s r stSTATE 0
    else if out = d ∧ Tbl.get 0 s.tilePark t = 0 then done s r stOK 0
    else if d = 0 then .next (s.begin r c [t])
    else if !(s.headsReady d [t]) then s.headsWait d [t]
    else
      let (s1, st, v, p) := s.slotHead d t
      if st ≠ 0 then done s1 r st 0
      else if v && p != s1.paired t then done s1 r stPMISM 0
      else .next (s1.begin r c [t]))

/-- R366. -/
def execPark (r : Nat) (s : State) : Out :=
  onCmd s r 7 (fun _ => true) (fun c =>
    let d := c.d.dom
    let ts := (s.domTiles d).filter (fun t => Tbl.get 0 s.tilePark t == 0)
    if c.phase ≠ 0 then
      if s.domSt d = domFAULTED then done s r stSTATE 0
      else
        match c.todo.find? (fun t => s.tileAtB t true) with
        | some t =>
          let rest := c.todo.filter (· != t)
          let s1 := s.putCmd r { c with todo := rest }
          let s2 := s1.parkTile t r (s.f (R.DOM_LATTOL_NS d))
          if rest.isEmpty then
            .next (((s2.setFs [(R.DOM_STATE_NRUN d, 0), (R.DOM_STATE_STATE d, domPARKED)]).dpend d).entryDone (some r))
          else .next s2
        | none => turnedAway s
    else if d = 0 ∨ !(c.d.okP true false []) then done s r stPARAM 0
    else if s.clash r d ts then turnedAway s
    else if s.domSt d ≠ domRUNNING then done s r stSTATE 0
    else .next (s.begin r { c with todo := ts } ts))

/-! ### STOP and migration -/

/-- Tenant jobs of `d` that are fetched or running. -/
def State.jobsLeft (s : State) (d : Nat) : Bool :=
  s.tjobs.any (fun e => match e.2 with | some j => j.dom == d | none => false)
    || s.engines.any (fun e => match e.2.run with | some j => j.ten && j.dom == d | none => false)

/-- R452: the tenant rings of `d` leave it. -/
def State.freeRings (s : State) (d : Nat) : State :=
  (List.range 32).foldl (fun s h => (List.range 64).foldl (fun s t =>
    if s.f (R.CMP_TR_CFG_DOMAIN h t) = d then
      s.setFs [(R.CMP_TR_CFG_EN h t, 0), (R.CMP_TR_CFG_DOMAIN h t, 0), (R.CMP_TR_CFG_EVT_EN h t, 0), (R.TR_STAT_STATE h t, rgIDLE)]
    else s) s) s

/-- R368 steps 3 and 4. -/
def State.freeHoldings (s : State) (d : Nat) : State :=
  let s := ((List.range 7168).map (· + 1024)).foldl (fun s x =>
    if s.f (R.EVT_OWN_OWNER x) = d then s.setFs [(R.EVT_OWN_OWNER x, 0), (R.EVT_CFG_EN x, 0)] else s) s
  (((s.freeEps d).freeSqs d).putTiles d 0).setFs [(R.DOM_MEMHELD_PAGES d, 0), (R.DOM_FABEP_FIRST d, 0), (R.DOM_FABEP_COUNT d, 0),
    (R.DOM_EVCOUNT_COUNT d, 0)]

/-- R368 step 5, R551: VALID becomes 0 in every slot header, as one whole code word under CLEAR. -/
def State.clearSlots (s : State) (d : Nat) : State :=
  (List.range 256).foldl (fun s t =>
    let a := s.slotAddr d t + 0xC00
    if a + 64 > dramEnd then s.slotLost d t true
    else
      let (s1, b, bad) := s.memRead 0 a 8
      let v := if bad then 0 else leAt b 0 8
      let (s2, fail) := s1.memWrite 0 a (leBytes 8 (v - v % 2)) .clear
      if fail then s2.slotLost d t true else s2) s
def State.slotsReady (s : State) (d : Nat) : Bool :=
  (List.range 256).all (fun t => s.slotAddr d t + 0xC40 > dramEnd || s.memReady (s.slotAddr d t + 0xC00) 8 0 true)

/-- R368 steps 3 to 7 of ring `r`'s command; `migr`: MIGRATE_OUT, whose RESULT is `c.res`. Phase 3 is before steps 3 to 5, phase
4 before the record. -/
def freeMore (r : Nat) (c : Cmd) (migr : Bool) (s : State) : Out :=
  let d := c.d.dom
  if c.phase = 3 then
    if !(s.slotsReady d) then s.headsWait d (List.range 256)
    else .next (((s.freeHoldings d).clearSlots d).putCmd r { c with phase := 4 })
  else if (s.dueBoundary).backlog.length ≥ 8192 then turnedAway s
  else
    let s1 := (s.dueBoundary).finalRecord d migr
    let s2 := (s1.setFs [(R.DOM_STATE_STATE d, domFREE), (R.DOM_STATE_NRUN d, 0)]).dpend d
    done s2 r stOK c.res

/-- R368, R432 STOP. Phase 1 awaits jobs, phase 2 releases tiles. -/
def execStop (r : Nat) (s : State) : Out :=
  onCmd s r 9 (fun _ => true) (fun c =>
    let d := c.d.dom
    let ts := s.domTiles d
    match c.phase with
    | 0 =>
      if d = 0 ∨ !(c.d.okP true false [1]) then done s r stPARAM 0
      else if s.clash r d ts then turnedAway s
      else if s.domSt d = domFREE then done s r stSTATE 0
      else
        let s1 := s.begin r c ts
        .next (if c.d.par 0 = 1 then s1.abandonJobs d else s1)
    | 1 =>
      if s.jobsLeft d then turnedAway s
      else .next ((s.freeRings d).putCmd r { c with phase := 2, todo := ts })
    | 2 =>
      (match c.todo with
       | [] => .next (s.putCmd r { c with phase := 3 })
       | _ =>
         match c.todo.find? (fun t => s.f (R.CUF_STAT_STOPPED t) == 1) with
         | some t => .next ((s.releaseStopped t).putCmd r { c with todo := c.todo.filter (· != t) })
         | none =>
           match s.tryTiles 0 false c.todo with
           | some (_, .more s1) => .next s1
           | some (t, .done s1 _) => .next (s1.putCmd r { c with todo := c.todo.filter (· != t) })
           | _ => turnedAway s)
    | _ => freeMore r c false s)

/-- Where a command's memory range lies: 0 local DRAM, 1 the host aperture, 2 neither (R49). -/
def rangeOf (a n : Nat) : Nat :=
  if a + n ≤ dramEnd then 0 else if 0x1000_0000_0000 ≤ a ∧ a + n ≤ 0x1100_0000_0000 then 1 else 2

/-- R436: the image's header and slots. -/
def State.migImage (s : State) (d : Nat) (slots : List (Nat × List Nat)) : List Nat :=
  let m := slots.foldl (fun a e => a + 2 ^ e.1) 0
  [0x55, 0x4B, 0x4D, 0x49] ++ leBytes 2 1 ++ leBytes 2 slots.length ++ leBytes 4 s.ownDev ++ leBytes 2 d ++ leBytes 2 0
    ++ leBytes 4 (s.wordOf (domCfgFlds d)) ++ leBytes 4 (s.f (R.DOM_LATTOL_NS d)) ++ leBytes 4 (s.wordOf (lockCtlFlds d))
    ++ leBytes 4 (s.f (R.DOM_LOCKLOG_SIZE_LOG2N d)) ++ leBytes 8 (s.f (R.DOM_LOCKLOG_BASE_BASE d) * 4096)
    ++ leBytes 8 s.time ++ leBytes 32 (s.tilesWord d) ++ leBytes 32 m ++ List.replicate 3984 0 ++ slots.flatMap (·.2)

/-- Every slot with VALID = 1, in tile order; or the status of a failed read. -/
def State.validSlots (s : State) (d : Nat) : State × List (Nat × List Nat) × Nat :=
  (List.range 256).foldl (fun acc t =>
    let (s, l, err) := acc
    if err ≠ 0 then acc
    else
      let (s1, st, v, _) := s.slotHead d t
      if st ≠ 0 then (s1, l, st)
      else if !v then (s1, l, 0)
      else
        let (s2, b, st2) := s1.slotRead (s1.slotAddr d t) 4096
        if st2 ≠ 0 then (s2, l, st2) else (s2, l ++ [(t, b)], 0)) (s, [], 0)

/-- R408: how many bytes at `a` one request of at most `m` bytes takes: it stays inside a 4 KiB page. -/
def tlpPart (a m n : Nat) : Nat := min n (min m (4096 - a % 4096))

/-- Host-ordered writes of a byte string, each at most Max_Payload_Size; the second part: one was refused. -/
def hostPut (r : Nat) : Nat → State → Nat → List Nat → State × Bool
  | 0, s, _, _ => (s, false)
  | k + 1, s, a, bs =>
    if bs.isEmpty then (s, false)
    else
      let p := bs.take (tlpPart a s.mps bs.length)
      match s.hostAccess (.ring r) true a p.length p with
      | .inl s1 => hostPut r k s1 (a + p.length) (bs.drop p.length)
      | .inr sub => (s.outErr sub, true)

/-- R369, R436. Phase 1 awaits jobs, phase 2 saves held tiles and writes the image. -/
def execMigrateOut (r : Nat) (s : State) : Out :=
  onCmd s r 0x0B (fun _ => true) (fun c =>
    let d := c.d.dom
    let ts := s.domTiles d
    match c.phase with
    | 0 =>
      if d = 0 ∨ !(c.d.okP true false [mAll, mAll]) then done s r stPARAM 0
      else if s.clash r d ts then turnedAway s
      else if s.domSt d ≠ domPARKED then done s r stSTATE 0
      else .next (s.begin r c ts)
    | 1 => if s.jobsLeft d then turnedAway s else .next (s.putCmd r { c with phase := 2, todo := ts })
    | 2 =>
      if s.domSt d = domFAULTED then done s r stSTATE 0
      else
        (match c.todo with
         | [] =>
           let all := (List.range 256).all (fun t => s.slotReady t d 4096 false)
           if !all then s.headsWait d (List.range 256)
           else
             let (s1, slots, err) := s.validSlots d
             let n := 4096 * (1 + slots.length)
             let a := c.d.par 0
             if err ≠ 0 then done s1 r err 0
             else if c.d.par 1 < n then done s1 r stIMGSPACE 0
             else
               let img := s1.migImage d slots
               match rangeOf a n with
               | 0 =>
                 if !(s1.memReady a n 0 true) then s.memWait a n 0
                 else
                   let (s2, bad) := s1.memWrite 0 a img .clear
                   if bad then done s2 r stPOISON 0
                   else .next ((s2.freeRings d).putCmd r { c with phase := 3, res := n })
               | 1 =>
                 if !s.outq.isEmpty then turnedAway s else
                 let (s2, bad) := hostPut r img.length s1 a img
                 if bad then done s2 r stHOST 0
                 else .next ((s2.freeRings d).putCmd r { c with phase := 3, res := n })
               | _ => done s1 r stREGION 0
         | _ =>
           match s.tryTiles 0 true c.todo with
           | some (_, .more s1) => .next s1
           | some (t, .done s1 _) => .next (s1.putCmd r { c with todo := c.todo.filter (· != t) })
           | _ => turnedAway s)
    | _ => freeMore r c true s)

/-- R436: what is wrong with an image of `len` bytes, 0 nothing. -/
def State.imgBad (s : State) (b : List Nat) (len : Nat) : Nat :=
  let n := leAt b 6 2
  let m := leAt b 0x50 32
  let pop := (List.range 256).foldl (fun a i => a + b2n (m.testBit i)) 0
  if b.take 4 ≠ [0x55, 0x4B, 0x4D, 0x49] ∨ leAt b 4 2 ≠ 1 ∨ leAt b 0xE 2 ≠ 0 ∨ ((b.drop 0x70).take 3984).any (· != 0)
      ∨ n ≠ pop ∨ len ≠ 4096 * (1 + n) then stIMGBAD
  else if (List.range n).any (fun k => !(bitOf (leAt b (0x1000 * (k + 1) + 0xC00) 1) 0)) then stIMGBAD
  else if (List.range 256).any (fun t => (leAt b 0x30 32).testBit t && s.fused t) then stDISABLED
  else 0

/-- R369, R436: the whole image `b` is read: create the domain from it. -/
def migIn (r : Nat) (c : Cmd) (b : List Nat) (s : State) : Out :=
  let d := c.d.dom
  match s.imgBad b (c.d.par 1) with
  | 0 =>
    let m := leAt b 0x50 32
    let ts := (List.range 256).filter (fun t => m.testBit t)
    let base := bits (c.d.par 2) 20 26 * 2 ^ 20
    let spots := ts.map (fun t => base + t * 4096)
    if spots.any (fun a => a + 4096 > dramEnd) then done s r stREGION 0
    else
      match spots.find? (fun a => !(s.memReady a 4096 0 true)) with
      | some a => s.memWait a 4096 0
      | none =>
        let (s1, bad) := (spots.zip (List.range spots.length)).foldl (fun (acc : State × Bool) e =>
          let (s2, f) := acc.1.memWrite 0 e.1 ((b.drop (4096 * (e.2 + 1))).take 4096) .clear
          (s2, acc.2 || f)) (s, false)
        if bad then done s1 r stPOISON 0
        else
          let s2 := (s1.newDomain d (leAt b 0x10 4) (c.d.par 2) (c.d.par 3)).setWordOf (lockCtlFlds d) (leAt b 0x18 4)
          let s3 := s2.setFs [(R.DOM_LATTOL_NS d, leAt b 0x14 4), (R.DOM_LOCKLOG_SIZE_LOG2N d, leAt b 0x1C 4),
            (R.DOM_LOCKLOG_BASE_BASE d, leAt b 0x20 8 / 4096), (R.DOM_STATE_STATE d, domPARKED)]
          done (((s3.putTiles d (leAt b 0x30 32)).openPeriod d true).dpend d) r stOK 0
  | st => done s r st 0

/-- R436: MIGRATE_IN. An image in the host aperture is read by requests of at most
Max_Read_Request_Size, one at a time; `todo` keeps the bytes that have come (phase 1: no
read is out; phase 2: one is; phase 3: it failed). -/
def execMigrateIn (r : Nat) (s : State) : Out :=
  onCmd s r 0x0C (fun _ => true) (fun c =>
    let d := c.d.dom
    let a := c.d.par 0
    let n := c.d.par 1
    match c.phase with
    | 0 =>
      if d = 0 ∨ !(c.d.okP true false [mAll, mAll, fldMask (ctxBaseFlds d), fldMask (s2RootFlds d)]) then done s r stPARAM 0
      else if s.clash r d [] then turnedAway s
      else if s.domSt d ≠ domFREE then done s r stSTATE 0
      else if n < 4096 ∨ n % 4096 ≠ 0 ∨ n > 4096 * 257 then done s r stIMGBAD 0
      else if rangeOf a n = 2 then done s r stREGION 0
      else .next (s.begin r c [])
    | 1 =>
      if rangeOf a n = 0 then
        (if !(s.memReady a n 0 false) then s.memWait a n 0
         else
           let (s1, b, bad) := s.memRead 0 a n
           if bad then done s1 r stPOISON 0 else migIn r c b s1)
      else if c.todo.length ≥ n then migIn r c c.todo s
      else
        (match s.hostAccess (.ring r) false (a + c.todo.length) (tlpPart (a + c.todo.length) s.mrrs (n - c.todo.length)) [] with
         | .inl s1 => .next (s1.putCmd r { c with phase := 2 })
         | .inr sub => done (s.outErr sub) r stHOST 0)
    | 2 => turnedAway s
    | _ => done s r stHOST 0)

/-- The answer to a MIGRATE_IN read: data, or none where it failed (R431). -/
def State.migData (s : State) (r : Nat) (bs : Option (List Nat)) : State :=
  match s.cmd r with
  | some c =>
    if c.d.op = 0x0C ∧ c.phase = 2 then
      match bs with
      | some b => s.putCmd r { c with phase := 1, todo := c.todo ++ b }
      | none => s.putCmd r { c with phase := 3 }
    else s
  | none => s

/-! ### Registers of the descriptor -/

/-- R153. -/
def State.lockClr (s : State) (d : Nat) : State :=
  s.setFs [(R.DOM_LOCKLOG_SEQ_SEQ d, 0), (R.DOM_LOCKMISS_COUNT d, 0), (R.DOM_LOCKLATE_COUNT d, 0)]
def execDomLockclr (d : Nat) (s : State) : Out := whenOk (decide (d < 4096)) s (s.lockClr d)

/-- R358. -/
def State.ctxBase (s : State) (d v : Nat) : State :=
  if s.domSt d = domFREE ∨ s.domSt d = domCREATED then s.setWordOf (ctxBaseFlds d) v else s
def execDomCtxbaseWrite (d : Nat) (v : W64) (s : State) : Out := whenOk (decide (d < 4096)) s (s.ctxBase d v.toNat)

end Sys2Proof.Machine
end

