-- ==== Sys2Proof/Machine/ModeCmd.lean ====
section
/-! DEFINITION. Device-wide mode changes (R493 to R498), mesh quiesce and release (R282), POWER subops (R434, R477, R483),
and the commands METER_CFG, ROUTE_SET, SCRUB_RANGE and TIME_SET (R432, R462). -/

namespace Sys2Proof.Machine
open Sys2Proof

/-! ### The mechanism (R494) -/

/-- Step 1: the next generation. -/
def State.modeStart (s : State) (r : Nat) (c : Cmd) (args : List Nat) : State :=
  let code := c.d.par 0
  let s := (s.begin r c []).setFs
    [(R.PWR_GEN_GEN, s.f R.PWR_GEN_GEN + 1), (R.PWR_MODE_STAT_PHASE, 1), (R.PWR_MODE_STAT_CODE, code),
     (R.PWR_MODE_APPLIED_HIVES, 0), (R.PWR_MODE_READY_HIVES, 0), (R.PWR_MODE_WHY_WHY 0, 0), (R.PWR_MODE_WHY_WHY 1, 0),
     (R.PWR_MODE_WHY_WHY 2, 0), (R.PWR_MODE_WHY_WHY 3, 0)]
  { s with mode := some ⟨r, code, args, s.ns, if c.d.par 1 = 0 then 1000 else c.d.par 1, List.range 32⟩ }

/-- Step 6: the change ends, its command with `st`. -/
def State.modeEnd (s : State) (m : ModeOp) (st : Nat) : State :=
  let s := s.setFs [(R.PWR_MODE_STAT_PHASE, 0), (R.PWR_MODE_TIME_US, min ((s.ns - m.at_) / 1000) (2 ^ 32 - 1))]
  ({ s with mode := none }).finish m.ring st (s.f R.PWR_MODE_APPLIED_HIVES + s.f R.PWR_GEN_GEN * 2 ^ 32)

/-- Every hive counts as having applied the generation (R493). -/
def State.modeAll (s : State) : State :=
  (List.range 32).foldl (fun s h => s.setF (R.PWR_HGEN_GEN h) (s.f R.PWR_GEN_GEN)) (s.setF R.PWR_MODE_APPLIED_HIVES (2 ^ 32 - 1))

def allHives : Nat := 2 ^ 32 - 1

/-- Ring `r`'s MODE command of code `code`, not yet started and no other mode change in progress (R430); `ok`: its
parameters from P2 on. -/
def modeCmd (code : Nat) (ok : Desc → Bool) (r : Nat) (s : State) (f : Cmd → Out) : Out :=
  onCmd s r 0x20 (· == code) (fun c =>
    if c.phase ≠ 0 then turnedAway s
    else if !(c.d.okP false false [mLow 16, mLow 32, mAll, mAll, mAll, mAll]) ∨ !(ok c.d) then done s r stPARAM 0
    else if s.mode.isSome then turnedAway s
    else f c)

/-- R434: modes that the hives apply. -/
def execModeLlcClass (r : Nat) (s : State) : Out :=
  modeCmd 0x10 (fun d => decide (d.par 2 < 16 ∧ d.par 3 < 2 ^ 16 ∧ d.par 4 = 0 ∧ d.par 5 = 0)) r s
    (fun c => .next (s.modeStart r c [c.d.par 2, c.d.par 3]))
/-- R434, R312: one value for a register of every channel. -/
def chanMode (code : Nat) (ok : Nat → Bool) (r : Nat) (s : State) : Out :=
  modeCmd code (fun d => ok (d.par 2) && d.par 3 == 0 && d.par 4 == 0 && d.par 5 == 0) r s
    (fun c => .next (s.modeStart r c [c.d.par 2]))
def execModeTrainCtl (r : Nat) (s : State) : Out := chanMode 0x11 (fun v => decide (1 ≤ v ∧ v ≤ 64)) r s
def rdistFlds (ch : Nat) : List Fld := [R.MEM_RDIST_CTL_THRESH ch, R.MEM_RDIST_CTL_THR_US ch, R.MEM_RDIST_CTL_SPACE ch]
def execModeRdistCtl (r : Nat) (s : State) : Out := chanMode 0x12 (fun v => v &&& fldMask (rdistFlds 0) == v) r s
def execModeForageStep (r : Nat) (s : State) : Out := chanMode 0x13 (fun v => decide (v < 2 ^ 32)) r s

/-- R497: the lock registers of domains P2 to P3, written by the command processor; every hive counts as ready and as
having applied. -/
def execModeLockctl (r : Nat) (s : State) : Out :=
  modeCmd 0x20 (fun d => decide (d.par 2 ≤ d.par 3 ∧ d.par 3 < 4096) && d.par 4 &&& fldMask (lockCtlFlds 0) == d.par 4
      && d.par 5 &&& (mAll - 0xFE0) == d.par 5) r s
    (fun c =>
      let ds := (List.range (c.d.par 3 + 1 - c.d.par 2)).map (· + c.d.par 2)
      if s.cmds.any (fun e => e.1 != r && match e.2 with
          | some x => decide (x.phase > 0) && !(isJob x.d.op) && x.d.dom != 0 && ds.contains x.d.dom
          | none => false) then turnedAway s
      else if ds.any (fun d => s.domSt d == domRUNNING) then done s r stDRUN 0
      else
        let s1 := s.modeStart r c []
        let s2 := ds.foldl (fun s d => (s.setWordOf (lockCtlFlds d) (c.d.par 4)).setFs
          [(R.DOM_LOCKLOG_SIZE_LOG2N d, bits (c.d.par 5) 0 5), (R.DOM_LOCKLOG_BASE_BASE d, bits (c.d.par 5) 12 34)]) s1
        match s2.mode with
        | some m => .next (((s2.setF R.PWR_MODE_READY_HIVES allHives).modeAll).modeEnd m stOK)
        | none => .next s2)

/-- R493: the channels that hive `h` applies for. -/
def hiveChans (h : Nat) : List Nat :=
  match h with
  | 0 => [0, 1] | 8 => [2, 3, 4, 5] | 16 => [6, 7, 8, 9] | 24 => [10, 11]
  | 7 => [12, 13] | 15 => [14, 15, 16, 17] | 23 => [18, 19, 20, 21] | 31 => [22, 23]
  | _ => []

/-- R495: why hive `h` refuses mode `code`, 0 not at all. -/
def State.modeWhy (s : State) (code h : Nat) : Nat :=
  if code = 0x10 then 0
  else if (hiveChans h).any (fun ch => s.f (R.MEM_STAT_FAILED ch) == 1) then 2
  else if (hiveChans h).any (fun ch => s.f (R.MEM_STAT_SREF ch) == 1) then 3
  else 0

def State.setWhy (s : State) (h v : Nat) : State :=
  let x := R.PWR_MODE_WHY_WHY (h / 8)
  let w := s.f x
  s.setF x (w - bits w (4 * (h % 8)) 4 * 2 ^ (4 * (h % 8)) + v * 2 ^ (4 * (h % 8)))

/-- Step 4: COMMIT goes to every READY hive, ABORT to the rest; with none READY the change is over. -/
def State.modeCommit (s : State) (m : ModeOp) : State :=
  let rd := s.f R.PWR_MODE_READY_HIVES
  let yes := (List.range 32).filter (bitOf rd)
  let no := (List.range 32).filter (fun h => !(bitOf rd h))
  let m1 := { m with wait := yes }
  let s1 := { (s.setF R.PWR_MODE_STAT_PHASE 2) with mode := some m1, aborts := (s.aborts ++ no).eraseDups }
  if yes.isEmpty then s1.modeEnd m1 stPARTIAL else s1

/-- Steps 2 and 3: PREPARE reaches hive `h`, and its answer the command processor. -/
def execPrepare (h : Nat) (s : State) : Out :=
  match s.mode with
  | some m =>
    if !(s.f R.PWR_MODE_STAT_PHASE == 1 && m.wait.contains h && decide (m.code ≥ 0x10) && !s.isFatal) then turnedAway s
    else
      let why := s.modeWhy m.code h
      let s1 : State := { s with aborts := s.aborts.filter (· != h) }
      let s2 := if why = 0 then
          s1.setFs [(R.PWR_HPREP_GEN h, s1.f R.PWR_GEN_GEN), (R.PWR_MODE_READY_HIVES, setBit (s1.f R.PWR_MODE_READY_HIVES) h)]
        else s1.setWhy h why
      let m1 := { m with wait := m.wait.filter (· != h) }
      .next (if m1.wait.isEmpty then s2.modeCommit m1 else { s2 with mode := some m1 })
  | none => turnedAway s

/-- Step 4: the timeout of P1. -/
def execModeTimeout (s : State) : Out :=
  match s.mode with
  | some m =>
    if !(s.f R.PWR_MODE_STAT_PHASE == 1 && decide (m.code ≥ 0x10) && decide (m.at_ + m.tout * 1000 ≤ s.ns) && !s.isFatal) then
      turnedAway s
    else .next ((m.wait.foldl (fun s h => s.setWhy h 1) s).modeCommit m)
  | none => turnedAway s

/-- Step 5: the items of hive `h`. -/
def State.modeApply (s : State) (m : ModeOp) (h : Nat) : State :=
  let v := m.args.getD 0 0
  if m.code = 0x10 then
    (List.range 8).foldl (fun s j => s.setF (R.TIL_LLC_CLASS_WAYS (8 * h + j) v) (m.args.getD 1 0)) s
  else
    (hiveChans h).foldl (fun s ch =>
      if m.code = 0x11 then s.trainCtl ch v
      else if m.code = 0x12 then s.setWordOf (rdistFlds ch) v
      else s.setF (R.MEM_FORAGE_STEP_NS ch) v) s

/-- Steps 5 and 6: COMMIT reaches hive `h`, which applies every item and answers. -/
def execCommit (h : Nat) (s : State) : Out :=
  match s.mode with
  | some m =>
    if !(s.f R.PWR_MODE_STAT_PHASE == 2 && m.wait.contains h && !s.isFatal) then turnedAway s
    else
      let s1 := (s.modeApply m h).setFs
        [(R.PWR_HGEN_GEN h, s.f R.PWR_GEN_GEN), (R.PWR_HPREP_GEN h, 0),
         (R.PWR_MODE_APPLIED_HIVES, setBit (s.f R.PWR_MODE_APPLIED_HIVES) h)]
      let m1 := { m with wait := m.wait.filter (· != h) }
      if m1.wait.isEmpty then
        .next (s1.modeEnd m1 (if s1.f R.PWR_MODE_APPLIED_HIVES = allHives then stOK else stPARTIAL))
      else .next { s1 with mode := some m1 }
  | none => turnedAway s

/-- Step 4: ABORT reaches hive `h`. -/
def execAbort (h : Nat) (s : State) : Out :=
  whenOk (s.aborts.contains h) s ({ s with aborts := s.aborts.filter (· != h) }.setF (R.PWR_HPREP_GEN h) 0)

/-! ### Mesh quiesce and release (R282) -/

def noArgs (d : Desc) : Bool := d.par 2 == 0 && d.par 3 == 0 && d.par 4 == 0 && d.par 5 == 0

/-- R282 steps 1 and 2. The spec does not say what a quiesce of a mesh that is QUIESCED, or a release of one that is RUNNING,
does: both run their steps from there (DEDUCED, notes/assumptions/40.md). -/
def execMeshQuiesce (r : Nat) (s : State) : Out :=
  modeCmd 1 noArgs r s (fun c => .next { ((s.modeStart r c []).setF R.PWR_MESHQ_STATE 1) with
    meshAt := s.ns
    meshHeld := s.meshHeld + (if s.meshRuns then 0 else s.ns - s.meshAt)
    meshIdle := s.meshIdle + (if s.f R.PWR_MESHQ_STATE = 2 then s.ns - s.meshQat else 0) })

/-- R282 step 4: nothing is open at a home, and no buffer or Seam holds VN0 or VN2; requests not yet accepted stand at their
NI. -/
def State.meshEmpty (s : State) : Bool :=
  s.txns.isEmpty && s.pendQ.isEmpty && s.retryQ.isEmpty && s.msgs.all (fun m => m.k.vn == 0)
    && s.chans.all (fun e => e.2.inq.isEmpty)
    && s.meshIn.all (fun e => e.1 % 4 == 1 || e.2.isEmpty)

/-- The mode change that waits, if it is mesh command `code`. -/
def State.meshMode (s : State) (code : Nat) : Option ModeOp :=
  match s.mode with | some m => if m.code = code then some m else none | none => none

def execQuiesceDrained (s : State) : Out :=
  match s.meshMode 1 with
  | some m =>
    whenOk (s.f R.PWR_MESHQ_STATE == 1 && s.meshEmpty && !s.isFatal) s
      ((({ s with meshQat := s.ns }.setF R.PWR_MESHQ_STATE 2).modeAll).modeEnd m stOK)
  | none => turnedAway s

/-- R282 step 6. -/
def execMeshRelease (r : Nat) (s : State) : Out :=
  modeCmd 2 noArgs r s (fun c => .next { ((s.modeStart r c []).setF R.PWR_MESHQ_STATE 3) with
    meshAt := if s.meshRuns then s.ns else s.meshAt
    meshQat := if s.meshRuns then s.ns else s.meshQat })

/-- Port enables now in effect (R281): both ends of a link, or the port of an attached unit. -/
def State.activePorts (s : State) (n : Nat) : Nat :=
  (List.range 5).foldl (fun a p =>
    a + b2n (s.enPort n p && (match nbr n p with | some u => s.enPort u (oppPort p) | none => true)) * 2 ^ p) 0

/-- R281 to R283, steps 7 and 8: the routers hold no flit when the enables change. -/
def execReleaseCheckDone (s : State) : Out :=
  match s.meshMode 2 with
  | some m =>
    if s.f R.PWR_MESHQ_STATE ≠ 3 ∨ s.isFatal ∨ !(s.meshIn.all (fun e => e.2.isEmpty)) then turnedAway s
    else
      match s.releaseFault with
      | some (ni, idx, why) =>
        .next ((s.setFs [(R.PWR_MESHQ_STATE, 2), (R.PWR_MESHQ_BAD_NI, ni), (R.PWR_MESHQ_BAD_IDX, idx),
          (R.PWR_MESHQ_BAD_WHY, why)]).modeEnd m stMESH)
      | none =>
        let s0 : State := { s with meshIdle := s.meshIdle + (s.ns - s.meshQat), meshHeld := s.meshHeld + (s.ns - s.meshAt) }
        let s1 := (List.range 256).foldl (fun t n => t.setF (R.TIL_RTR_STAT_ACTIVE n) (s.activePorts n)) s0
        .next (((s1.setFs [(R.PWR_MESHQ_STATE, 0), (R.PWR_MESHQ_TIME_US, min ((s.ns - s.meshAt) / 1000) (2 ^ 32 - 1))]).modeAll).modeEnd
          m stOK)
  | none => turnedAway s

/-! ### POWER (R434) -/

/-- A POWER command of subop `sub` for a tile: parameters, fuses. An entry of a power state does not wait for a hand-over: it is refused (R352). -/
def tilePower (sub mask : Nat) (r : Nat) (s : State) (f : Cmd → Nat → Out) : Out :=
  onCmd s r 0x21 (· == sub) (fun c =>
    let t := c.d.tile
    if c.phase ≠ 0 then f c t
    else if !(c.d.okP false true [0xFF, mask]) then done s r stPARAM 0
    else if s.clash r 0 [t] ∧ !(sub == 5 && s.f (R.CUF_STAT_HANDOVER t) == 1 && powerGoal (c.d.par 1) != 0) then turnedAway s
    else if s.fused t then done s r stDISABLED 0
    else f c t)

/-- R88, R434 subop 0. -/
def execPowerClockTarget (r : Nat) (s : State) : Out :=
  tilePower 0 0x7F r s (fun c t =>
    if c.phase ≠ 0 then .next (s.clkDone t)
    else if c.d.par 1 > 96 then done (s.clkWrite t (c.d.par 1)) r stPARAM 0
    else .next (((s.begin r c [t]).clkWrite t (c.d.par 1)).clkDone t))

/-- R299, R434 subop 1. -/
def execPowerSegmentKeep (r : Nat) (s : State) : Out :=
  onCmd s r 0x21 (· == 1) (fun c =>
    if !(c.d.okP false false [0xFF, 0xFF]) then done s r stPARAM 0
    else done ((List.range 24).foldl (fun s ch => s.pasrKeep ch (c.d.par 1)) s) r stOK 0)

/-- R489: what keeps channel `ch` out of self-refresh. A channel that is leaving it is retraining (R300). -/
def State.srefRefuser (s : State) (ch : Nat) : Option Nat :=
  let k := s.chan ch
  if !k.rdq.isEmpty || !k.wrq.isEmpty then some 0
  else if s.f (R.MEM_STAT_PAUSED ch) = 1 ∨ k.exiting ∨ s.f (R.MEM_TRAIN_STAT_DEFERRED ch) = 1
      ∨ s.trainDue ch ≤ s.ns + 2000 then some 1
  else none

/-- R489, R501: a refusal (or abort) of state `k` by `who` at channel or port `u`. -/
def State.powerRefused (s : State) (k u who : Nat) (abort : Bool) : State :=
  let s := s.incSat (if abort then R.PWR_ABT_COUNT k who else R.PWR_REF_COUNT k who)
  (s.setFs [(R.PWR_LAST_STATE, k), (R.PWR_LAST_UNIT, u), (R.PWR_LAST_WHO, who), (R.PWR_LAST_ABORT, b2n abort)]).trigger 1005

def State.srefMask (s : State) : Nat := (List.range 24).foldl (fun m ch => m + s.f (R.MEM_STAT_SREF ch) * 2 ^ ch) 0

/-- R489, R434 subop 2. -/
def execPowerSelfRefreshEntry (r : Nat) (s : State) : Out :=
  onCmd s r 0x21 (· == 2) (fun c =>
    if !(c.d.okP false false [0xFF, mLow 24]) then done s r stPARAM 0
    else
      let s1 := (List.range 24).foldl (fun s ch =>
        if !(bitOf (c.d.par 1) ch) || s.f (R.MEM_STAT_SREF ch) == 1 then s
        else match s.srefRefuser ch with
          | some w => s.powerRefused 0 ch w false
          | none => s.setF (R.MEM_STAT_SREF ch) 1) s
      done s1 r stOK s1.srefMask)

/-- R300, R434 subop 3: completes when no channel of the mask is on its way out. -/
def execPowerSelfRefreshExit (r : Nat) (s : State) : Out :=
  onCmd s r 0x21 (· == 3) (fun c =>
    if c.phase ≠ 0 then .next s.srefDone
    else if !(c.d.okP false false [0xFF, mLow 24]) then done s r stPARAM 0
    else
      let s1 := (List.range 24).foldl (fun s ch =>
        if bitOf (c.d.par 1) ch && s.f (R.MEM_STAT_SREF ch) == 1 then
          (s.setF (R.MEM_STAT_SREF ch) 0).setChan ch { s.chan ch with exiting := true }
        else s) s
      .next ((s1.begin r c []).srefDone))

/-- R477, R434 subop 4. `part`: the ports whose partner is DRAINED; `leave`: those whose partner leaves DRAINED during the
entry. -/
def execPowerLinkState (r part leave : Nat) (s : State) : Out :=
  onCmd s r 0x21 (· == 4) (fun c =>
    let m := bits (c.d.par 1) 0 16
    let k := bits (c.d.par 1) 16 2
    let ps := (List.range 16).filter (bitOf m)
    let st (s : State) (p : Nat) : Nat := s.f (R.FAB_PORT_STAT_STATE p)
    if !(c.d.okP false false [0xFF, mLow 18]) ∨ k = 3 then done s r stPARAM 0
    else if k = 0 then
      done (ps.foldl (fun s p =>
        if st s p = 5 ∨ st s p = 6 then (s.setF (R.FAB_PORT_STAT_STATE p) 4).raise (920 + p) 5 else s) s) r stOK 0
    else
      let bad := ps.filter (fun p => !(st s p == 4 && bitOf part p))
      let gone := ps.filter (bitOf leave)
      if !bad.isEmpty then done (bad.foldl (fun s p => s.powerRefused k p 3 false) s) r stSTATE 0
      else if !gone.isEmpty then done (gone.foldl (fun s p => s.powerRefused k p 3 true) s) r stSTATE 0
      else done (ps.foldl (fun s p => (s.setF (R.FAB_PORT_STAT_STATE p) (4 + k)).raise (920 + p) 5) s) r stOK 0)

/-- A tile that subops 5 and 6 do not take, with its status. -/
def State.freeTileBad (s : State) (t : Nat) : Option Nat :=
  if s.domOf t ≠ 0 then some stTBUSY
  else if s.f (R.CUF_STAT_STOPPED t) = 1 then some stSTOPPED
  else none

/-- R483, R485, R434 subop 5. Phase 1 waits for the boundary, phase 2 for the state. -/
def execPowerTileEntry (r : Nat) (s : State) : Out :=
  tilePower 5 (mLow 24) r s (fun c t =>
    match s.freeTileBad t with
    | some st => if c.phase = 2 then turnedAway s else done s r st 0
    | none =>
      if c.phase = 0 ∧ (s.asleep t ∨ s.f (R.TIL_PWR_STAT_PREP t) = 1 ∨ s.f (R.TIL_PWR_STAT_STATE t) ≠ 0) then
        done s r stTBUSY 0
      else if c.phase = 0 ∧ s.f (R.CUF_STAT_HANDOVER t) = 1 ∧ powerGoal (c.d.par 1) ≠ 0 then
        done (s.entryRefused t (powerGoal (c.d.par 1)) 4 false) r stOK 0
      else if c.phase = 0 then .next (s.begin r c [t])
      else if c.phase = 2 ∨ !(s.tileAtB t false) then turnedAway s
      else
        let f (k : Core) : Core := { k with halt := true, waitev := false }
        let s1 := (((s.updCore (2 * t) f).updCore (2 * t + 1) f).haltFlag t).putCmd r { c with phase := 2 }
        .next ((s1.enterState t (powerGoal (c.d.par 1)) (some r)).entryDone (some r)))

/-- R483, R484, R434 subop 6: the tile is woken, and its cores continue in the monitor; EXIT_DONE completes the command. -/
def execPowerTileWake (r : Nat) (s : State) : Out :=
  tilePower 6 0 r s (fun c t =>
    match s.freeTileBad t with
    | some st => if c.phase ≠ 0 then turnedAway s else done s r st 0
    | none =>
      if c.phase ≠ 0 then turnedAway s
      else if s.asleep t then .next ((s.begin r c [t]).cmdWake t)
      else if s.f (R.TIL_PWR_STAT_STATE t) ≠ 0 then .next (s.begin r c [t])
      else
        let f (k : Core) : Core := { k with halt := false }
        done (((s.updCore (2 * t) f).updCore (2 * t + 1) f).haltFlag t) r stOK 0)

/-! ### Device-wide commands (R432) -/

/-- R372, R432. -/
def execMeterCfg (r : Nat) (s : State) : Out :=
  onCmd s r 0x22 (fun _ => true) (fun c =>
    let p := c.d.par 0
    let b := c.d.par 1
    if !(c.d.okP false false [mLow 12, 0x7F7F7F, 1]) ∨ !(mtrSecOk p) ∨ !(mtrBandsOk b) then done s r stPARAM 0
    else
      let s1 := s.dueBoundary.setFs [(R.MTR_PERIOD_SEC, p), (R.MTR_BANDS_B1, bits b 0 7), (R.MTR_BANDS_B2, bits b 8 7),
        (R.MTR_BANDS_B3, bits b 16 7)]
      let s2 := if c.d.par 2 = 1 then (s1.closeAll s1.time { endT := s1.time, part := true }).newPeriod s1.time else s1
      done s2 r stOK 0)

/-- R462: what a route entry may not hold. -/
def fabRouteBad (v : Nat) : Bool :=
  bits v 101 26 != 0 || (v.testBit 127 && (bits v 96 5 == 0 || decide (bits v 96 5 > 24)))

/-- R462. -/
def execRouteSet (r : Nat) (s : State) : Out :=
  onCmd s r 0x23 (fun _ => true) (fun c =>
    let i := c.d.par 0
    let n := c.d.par 1
    let a := c.d.par 2
    if !(c.d.okP false false [mAll, mAll, mAll]) ∨ i + n > 262144 then done s r stPARAM 0
    else if a + 16 * n > dramEnd then done s r stREGION 0
    else if !(s.memReady a (16 * n) 0 false) then s.memWait a (16 * n) 0
    else
      let (s1, b, bad) := s.memRead 0 a (16 * n)
      let es := (List.range n).map (fun k => leAt b (16 * k) 16)
      if bad then done s1 r stPOISON 0
      else if es.any fabRouteBad then done s1 r stPARAM 0
      else
        done { s1 with routes := (es.zip (List.range n)).foldl (fun m e => Tbl.set 0 m (i + e.2) e.1) s1.routes } r stOK n)

/-- R308, R432. -/
def execScrubRange (r : Nat) (s : State) : Out :=
  onCmd s r 0x24 (fun _ => true) (fun c =>
    let n := bits (c.d.par 0) 0 3
    let a0 := c.d.par 1
    let a1 := c.d.par 2
    if !(c.d.okP false false [0xF, mAll, mAll]) then done s r stPARAM 0
    else if c.d.par 0 < 8 then
      (if a0 ≠ 0 ∨ a1 ≠ 0 then done s r stPARAM 0
       else done ((List.range 24).foldl (fun s ch =>
         s.scrubWrite ch n (s.f (R.MEM_SCRUB_RANGE_FIRST ch n) + s.f (R.MEM_SCRUB_RANGE_LAST ch n) * 2 ^ 32)) s) r stOK 0)
    else if a0 % 1536 ≠ 0 ∨ a1 % 1536 ≠ 0 ∨ a1 ≤ a0 ∨ a1 > 0xC0_0000_0000 then done s r stPARAM 0
    else done ((List.range 24).foldl (fun s ch =>
      s.scrubWrite ch n (a0 / 1536 + (a1 / 1536 - 1) * 2 ^ 32 + 2 ^ 63)) s) r stOK 0)

/-- R370, R373. -/
def execTimeSet (r : Nat) (s : State) : Out :=
  onCmd s r 0x26 (fun _ => true) (fun c =>
    if !(c.d.okP false false [mAll]) then done s r stPARAM 0
    else done (s.dueBoundary.timeSet (c.d.par 0)) r stOK s.time)

end Sys2Proof.Machine
end

