-- ==== Sys2Proof/Machine/Engine.lean ====
section
/-! DEFINITION. The compression engines (R440 to R453): the next job, its lines, its container, its end. -/

namespace Sys2Proof.Machine
open Sys2Proof

/-- R166: the lock policy of a job. -/
def Desc.pol (d : Desc) : LockPol :=
  match bits d.ctl 0 2 with | 0 => .preserve | 1 => .set (BitVec.ofNat 4 (bits d.ctl 2 4)) | _ => .clear
/-- R248: the domain that a job's accesses carry. -/
def Job.agentDom (j : Job) : Nat := if j.ten then j.dom else 0

/-- Where a byte of a job lies: local, on a device, or nowhere, with the status. -/
inductive JLoc where
  | loc (pa : Nat)
  | rem (dev l : Nat)
  | bad (st : Nat)
  deriving DecidableEq, Repr

/-- R228, R441. DESIGN CHOICE: a poisoned or uncorrectable stage-2 entry ends the job with TRANSLATION too (notes/assumptions/116.md). -/
def State.jobLoc (s : State) (j : Job) (a : Nat) (wr : Bool) : JLoc :=
  if j.ten then
    match s.engXlate j.dom a with
    | .inr x =>
      if (if wr then x.w else x.r) && x.mt == .normal && decide (x.out a < dramEnd) then .loc (x.out a) else .bad csTRANS
    | .inl _ => .bad csTRANS
  else if a < 2 ^ 46 then .loc a else .rem (a / 2 ^ 46) (a % 2 ^ 46)

/-- R441: what the engine checks before any access of a host job: a status, none where it passes. -/
def State.jobCheck (s : State) (j : Job) : Option Nat :=
  let (sa, sl) := j.d.srcOf
  let (da, dl) := j.d.dstOf
  let range (a n : Nat) (glob : Bool) : Option Nat :=
    if n = 0 then none
    else if a < 2 ^ 46 then (if a + n ≤ dramEnd then none else some stREGION)
    else if !glob ∨ a % 2 ^ 46 + n > 2 ^ 46 then some stREGION
    else if s.f R.FAB_DEVNUM_LOCK = 0 ∨ (a / 2 ^ 46 ≠ s.ownDev ∧ (s.routeTo (a / 2 ^ 46)).isNone) then some csREMOTE
    else none
  if j.ten then none
  else
    match range sa sl (j.d.op == 0x10), range da dl (j.d.op == 0x10 || j.d.op == 0x11) with
    | some x, some y => some (if x = stREGION then x else y)
    | some x, none => some x
    | none, y => y

/-- The job has ended with a status and RESULT: `wait` 3, its completion is next. -/
def Job.over (j : Job) (st res : Nat) : Job := { j with wait := 3, spos := st, dpos := res, buf := [] }
/-- R444: it fails, and its destination becomes undefined first: `wait` 4. -/
def Job.fail (j : Job) (st res : Nat) : Job := { j with wait := 4, spos := st, dpos := res, buf := [] }

/-- R371, R453: `n` input bytes read. -/
def State.jobIn (s : State) (h : Nat) (j : Job) (n : Nat) : State := (s.addSat (R.CMP_IN_BYTES h) n).meter j.dom 22 n
def State.jobOut (s : State) (h n : Nat) : State := s.addSat (R.CMP_OUT_BYTES h) n

/-- How many bytes of [a + pos, a + n) lie in the line of a + pos. -/
def linePart (a pos n : Nat) : Nat := min (64 - (a + pos) % 64) (n - pos)

/-- One step of a job: it went on, it cannot go on now, or it has left the engine. -/
inductive JRes where
  | go (s : State) (j : Job)
  | stall (s : State)
  | gone (s : State)
  deriving DecidableEq, Repr

/-- R449: the error that a decoder meets in the source bytes read so far. -/
def Job.early (j : Job) : Option (Nat × Nat) :=
  if j.d.op = 0x13 then
    match unpackAt j.buf j.d.srcOf.2 (j.d.par 3) with
    | .inl (e, off) => if e = csMORE then none else some (e, off)
    | .inr _ => none
  else none

/-- The bytes of a source line have come. -/
def State.jobGot (s : State) (h : Nat) (j : Job) (b : List Nat) (bad : Bool) : JRes :=
  let s1 := s.jobIn h j b.length
  let j1 := { j with wait := 0, spos := j.spos + b.length, buf := j.buf ++ b }
  if bad then .go s1 (j.fail csPOISON 0)
  else match j1.early with
    | some x => .go s1 (j1.fail x.1 x.2)
    | none => .go s1 j1

/-- R441, R442: read the next source line. -/
def State.jobRead (s : State) (h : Nat) (j : Job) : JRes :=
  let (sa, sl) := j.d.srcOf
  let a := sa + j.spos
  let k := linePart sa j.spos sl
  match s.jobLoc j a false with
  | .bad st => .go s (j.fail st 0)
  | .loc pa =>
    if !(s.memReady pa k j.agentDom false (258 + h)) then .stall (s.memNudge pa k j.agentDom)
    else
      let (s1, b, bad) := s.memRead j.agentDom pa k
      s1.jobGot h j b bad
  | .rem dev l =>
    match s.fabRequest (.job h) 0 dev (l / 64 * 64) 64 { ty := tyRD } with
    | .inl s1 => .go s1 { j with wait := 1 }
    | .inr .wait => .stall s
    | .inr (.fault _) => .go s (j.fail csREMOTE 0)

/-- A whole line goes to a remote destination under CARRIED. -/
def State.jobSend (s : State) (h : Nat) (j : Job) (dev l : Nat) (d : LineD) : JRes :=
  match s.fabRequest (.job h) 0 dev (l / 64 * 64) 64 { ty := tyWR, data := d.data, dl := d.locks, aux := d.poison.toNat } with
  | .inl s1 => .go s1 { j with wait := 2 }
  | .inr .wait => .stall s
  | .inr (.fault _) => .go s (j.fail csREMOTE 0)

/-- R442: write the next `b` bytes of the destination, all in one line. A remote line that is not wholly written, or under
PRESERVE, is read first, so that its locks can be formed. -/
def State.jobWrite (s : State) (h : Nat) (j : Job) (b : List Nat) : JRes :=
  let a := j.d.dstOf.1 + j.dpos
  match s.jobLoc j a true with
  | .bad st => .go s (j.fail st 0)
  | .loc pa =>
    if !(s.memReady pa b.length j.agentDom true (258 + h)) then .stall (s.memNudge pa b.length j.agentDom)
    else
      let (s1, bad) := s.memWrite j.agentDom pa b j.d.pol
      if bad then .go s1 (j.fail stPOISON 0)
      else .go (s1.jobOut h b.length) { j with dpos := j.dpos + b.length, buf := j.buf.drop b.length }
  | .rem dev l =>
    if b.length = 64 ∧ j.d.pol ≠ .preserve then
      s.jobSend h j dev l (mergeWr lineZero (lineWr (l / 64) l b j.d.pol)).1
    else
      match s.fabRequest (.job h) 0 dev (l / 64 * 64) 64 { ty := tyRD } with
      | .inl s1 => .go s1 { j with wait := 5 }
      | .inr .wait => .stall s
      | .inr (.fault _) => .go s (j.fail csREMOTE 0)

/-- The bytes that the job writes next. -/
def Job.next (j : Job) : List Nat :=
  let (da, dl) := j.d.dstOf
  if j.d.op = 0x11 then
    (List.range (linePart da j.dpos dl)).map (fun i => j.d.par 2 / 256 ^ ((j.dpos + i) % 8) % 256)
  else if j.d.op = 0x10 then j.buf.take (linePart da j.dpos dl)
  else j.buf.take (linePart da j.dpos (j.dpos + j.buf.length))

/-- A reply to the engine's request has come. -/
def State.jobReply (s : State) (h : Nat) (j : Job) : JRes :=
  match s.jobRx.find? (·.1 == h) with
  | none => .stall s
  | some x =>
    let s1 := { s with jobRx := s.jobRx.erase x }
    let (sa, sl) := j.d.srcOf
    let a := j.d.dstOf.1 + j.dpos
    let b := j.next
    let d := x.2.1.getD lineZero
    if x.2.2 ≠ 0 then .go s1 (j.fail csREMOTE 0)
    else if j.wait = 1 then
      let o := (sa + j.spos) % 64
      let k := linePart sa j.spos sl
      s1.jobGot h j (leBytes k (d.read o k)) (spanPoison d.poison o k)
    else if j.wait = 2 then
      .go (s1.jobOut h b.length) { j with wait := 0, dpos := j.dpos + b.length, buf := j.buf.drop b.length }
    else
      let (d2, bad) := mergeWr d (lineWr (a % 2 ^ 46 / 64) (a % 2 ^ 46) b j.d.pol)
      if bad then .go s1 (j.fail stPOISON 0) else s1.jobSend h { j with wait := 0 } (a / 2 ^ 46) (a % 2 ^ 46) d2

/-- R444: the lines of the destination range that the job may write, with the bytes of each in the range. -/
def State.jobLines (s : State) (j : Job) : List (Nat × Nat) :=
  let (da, dl) := j.d.dstOf
  (linesOf da dl).filterMap (fun V =>
    let lo := max da (V * 64)
    let n := min (da + dl) (V * 64 + 64) - lo
    match s.jobLoc j lo true with
    | .loc pa => if pa + n ≤ dramEnd then some (pa, n) else none
    | .rem dev l => if dev = s.ownDev ∧ l + n ≤ dramEnd then some (l, n) else none
    | .bad _ => none)
/-- R444: data and locks take free values. -/
def State.jobScramble (s : State) (j : Job) : State :=
  (s.jobLines j).foldl (fun s e =>
    let w := { lineWr (e.1 / 64) e.1 (List.replicate e.2 0) .carried with
      d := ⟨BitVec.ofNat 512 s.freeVal, BitVec.ofNat 64 s.tickFree.freeVal, 0⟩ }
    (s.tickFree.tickFree.ncWrite (e.1 / 64) j.agentDom w).1) s

/-- R453 CMP_JOBS. -/
def State.jobCount (s : State) (h : Nat) (failed : Bool) : State :=
  let v := s.f (R.CMP_JOBS_COUNT h)
  let up (x n : Nat) : Nat := min (x + n) (2 ^ 32 - 1)
  s.setF (R.CMP_JOBS_COUNT h) (up (v % 2 ^ 32) 1 + up (v / 2 ^ 32) (b2n failed) * 2 ^ 32)

/-- R450: the completion of tenant ring `t`; none where its line cannot be written now. -/
def State.tenCpl (s : State) (h t : Nat) (d : Desc) (idx dom st res : Nat) : Option State :=
  let n := s.trN h t
  let i := s.f (R.TR_HEAD_HEAD h t)
  let halt (s : State) (e : Nat) : State := s.setFs [(R.TR_STAT_STATE h t, rgHALT), (R.TR_STAT_ERR h t, e)]
  let j : Job := { d := d, idx := idx, ring := t, ten := true, dom := dom }
  match s.jobLoc j (s.f (R.CMP_TR_CQ_CQ h t) * 4096 + i % n * 16) true with
  | .loc pa =>
    if !(s.memReady pa 16 dom true (258 + h)) then none
    else
      let (s1, bad) := s.memWrite dom pa (cplBytes i n d.tag st idx res) .clear
      if bad then some (halt s1 stPOISON)
      else
        let s2 := s1.incWrap (R.TR_HEAD_HEAD h t)
        some (if bitOf d.flags 0 ∧ s2.f (R.CMP_TR_CFG_EVT_EN h t) = 1 then s2.regTrig (s2.f (R.CMP_TR_CFG_EVT h t)) dom else s2)
  | _ => some (halt s csTRANS)

/-- The engine is free again. -/
def State.jobLeave (s : State) (h : Nat) (j : Job) : State :=
  let s1 := s.setEngine h { s.engine h with run := none }
  let s2 := if j.ten then
      let s2 : State := { s1 with tjobs := Tbl.set none s1.tjobs (h * 64 + j.ring) none }
      if s2.f (R.CMP_TR_CFG_EN h j.ring) = 0 then s2.setF (R.TR_STAT_STATE h j.ring) rgIDLE else s2
    else s1
  (List.range 64).foldl (fun s r => s.mapCheck r) s2

/-- The job's completion is written, and it leaves the engine. -/
def State.jobFinish (s : State) (h : Nat) (j : Job) : JRes :=
  let bad := j.spos != 0
  if j.ten then
    match s.tenCpl h j.ring j.d j.idx j.dom j.spos j.dpos with
    | some s1 => .gone ((s1.jobCount h bad).jobLeave h j)
    | none =>
      match s.jobLoc j (s.f (R.CMP_TR_CQ_CQ h j.ring) * 4096 + s.f (R.TR_HEAD_HEAD h j.ring) % s.trN h j.ring * 16) true with
      | .loc pa => .stall (s.memNudge pa 16 j.dom)
      | _ => .stall s
  else .gone (((s.jobCount h bad).finishNote j.ring j.spos j.dpos [768 + h, if bad then 4 else 3]).jobLeave h j)

/-- R445 RESULT, R448, R449: what an engine does once its source is read. -/
def Job.convert (j : Job) : Job :=
  let lim := j.d.par 3
  if j.d.op = 0x12 then
    let out := pack j.buf (bits j.d.ctl 8 5) (bits j.d.ctl 6 2)
    if out.length > lim then j.fail csOUTFULL 0 else { j with part := 1, buf := out }
  else
    match unpack j.buf lim with
    | .inl (e, off) => j.fail e off
    | .inr out => { j with part := 1, buf := out }

/-- One step of the job of engine `h`: a line read or written, or the next stage. -/
def State.jobStep (s : State) (h : Nat) (j : Job) : JRes :=
  let sl := j.d.srcOf.2
  let (da, dl) := j.d.dstOf
  if j.wait = 3 then s.jobFinish h j
  else if j.wait = 4 then
    (match (s.jobLines j).find? (fun e => !(s.memReady e.1 e.2 j.agentDom true (258 + h))) with
     | some e => .stall (s.memNudge e.1 e.2 j.agentDom)
     | none => .go (s.jobScramble j) (j.over j.spos j.dpos))
  else if j.stop then .go s (j.fail csABANDON 0)
  else if j.wait ≠ 0 then s.jobReply h j
  else if j.d.op = 0x11 then (if j.dpos = dl then .go s (j.over stOK dl) else s.jobWrite h j j.next)
  else if j.d.op = 0x10 then
    (if j.dpos = dl then .go s (j.over stOK dl)
     else if j.buf.length ≥ linePart da j.dpos dl then s.jobWrite h j j.next
     else s.jobRead h j)
  else if j.part = 0 then (if j.spos < sl then s.jobRead h j else .go s j.convert)
  else if j.buf.isEmpty then .go s (j.over stOK j.dpos)
  else s.jobWrite h j j.next

/-- Up to `n` steps. -/
def jobLoop : Nat → State → Nat → Job → State
  | 0, s, h, j => s.setEngine h { s.engine h with run := some j }
  | n + 1, s, h, j =>
    match s.jobStep h j with
    | .go s1 j1 => jobLoop n s1 h j1
    | .stall s1 => s1.setEngine h { s1.engine h with run := some j }
    | .gone s1 => s1

/-- The running job of engine `h`, of opcode `op`, goes `n` steps on: between two events, other agents reach memory (R443). -/
def jobRow (op h n : Nat) (s : State) : Out :=
  match (s.engine h).run with
  | some j => if j.d.op = op ∧ h < 32 ∧ !s.isFatal then .next (jobLoop n s h j) else turnedAway s
  | none => turnedAway s
def execCopy (h n : Nat) (s : State) : Out := jobRow 0x10 h n s
def execFill (h n : Nat) (s : State) : Out := jobRow 0x11 h n s
def execCompress (h n : Nat) (s : State) : Out := jobRow 0x12 h n s
def execDecompress (h n : Nat) (s : State) : Out := jobRow 0x13 h n s

/-! ### The next job (R440, R450, R452) -/

/-- A STOP or MIGRATE_OUT of domain `d` is in progress: its rings are not fetched. -/
def State.stopping (s : State) (d : Nat) : Bool :=
  s.cmds.any (fun e => match e.2 with
    | some c => (c.d.op == 9 || c.d.op == 0x0B) && decide (c.phase > 0) && c.d.dom == d
    | none => false)
/-- Self-test 0x06 of engine `h` runs. -/
def State.engTest (s : State) (h : Nat) : Bool :=
  s.cmds.any (fun e => match e.2 with
    | some c => c.d.op == 0x25 && c.d.par 0 == 6 && decide (c.phase > 0) && c.d.par 1 == h
    | none => false)

/-- Tenant ring `t` of engine `h` has a descriptor to fetch. -/
def State.tenWork (s : State) (h t : Nat) : Bool :=
  let d := s.f (R.CMP_TR_CFG_DOMAIN h t)
  s.f (R.CMP_TR_CFG_EN h t) == 1 && s.f (R.TR_STAT_STATE h t) == rgRUN
    && s.f (R.TR_DB_PROD h t) != s.f (R.TR_CONS_CONS h t)
    && (s.f (R.TR_HEAD_HEAD h t) + 2 ^ 32 - s.f (R.TR_TAIL_TAIL h t)) % 2 ^ 32 != s.trN h t
    && (s.domSt d == domRUNNING || s.domSt d == domPARKED) && !(s.stopping d)

/-- Requester 0 is the host queue, t + 1 tenant ring t. -/
def State.reqWork (s : State) (h q : Nat) : Bool := if q = 0 then !(s.engine h).hostq.isEmpty else s.tenWork h (q - 1)

/-- A job starts on engine `h`. -/
def State.jobBegin (s : State) (h q : Nat) (j : Job) : State :=
  let s1 := s.setEngine h { s.engine h with run := some j, last := q }
  if j.ten then { s1 with tjobs := Tbl.set none s1.tjobs (h * 64 + j.ring) (some j) } else s1

/-- R450: fetch the next descriptor of tenant ring `t`. -/
def State.tenFetch (s : State) (h t : Nat) : State :=
  let d := s.f (R.CMP_TR_CFG_DOMAIN h t)
  let i := s.f (R.TR_CONS_CONS h t)
  let a := s.f (R.CMP_TR_BASE_BASE h t) * 4096 + i % s.trN h t * 64
  let j0 : Job := { d := {}, idx := i, ring := t, ten := true, dom := d }
  let halt (s : State) (e : Nat) : State := s.setFs [(R.TR_STAT_STATE h t, rgHALT), (R.TR_STAT_ERR h t, e)]
  match s.jobLoc j0 a false with
  | .loc pa =>
    if !(s.memReady pa 64 d false (258 + h)) then s.memNudge pa 64 d
    else
      let (s1, b, bad) := s.memRead d pa 64
      if bad then halt s1 csPOISON
      else
        let x := descOf b
        let s2 := s1.incWrap (R.TR_CONS_CONS h t)
        let j := { j0 with d := x }
        match (if isJob x.op then jobRefuse x true else some stOPCODE) with
        | some st => s2.jobBegin h (t + 1) (j.over st 0)
        | none => s2.jobBegin h (t + 1) j
  | _ => halt s csTRANS

/-- R440, R441: engine `h` takes its next job, round-robin. -/
def execEngineJobStart (h : Nat) (s : State) : Out :=
  let e := s.engine h
  if !(decide (h < 32) && e.run.isNone && s.f R.BOOT_STAT_DONE == 1 && !s.isFatal && !(s.engTest h)) then turnedAway s
  else
    match ((List.range 65).map (fun i => (e.last + 1 + i) % 65)).find? (s.reqWork h) with
    | none => turnedAway s
    | some 0 =>
      (match e.hostq with
       | j :: rest =>
         let s1 := s.setEngine h { e with hostq := rest }
         let j1 := match s1.jobCheck j with | some st => j.over st 0 | none => j
         let s2 := s1.jobBegin h 0 j1
         .next ((List.range 64).foldl (fun s r => s.jobIntake r) s2)
       | [] => turnedAway s)
    | some (t + 1) => .next (s.tenFetch h t)

/-- R453. -/
def State.cmpClr (s : State) (h : Nat) : State :=
  s.setFs [(R.CMP_IN_BYTES h, 0), (R.CMP_OUT_BYTES h, 0), (R.CMP_JOBS_COUNT h, 0)]
def execCmpClr (h : Nat) (s : State) : Out := whenOk (decide (h < 32)) s (s.cmpClr h)

end Sys2Proof.Machine
end

