-- ==== Sys2Proof/Machine/SelfTest.lean ====
section
/-! DEFINITION. Self-tests by command (R530, R531). Phase 1 of a test of a tile empties its caches; in phase 2 the test runs. What
a test finds is the environment's answer. -/

namespace Sys2Proof.Machine
open Sys2Proof

/-- A SELF_TEST of code `code` on ring `r`. -/
def selfTest (code : Nat) (r : Nat) (s : State) (f : Cmd → Nat → Out) : Out :=
  onCmd s r 0x25 (· == code) (fun c =>
    if !(c.d.okP false false [mAll, mAll]) then done s r stPARAM 0 else f c (c.d.par 1))

/-- The test of unit `u` starts at once. -/
def testBegin (r : Nat) (c : Cmd) (s : State) : State := (s.begin r c []).putCmd r { c with phase := 2, at_ := s.ns }

/-- R531: tile `t` is quiesced. -/
def State.tileQuiet (s : State) (t : Nat) : Bool :=
  let idle (c : Nat) : Bool := (s.core c).waitev && (s.core c).priv == .M
  (List.range 4096).all (fun d => d == 0 || !(s.inSet d t)) && s.f (R.TIL_PWR_STAT_STATE t) == 0
    && s.f (R.TIL_PWR_STAT_ENTERING t) == 0 && idle (2 * t) && idle (2 * t + 1)
    && s.f (R.CUF_STAT_HANDOVER t) == 0 && s.f (R.CUF_STAT_STOPPED t) == 0

/-- R531: a test of tile `t`: the caches are written back and emptied, then the test runs; the cores stand in WAITEV. -/
def tileTestCmd (code : Nat) (r : Nat) (s : State) : Out :=
  selfTest code r s (fun c t =>
    if t ≥ 256 then done s r stPARAM 0
    else if s.fused t then done s r stDISABLED 0
    else if c.phase = 0 then
      (if s.clash r 0 [t] then turnedAway s
       else if !(s.tileQuiet t) then done s r stUACT 0
       else
         let hold (k : Core) : Core := { k with run := false }
         .next (((s.begin r c [t]).updCore (2 * t) hold).updCore (2 * t + 1) hold))
    else if c.phase = 2 ∨ !(s.l2Still t) then turnedAway s
    else if !(s.gcDirty t).isEmpty then .next (s.gcFlush t)
    else if s.gcOut t then turnedAway s
    else .next ((s.walkL2 t).putCmd r { c with phase := 2 }))
def execArrayBist (r : Nat) (s : State) : Out := tileTestCmd 1 r s
def execCuffInjectionTest (r : Nat) (s : State) : Out := tileTestCmd 2 r s

/-- A test of a unit below `n` that is quiesced by `ok`. -/
def unitTestCmd (code n : Nat) (ok : State → Nat → Bool) (r : Nat) (s : State) : Out :=
  selfTest code r s (fun c u =>
    if c.phase ≠ 0 then turnedAway s
    else if u ≥ n then done s r stPARAM 0
    else if !(ok s u) then done s r stUACT 0
    else .next (testBegin r c s))
def execSliceBist (r : Nat) (s : State) : Out :=
  unitTestCmd 3 256 (fun s _ => s.f R.BOOT_STAT_SELFTEST == 1 && s.f R.PWR_MESHQ_STATE == 2) r s
def execMarchTest (r : Nat) (s : State) : Out := unitTestCmd 4 24 (fun s _ => s.f R.BOOT_STAT_SELFTEST == 1) r s
def execKeeperSramBist (r : Nat) (s : State) : Out :=
  unitTestCmd 5 32 (fun s h => s.f (R.HIV_KSTAT_STATE h) == 2 || s.f (R.HIV_KSTAT_STATE h) == 3) r s
def execEnginePatternTest (r : Nat) (s : State) : Out :=
  unitTestCmd 6 32 (fun s h => s.f (R.CMP_STAT_BUSY h) == 0 && s.f (R.CMP_STAT_HOSTQ h) == 0
    && (List.range 64).all (fun t => s.f (R.CMP_TR_CFG_EN h t) == 0)) r s
def execPortLoopback (r : Nat) (s : State) : Out := unitTestCmd 7 16 (fun s p => s.f (R.FAB_PORT_STAT_STATE p) == 4) r s

/-- R302, R530: a retraining asked for by command starts at once where the channel serves requests; while it is deferred it falls
due, and starts when the deferral ends (DEDUCED, notes/assumptions/113.md). -/
def State.trainAsk (s : State) (ch : Nat) : State :=
  if !(s.chanOpen ch) then s
  else if s.f (R.MEM_TRAIN_STAT_DEFERRED ch) = 0 then s.trainStart ch
  else s.setChan ch { s.chan ch with asked := some s.ns }

/-- R530: a retraining starts on the channels of P1. -/
def execRetrainNow (r : Nat) (s : State) : Out :=
  selfTest 0x10 r s (fun c m =>
    if c.phase ≠ 0 then turnedAway s
    else if m ≥ 2 ^ 24 then done s r stPARAM 0
    else
      let s1 := (List.range 24).foldl (fun s ch => if bitOf m ch then s.trainAsk ch else s) s
      .next (testBegin r c s1))

/-- R530: calibration of the thermal sensors: by the command of ring `r`, or periodic where `r` names no ring. The reading, and
what acts on it, stays as it is. -/
def execSensorCalibration (r : Nat) (s : State) : Out :=
  if r ≥ 64 then .next s
  else selfTest 0x11 r s (fun c _ => if c.phase ≠ 0 then turnedAway s else .next (testBegin r c s))

/-- R531: what test `code` of unit `u` leaves behind; `gp`: the injection test's group and comparator checks (R353). -/
def State.testAfter (s : State) (code u : Nat) (gp : BitVec 7) : State :=
  match code with
  | 1 | 2 =>
    let back (k : Core) : Core := { k.clearCtx with run := true }
    let s1 := (s.updCore (2 * u) back).updCore (2 * u + 1) (fun k => if s.paired u then k else back k)
    if code = 2 then
      s1.setFs [(R.CUF_TEST_GPASS u, gp.toNat % 64), (R.CUF_TEST_CFPASS u, gp.toNat / 64),
        (R.CUF_STAT_TESTFAIL u, b2n (gp != 127))]
    else s1
  | 3 =>
    let s1 := (s.llc.filter (fun e => homeOf e.1 == u)).foldl (fun (s : State) e => match e.2 with
      | some x => { s.tickFree.tickFree with llc := Tbl.set none s.llc e.1 (some { x with
          d := ⟨BitVec.ofNat 512 s.freeVal, BitVec.ofNat 64 s.tickFree.freeVal, 0⟩ }) }
      | none => s) s
    { s1 with dir := s1.dir.filter (fun e => homeOf e.1 != u) }
  | 4 => (List.range 8).foldl (fun s g => s.loseSegment u g) s
  | 5 =>
    let s1 := (List.range 32768).foldl (fun (s : State) i =>
      { s.tickFree with ksram := Tbl.set 0 s.ksram (u * 2 ^ 15 + i) (s.freeVal % 2 ^ 64) }) s
    (s1.keeperRestart u).keeperStart u
  | _ => s

/-- R531: the test of ring `r` ends: it passed, or `st` is the first structure and `cnt` the cells or rows that failed. After a
fatal error it has ended without a pass (notes/assumptions/103.md). -/
def execSelfTestDone (r : Nat) (pass : Bool) (st : BitVec 4) (cnt : W32) (gp : BitVec 7) (s : State) : Out :=
  match s.cmd r with
  | none => turnedAway s
  | some c =>
    let code := c.d.par 0
    let u := c.d.par 1
    let ok := if code = 2 then gp == 127 else pass
    let failed := st.toNat * 16 + cnt.toNat * 2 ^ 32
    if !(c.d.op == 0x25 && c.phase == 2 && s.f R.CMD_STAT_READY == 1) then turnedAway s
    else if s.isFatal then done s r stOK failed
    else if code = 0x10 ∧ (List.range 24).any (fun ch => bitOf u ch && (s.f (R.MEM_STAT_PAUSED ch) == 1 || (s.chan ch).asked.isSome)) then turnedAway s
    else done (s.testAfter code u gp) r stOK (if ok then 1 else failed)

end Sys2Proof.Machine
end

