-- ==== Sys2Proof/Machine/System.lean ====
section
/-! DEFINITION. System instructions (R115, R133, R135, R148, R224) and control registers of both profiles (R116, R117,
R138, R139, R210, R212, R322, R324). -/

namespace Sys2Proof.Machine
open Sys2Proof

/-! ### Traps by instruction -/

/-- R115: below its level a system instruction takes the privileged-instruction fault. -/
def pPriv (c : Nat) (ok : Core → Bool) (word : Nat) (s : State) (f : State → Out) : Out :=
  if ok (s.core c) then f s else pTrap s c { code := 2, val := BitVec.ofNat 64 word }

/-- R133: CALLS, CALLM, BRK save the address + 4. -/
def pCall (c : Nat) (code scode : Nat) (s : State) : Out :=
  .next (s.exception c { code := code, scode := scode } (pcNext (s.core c).pc))

def execCalls (a : Agent) (pr : BitVec 4) (code : BitVec 10) (s : State) : Out :=
  match a with
  | .core c => pRun c pr true s (pCall c 3 code.toNat)
  | .keeper h => kRun h (pr == 0) (some (encSys 0 code.toNat 0)) s
      (fun s => .next (s.kTrap h { code := 3, scode := code.toNat } true))
def execCallm (c : Nat) (pr : BitVec 4) (code : BitVec 10) (s : State) : Out :=
  pRun c pr true s (pPriv c (fun k => k.priv != .U) (encSys pr.toNat code.toNat 1) · (pCall c 4 code.toNat))
def execBrk (a : Agent) (pr : BitVec 4) (code : BitVec 10) (s : State) : Out :=
  match a with
  | .core c => pRun c pr true s (pCall c 5 code.toNat)
  | .keeper h => kRun h (pr == 0) (some (encSys 0 code.toNat 2)) s
      (fun s => .next (s.kTrap h { code := 5, scode := code.toNat } true))

/-- R316, R326: TRET on the keeper. -/
def Keeper.tret (k : Keeper) : Keeper :=
  let k := k.applyPend
  let st := k.cr0 0x800
  let st := putBits st 0 1 (bits st.toNat 1 1)
  let st := putBits st 2 1 (bits st.toNat 3 1)
  { k.setCr 0x800 (putBits st 4 1 0) with pc := k.cr0 0x802 &&& ~~~(3 : W64), slot := none, pq := [] }

/-- R135, R484: an interrupt that can be taken after the return is taken before the next instruction; on a tile that a parked domain holds, a return that would leave M halts the core at the TRET. -/
def State.tretP (s : State) (c : Nat) : State :=
  let k := (s.core c).tret
  if Tbl.get 0 s.tilePark (c / 2) = 1 ∧ k.priv ≠ .M then
    (s.updCore c (fun k => { k with halt := true })).haltFlag (c / 2)
  else (s.setCore c k).recogNow c

def execTret (a : Agent) (pr : BitVec 4) (s : State) : Out :=
  match a with
  | .core c => pRun c pr true s (pPriv c (fun k => k.priv != .U) (encSys pr.toNat 0 3) ·
      (fun s => .next (s.tretP c)))
  | .keeper h => kRun h (pr == 0) (some (encSys 0 0 3)) s (fun s =>
      if (s.keeper h).modMode then .next (s.kTrap h { code := 2, val := BitVec.ofNat 64 (encSys 0 0 3) })
      else .next ((s.setKeeper h (s.keeper h).tret).kRecog h))

/-- R148: WAITEV ends at once where something already wakes it, else the core waits. -/
def execWaitev (a : Agent) (pr : BitVec 4) (s : State) : Out :=
  match a with
  | .core c => pRun c pr true s
      (pPriv c (fun k => k.priv != .U && !(k.priv == .S && (k.cr0 0xC0B).getLsbD 0)) (encSys pr.toNat 0 4) ·
        (fun s => .next ((s.updCore c (fun k => { k with waitev := true })).wakeCore c)))
  | .keeper h => kRun h (pr == 0) (some (encSys 0 0 4)) s (fun s =>
      let k := s.keeper h
      if k.modMode then .next (s.kTrap h { code := 2, val := BitVec.ofNat 64 (encSys 0 0 4) })
      else .next ((s.setKeeper h { k with waitev := true }).wakeKeeper h))

/-! ### TLB invalidation (R224) -/

/-- R177, R193: every writeback that cache maintenance asked for is acknowledged: no FLUSH of its tile out, no line of its
tile's on the way to its home, no GlobalCached writeback unanswered. -/
def State.clDone (s : State) (c : Nat) : Bool :=
  let t := c / 2
  !(s.outReq.any (fun r => r.t == t && r.k == .flush))
    && !(s.caches.any (fun e => e.1 / 2 ^ 64 == t && (e.2.st == .WBP || e.2.st == .KP)))
    && !(s.ftags.any (fun x => x.orig == .wb t))
/-- R177, R111: every older store has written L1D or been answered, and every CL is complete. -/
def State.drained (s : State) (c : Nat) : Bool :=
  (s.core c).sb.isEmpty && (s.core c).posted.all (·.done) && s.clDone c

/-- R177: the older accesses of a fence that was passed are complete. -/
def State.holdOver (s : State) (c : Nat) (h : Hold) : Bool :=
  h.n == 0 && !((s.core c).posted.any (fun p => !p.done && h.post.contains (p.fab, p.tag))) && s.clDone c
/-- R176, R177: no fence holds back a load, or a store, of a type other than Host-ordered. -/
def State.mayLoad (s : State) (c : Nat) : Bool := (s.core c).holds.all (fun h => !h.l || s.holdOver c h)
def State.mayStore (s : State) (c : Nat) : Bool := (s.core c).holds.all (fun h => !h.s || s.holdOver c h)
/-- R177: a fence that holds back younger loads or stores until every older store is complete. -/
def State.addHold (s : State) (c : Nat) (l st : Bool) : State :=
  let k := s.core c
  let old := k.holds.filter (fun h => !(s.holdOver c h))
  if s.drained c then s.setCore c { k with holds := old }
  else s.setCore c { k with holds := old ++ [⟨l, st, k.sb.length, (k.posted.filter (!·.done)).map (fun p => (p.fab, p.tag))⟩] }

def Core.filterTlb (k : Core) (keep : TlbE → Bool) : Core :=
  { k with itlb := k.itlb.filter keep, dtlb := k.dtlb.filter keep, l2tlb := k.l2tlb.filter keep
           l2big := k.l2big.filter keep, walkB := k.walkB.filter (fun b => keep b.w.e), walkC := [] }

/-- TLBI: at a level that may run it, once older work is complete, remove, discard younger work and go on (R224). -/
def tlbi (c : Nat) (pr : BitVec 4) (m : Bool) (word : Nat) (f : Core → Core) (s : State) : Out :=
  pRun c pr true s (pPriv c (fun k => k.priv == .M || (!m && k.priv == .S)) word · (fun s =>
    if s.drained c then .next (s.updCore c (fun k => (f k.settle).squash.retire)) else turnedAway s))

/-- The entry's page contains virtual address `va`. -/
def TlbE.covers (e : TlbE) (va : Nat) : Bool := va % 2 ^ 60 / 2 ^ e.sz * 2 ^ e.sz == e.va

def execTlbiVa (c : Nat) (pr : BitVec 4) (ra : BitVec 5) (s : State) : Out :=
  tlbi c pr false (encR pr.toNat 0x33 0 ra.toNat 0 8)
    (fun k => k.filterTlb (fun e => !(e.covers (k.rg ra.toNat).toNat) && !e.byp)) s
def execTlbiAll (c : Nat) (pr : BitVec 4) (s : State) : Out :=
  tlbi c pr false (encR pr.toNat 0x33 0 0 0 9) (fun k => k.filterTlb (fun e => e.g && !e.byp)) s
def execTlbiAllg (c : Nat) (pr : BitVec 4) (s : State) : Out :=
  tlbi c pr false (encR pr.toNat 0x33 0 0 0 10) (fun k => k.filterTlb (fun _ => false)) s
/-- R224 TLBI.S2. DESIGN CHOICE: bits 63:46 of the operand, which a DPA does not have, are ignored (notes/assumptions/115.md). -/
def execTlbiS2 (c : Nat) (pr : BitVec 4) (ra : BitVec 5) (s : State) : Out :=
  tlbi c pr true (encR pr.toNat 0x33 0 ra.toNat 0 12) (fun k =>
    let d := (k.rg ra.toNat).toNat % 2 ^ 46
    let hit (base sz : Nat) : Bool := d / 2 ^ sz * 2 ^ sz == base
    { k.filterTlb (fun e => !(hit e.dpa e.s2sz) && !e.byp) with s2C := k.s2C.filter (fun x => !(hit x.dpa x.sz)) }) s
def execTlbiS2all (c : Nat) (pr : BitVec 4) (s : State) : Out :=
  tlbi c pr true (encR pr.toNat 0x33 0 0 0 13)
    (fun k => { k.filterTlb (fun _ => false) with s2C := [] }) s

/-! ### Fields of the performance counters (R502, R503) -/

/-- R502: sets 0 P-core (unit: core), 1 tile, 2 LLC slice, 3 channel, 4 port. -/
def pmcBase (set n : Nat) : Nat :=
  match set with
  | 0 => tileBase (n / 2) + 0xC000 + n % 2 * 0x100
  | 1 => tileBase n + 0xC200
  | 2 => tileBase n + 0xC300
  | 3 => memBase n + 0x4000
  | _ => portBase n + 0x4000
def pmcUnits (set : Nat) : Nat := match set with | 0 => 512 | 1 => 256 | 2 => 256 | 3 => 24 | 4 => 16 | _ => 0
def pmcCount (set : Nat) : Nat := if set = 0 then 8 else 4

/-- A field of counter `k` of a set: its register's offset, lowest bit, width. -/
def pmcF (set n k o lo w : Nat) (ty : FTy) : Fld := ⟨pmcBase set n + 16 * k + o, lo, w, ty, 0⟩
def pmcEN (set n k : Nat) : Fld := pmcF set n k 0 0 1 .rw
def pmcEVENT (set n k : Nat) : Fld := pmcF set n k 0 1 10 .rw
def pmcTHRMODE (set n k : Nat) : Fld := pmcF set n k 0 11 1 .rw
def pmcTHR (set n k : Nat) : Fld := pmcF set n k 0 12 8 .rw
def pmcCHAIN (set n k : Nat) : Fld := pmcF set n k 0 20 1 .rw
def pmcUREAD (set n k : Nat) : Fld := pmcF set n k 0 21 1 .rw
def pmcOVF (set n k : Nat) : Fld := pmcF set n k 0 22 1 .rw1c
def pmcOWNER (set n k : Nat) : Fld := pmcF set n k 4 0 12 .rw
def pmcEVT (set n k : Nat) : Fld := pmcF set n k 4 12 13 .rw
def pmcEVTEN (set n k : Nat) : Fld := pmcF set n k 4 25 1 .rw
def pmcVALUE (set n k : Nat) : Fld := pmcF set n k 8 0 48 .rw

/-! ### P-core control registers (R137, R138) -/

/-- R506: the counter that PMCR number `n` reads. -/
def pmcrOf (n : Nat) : Option Nat := if 0x210 ≤ n ∧ n ≤ 0x217 then some (n - 0x210) else none
/-- R137, R506: the implemented numbers. -/
def crExists (n : Nat) : Bool :=
  [0x000, 0x200, 0x201, 0x400, 0x401, 0x402, 0x403, 0x404, 0x405, 0x406, 0x407, 0x408, 0x409, 0x40A, 0x600,
   0xC00, 0xC01, 0xC02, 0xC03, 0xC04, 0xC05, 0xC06, 0xC07, 0xC08, 0xC09, 0xC0A, 0xC0B, 0xC0C, 0xE00].contains n
    || (0x210 ≤ n && n ≤ 0x217)

/-- CORE_ID (R138, R19, R336). -/
def State.coreId (s : State) (c : Nat) : W64 :=
  let t := c / 2
  BitVec.ofNat 64 (s.cix c + b2n (s.paired t) * 2 ^ 9 + s.domOf t * 2 ^ 10 + s.ownDev * 2 ^ 22)

/-- Read a control register, with the side effect of a claim (R147); a PMCR reads its counter (R506). -/
def State.crRead (s : State) (c n : Nat) : State × W64 :=
  match n with
  | 0x200 => (s, BitVec.ofNat 64 s.time)
  | 0x201 => (s, s.coreId c)
  | 0x408 | 0xC09 => (s, 0)
  | 0x600 => s.claim c false
  | 0xE00 => s.claim c true
  | _ => (s, match pmcrOf n with
    | some k => BitVec.ofNat 64 (s.f (pmcVALUE 0 (s.cix c) k))
    | none => (s.core c).cr0 n)

/-- Write a control register (R138): EOI ends an event (R147); S_S1ROOT.EN changing removes bypass entries (R221); a
write of 0b10 to M_TSTAT.PP leaves it. -/
def State.crWrite (s : State) (c n : Nat) (v : W64) : State :=
  match n with
  | 0x408 => s.evEnd (s.cix c) (some false) (v.toNat % 8192)
  | 0xC09 => s.evEnd (s.cix c) (some true) (v.toNat % 8192)
  | 0x40A =>
    s.updCore c (fun k =>
      let k := k.settle
      let k1 := if (v ^^^ k.cr0 0x40A).getLsbD 0 then
        let keep (e : TlbE) : Bool := !e.byp
        { k with itlb := k.itlb.filter keep, dtlb := k.dtlb.filter keep, l2tlb := k.l2tlb.filter keep
                 l2big := k.l2big.filter keep, walkB := k.walkB.filter (fun b => keep b.w.e) }
        else k
      k1.setCr n (v &&& crMask n))
  | 0xC00 => s.updCore c (fun k =>
      k.setCr n (if bits v.toNat 2 2 = 2 then putBits (v &&& 0xF) 2 2 (bits (k.cr0 n).toNat 2 2) else v &&& 0xF))
  | _ => if crMask n = 0 then s else s.updCore c (fun k => k.setCr n (v &&& crMask n))

/-- R116: what CRX, CRSET and CRCLR write. -/
inductive CrOp where
  | x | set | clr
  deriving DecidableEq, Repr

def CrOp.major : CrOp → Nat | .x => 0x34 | .set => 0x35 | .clr => 0x36
def CrOp.val (o : CrOp) (old v : W64) : W64 :=
  match o with | .x => v | .set => old ||| v | .clr => old &&& ~~~v

/-- R506: core `c` may read counter `k` at its level: M always, S while the tile runs the owner, U where UREAD is 1 too. -/
def State.pmcrOk (s : State) (c k : Nat) : Bool :=
  let own := s.f (pmcOWNER 0 (s.cix c) k) == s.domOf (c / 2)
  match (s.core c).priv with
  | .M => true
  | .S => own
  | .U => own && s.f (pmcUREAD 0 (s.cix c) k) == 1

/-- R117, R506: the checks of a control-register instruction on a P-core. -/
def State.crCheck (s : State) (c : Nat) (o : CrOp) (rd ra cr : Nat) : Option Nat :=
  let k := s.core c
  let cls := cr / 1024
  let wr := o = .x || ra != 0
  if !(crExists cr) || cls == 2 || (bits cr 9 1 == 1 && wr) then some 1
  else if (k.priv == .U && cls != 0) || (k.priv == .S && cls == 3)
    || (cr == 0x200 && rd != 0 && k.priv == .U && !(k.cr0 0x409).getLsbD 0)
    || (rd != 0 && (pmcrOf cr).any (fun i => !(s.pmcrOk c i))) then some 2
  else none

/-- R322: bits a keeper register holds; RO and WO registers none. -/
def kcrMask (n : Nat) : W64 :=
  match n with
  | 0x800 => 0xB
  | 0x801 => 0xFFFF_FFFC
  | 0x802 | 0x803 | 0x805 | 0x806 | 0x807 | 0x808 => BitVec.allOnes 64
  | 0x804 => 0x8000_0000_007F_FFFF
  | 0x809 => 0xF
  | 0x80B => 0x3FF
  | 0x80C => 0x3F3F
  | 0x80D | 0x80E | 0x80F | 0x810 => 0x3FFF_FFFF_F0FF
  | _ => 0

def kcrExists (n : Nat) : Bool := (0x800 ≤ n && n ≤ 0x810) || (0xA00 ≤ n && n ≤ 0xA03)

def State.kcrRead (s : State) (h n : Nat) : State × W64 :=
  let k := s.keeper h
  match n with
  | 0xA00 => (s, BitVec.ofNat 64 (h + s.ownDev * 2 ^ 5))
  | 0xA01 => (s, BitVec.ofNat 64 s.time)
  | 0xA02 => s.kClaim h
  | 0x80A => (s, 0)
  | _ => (s, (Tbl.get none k.crP n).getD (k.cr0 n))

/-- R322, R324: a write; of a register marked SYNC it stays pending. -/
def State.kcrWrite (s : State) (h n : Nat) (v : W64) : State :=
  let k := s.keeper h
  if n = 0x80A then s.evEnd (512 + h) none (v.toNat % 8192)
  else if kcrMask n = 0 then s
  else if kSyncRegs.contains n then s.setKeeper h { k with crP := Tbl.set none k.crP n (some (v &&& kcrMask n)) }
  else s.setKeeper h (k.setCr n ((v &&& kcrMask n) ||| (k.cr0 n &&& (if n = 0x800 then 0x14 else 0))))

/-- R174, R187: a claim that returns an event is an acquire: it waits for older release stores (R175 case 3). -/
def State.claimHeld (s : State) (c n : Nat) : Bool :=
  let k := s.core c
  (n == 0x600 || n == 0xE00) && (k.sb.any (·.rel) || k.posted.any (fun p => p.rel && !p.done)) && (s.crRead c n).2 != 0

/-- R116, R117, R331: the control-register instructions; a write on a P-core restarts fetch. On a keeper an unimplemented number of
CLASS 0b10 takes the illegal-instruction fault too: R117 names it for a P-core only (DESIGN CHOICE, notes/assumptions/20.md). -/
def crInstr (o : CrOp) (a : Agent) (pr : BitVec 4) (rd ra : BitVec 5) (cr : BitVec 12) (s : State) : Out :=
  let n := cr.toNat
  let word := encI pr.toNat o.major rd.toNat ra.toNat n
  match a with
  | .core c => pRun c pr true s (fun s =>
      match s.crCheck c o rd.toNat ra.toNat n with
      | some code => pTrap s c { code := code, val := BitVec.ofNat 64 word }
      | none =>
        let v := (s.core c).rg ra.toNat
        let old0 := if o = .x then 0 else ((s.core c).cr0 n)
        let (s1, old) := if rd = 0 then (s, old0) else s.crRead c n
        let wr := o = .x ∨ ra ≠ 0
        let s2 := if wr then s1.crWrite c n (o.val old v) else s1
        if rd ≠ 0 ∧ s.claimHeld c n then turnedAway s
        else .next (s2.updCore c (fun k =>
          let k := if rd = 0 then k else k.wg rd.toNat old
          (if wr then k.squash else k).retire)))
  | .keeper h => kRun h (pr == 0 && rd.toNat < 16 && ra.toNat < 16) none s (fun s =>
      let k := s.keeper h
      let ill := !(kcrExists n) || (n ≥ 0xA00 && (o == .x || ra != 0))
      let priv := k.modMode && !((n == 0xA00 || n == 0xA01))
      if ill then .next (s.kTrap h { code := 1, val := BitVec.ofNat 64 word })
      else if priv then .next (s.kTrap h { code := 2, val := BitVec.ofNat 64 word })
      else
        let v := k.rg ra.toNat
        let old0 := (Tbl.get none k.crP n).getD (k.cr0 n)
        let (s1, old) := if rd = 0 then (s, old0) else s.kcrRead h n
        let s2 := if o = .x ∨ ra ≠ 0 then s1.kcrWrite h n (o.val old v) else s1
        .next ((if rd = 0 then s2 else s2.setKeeper h ((s2.keeper h).wg rd.toNat old)).retireK h))

def execCrx (a : Agent) (pr : BitVec 4) (rd ra : BitVec 5) (cr : BitVec 12) (s : State) : Out :=
  crInstr .x a pr rd ra cr s
def execCrset (a : Agent) (pr : BitVec 4) (rd ra : BitVec 5) (cr : BitVec 12) (s : State) : Out :=
  crInstr .set a pr rd ra cr s
def execCrclr (a : Agent) (pr : BitVec 4) (rd ra : BitVec 5) (cr : BitVec 12) (s : State) : Out :=
  crInstr .clr a pr rd ra cr s

end Sys2Proof.Machine
end

