-- ==== Sys2Proof/Machine/Pmc.lean ====
section
/-! DEFINITION. Performance counters (R502 to R509). How many events a cycle brings is the environment's part, but for the occupancy of
a structure that the model holds: COUNTER_WRAP is one cycle of a counter (notes/assumptions/99.md). -/

namespace Sys2Proof.Machine
open Sys2Proof

/-- R29, R502: the counter exists. -/
def State.pmcThere (s : State) (set n k : Nat) : Bool :=
  decide (set < 5 ∧ n < pmcUnits set ∧ k < pmcCount set) && !(set == 0 && s.fused (n / 2)) && !(set == 1 && s.fused n)

/-- R508. -/
def pmcCode (set e : Nat) : Bool :=
  match set with
  | 0 => (1 ≤ e && e ≤ 0xE) || (0x10 ≤ e && e ≤ 0x13) || (0x20 ≤ e && e ≤ 0x23)
  | 1 => 0x100 ≤ e && e ≤ 0x105
  | 2 => 0x200 ≤ e && e ≤ 0x207
  | 3 => 0x300 ≤ e && e ≤ 0x306
  | _ => 0x380 ≤ e && e ≤ 0x385

/-- R503: a write of PMC_CTL. -/
def State.pmcCtl (s : State) (set n k v : Nat) : State :=
  if !(s.pmcThere set n k) then s
  else if !(pmcCode set (bits v 1 10)) ∨ (k = 0 ∧ v.testBit 20) then s.setF R.PMC_GSTAT_BADEV 1
  else
    let s1 := s.setFs [(pmcEN set n k, bits v 0 1), (pmcEVENT set n k, bits v 1 10), (pmcTHRMODE set n k, bits v 11 1),
      (pmcTHR set n k, bits v 12 8)]
    let s2 := if k % 2 = 1 then s1.setF (pmcCHAIN set n k) (bits v 20 1) else s1
    let s3 := if set = 0 then s2.setF (pmcUREAD set n k) (bits v 21 1) else s2
    if v.testBit 22 then s3.setF (pmcOVF set n k) 0 else s3
def execPmcCtlWrite (set n k : Nat) (v : W32) (s : State) : Out := whenOk (s.pmcThere set n k) s (s.pmcCtl set n k v.toNat)

/-- R505, R74: counter `k` advances now. -/
def State.pmcRuns (s : State) (set n k : Nat) : Bool :=
  let own := s.f (pmcOWNER set n k)
  let e := s.f (pmcEVENT set n k)
  let t := if set = 0 then n / 2 else n
  let inM (c : Nat) : Bool := (s.core c).priv == .M
  s.f (pmcEN set n k) == 1 && s.f R.PMC_GCTL_FREEZE == 0 && s.f (pmcCHAIN set n k) == 0 && pmcCode set e
    && (set > 1 || (if own = 0 then s.domOf t == 0 || (if set = 0 then inM n else inM (2 * t) || inM (2 * t + 1)) else s.domOf t == own))
    && (set != 0 || (s.tileRuns t && !(s.core n).halt && !(s.core n).stopped))
    && (set != 1 || s.tileRuns t)
    && (!(0x20 ≤ e && e ≤ 0x23) || s.f (R.DOM_CFG_DBG own) == 1)

/-- R507: counter `k` advances by `inc`; a wrap sets OVF, triggers its source and carries into the next. -/
def State.pmcAdd (s : State) (set n : Nat) : Nat → Nat → Nat → State
  | 0, _, _ => s
  | fuel + 1, k, inc =>
    let v := s.f (pmcVALUE set n k) + inc
    let s1 := s.setF (pmcVALUE set n k) v
    if v < 2 ^ 48 then s1
    else
      let s2 := s1.setF (pmcOVF set n k) 1
      let evt := s2.f (pmcEVT set n k)
      let s3 := if s2.f (pmcEVTEN set n k) = 1 ∧ 1024 ≤ evt ∧ s2.f (R.EVT_OWN_OWNER evt) = s2.f (pmcOWNER set n k) then
        s2.trigger evt else s2
      if k + 1 < pmcCount set ∧ s3.f (pmcEN set n (k + 1)) = 1 ∧ s3.f (pmcCHAIN set n (k + 1)) = 1 then
        s3.pmcAdd set n fuel (k + 1) 1
      else s3

/-- R504, R508: the occupancy that an event marked O supplies, of a structure that the model holds. -/
def State.pmcOccupancy (s : State) (set n e : Nat) : Option Nat :=
  let home (l : List Msg) : Nat := l.countP (fun m => homeOf m.L == n)
  match set, e with
  | 0, 0x012 => some (s.core n).sb.length
  | 0, 0x013 => some (s.core n).sfb.length
  | 1, 0x105 => some ((s.caches.countP (fun e => e.1 / 2 ^ 64 == n && e.2.st.transient)) + s.outReq.countP (fun r => r.t == n))
  | 2, 0x205 => some (s.txns.countP (fun x => homeOf x.L == n))
  | 2, 0x206 => some (home s.pendQ)
  | 2, 0x207 => some (home s.retryQ)
  | 3, 0x304 => some (s.chan n).rdq.length
  | 3, 0x305 => some (s.chan n).wrq.length
  | 4, 0x383 => some (s.port n).hold.length
  | _, _ => none
/-- R502, R504: what counter `k` adds in a cycle in which `inc` events occur. -/
def State.pmcInc (s : State) (set n k inc : Nat) : Nat :=
  let i := (s.pmcOccupancy set n (s.f (pmcEVENT set n k))).getD inc
  if s.f (pmcTHRMODE set n k) = 0 then i else b2n (decide (s.f (pmcTHR set n k) < i))

/-- R502 to R507: a cycle in which counter `k` meets `inc` events. What core 0 of a pair counts, core 1's counters count too. -/
def execCounterWrap (set n k inc : Nat) (s : State) : Out :=
  let pair := set == 0 && s.paired (n / 2)
  let one (s : State) (n : Nat) : State := if s.pmcRuns set n k then s.pmcAdd set n 2 k (s.pmcInc set n k inc) else s
  whenOk (s.pmcThere set n k && decide (inc < 2 ^ 48) && s.pmcRuns set n k && !(pair && n % 2 == 1)) s
    (if pair then one (one s n) (n + 1) else one s n)

/-- R507: a write of PMC_GCTL.FREEZE. -/
def execFreeze (on : Bool) (s : State) : Out := .next (s.setF R.PMC_GCTL_FREEZE (b2n on))

/-- The field key is a PMC_VALUE or an OVF. -/
def pmcClears (key : Nat) : Bool :=
  let a := key / 128
  let lo := key % 128
  let o := a % 0x1_0000
  let here := (tileBase 0 ≤ a && a < tileBase 256 && 0xC000 ≤ o && o < 0xC340)
    || (memBase 0 ≤ a && a < memBase 24 && 0x4000 ≤ o && o < 0x4040)
    || (portBase 0 ≤ a && a < portBase 16 && 0x4000 ≤ o && o < 0x4040)
  here && ((a % 16 == 8 && lo == 0) || (a % 16 == 0 && lo == 22))
/-- R509. -/
def State.pmcClear (s : State) : State := { s with csr := s.csr.filter (fun e => !(pmcClears e.1)) }
def execClrall (s : State) : Out := .next s.pmcClear

end Sys2Proof.Machine
end

