-- ==== Sys2Proof/Machine/Recorder.lean ====
section
/-! DEFINITION. The event recorder (R514 to R520). -/

namespace Sys2Proof.Machine
open Sys2Proof

/-- R517: the 32 bytes of a record. -/
def Rec.bytes (r : Rec) : List Nat :=
  leBytes 4 r.seq ++ leBytes 4 r.oph ++ leBytes 2 r.ops ++ leBytes 2 r.src ++ leBytes 4 r.pcyc
    ++ [r.sev, r.flags] ++ leBytes 2 r.code ++ leBytes 4 r.d0 ++ leBytes 8 r.d1

def State.setEr (s : State) (f : Recorder → Recorder) : State := { s with er := f s.er }

/-- R519, R523: a clear in progress is given up; its area keeps its contents. -/
def State.clearAbandon (s : State) : State :=
  if s.f R.ER_STAT_BUSY = 0 then s
  else (s.setF R.ER_STAT_BUSY 0).setEr (fun e => { e with clrMask := 0, clrRec := none })

/-- R514: a record takes the next SEQ and its place in area 1; one of severity deferred or above is to be copied to area 0;
sources follow. -/
def State.recTake (s : State) (r : Rec) : State :=
  let r := { r with seq := s.f R.ER_SEQ_SEQ }
  let s := (s.incWrap R.ER_SEQ_SEQ).setEr (fun e =>
    { e with area1 := (if e.area1.length < 1536 then e.area1 else e.area1.drop 1) ++ [r]
             copyQ := if r.sev ≥ 2 then e.copyQ ++ [r] else e.copyQ })
  let s := if r.sev = 4 then s.clearAbandon else s
  let s := if r.sev = 2 then s.trigger 1006 else s
  if r.sev ≥ 3 then s.raise 1003 1 else s

/-- The oldest staged record is accepted. -/
def State.recAccept (s : State) : State :=
  match s.er.staged with
  | r :: rest => (s.setEr (fun e => { e with staged := rest })).recTake r
  | [] => s
def State.acceptAll (s : State) : State := (List.range s.er.staged.length).foldl (fun s _ => s.recAccept) s
def execRecordAccept (s : State) : Out := whenOk (!s.er.staged.isEmpty) s s.recAccept

/-- Area 0 is being cleared. -/
def State.clearing0 (s : State) : Bool := s.f R.ER_STAT_BUSY == 1 && bitOf s.er.clrMask 0

/-- R514: one record to area 0, or refused because it is full. -/
def State.persist (s : State) (r : Rec) : State :=
  if s.er.area0.length ≥ 512 then
    let s1 := s.incSat R.ER_PREFUSED_COUNT
    if s1.er.pref then s1 else (s1.setEr (fun e => { e with pref := true })).raise 1003 0
  else
    let s1 := s.setEr (fun e => { e with area0 := e.area0 ++ [{ r with flags := setBit r.flags 0 }] })
    s1.setFs [(R.ER_PCOUNT_COUNT, s1.er.area0.length), (R.ER_STAT_PFULL, b2n (decide (s1.er.area0.length ≥ 512)))]

/-- R514: the oldest record waiting for area 0 is copied; `err`: the flash write failed. -/
def execPersistentCopy (err : Bool) (s : State) : Out :=
  match s.er.copyQ with
  | r :: rest =>
    if s.clearing0 then turnedAway s
    else
      let s1 := s.setEr (fun e => { e with copyQ := rest })
      .next (if err then (s1.setF R.ER_STAT_FLASHERR 1).raise 1003 2 else s1.persist r)
  | [] => turnedAway s

/-- R517: always-on logic saves to flash. -/
def State.hoursSave (s : State) : State :=
  s.setEr (fun e => { e with flSeq := s.f R.ER_SEQ_SEQ, flHours := s.f R.ER_OPHOURS_HOURS, flSec := s.f R.ER_OPSEC_SEC,
                             flCycle := s.f R.ER_PCYCLE_COUNT })
def execOphoursSave (s : State) : Out := .next s.hoursSave

/-- R515: every staged record is written, and area 1 is copied to area 2. -/
def State.flushArea (s : State) : State :=
  let s1 := s.acceptAll
  let a := s1.er.area1
  let s2 := s1.setEr (fun e => { e with area2 := a.map (fun r => { r with flags := setBit r.flags 1 }) })
  (s2.setFs [(R.ER_FLUSHINFO_LASTSEQ, (a.getLast?.map (·.seq)).getD (s2.f R.ER_FLUSHINFO_LASTSEQ)),
    (R.ER_FLUSHINFO_COUNT, a.length), (R.ER_STAT_FLUSHING, 0)]).hoursSave
def State.flushNow (s : State) : State := if s.f R.ER_STAT_FLUSHING = 1 then s.flushArea else s
def execFlushDone (s : State) : Out := whenOk (s.f R.ER_STAT_FLUSHING == 1) s s.flushArea

/-! ### Reading and clearing -/

/-- R518: the record that the cursor selects, and GONE. -/
def State.cursorRec (s : State) : Option Rec × Bool :=
  let i := s.f R.ER_CURSOR_INDEX
  match s.f R.ER_CURSOR_AREA with
  | 0 => (s.er.area0[i]?, false)
  | 1 =>
    let r := s.er.area1.find? (·.seq == i)
    (r, r.isNone && decide (i < s.f R.ER_SEQ_SEQ))
  | 2 =>
    let r := s.er.area2.find? (·.seq == i)
    (r, r.isNone && decide (i < s.f R.ER_SEQ_SEQ))
  | _ => (none, false)
/-- R518: the copy into the window. -/
def State.cursorCopy (s : State) : State :=
  let (r, gone) := s.cursorRec
  let s1 := s.setFs [(R.ER_CSTAT_VALID, b2n r.isSome), (R.ER_CSTAT_GONE, b2n gone)]
  match r with
  | some x => (List.range 8).foldl (fun s i => s.setF (R.ER_WINDOW_DATA i) (ofLe ((x.bytes.drop (4 * i)).take 4))) s1
  | none => s1
def State.cursorWrite (s : State) (v : Nat) : State :=
  (s.setFs [(R.ER_CURSOR_AREA, bits v 0 2), (R.ER_CURSOR_AUTOINC, bits v 2 1), (R.ER_CURSOR_INDEX, bits v 32 32)]).cursorCopy
def execErCursorWrite (v : W64) (s : State) : Out := .next (s.cursorWrite v.toNat)

/-- R518: what a read of ER_WINDOW[7] does. -/
def State.windowRead (s : State) : State :=
  if s.f R.ER_CURSOR_AUTOINC = 1 then (s.incWrap R.ER_CURSOR_INDEX).cursorCopy else s
def execErWindowAutoinc (s : State) : Out := .next s.windowRead

/-- R519: a write of ER_CLR. Records staged before it are accepted first. -/
def State.erClr (s : State) (v : Nat) : State :=
  if s.f R.ER_STAT_BUSY = 1 ∨ bits v 0 16 ≠ 0x0C1E ∨ s.isFatal then s
  else
    let m := bits v 16 2
    let s1 := s.acceptAll
    let s2 := (s1.setF R.ER_STAT_BUSY 1).setEr (fun e => { e with clrMask := m, clrRec := some (s1.f R.ER_SEQ_SEQ) })
    s2.recTake { oph := s.f R.ER_OPHOURS_HOURS, ops := s.f R.ER_OPSEC_SEC, src := 12 * 4096, pcyc := s.f R.ER_PCYCLE_COUNT,
                 sev := 0, code := 0x0001, d0 := m, d1 := 0 }
def execErClr (v : W32) (s : State) : Out := .next (s.erClr v.toNat)

/-- R519: the erase ends: the area-cleared record first, then what was accepted since and still stands in area 1. -/
def execClearDone (s : State) : Out :=
  if s.f R.ER_STAT_BUSY = 0 then turnedAway s
  else
    let m := s.er.clrMask
    let first := s.er.clrRec.getD 0
    let s1 := ((s.setF R.ER_STAT_BUSY 0).setEr (fun e => { e with clrMask := 0, clrRec := none })).raise 1003 3
    let s2 := if bitOf m 1 then
        (s1.setEr (fun e => { e with area2 := [] })).setFs [(R.ER_FLUSHINFO_LASTSEQ, 0), (R.ER_FLUSHINFO_COUNT, 0)]
      else s1
    if !(bitOf m 0) then .next s2
    else
      let here (q : Nat) : Bool := s2.er.area1.any (·.seq == q)
      let since := s2.er.copyQ.filter (fun r => decide (r.seq ≥ first))
      let gone := since.filter (fun r => !(here r.seq))
      let s3 := s2.setEr (fun e => { e with area0 := [], copyQ := since.filter (fun r => here r.seq), pref := false })
      let s4 := (s3.setFs [(R.ER_PCOUNT_COUNT, 0), (R.ER_STAT_PFULL, 0)]).addSat R.ER_PREFUSED_COUNT gone.length
      .next (match s4.er.area1.find? (·.seq == first) with
        | some r => s4.persist r
        | none => s4.incSat R.ER_PREFUSED_COUNT)

end Sys2Proof.Machine
end

