-- ==== Sys2Proof/Machine/Boot.lean ====
section
/-! DEFINITION. Power-on and device reset, boot, security fuses, and the sideband contacts (R521 to R532, R536 to R545). -/

namespace Sys2Proof.Machine
open Sys2Proof

/-! ### Reset (R522 to R524) -/

/-- Fields held in fuses, which every reset reloads (R28, R528). -/
def fuseFlds : List Fld :=
  (List.range 8).map R.BOOT_TILE_FUSE_DIS ++ [R.BOOT_PART_CODE, R.BOOT_PART_TILES, R.BOOT_PART_CORES]
    ++ (List.range 4).flatMap (fun i => [R.SEC_SLOT_ENROLLED i, R.SEC_SLOT_REVOKED i, R.SEC_ROLL_COUNT i])
/-- R520: recorder fields that survive a power-on reset in flash. -/
def flashFlds : List Fld :=
  [R.ER_STAT_PFULL, R.ER_PCOUNT_COUNT, R.ER_PREFUSED_COUNT, R.ER_FLUSHINFO_LASTSEQ, R.ER_FLUSHINFO_COUNT]
/-- R520: those that always-on logic holds. -/
def alwaysFlds : List Fld := [R.ER_SEQ_SEQ, R.ER_OPHOURS_HOURS, R.ER_OPSEC_SEC, R.ER_PCYCLE_COUNT]

def State.copyFlds (s from_ : State) (fs : List Fld) : State := fs.foldl (fun s x => s.setF x (from_.f x)) s

/-- What every reset keeps: fuses, flash, contacts, the recorder's flash areas, the log of the links, and the environment's
commands. -/
def State.resetCore (s : State) : State :=
  let e := s.er
  ((({ State.reset with
      free := s.free, fuses := s.fuses, flash := s.flash, pins := s.pins, tx := s.tx, temps := s.temps, pending := s.pending
      er := { area0 := e.area0, area2 := e.area2, pref := e.pref, flSeq := e.flSeq, flHours := e.flHours, flSec := e.flSec,
              flCycle := e.flCycle } } : State).copyFlds s fuseFlds).copyFlds s flashFlds).copyFlds s alwaysFlds

def popCount (n w : Nat) : Nat := (List.range w).foldl (fun a i => a + b2n (n.testBit i)) 0

/-- Boot step 1 after a reset of `kind` (BOOT_RSTCAUSE): straps sampled, the meter key's generation read. -/
def State.bootStart (s : State) (kind : Nat) : State :=
  let p := { s.pins with inPor := false, tapIr := if s.pins.tapIr ≥ 2 then 0 else s.pins.tapIr }
  let s1 := { s.resetCore with pins := p, mkey := some (popCount s.fuses.keygen 8) }
  s1.setFs [(R.BOOT_STRAP_PAIR_DEFAULT, b2n p.pairDef), (R.BOOT_STRAP_SELFTEST, b2n p.selftest),
    (R.BOOT_STRAP_BIST_FULL, b2n p.bistFull), (R.BOOT_STAT_SELFTEST, b2n p.selftest), (R.BOOT_RSTCAUSE_KIND, kind)]

/-- R298: nothing in DRAM is defined. -/
def State.dramLost (s : State) : State :=
  { s with dram := [], dramEp := (List.range 192).foldl (fun m k => Tbl.set 0 m k (Tbl.get 0 m k + 1)) s.dramEp }

/-- R520, R517, R522: a power-on reset. SEQ resumes above every value saved. -/
def State.porBoot (s : State) : State :=
  let s1 := { (s.bootStart 0).dramLost with }
  let s2 := s1.setFs [(R.ER_SEQ_SEQ, s.er.flSeq + 1 + s.freeVal), (R.ER_OPHOURS_HOURS, s.er.flHours),
    (R.ER_OPSEC_SEC, s.er.flSec), (R.ER_PCYCLE_COUNT, s.er.flCycle + 1)]
  s2.tickFree.setEr (fun e => { e with flCycle := s.er.flCycle + 1 })

/-- R522: a device reset: DRAM, with its check fields, stays. One asked for during a flush starts after it (R523). -/
def State.devReset (s : State) (kind : Nat) : State :=
  let s0 := s.flushNow
  { s0.bootStart kind with dram := s0.dram, dramEp := s0.dramEp }

/-- Everything that ends power-on reset but POR_N's release (R536, R540, R545). -/
def Pins.canBoot (p : Pins) : Bool := p.porN && p.rails == 15 && p.flashN && !p.trip

/-- R536, R538: the device is in power-on reset. A flush in progress completes while VAUX holds. -/
def State.porHold (s : State) : State :=
  let s0 := if bitOf s.pins.rails 3 then s.flushNow else s
  let t := s0.resetCore
  ({ t with pins := { s0.pins with inPor := true } }).dramLost.setFs
    [(R.PWR_TEMP_TJ, s0.f R.PWR_TEMP_TJ), (R.PWR_TEMP_TMEM, s0.f R.PWR_TEMP_TMEM)]

/-- POR_N is released. -/
def execPowerOnReset (s : State) : Out :=
  let s1 : State := { s with pins := { s.pins with porN := true } }
  whenOk (s.pins.inPor && !s.pins.porN) s (if s1.pins.canBoot then s1.porBoot else s1)

/-- R536, R538. -/
def execPorNLow (s : State) : Out :=
  whenOk s.pins.porN s ({ s with pins := { s.pins with porN := false } }).porHold

/-- R536: rail `rail` (0 VIN_MAIN, 1 VIN_MEM, 2 VIN_IO, 3 VAUX) falls 5% below nominal. -/
def execRailMonitorTrip (rail : Nat) (s : State) : Out :=
  whenOk (decide (rail < 4) && bitOf s.pins.rails rail) s
    ({ s with pins := { s.pins with
        rails := clrBit s.pins.rails rail, trip := if rail = 0 then false else s.pins.trip } }).porHold

/-- R536: a rail comes within tolerance. -/
def execRailInTolerance (rail : Nat) (s : State) : Out :=
  let s1 : State := { s with pins := { s.pins with rails := setBit s.pins.rails rail } }
  whenOk (decide (rail < 4) && !(bitOf s.pins.rails rail)) s
    (if s1.pins.inPor && s1.pins.canBoot then s1.porBoot else s1)

/-- R540: a junction at 115 °C: THERMTRIP_N low, and power-on reset until the board removes VIN_MAIN. -/
def execThermtrip (s : State) : Out :=
  whenOk (!s.pins.trip && ((List.range 32).any (fun h => decide (s.hiveTemp h ≥ 115))
      || decide (degC (s.f R.PWR_TEMP_TMEM) ≥ 115))) s
    ({ s with pins := { s.pins with trip := true } }).porHold

/-- R521, R522: DEVRST_N has been low for at least 1 µs; the straps as they stand then. -/
def execDeviceReset (pairDef selftest bistFull : Bool) (s : State) : Out :=
  whenOk (!s.pins.inPor) s
    (({ s with pins := { s.pins with pairDef := pairDef, selftest := selftest, bistFull := bistFull } }).devReset 1)

/-- R532. -/
def State.bootCtl (s : State) (v : Nat) : State := if bits v 0 16 = 0xD5E7 ∧ v.testBit 16 then s.devReset 2 else s
def execBootCtl (v : W32) (s : State) : Out := whenOk (!s.pins.inPor) s (s.bootCtl v.toNat)

/-! ### Boot (R524 to R526) -/

/-- R525: an image is chosen, each refused copy recorded; the status in SEC_STAT, and whether copy B is used. -/
def State.bootImage (s : State) (slot kind lim : Nat) : State × Nat × Bool :=
  let a := s.imgCheck (s.flash.getD slot []) kind lim
  let b := s.imgCheck (s.flash.getD (slot + 1) []) kind lim
  let s1 := if a ≠ 0 then s.record 11 0 0 0x0003 kind a else s
  let s2 := if a ≠ 0 ∧ b ≠ 0 then s1.record 11 0 0 0x0003 kind b else s1
  (s2, if a = 0 then 0 else b, a != 0)

def monBase : Nat := 0xBF_FE80_0000
def monSize : Nat := 0x180_0000

/-- R525, R526: every code word of the monitor region is written: the image, its zeroed bytes, and elsewhere values the spec
does not give. -/
def State.monWrite (s : State) (b : List Nat) : State :=
  let lo := imgOff b
  let n := imgCodeLen b + imgBss b
  let code := imgCode b
  (List.range (monSize / 8)).foldl (fun s i =>
    let v := s.freeVal % 2 ^ 64
    let byte (k : Nat) : Nat :=
      let o := 8 * i + k
      if lo ≤ o ∧ o < lo + n then code.getD (o - lo) 0 else v / 256 ^ k % 256
    let a := monBase + 8 * i
    if s.chanGone (a / 64) then s.tickFree
    else s.tickFree.setCw (a / 8) (codeEnc (ofLe ((List.range 8).map byte)) 0 false)) s

/-- R353, R348, R524 steps 4 and 5: tile `t`; `gp`: its injection test. -/
def State.bootTile (s : State) (t : Nat) (gp : BitVec 7) : State :=
  let s1 := s.setF (R.TIL_HOME_STAT_READY t) 1
  if s.fused t then s1
  else s1.setFs [(R.CUF_TEST_GPASS t, gp.toNat % 64), (R.CUF_TEST_CFPASS t, gp.toNat / 64),
    (R.CUF_STAT_TESTFAIL t, b2n (gp != 127)), (R.CUF_STAT_PAIR t, b2n (s.f R.BOOT_STRAP_PAIR_DEFAULT == 1 && gp == 127))]

/-- R524 step 6. -/
def State.bootChan (s : State) (ch : Nat) (fail : Bool) : State :=
  let s1 := s.setChan ch { s.chan ch with trainAt := s.ns, asked := none, leakAt := s.ns, grpAt := s.ns, forageAt := s.ns }
  if !fail then s1.setF (R.MEM_STAT_TRAINED ch) 1
  else
    ((s1.setFs [(R.MEM_STAT_FAILED ch, 1), (R.BOOT_CHFAIL_CH, setBit (s1.f R.BOOT_CHFAIL_CH) ch)]).raise
      (800 + 5 * ch + 4) 0).deferred 4 ch 0x0303 0 s.time

def bootStatFlds : List Fld :=
  [R.BOOT_STAT_STEP, R.BOOT_STAT_DONE, R.BOOT_STAT_FAIL, R.BOOT_STAT_SELFTEST, R.BOOT_STAT_KFW_B, R.BOOT_STAT_MON_B]

/-- R524 steps 2 to 9. `chFail`: channels whose training failed; `tests`: injection tests that failed, with what passed in
them; `ms`: how long boot took. -/
def State.boot (s : State) (chFail : Nat) (tests : List (Nat × BitVec 7)) (ms : Nat) : State :=
  let (s1, kst, kb) := s.bootImage 0 0 0x40000
  let s2 := (s1.setFs [(R.SEC_STAT_KFW, kst), (R.BOOT_STAT_KFW_B, b2n (kb && kst == 0))])
  let s3 := (List.range 32).foldl (fun s h => s.keeperStart h) s2
  let s4 := (List.range 256).foldl (fun s t =>
    s.bootTile t (((tests.find? (·.1 == t)).map (·.2)).getD 127)) s3
  let s5 := (List.range 24).foldl (fun s ch => s.bootChan ch (bitOf chFail ch)) s4
  let (s6, mst, mb) := s5.bootImage 2 2 monSize
  let s7 := s6.setFs [(R.SEC_STAT_MON, mst), (R.BOOT_STAT_MON_B, b2n (mb && mst == 0))]
  let s8 := match s7.pickImage 2 2 monSize with
    | none => s7
    | some (b, _) =>
      let w := (s7.monWrite b)
      let q := monBase / 1536
      let w := (List.range 24).foldl (fun (s : State) ch =>
        s.scrubWrite ch 7 (q + (q + monSize / 1536 - 1) * 2 ^ 32 + 2 ^ 63)) w
      (List.range 512).foldl (fun (s : State) c =>
        if s.fused (c / 2) then s
        else s.setCore c { pc := BitVec.ofNat 64 (monBase + imgEntry b), run := true }) w
  let fail := kst != 0 || mst != 0
  let s9 := s8.setFs [(R.BOOT_STAT_STEP, 9), (R.BOOT_STAT_DONE, 1), (R.BOOT_STAT_FAIL, b2n fail),
    (R.CMD_STAT_READY, b2n (!fail)), (R.BOOT_MS_MS, ms)]
  s9.record 11 0 0 0x0002 (s9.wordOf bootStatFlds) 0
def execBootDone (chFail : Nat) (tests : List (Nat × BitVec 7)) (ms : Nat) (s : State) : Out :=
  whenOk (!s.pins.inPor && s.f R.BOOT_STAT_DONE == 0) s (s.boot chFail tests ms)

/-! ### Fuses (R528, R529, R532) -/

/-- A write of SEC_ENROLL. -/
def State.secWrite (s : State) (v : Nat) : State :=
  let n := bits v 0 2
  if bits v 8 8 ≠ 0x5E ∨ n = 0 then s
  else
    let s1 := if v.testBit 2 ∧ !(s.fuses.digest.any (fun (e : Nat × Nat) => e.1 == n)) then
        let d := (List.range 12).foldl (fun a i => a + Tbl.get 0 s.enroll i * 2 ^ (32 * i)) 0
        { s with fuses := { s.fuses with digest := s.fuses.digest ++ [(n, d)] } }.setF (R.SEC_SLOT_ENROLLED n) 1
      else s
    if v.testBit 3 ∧ !(s1.fuses.revoked.contains n) then
      { s1 with fuses := { s1.fuses with revoked := s1.fuses.revoked ++ [n] } }.setF (R.SEC_SLOT_REVOKED n) 1
    else s1
def execSecEnroll (slot : BitVec 2) (key : BitVec 8) (s : State) : Out :=
  .next (s.secWrite (slot.toNat + 4 + key.toNat * 256))
def execSecRevoke (slot : BitVec 2) (key : BitVec 8) (s : State) : Out :=
  .next (s.secWrite (slot.toNat + 8 + key.toNat * 256))

/-- R528: a rollback counter only rises. -/
def State.secRoll (s : State) (n v : Nat) : State :=
  if v % 256 > s.slotRoll n then
    { s with fuses := { s.fuses with roll := s.fuses.roll.filter (fun (e : Nat × Nat) => e.1 != n) ++ [(n, v % 256)] } }.setF (R.SEC_ROLL_COUNT n) v
  else s
def execSecRollWrite (n : Nat) (v : W32) (s : State) : Out := whenOk (decide (n < 4)) s (s.secRoll n v.toNat)

/-- R529: the next bit of KEYGEN is blown. -/
def State.keyroll (s : State) (v : Nat) : State :=
  if bits v 0 16 ≠ 0x4B52 then s
  else
    match (List.range 8).find? (fun i => !(s.fuses.keygen.testBit i)) with
    | some i => { s with fuses := { s.fuses with keygen := setBit s.fuses.keygen i } }
    | none => s
def execSecKeyroll (v : W32) (s : State) : Out := .next (s.keyroll v.toNat)

/-! ### Sideband contacts -/

/-- R538: operating hours, SEQ and PCYCLE are saved, and staged records written; during a flush, the flush does so. -/
def execPwrwarnN (s : State) : Out := whenOk (!s.pins.inPor && s.f R.ER_STAT_FLUSHING == 0) s s.acceptAll.hoursSave

/-- R545: FLASH_OWN_N goes low or high; with it and POR_N low, the programmer may write the flash images. -/
def execFlashOwnN (low : Bool) (imgs : List (List Nat)) (s : State) : Out :=
  let s1 : State := { s with pins := { s.pins with flashN := !low } }
  let s2 : State := if low && !s.pins.porN && imgs.length == 4 then { s1 with flash := imgs.map (·.map (· % 256)) } else s1
  .next (if s2.pins.inPor && s2.pins.canBoot then s2.porBoot else s2)

/-- R543: a block read; the bytes answered, none where the target does not acknowledge. -/
def execSmbusBlockRead (code : Nat) (s : State) : Out :=
  let lim := s.f R.PWR_LIMSTAT_THERM + s.f R.PWR_LIMSTAT_MEM * 2 + s.f R.PWR_LIMSTAT_CURR * 4 + s.f R.PWR_LIMSTAT_PIN * 8
  let cap := (List.range 32).foldl (fun m h => min m (s.f (R.PWR_HCAP_CAP h))) 96
  let rest : List Nat := [lim, cap] ++ leBytes 2 (s.f R.PWR_IMAIN_DA)
    ++ [s.f R.BOOT_STAT_DONE + s.f R.BOOT_STAT_FAIL * 2, s.f R.ER_STAT_FATAL, s.f R.HEP_DV_STAT_STATE,
        s.f R.ER_PCYCLE_COUNT % 256, 0, 0]
  let bs := [s.f R.PWR_TEMP_TJ, s.f R.PWR_TEMP_TMEM] ++ (if s.pins.inPor then List.replicate 10 0 else rest)
  whenOk (bitOf s.pins.rails 3) s { s with pins := { s.pins with smbus := if code = 0x10 then bs else [] } }

/-- R544: the TAP's instruction, and what its data register gives. Instructions 0 BYPASS, 1 IDCODE, 2 SAMPLE/PRELOAD, 3
EXTEST. -/
def State.tap (s : State) (ir out : Nat) (bsr : List Bool) : State :=
  { s with pins := { s.pins with tapIr := ir, tapOut := out, bsr := bsr } }
def execBypass (s : State) : Out := .next (s.tap 0 0 s.pins.bsr)
def execIdcode (s : State) : Out :=
  .next (s.tap 1 (1 + 0x2B7 * 2 + 0x4512 * 2 ^ 12 + Config.siliconRev % 16 * 2 ^ 28) s.pins.bsr)
/-- Offered while POR_N is low; else the instruction is BYPASS. The boundary register's layout is Urhorn's: what is sampled is a
free value, `v` what is preloaded. -/
def execSamplePreload (v : List Bool) (s : State) : Out :=
  if s.pins.porN then .next (s.tap 0 0 s.pins.bsr) else .next (s.tickFree.tap 2 s.freeVal v)
def execExtest (s : State) : Out :=
  if s.pins.porN then .next (s.tap 0 0 s.pins.bsr) else .next (s.tickFree.tap 3 s.freeVal s.pins.bsr)

end Sys2Proof.Machine
end

