-- ==== Sys2Proof/Machine/ControlSpace.lean ====
section
/-! DEFINITION. The control space as its requesters reach it (R15, R16, R29, R38 to R45): which register an access meets,
who may make it, what a read returns and what a write does. -/

namespace Sys2Proof.Machine
open Sys2Proof

/-! ### Where an offset lies (R38 to R41) -/

def globalBlks : List Blk := [.boot, .sec, .hep, .cmd, .evt, .er, .mtr, .dom, .pwr, .fab, .pmc]

/-- The block, the unit and the offset in the block of control-space offset `off`. -/
def ctlPlace (off : Nat) : Option (Blk × Nat × Nat) :=
  if off < 0xB0_0000 then (globalBlks[off / 2 ^ 20]?).map (fun b => (b, 0, off % 2 ^ 20))
  else if tileBase 0 ≤ off ∧ off < tileBase 256 then some (.tile, (off - tileBase 0) / 2 ^ 16, off % 2 ^ 16)
  else if hiveBase 0 ≤ off ∧ off < hiveBase 32 then some (.hive, (off - hiveBase 0) / 2 ^ 20, off % 2 ^ 20)
  else if memBase 0 ≤ off ∧ off < memBase 24 then some (.mem, (off - memBase 0) / 2 ^ 16, off % 2 ^ 16)
  else if portBase 0 ≤ off ∧ off < portBase 16 then some (.fport, (off - portBase 0) / 2 ^ 16, off % 2 ^ 16)
  else none

/-- The indices of a register array's element at block offset `o`, and the byte in it. -/
def RegRow.at_ (r : RegRow) (o : Nat) : Option (Nat × Nat × Nat) :=
  if o < r.off then none
  else
    let d := o - r.off
    let i := if r.s1 = 0 then 0 else d / r.s1
    let d1 := d - i * r.s1
    let j := if r.s2 = 0 then 0 else d1 / r.s2
    let q := d1 - j * r.s2
    if i < r.c1 ∧ j < r.c2 ∧ q < r.bytes then some (i, j, q) else none

/-- A register met by an access: its row, unit, indices and byte. -/
structure RegHit where
  row : RegRow
  n   : Nat
  i   : Nat
  j   : Nat
  q   : Nat

def RegHit.flds (x : RegHit) : List Fld := x.row.flds x.n x.i x.j

def regFind (b : Blk) (n o : Nat) : List RegRow → Option RegHit
  | [] => none
  | r :: rest =>
    if r.blk = b then
      match r.at_ o with
      | some (i, j, q) => some ⟨r, n, i, j, q⟩
      | none => regFind b n o rest
    else regFind b n o rest
def ctlReg (off : Nat) : Option RegHit :=
  match ctlPlace off with
  | some (b, n, o) => regFind b n o regRows
  | none => none

/-- R29: the offset lies in a part of its tile block that a fuse-disabled tile does not supply. -/
def State.ctlAbsent (s : State) (off : Nat) : Bool :=
  match ctlPlace off with
  | some (.tile, n, o) => s.fused n && (decide (o < 0x4000) || (decide (0x8000 ≤ o) && decide (o < 0xC300)))
  | _ => false

/-- R43: the owner of the tenant page at this offset: of a ring's doorbell page (R450, R469) or a trigger page (R390). -/
def State.pageOwner (s : State) (off : Nat) : Option Nat :=
  match ctlPlace off with
  | some (.hive, h, o) =>
    if 0xC_0000 ≤ o then some (s.f (R.EVT_TPG_OWNER (h * 64 + (o - 0xC_0000) / 4096)))
    else if 0x8_0000 ≤ o then some (s.f (R.CMP_TR_CFG_DOMAIN h ((o - 0x8_0000) / 4096)))
    else none
  | some (.fab, _, o) => if 0xA_0000 ≤ o then some (s.f (R.FAB_SQ_CFG_DOMAIN ((o - 0xA_0000) / 4096))) else none
  | _ => none

/-- R43: a request tagged with domain `dom` is accepted at this offset. -/
def State.ctlAllowed (s : State) (off dom : Nat) : Bool := dom == 0 || s.pageOwner off == some dom

/-! ### Reads -/

/-- A register's value as a read returns it (R15: WO and RSV read zero). -/
def State.regValue (s : State) (x : RegHit) : Nat :=
  let plain := s.wordOf (x.flds.filter (fun f => f.ty != .wo))
  match x.row.id with
  | .MTR_TIME => s.time % 2 ^ 64
  | .MTR_KEYINFO => s.mkey.getD 0 % 256
  | .TIL_HOME_STAT =>
    let here (L : Nat) : Bool := homeOf L == x.n
    s.f (R.TIL_HOME_STAT_READY x.n) + (s.txns.filter (fun t => here t.L)).length * 2
      + (s.retryQ.filter (fun m => here m.L)).length * 2 ^ 8 + (s.pendQ.filter (fun m => here m.L)).length % 128 * 2 ^ 14
  | .HEP_STAT =>
    s.wordOf [R.HEP_STAT_LINKUP, R.HEP_STAT_SPEED, R.HEP_STAT_WIDTH, R.HEP_STAT_FLR, R.HEP_STAT_BADWIN]
      + b2n s.bme * 2 ^ 9 + b2n s.contained * 2 ^ 10 + b2n s.d3 * 2 ^ 13
  | .EVT_CFG => if x.i < 512 ∧ !(s.fused (x.i / 2)) then 1 + 15 * 16 + x.i * 256 else plain
  | _ => plain

/-- An aligned 4-byte read of one word. -/
def State.wordRead (s : State) (off : Nat) : State × Nat :=
  if s.ctlAbsent off then (s, 0)
  else
    match ctlPlace off with
    | some (.hive, h, o) =>
      -- CMP_TR_STAT shows TR_STAT (R453)
      if 0x1_1000 ≤ o ∧ o < 0x1_2000 ∧ o % 0x40 = 0x14 then
        let t := (o - 0x1_1000) / 0x40
        (s, s.wordOf [R.TR_STAT_STATE h t, R.TR_STAT_ERR h t])
      else match regFind .hive h o regRows with
        | some x => (s, s.regValue x / 2 ^ (8 * x.q) % 2 ^ 32)
        | none => (s, 0)
    | _ => match ctlReg off with
      | some x =>
        let v := s.regValue x / 2 ^ (8 * x.q) % 2 ^ 32
        (if x.row.id = .ER_WINDOW ∧ x.i = 7 then s.windowRead else s, v)
      | none => (s, 0)

/-- R16, R43, R45: an aligned 4- or 8-byte read at offset `off` by a requester of domain `dom`; the last part: accepted.
Eight bytes are two words, the lower first, save that one 64-bit register changes nothing between its halves. -/
def State.ctlRead (s : State) (off size dom : Nat) : State × Nat × Bool :=
  if !(s.ctlAllowed off dom) then (s, 0, false)
  else
    let (s1, lo) := s.wordRead off
    if size = 8 then
      let (s2, hi) := s1.wordRead (off + 4)
      (s2, lo + hi * 2 ^ 32, true)
    else (s1, lo, true)

/-! ### Writes -/

/-- R15: a write of the bits `m` with the value `v`, by field type. -/
def State.fieldWrite (s : State) (v m : Nat) (x : Fld) : State :=
  let cur := s.f x
  let vb := bits v x.lo x.w
  let mb := bits m x.lo x.w
  match x.ty with
  | .rw => s.setF x ((cur - (cur &&& mb)) ||| (vb &&& mb))
  | .rw1c => s.setF x (cur - (cur &&& (vb &&& mb)))
  | .rw1s => s.setF x (cur ||| (vb &&& mb))
  | _ => s
def State.plainWrite (s : State) (fs : List Fld) (v m : Nat) : State := fs.foldl (fun s x => s.fieldWrite v m x) s

def iwinFlds (w : Nat) : List Fld :=
  [R.HEP_IWIN_V w, R.HEP_IWIN_RD w, R.HEP_IWIN_WR w, R.HEP_IWIN_LPOL w, R.HEP_IWIN_LVAL w, R.HEP_IWIN_BASE w,
   R.HEP_IWIN_LOG2SZ w]
def owinFlds (w : Nat) : List Fld := [R.HEP_OWIN_V w, R.HEP_OWIN_NS w, R.HEP_OWIN_LOG2SZ w, R.HEP_OWIN_BASE w]

/-- R404, R406, R407: a whole entry of the inbound (`out` false) or outbound table is applied, or refused. -/
def State.winApply (s : State) (out : Bool) (w v : Nat) : State :=
  let sz := if out then bits v 2 6 else bits v 46 6
  let bad := v.testBit 0 && (decide (sz < 12 ∨ sz > 32) || (!out && bits v 3 2 == 3))
  if bad then s.setF R.HEP_STAT_BADWIN 1 else s.setWordOf (if out then owinFlds w else iwinFlds w) v

/-- R407: a write of `size` bytes at byte `o` of entry `w`. -/
def State.winWrite (s : State) (out : Bool) (w o size v : Nat) : State :=
  let key := (if out then 0x22_0000 else 0x21_0000) + 8 * w
  let cur := s.wordOf (if out then owinFlds w else iwinFlds w)
  if size = 8 then (s.winApply out w (v % 2 ^ 64)).stage key none
  else if o = 0 then s.stage key (some (v % 2 ^ 32))
  else (s.winApply out w ((s.stagedAt key).getD (cur % 2 ^ 32) + v % 2 ^ 32 * 2 ^ 32)).stage key none

/-- R420 HEP_CLR. -/
def State.hepClr (s : State) : State :=
  s.setFs [(R.HEP_TMO_COUNT, 0), (R.HEP_LATE_COUNT, 0), (R.HEP_INB_DROP_COUNT, 0), (R.HEP_INB_UR_COUNT, 0),
    (R.HEP_BAR0_BAD_COUNT, 0), (R.HEP_POISON_RD_COUNT, 0), (R.HEP_OUT_ERR_COUNT, 0)]

/-- R481: a write of FAB_PORT_CTL. -/
def State.portCtl (s : State) (p v : Nat) : State :=
  let s1 := if bits v 3 1 = s.f (R.FAB_PORT_CTL_EN p) then s else s.portEnWrite p (v.testBit 3)
  let s2 := s1.setF (R.FAB_PORT_CTL_DATELINE p) (bits v 2 1)
  let s3 := if v.testBit 0 then s2.drainWrite p else s2.undrainWrite p
  if v.testBit 1 then s3.retrainWrite p else s3

/-- R394: a write of EVT_STAT: CAUSE bits clear, then CLRP acts, then PEND triggers, as R382 orders writes and triggers. -/
def State.evtStat (s : State) (src v : Nat) : State :=
  let s1 := s.clrCause src (bits v 4 8)
  let s2 := if v.testBit 3 then s1.clrPend src else s1
  if v.testBit 0 then s2.trigger src else s2

/-- R542: a write of PWR_PWRLIM bounds every hive's CAP at once while PWRLIM_N is low (R540). -/
def State.pwrlim (s : State) (v : Nat) : State :=
  let s1 := s.setF R.PWR_PWRLIM_CODE (bits v 0 7)
  if s.pins.limN then s1
  else (List.range 32).foldl (fun s h => s.setCap h (min (s.f (R.PWR_HCAP_CAP h)) (min 96 (s.f R.PWR_PWRLIM_CODE)))) s1

/-- R505: OWNER is RSV in the port set. -/
def pmcOwnFlds (set : Nat) (fs : List Fld) : List Fld := if set = 4 then fs.drop 1 else fs

/-- A write of `size` bytes, value `v`, to the register met. `m`: the bits written. `nv`: what the register's writable bits
become. -/
def State.regWrite (s : State) (x : RegHit) (size v0 : Nat) : State :=
  let sh := 2 ^ (8 * x.q)
  let v := v0 % 2 ^ (8 * size) * sh
  let m := (2 ^ (8 * size) - 1) * sh
  let cur := s.wordOf x.flds
  let nv := (cur - (cur &&& m)) ||| v
  let go (b : Bool) (t : State) : State := if b then t else s
  let n := x.n
  let i := x.i
  let j := x.j
  match x.row.id with
  | .TIL_CLK_CTL => s.clkWrite n nv
  | .TIL_HOME_CLR => go (v.testBit 0) (s.homeClr n)
  | .TIL_RTR_PORT_EN => s.portEnaWrite n (nv % 32)
  | .TIL_RTR_CLR => go (v.testBit 0) (s.setF (R.TIL_RTR_CORR_COUNT n) 0)
  | .TIL_NI_CTL => go (v.testBit 0) (s.routesDefault n)
  | .MEM_NI_CTL => go (v.testBit 0) (s.routesDefault (256 + n))
  | .HEP_NI_CTL => go (v.testBit 0) (s.routesDefault (280 + i))
  | .FAB_NI_CTL => go (v.testBit 0) (s.routesDefault (288 + i))
  | .TIL_RT => s.routeWrite n i x.q size v0
  | .MEM_RT => s.routeWrite (256 + n) i x.q size v0
  | .HEP_RT => s.routeWrite (280 + i) j x.q size v0
  | .FAB_RTE => s.routeWrite (288 + i) j x.q size v0
  | .MEM_TRAIN_CTL => s.trainCtl n nv
  | .MEM_TRAIN_DEFER => s.trainDefer n v
  | .MEM_PASR_CTL => s.pasrWrite n v
  | .MEM_SCRUB_RANGE => s.scrubWrite n i nv
  | .MEM_CLR =>
    let s1 := if v.testBit 0 then s.memClrCounters n else s
    if v.testBit 1 then s1.memClrBucket n else s1
  | .HIV_KCTL => go (v.testBit 0) (s.keeperRestart n)
  | .HIV_KMOD_CMD => s.kmodCmd n (bits v 0 2)
  | .CUF_CTL => go (v.testBit 0) (s.rearmWrite n)
  | .DOM_LOCKCTL => s.plainWrite (lockCtlFlds i) v m
  | .DOM_LOCKCLR => go (v.testBit 0) (s.lockClr i)
  | .DOM_CTXBASE => s.ctxBase i nv
  | .MTR_CTL => s.mtrCtl nv
  | .MTR_PERIOD => s.mtrPeriodWrite nv
  | .MTR_BANDS => s.mtrBandsWrite nv
  | .MTR_RING_BASE => s.mtrBase nv
  | .MTR_RING_TAIL => s.mtrTail nv
  | .MTR_STAT =>
    let s1 := s.plainWrite [R.MTR_STAT_BADVAL] v m
    if bits v R.MTR_STAT_HOSTERR.lo 1 = 1 then s1.hosterrClear else s1
  | .EVT_CFG => s.evtCfgWrite i nv
  | .EVT_STAT => s.evtStat i v
  | .EVT_DESIG => s.evtDesigWrite i nv
  | .EVT_TPG => s.evtTpgWrite i nv
  | .EVT_TRIG => s.softTrig (bits v 0 13)
  | .HEP_CLR => go (v.testBit 0) s.hepClr
  | .HEP_IWIN => s.winWrite false i x.q size v0
  | .HEP_OWIN => s.winWrite true i x.q size v0
  | .CMD_RING_BASE => s.ringBase i false nv
  | .CMD_CQ_BASE => s.ringBase i true nv
  | .CMD_RING_CFG => s.ringCfg i nv
  | .CMD_RING_DB => s.ringDb i nv
  | .CMD_CQ_TAIL => s.cqTail i nv
  | .CMD_RING_CTL => go (v.testBit 0) (s.ringRestart i)
  | .CMD_MONEV => s.monev nv
  | .CMD_CLR => go (v.testBit 0) (s.setF R.CMD_LOST_COUNT 0)
  | .CMD_MONACK => s.monAck i nv
  | .TR_DB => s.trDb n i nv
  | .TR_TAIL => s.trTail n i nv
  | .TR_CTL => go (v.testBit 0) (s.trRestart n i)
  | .CMP_CLR => go (v.testBit 0) (s.cmpClr n)
  | .CMP_TR_BASE => s.trBase n i false nv
  | .CMP_TR_CQ => s.trBase n i true nv
  | .CMP_TR_CFG => s.trCfg n i nv
  | .SQ_DB => s.sqDb i nv
  | .SQ_CTL => go (v.testBit 0) (s.sqRestart i)
  | .FAB_DEVNUM => s.devnumWrite v
  | .FAB_CLR => go (v.testBit 0) s.fabClr
  | .FAB_RT_IDX => s.rtIdxWrite nv
  | .FAB_RWIN => s.rwinWrite i x.q size v0
  | .FAB_RWIN2 => s.rwinWrite i (8 + x.q) size v0
  | .FAB_SQ_BASE => s.sqBase i nv
  | .FAB_SQ_CFG => s.sqCfg i nv
  | .FAB_PORT_CTL => s.portCtl n v
  | .FAB_PORT_CLR => go (v.testBit 0) (s.fabPortClr n)
  | .PWR_HCLR => go (v.testBit 0) (s.hclr n)
  | .PWR_CLR => go (v.testBit 0) s.pclr
  | .PWR_PWRLIM => s.pwrlim nv
  | .PMC_CORE_CTL => s.pmcCtl 0 (2 * n + i) j v
  | .PMC_TILE_CTL => s.pmcCtl 1 n i v
  | .PMC_SLICE_CTL => s.pmcCtl 2 n i v
  | .PMC_CHAN_CTL => s.pmcCtl 3 n i v
  | .PMC_PORT_CTL => s.pmcCtl 4 n i v
  | .PMC_PORT_OWN => s.plainWrite (pmcOwnFlds 4 x.flds) v m
  | .PMC_GCTL =>
    let s1 := s.setF R.PMC_GCTL_FREEZE (bits v 0 1)
    if v.testBit 1 then s1.pmcClear else s1
  | .ER_CURSOR => s.cursorWrite nv
  | .ER_CLR => s.erClr v
  | .BOOT_CTL => s.bootCtl v
  | .SEC_ROLL => s.secRoll i nv
  | .SEC_ENROLL_DATA => { s with enroll := Tbl.set 0 s.enroll i (v % 2 ^ 32) }
  | .SEC_ENROLL => s.secWrite v
  | .SEC_KEYROLL => s.keyroll v
  | _ => s.plainWrite x.flds v m

/-- An aligned write of `size` bytes that meets one register, a trigger page's TRIG (R390), the upper word of a remote window
(R479), or nothing. -/
def State.cellWrite (s : State) (off size v dom : Nat) : State :=
  if s.ctlAbsent off then s
  else
    match ctlPlace off with
    | some (.hive, h, o) =>
      if 0xC_0000 ≤ o then
        if o % 4096 = 0 then (s.tpgTrig (h * 64 + (o - 0xC_0000) / 4096) dom v).1 else s
      else match regFind .hive h o regRows with
        | some x => s.regWrite x size v
        | none => s
    | some (.fab, _, o) =>
      if 0x2_0000 ≤ o ∧ o < 0x2_1000 then s.rwinWrite ((o - 0x2_0000) / 16) (o % 16) size v
      else match regFind .fab 0 o regRows with
        | some x => s.regWrite x size v
        | none => s
    | some (b, n, o) => match regFind b n o regRows with
      | some x => s.regWrite x size v
      | none => s
    | none => s

/-- R16: an aligned 8-byte access at `off` is one access: to a 64-bit register, or TRIG. -/
def wholeEight (off : Nat) : Bool :=
  match ctlPlace off with
  | some (.hive, h, o) =>
    if 0xC_0000 ≤ o then true
    else match regFind .hive h o regRows with | some x => x.row.bytes ≥ 8 | none => false
  | some (.fab, _, o) =>
    if 0x2_0000 ≤ o ∧ o < 0x2_1000 then true
    else match regFind .fab 0 o regRows with | some x => x.row.bytes ≥ 8 | none => false
  | some (b, n, o) => match regFind b n o regRows with | some x => x.row.bytes ≥ 8 | none => false
  | none => false

/-- R16, R43, R45: an aligned 4- or 8-byte write at offset `off` by a requester of domain `dom`; the second part: accepted. -/
def State.ctlWrite (s : State) (off size v dom : Nat) : State × Bool :=
  if !(s.ctlAllowed off dom) then (s, false)
  else if size = 8 then
    if wholeEight off then (s.cellWrite off 8 v dom, true)
    else ((s.cellWrite off 4 (v % 2 ^ 32) dom).cellWrite (off + 4) 4 (v / 2 ^ 32 % 2 ^ 32) dom, true)
  else (s.cellWrite off 4 (v % 2 ^ 32) dom, true)

/-- R16: the form of an access to a register: 4 or 8 bytes, aligned. -/
def ctlForm (off size : Nat) : Bool := (size == 4 || size == 8) && off % size == 0

/-- R15, R43, R44, R45: a register block completes a write of `size` bytes at control-space offset `off`, tagged with domain
`dom`. -/
def execRegisterWrite (off size : Nat) (v : W64) (dom : Nat) (s : State) : Out :=
  whenOk (ctlForm off size && !s.pins.inPor) s (s.ctlWrite off size v.toNat dom).1

end Sys2Proof.Machine
end

