-- ==== Sys2Proof/Machine/LoadOps.lean ====
section
/-! DEFINITION. Memory access of a P-core: loads, stores and atomics of every memory type (R47, R67, R75 to R78, R105,
R128, R129, R156 to R163, R165, R181, R188 to R191, R466), shared by the instructions and by the events that finish
them. -/

namespace Sys2Proof.Machine
open Sys2Proof

/-! ### What a load delivers -/

/-- The value of a load in a line: data, one lock, or the line's locks (R106, R108). -/
def loadRaw (d : LineD) (dst : Dst) (off size : Nat) : Nat :=
  match dst with
  | .lockW _ => lockAt d.locks (off / 4)
  | .lockL _ => d.locks.toNat
  | _ => d.read off size

/-- Write a load's result to its register. -/
def Core.deliver (k : Core) (dst : Dst) (raw : Nat) : Core :=
  match dst with
  | .none => k
  | .g r n sx => k.wg r (extend n sx raw)
  | .v r n => k.wv r (BitVec.ofNat 256 (raw % 2 ^ (8 * n)))
  | .lockW r | .lockL r => k.wg r (BitVec.ofNat 64 raw)

/-- R157: LDLK makes no comparison. -/
def Dst.isLk : Dst → Bool
  | .lockW _ | .lockL _ => true
  | _ => false
def lkOff : LockReq := ⟨0, .off, true⟩

/-- A poisoned code word has no lock value (R165): its locks as lock 0. -/
def LineD.effLocks (d : LineD) : BitVec 64 :=
  (List.range 8).foldl (fun l i => if d.poison.getLsbD i then setLock (setLock l (2 * i) 0) (2 * i + 1) 0 else l) d.locks

/-- The outcome of the checks on what an access reads (R131 steps 9 and 10, R155, R165). -/
inductive Check where
  | ok
  | logged (w l : Nat)
  | lock (w l : Nat)
  | poison
  deriving DecidableEq, Repr

def checkRead (d : LineD) (lk : LockReq) (off size : Nat) : Check :=
  match lockMiss lk d.effLocks off size with
  | some (w, l) =>
    if lk.mode = .precise then .lock w l
    else if spanPoison d.poison off size then .poison else .logged w l
  | none => if spanPoison d.poison off size then .poison else .ok

/-- R167: EA moved to word `w` of its line. -/
def wordEa (ea : W64) (pa w : Nat) : W64 := (ea &&& ~~~(3 : W64)) + BitVec.ofNat 64 (4 * w) - BitVec.ofNat 64 (pa % 64 / 4 * 4)

/-- R167: the lock fault. -/
def lockCause (acc : Acc) (ea : W64) (pa w l key : Nat) : Cause :=
  { code := 0x11, acc := acc, key := key, lock := l, val := wordEa ea pa w }
def poisonCause (acc : Acc) (ea : W64) (pa : Nat) : Cause :=
  { code := 0x18, acc := acc, val := ea, val2 := BitVec.ofNat 64 (pa / 64 * 64) }

/-- R168: the record of a mismatch met by an access of core `c` now retiring. -/
def State.logMiss (s : State) (c : Nat) (acc : Acc) (far drop : Bool) (lk : LockReq) (l : Nat) (addr : W64) : State :=
  s.lockRecord (s.govDom c) (s.cix c) (s.core c).priv.code acc.code false far drop lk.key l addr (s.core c).pc

/-- A load whose line has come: its checks, then its result and retirement. -/
def State.loadDone (s : State) (c : Nat) (w : Wait) (d : LineD) : State :=
  match checkRead d w.lk (w.pa % 64) w.size with
  | .lock i l => s.trap c (lockCause w.acc w.ea w.pa i l w.lk.key)
  | .poison => s.machineCheck c (poisonCause w.acc w.ea w.pa)
  | r =>
    let s := match r with
      | .logged i l => s.logMiss c w.acc false false w.lk l (wordEa w.ea w.pa i)
      | _ => s
    s.updCore c (fun k => (k.deliver w.dst (loadRaw d w.dst (w.pa % 64) w.size)).retire)

/-! ### The store buffer (R75 to R78, R162) -/

def SbE.lo (e : SbE) : Nat := match e.kind with | .bytes => e.pa | .lockW => e.pa / 4 * 4 | .lockL => e.pa / 64 * 64
def SbE.len (e : SbE) : Nat := match e.kind with | .bytes => e.size | .lockW => 4 | .lockL => 64
/-- R162: an STLK covers every byte of each word whose lock it sets. -/
def SbE.overlaps (e : SbE) (gc : Bool) (pa size : Nat) : Bool :=
  e.gc == gc && e.lo < pa + size && pa < e.lo + e.len

/-- The youngest overlapping entry, with its place. -/
def youngest (sb : List SbE) (gc : Bool) (pa size : Nat) : Option (Nat × SbE) :=
  ((List.range sb.length).zip sb).foldl (fun b e => if e.2.overlaps gc pa size then some e else b) none

/-- R77, R162: the outcome of comparing a load with the store buffer. -/
inductive Fwd where
  | none
  | hit (e : SbE)
  | park (mark : Nat)
  deriving DecidableEq, Repr

def fwdOf (sb : List SbE) (gc : Bool) (pa size : Nat) : Fwd :=
  match youngest sb gc pa size with
  | none => .none
  | some (i, e) =>
    if e.kind = .bytes ∧ e.pa ≤ pa ∧ pa + size ≤ e.pa + e.size then .hit e else .park (i + 1)

/-- A line's image as a forwarding store gives it. -/
def SbE.line (e : SbE) : LineD := { (lineZero.write (e.pa % 64) e.size e.data.toNat) with locks := e.locks }

/-- The L2 key of a physical address: GlobalCached lines stand from 2^60 (R230). -/
def lineKey (gc : Bool) (pa : Nat) : Nat := if gc then 2 ^ 60 + pa / 64 else pa / 64

/-- R75, R162: the locks a store at its commit point meets in its line: the line's, under those of the STLKs that wait
in the buffer. -/
def commitLocks (sb : List SbE) (gc : Bool) (pa : Nat) (locks : BitVec 64) : BitVec 64 :=
  sb.foldl (fun l e =>
    if e.gc != gc || e.pa / 64 != pa / 64 then l
    else match e.kind with
      | .bytes => l
      | .lockW => setLock l (e.pa % 64 / 4) (e.data.toNat % 16)
      | .lockL => BitVec.ofNat 64 e.data.toNat) locks

/-! ### Cached accesses (Normal, GlobalCached) -/

/-- R53, R76: lines for which core `c`'s stores have ownership requests outstanding. -/
def State.ownReqs (s : State) (c : Nat) : Nat :=
  let k := s.core c
  (k.sb.map (fun e => lineKey e.gc e.pa)).eraseDups.countP (fun L =>
    match (s.l2 (c / 2) L).st with | .IM | .SM => true | _ => false)

/-- R76, R244: the buffer asks for ownership of a Normal line, once, at most 16 at a time. -/
def State.wantOwn (s : State) (c L : Nat) : State :=
  let t := c / 2
  let x := s.l2 t L
  let msg (k : MsgK) : Msg := { k := k, L := L, agent := t, core := s.cix c, dom := s.govDom c }
  if L ≥ 2 ^ 60 ∨ s.lineOut t L ∨ s.ownReqs c ≥ 16 then s
  else
    match x.st with
    | .I => (s.setL2 t L { x with st := .IM, at_ := s.waitClock }).send (msg .rdO)
    | .S => (s.setL2 t L { x with st := .SM, at_ := s.waitClock }).send (msg .upg)
    | _ => s

/-- R70, R216: the instruction at the pc needs a mark set before it goes on: a walk afresh, then the compare-and-swap on the leaf
as an ATOMIC at its home, for which the core waits. The swap is a Normal atomic (R188), so the tile must have no other request
for the line and no older store to it in the core's buffer (R190). -/
def State.markSend (s : State) (c : Nat) (va : W64) (acc : Acc) : Out :=
  let dirty := acc == .store || acc == .atomic
  match s.walk c false va acc false with
  | .flt x => pTrap s c x
  | .miss n => .next (s.waitLine c n)
  | .ok w =>
    match useCheck (s.core c) w.e va acc with
    | some x => pTrap s c x
    | none =>
      let L := w.leaf / 64
      if !(w.e.needsMark acc) then
        .next (s.updCore c (fun k =>
          let drop (l : List TlbE) : List TlbE := l.filter (fun x => !(tlbMatch k va x))
          { k with itlb := drop k.itlb, dtlb := drop k.dtlb, l2tlb := drop k.l2tlb, l2big := drop k.l2big, commit := true }))
      else if !w.leafW then
        pTrap s c { code := 0x0C, sub := 1, walk := true, acc := acc, lvl := w.e.lvl, val := va,
                    val2 := BitVec.ofNat 64 w.leafDpa }
      else if s.lineOut (c / 2) L || (s.core c).sb.any (fun b => !b.gc && b.pa / 64 == L) then turnedAway s
      else
        let new := setBit w.raw 9 ||| (if dirty then 2 ^ 10 else 0)
        let req : AtomReq := ⟨w.leaf, .cas, 8, BitVec.ofNat 64 new, BitVec.ofNat 64 w.raw, ⟨0, .off, true⟩, 0⟩
        .next ((s.updCore c (fun k => { k with commit := true, mark := some ⟨va, acc, w.raw, w.e.lvl, L⟩ })).ask
          { k := .atomic, L := L, agent := c / 2, core := s.cix c, dom := s.domOf (c / 2), at_ := some req })

/-- An access whose other checks have passed goes on, once the mark it needs stands (R216). -/
def State.gate (s : State) (c : Nat) (mark : Bool) (va : W64) (acc : Acc) (go : Out) : Out :=
  if mark then s.markSend c va acc else go

/-- R191, R466: a GlobalCached miss: a remote line read; the core waits for it. -/
def State.gcFill (s s0 : State) (c : Nat) (w : Wait) : Out :=
  match s.fabRequest (.fill (s.cix c)) (s.govDom c) (w.pa / 2 ^ 46) (w.pa % 2 ^ 46 / 64 * 64) 0 { ty := tyRD } with
  | .inl s1 => .next (s1.updCore c (fun k => { k with wait := some { w with net := 3 } }))
  | .inr (.fault code) => pTrap s c { code := code, acc := w.acc, val := w.ea }
  | .inr .wait => turnedAway s0

/-- A load whose line `d` is at hand: its checks, the mark it may need, then its result. `s0`: the state before. -/
def State.loadHere (s : State) (c : Nat) (mark : Bool) (w : Wait) (d : LineD) : Out :=
  match checkRead d w.lk (w.pa % 64) w.size with
  | .lock .. | .poison => .next (s.loadDone c w d)
  | _ => s.gate c mark w.ea w.acc (.next (s.loadDone c w d))

/-- A Normal or GlobalCached load at its commit point (R63, R65, R77, R234). `s0`: the state before the instruction. -/
def State.loadCached (s s0 : State) (c : Nat) (gc mark : Bool) (w : Wait) : Out :=
  let k := s.core c
  match fwdOf k.sb gc w.pa w.size with
  | .hit e => s.loadHere c mark w e.line
  | .park m =>
    s.gate c mark w.ea w.acc (.next (s.setCore c { k with parked := some ⟨w.ea, w.pa, w.size, w.dst, w.lk, m, gc⟩ }))
  | .none =>
    let L := lineKey gc w.pa
    match s.tileCopy (c / 2) L with
    | some d => (s.l1Use c L).loadHere c mark w d
    | none =>
      if (s.l2 (c / 2) L).st.transient then turnedAway s0
      else if gc then s.gate c mark w.ea w.acc (s.gcFill s0 c w)
      else .next (s.waitLine c L)

/-- A store or STLK at its commit point leaves for the buffer, or takes its fault (R75, R76, R155, R158, R161). The locks are read
by the path of a load: where the tile does not hold the line, the store waits for it (notes/assumptions/109.md). -/
def State.storeCached (s s0 : State) (c : Nat) (gc mark : Bool) (w : Wait) (e : SbE) : Out :=
  let k := s.core c
  let L := lineKey gc w.pa
  if k.sb.length ≥ 64 then turnedAway s0
  else
    match s.tileCopy (c / 2) L with
    | none =>
      if (s.l2 (c / 2) L).st.transient then turnedAway s0
      else if gc then s.gate c mark w.ea .store (s.gcFill s0 c w)
      else .next (s.waitLine c L)
    | some d =>
      let d2 := { d with locks := commitLocks k.sb gc w.pa d.locks }
      let lk := if e.kind = .bytes then w.lk else lkOff
      let push (s : State) : Out :=
        let locks := if e.kind = .bytes then d2.locks else 0
        .next (((s.updCore c (fun k => { k with sb := k.sb ++ [{ e with locks := locks }] })).wantOwn c L).updCore c
          Core.retire)
      match checkRead d2 lk (w.pa % 64) w.size with
      | .lock i l => pTrap s c (lockCause .store w.ea w.pa i l w.lk.key)
      | .poison =>
        if lk.mode = .off ∧ e.kind = .bytes then s.gate c mark w.ea .store (push s)
        else pTrap s c (poisonCause .store w.ea w.pa)
      | .logged i l =>
        s.gate c mark w.ea .store (push (s.logMiss c .store false false lk l (wordEa w.ea w.pa i)))
      | .ok => s.gate c mark w.ea .store (push s)

/-! ### Uncached accesses -/

/-- The offset of a control-space address. -/
def ctlOff (pa : Nat) : Nat := pa - 0x3F00_0000_0000

def kwinOff (pa : Nat) : Nat := pa - 0x3F01_0000_0000
/-- R275: the destination that a Device access to `pa` goes to: the line's channel, a keeper SRAM window's hive, a register's
unit. -/
def devIdx (pa : Nat) : Nat :=
  match regionOf pa with
  | .dram => 256 + chanOf (pa / 64)
  | .ksram => kwinOff pa / 2 ^ 20 % 32 * 8
  | _ => ctlIdx (ctlOff pa)

/-- The parts of an access to a keeper SRAM window: 8 bytes each (R171). -/
def parts8 (pa size : Nat) : List (Nat × Nat) :=
  if size ≤ 8 then [(pa, size)] else (List.range (size / 8)).map (fun i => (pa + 8 * i, 8))

/-- R43, R45, R161: a load from control space: the owner check first, then the size; LDLK reads lock 0 (R46). -/
def State.loadCtl (s : State) (c : Nat) (w : Wait) : Out :=
  if !(s.ctlAllowed (ctlOff w.pa) (s.govDom c)) then pTrap s c { code := 0x10, acc := w.acc, val := w.ea }
  else if w.dst.isLk then .next (s.updCore c (fun k => (k.deliver w.dst 0).retire))
  else if w.size ≠ 4 ∧ w.size ≠ 8 then pTrap s c { code := 6, acc := w.acc, val := w.ea }
  else
    let (s1, v, ok) := s.ctlRead (ctlOff w.pa) w.size (s.govDom c)
    if ok then .next (s1.updCore c (fun k => (k.deliver w.dst v).retire))
    else pTrap s c { code := 0x10, acc := w.acc, val := w.ea }

def State.loadKwin (s : State) (c : Nat) (w : Wait) : Out :=
  if w.dst.isLk then .next (s.updCore c (fun k => (k.deliver w.dst 0).retire))
  else
    let rs := (parts8 w.pa w.size).map (fun p => s.kwinRead (kwinOff p.1) p.2)
    if rs.any (·.2) then pTrap s c (poisonCause w.acc w.ea w.pa)
    else
      let v := rs.foldr (fun r acc => r.1 + 2 ^ 64 * acc) 0
      .next (s.updCore c (fun k => (k.deliver w.dst v).retire))

/-- R180, R188, R289, R290: a Device load of DRAM: the memory controller's copy, behind what its queues hold of the line. -/
def State.loadDev (s s0 : State) (c : Nat) (w : Wait) : Out :=
  let L := w.pa / 64
  let dom := s.govDom c
  if !(s.readOpen L dom) then (if s.chanHas L then turnedAway s0 else s0.arrayWait L)
  else
    let (s1, d) := s.chanRead L dom 0
    .next (s1.loadDone c w d)

/-- R138 SUB, R409, R410: the host-access fault. -/
def hostCause (acc : Acc) (ea : W64) (sub : Nat) : Cause := { code := 0x15, acc := acc, sub := sub, val := ea }

/-- R67, R181, R409: a Host-ordered load leaves, and the core waits for its completion. -/
def State.loadHost (s : State) (c : Nat) (w : Wait) : Out :=
  if w.dst.isLk then .next (s.updCore c (fun k => (k.deliver w.dst 0).retire))
  else
    match s.tileKnows with
    | (some sub, s1) => pTrap s1 c (hostCause w.acc w.ea sub)
    | (none, s1) =>
      match s1.hostAccess (.core (s.cix c)) false w.pa w.size [] with
      | .inl s2 => .next (s2.updCore c (fun k => { k with wait := some w }))
      | .inr sub => pTrap (s1.outErr sub) c (hostCause w.acc w.ea sub)

/-- CHK as a packet carries it (R459). -/
def Chk.code : Chk → Nat | .off => 0 | .precise => 1 | .log => 2
/-- The key fields of a request (R459). -/
def Pkt.withLk (p : Pkt) (lk : LockReq) : Pkt := { p with key := lk.key, chk := lk.mode.code, key0 := lk.key0 }

/-- R466: a Global load: a remote line read at the access's address, its key compared there. -/
def State.loadGlobal (s s0 : State) (c : Nat) (w : Wait) : Out :=
  match s.fabRequest (.core (s.cix c)) (s.govDom c) (w.pa / 2 ^ 46) (w.pa % 2 ^ 46) 0
      (({ ty := tyRD } : Pkt).withLk w.lk) with
  | .inl s1 => .next (s1.updCore c (fun k => { k with wait := some { w with net := 1 } }))
  | .inr (.fault code) => pTrap s c { code := code, acc := w.acc, val := w.ea }
  | .inr .wait => turnedAway s0

/-- R67, R105, R128, R131: a load at effective address `ea`; `aq`: acquire, which waits for older release stores (R175
case 3). Neither that nor a fence holds a Host-ordered load back (R176). -/
def State.load (s : State) (c : Nat) (ea : W64) (size : Nat) (dst : Dst) (aq : Bool) : Out :=
  let k := s.core c
  if ea.toNat % size ≠ 0 then pTrap s c { code := 6, acc := .load, val := ea }
  else
    match s.xlate c ea .load with
    | .flt x s1 => pTrap s1 c x
    | .wait s1 => .next s1
    | .ok pa mt mark s1 =>
      let lk := if dst.isLk then { s1.lockReq c ea with mode := .off } else s1.lockReq c ea
      let w : Wait := ⟨0, 0, .load, ea, pa, size, dst, lk⟩
      let held := !(s.mayLoad c) || (aq && (k.sb.any (·.rel) || k.posted.any (fun p => p.rel && !p.done)))
      -- R67, R216: an access that leaves the core has its mark set first (notes/assumptions/30.md)
      let out (go : Out) : Out :=
        if held || (mt == .device && !(s1.linked (c / 2) (devIdx pa))) then turnedAway s else s1.gate c mark ea .load go
      match mt with
      | .normal => if held then turnedAway s else s1.loadCached s c false mark w
      | .gcached => if held then turnedAway s else s1.loadCached s c true mark w
      | .global => out (s1.loadGlobal s c w)
      | .hostOrdered => if !(s1.linked (c / 2) 280) then turnedAway s else s1.gate c mark ea .load (s1.loadHost c w)
      | .device =>
        match regionOf pa with
        | .dram => out (s1.loadDev s c w)
        | .ctl => out (s1.loadCtl c w)
        | _ => out (s1.loadKwin c w)

/-! ### Stores -/

/-- R129, R156, R160: a Device store to DRAM leaves for the channel, whole, and retires. -/
def State.storeDev (s : State) (c : Nat) (w : Wait) (e : SbE) : Out :=
  let k := s.core c
  let tag := (k.posted.foldl (fun m p => max m (p.tag + 1)) 0)
  let L := w.pa / 64
  let lk := if e.kind = .bytes then w.lk else lkOff
  let off := match e.kind with | .lockL => 0 | .lockW => w.pa % 64 / 4 * 4 | .bytes => w.pa % 64
  let s1 := s.toChan L (s.govDom c) (.devWr (s.cix c) tag off e.len
    (BitVec.ofNat 512 (e.data.toNat % (if e.kind = .bytes then 2 ^ (8 * w.size) else 2 ^ 64))) (e.kind != .bytes) lk)
  .next (s1.updCore c (fun k => ({ k with
    posted := k.posted ++ [(⟨false, tag, L * 64 + off, w.ea, k.pc, k.priv, lk, .store, e.rel, false⟩ : Posted)] }).retire))

def State.storeCtl (s : State) (c : Nat) (w : Wait) (e : SbE) : Out :=
  if e.kind ≠ .bytes then pTrap s c { code := 0x10, acc := .store, val := w.ea }
  else if w.size ≠ 4 ∧ w.size ≠ 8 then pTrap s c { code := 6, acc := .store, val := w.ea }
  else
    let (s1, ok) := s.ctlWrite (ctlOff w.pa) w.size (e.data.toNat % 2 ^ (8 * w.size)) (s.govDom c)
    if ok then .next (s1.retireP c) else pTrap s c { code := 0x10, acc := .store, val := w.ea }

def State.storeKwin (s : State) (c : Nat) (w : Wait) (e : SbE) : Out :=
  if e.kind ≠ .bytes then pTrap s c { code := 0x10, acc := .store, val := w.ea }
  else
    let s1 := ((parts8 w.pa w.size).zip (List.range 4)).foldl (fun (s : State) p =>
      s.kwinWrite (kwinOff p.1.1) p.1.2 (e.data.toNat / 2 ^ (64 * p.2))) s
    .next (s1.retireP c)

/-- R129, R161, R410: a Host-ordered store is posted, or takes the fault its tile knows of. -/
def State.storeHost (s : State) (c : Nat) (w : Wait) (e : SbE) : Out :=
  if e.kind ≠ .bytes then pTrap s c { code := 0x10, acc := .store, val := w.ea }
  else
    match s.tileKnows with
    | (some sub, s1) => pTrap s1 c (hostCause .store w.ea sub)
    | (none, s1) =>
      .next ((s1.hostPost (.core (s.cix c)) w.pa w.size (leBytes w.size e.data.toNat)).retireP c)

/-- R160, R466: a Global store or STLK: each 8-byte part a WR_PART, posted. -/
def State.storeGlobal (s s0 : State) (c : Nat) (w : Wait) (e : SbE) : Out :=
  let dev := w.pa / 2 ^ 46
  let loc := w.pa % 2 ^ 46
  let dom := s.govDom c
  -- `at_`: where in the 8 bytes from `loc` the part begins
  let send (s : State) (loc at_ bytes : Nat) (p : Pkt) (i : Nat) : State ⊕ FabErr :=
    match s.fabSend (.post (s.cix c)) dom dev loc bytes p with
    | .inl s1 =>
      let tag := (s1.ftags.getLast?.map (·.tag)).getD 0
      .inl (s1.updCore c (fun k => { k with posted := k.posted ++
        [⟨true, tag, dev * 2 ^ 46 + loc + at_, w.ea + BitVec.ofNat 64 (8 * i), k.pc, k.priv, w.lk, .store, e.rel, false⟩] }))
    | .inr x => .inr x
  let r := match e.kind with
    | .bytes =>
      ((parts8 loc w.size).zip (List.range 4)).foldl (fun (r : State ⊕ FabErr) (p : (Nat × Nat) × Nat) =>
        match r with
        | .inl s1 =>
          let o := p.1.1 % 8
          let v := (e.data.toNat / 2 ^ (64 * p.2) % 2 ^ (8 * p.1.2)) * 2 ^ (8 * o)
          let q : Pkt := { ty := tyPART, aux := (2 ^ p.1.2 - 1) * 2 ^ o, data := BitVec.ofNat 512 v }
          send s1 (p.1.1 / 8 * 8) o p.1.2 (q.withLk w.lk) p.2
        | x => x) (.inl s)
    | .lockW => send s (loc / 4 * 4) 0 8
        { ty := tyPART, lkonly := true, data := BitVec.ofNat 512 (e.data.toNat % 16 * 2 ^ (4 * (loc % 64 / 4))) } 0
    | .lockL => send s (loc / 64 * 64) 0 8
        { ty := tyPART, lkonly := true, sz := true, data := BitVec.ofNat 512 (e.data.toNat % 2 ^ 64) } 0
  match r with
  | .inl s1 => if s.fabHeld (.post (s.cix c)) dev loc then turnedAway s0 else .next (s1.retireP c)
  | .inr (.fault code) => pTrap s c { code := code, acc := .store, val := w.ea }
  | .inr .wait => turnedAway s0

/-- A store at `ea` of `size` bytes, or an STLK by `kind`; `rl`: release, which waits for every older access (R175
case 2, R177); a Host-ordered store does not, nor for a fence (R176). -/
def State.store (s : State) (c : Nat) (ea : W64) (size : Nat) (kind : SbKind) (data : W256) (rl : Bool) : Out :=
  let k := s.core c
  if ea.toNat % size ≠ 0 then pTrap s c { code := 6, acc := .store, val := ea }
  else
    match s.xlate c ea .store with
    | .flt x s1 => pTrap s1 c x
    | .wait s1 => .next s1
    | .ok pa mt mark s1 =>
      let lk := if kind = .bytes then s1.lockReq c ea else { s1.lockReq c ea with mode := .off }
      let w : Wait := ⟨0, 0, .store, ea, pa, size, .none, lk⟩
      let e : SbE := ⟨pa, mt == .gcached, kind, size, data, 0, lk, ea, k.pc, k.priv, rl⟩
      let held := !(s.mayStore c) || (rl && !(k.posted.all (·.done) && s.clDone c))
      let out (go : Out) : Out :=
        if held || (rl && !k.sb.isEmpty) || (mt == .device && !(s1.linked (c / 2) (devIdx pa))) then turnedAway s
        else s1.gate c mark ea .store go
      match mt with
      | .normal => if held then turnedAway s else s1.storeCached s c false mark w e
      | .gcached => if held then turnedAway s else s1.storeCached s c true mark w e
      | .global => out (s1.storeGlobal s c w e)
      | .hostOrdered => if !(s1.linked (c / 2) 280) then turnedAway s else s1.gate c mark ea .store (s1.storeHost c w e)
      | .device =>
        match regionOf pa with
        | .dram => out (s1.storeDev c w e)
        | .ctl => out (s1.storeCtl c w e)
        | _ => out (s1.storeKwin c w e)

/-- R163: the locks that the late check compares: a lock that has not changed since the commit point cannot mismatch anew. -/
def SbE.lateLocks (e : SbE) (locks : BitVec 64) : BitVec 64 :=
  (List.range 16).foldl (fun l i => if lockAt locks i = lockAt e.locks i then setLock l i 0 else l) locks

/-- R76, R163: one line's image after the head of a store buffer writes it, under its late check: the new line, and
whether a mismatch is logged, with its word and lock, and whether the store was dropped. -/
def sbWrite (e : SbE) (d : LineD) : LineD × Option (Nat × Nat) × Bool :=
  let off := e.pa % 64
  match e.kind with
  | .lockW =>
    (if d.poison.getLsbD (off / 8) then d else { d with locks := setLock d.locks (off / 4) (e.data.toNat % 16) }, none, false)
  | .lockL => ({ d with locks := (List.range 16).foldl (fun l i =>
      if d.poison.getLsbD (i / 2) then l else setLock l i (e.data.toNat / 16 ^ i % 16)) d.locks }, none, false)
  | .bytes =>
    let miss := lockMiss e.lk (e.lateLocks d.effLocks) off e.size
    if miss.isSome ∧ e.lk.mode = .precise then (d, miss, true)
    else
      let d2 := (List.range e.size).foldl (fun (x : LineD) b =>
        if d.poison.getLsbD ((off + b) / 8) then x else x.write (off + b) 1 (e.data.toNat / 256 ^ b % 256)) d
      (d2, miss, false)

/-! ### Atomics (R109, R188 to R190) -/

/-- The result of an atomic that returned `old` (R109: a 4-byte value is sign-extended). -/
def State.atomRet (s : State) (c : Nat) (rd size old : Nat) : State :=
  s.updCore c (fun k => (k.wg rd (extend size true old)).retire)

/-- The atomic's outcome as the executing agent reports it: 0 done, 1 lock mismatch, 2 poison, 3 done and to be logged;
`mv`: mismatching word × 16 + lock. -/
def State.atomOut (s : State) (c : Nat) (ea : W64) (pa rd size : Nat) (lk : LockReq) (st old mv : Nat) : State :=
  match st with
  | 1 => s.trap c (lockCause .atomic ea pa (mv / 16) (mv % 16) lk.key)
  | 2 => s.machineCheck c (poisonCause .atomic ea pa)
  | 3 => (s.logMiss c .atomic false false lk (mv % 16) (wordEa ea pa (mv / 16))).atomRet c rd size old
  | _ => s.atomRet c rd size old

/-- R188, R291, R297: a Device atomic at the memory controller: a read-modify-write of the code word it names, after every older
request of the line. -/
def State.atomDev (s : State) (L dom : Nat) (a : AtomReq) : State × Nat × Nat × Nat :=
  if s.chanGone L then (s.countGone L, 2, 0, 0)
  else
    let ch := chanOf L
    let i := a.addr % 64 / 8
    let s1 := (s.activate ch (L / 24) dom false).incSat (R.MEM_RMW_COUNT ch)
    let (s2, cw) := s1.readCw ch (L / 24) L 1 dom i
    let (d2, st, old, mv) := atomLine (lineZero.putCw i cw) a
    if st = 1 ∨ st = 2 then (s2, st, old, mv)
    else (s2.setCw (L * 8 + i)
      (codeEnc (d2.read (8 * i) 8) (lockAt d2.locks (2 * i) + 16 * lockAt d2.locks (2 * i + 1)) false), st, old, mv)

/-- R188, R248: a Normal atomic leaves for its line's home, and the core waits for the reply. The tile must have no other request for
the line (R234), and a copy in the tile leaves by the home's INV. -/
def State.atomNormal (s s0 : State) (c rd : Nat) (ea : W64) (pa : Nat) (a : AtomReq) : Out :=
  let L := pa / 64
  if s.lineOut (c / 2) L then turnedAway s0
  else
    .next ((s.updCore c (fun k => { k with wait := some ⟨4, 0, .atomic, ea, pa, a.size, .g rd a.size true, a.lk⟩ })).ask
      { k := .atomic, L := L, agent := c / 2, core := s.cix c, dom := s.govDom c, at_ := some a })

/-- An atomic of core `c` at `ea`. `ord` bit 0 acquire, bit 1 release. It leaves the core only after every older store to the same
line has written L1D (R190). -/
def State.atomic (s : State) (c : Nat) (ea : W64) (size : Nat) (op : AtomOp) (rd : Nat) (opnd cmp : W64)
    (ord : BitVec 2) : Out :=
  let k := s.core c
  if ea.toNat % size ≠ 0 then pTrap s c { code := 6, acc := .atomic, val := ea }
  else if !(s.mayLoad c && s.mayStore c) || (ord.getLsbD 1 && !(s.drained c))
      || (ord.getLsbD 0 && (k.sb.any (·.rel) || k.posted.any (fun p => p.rel && !p.done))) then turnedAway s
  else
    match s.xlate c ea .atomic with
    | .flt x s1 => pTrap s1 c x
    | .wait s1 => .next s1
    | .ok pa mt mark s1 =>
      let lk := s1.lockReq c ea
      let dom := s1.govDom c
      let L := pa / 64
      let a : AtomReq := ⟨pa % 2 ^ 46, op, size, opnd, cmp, lk, ord⟩
      let older : Bool := k.sb.any (fun e => e.pa / 64 == L)
      let go (x : Out) : Out := if older then turnedAway s else s1.gate c mark ea .atomic x
      let fab (s1 : State) : Out :=
        let v := opnd.toNat % 2 ^ (8 * size) + cmp.toNat % 2 ^ (8 * size) * 2 ^ 64
        let q : Pkt := { ty := tyATOM, op := op.code, sz := size == 8, data := BitVec.ofNat 512 v }
        match s1.fabRequest (.core (s.cix c)) dom (pa / 2 ^ 46) (pa % 2 ^ 46) size (q.withLk lk) with
        | .inl s2 => .next (s2.updCore c (fun k => { k with
            wait := some ⟨1, 0, .atomic, ea, pa, size, .g rd size true, lk⟩ }))
        | .inr (.fault code) => pTrap s1 c { code := code, acc := .atomic, val := ea }
        | .inr .wait => turnedAway s
      match mt with
      | .normal => go (s1.atomNormal s c rd ea pa a)
      | .gcached =>
        let key := lineKey true pa
        go (match (s1.l2 (c / 2) key).st with
          | .M =>
            (match s1.evictLine (c / 2) key with
             | some s2 => .next s2
             | none => turnedAway s)
          | _ => if s.ftags.any (fun t => t.orig == .wb (c / 2) && t.dev == pa / 2 ^ 46 && t.line == pa % 2 ^ 46 / 64)
              then turnedAway s else fab (s1.setL2 (c / 2) key {}))
      | .global => go (fab s1)
      | .hostOrdered => pTrap s1 c { code := 0x10, acc := .atomic, val := ea }
      | .device =>
        match regionOf pa with
        | .dram =>
          go (if s1.chanHas L || !(s1.linked (c / 2) (devIdx pa)) then turnedAway s
            else if !(s1.arrayOpen L dom) then s.arrayWait L
            else
              let (s2, st, old, mv) := s1.atomDev L dom a
              .next (s2.atomOut c ea pa rd size lk st old mv))
        | _ => pTrap s1 c { code := 0x10, acc := .atomic, val := ea }

/-- R165, R188, R216: DATA with an atomic's old value and status reaches core `c`: of a mark's swap, the marked entry takes effect for
the walk that follows, a swap that found the entry changed makes the instruction walk again, and poison is the machine check of
the walk; of the core's own atomic, its result. -/
def State.atomReply (s : State) (c : Nat) (m : Msg) : State :=
  let k := s.core c
  let old := m.val % 2 ^ 64
  match k.mark, k.wait with
  | some q, _ =>
    let s1 := s.setCore c { k with mark := none }
    if m.stat = 2 then s1.machineCheck c (mcCause q.line q.lvl q.va q.acc)
    else
      let drop (l : List TlbE) : List TlbE := l.filter (fun x => !(tlbMatch k q.va x))
      s1.updCore c (fun k => { k with itlb := drop k.itlb, dtlb := drop k.dtlb, l2tlb := drop k.l2tlb, l2big := drop k.l2big
                                      fill := [] })
  | none, some w =>
    if w.net = 4 then
      match w.dst with
      | .g rd size _ => (s.setCore c { k with wait := none }).atomOut c w.ea w.pa rd size w.lk m.stat old (m.val / 2 ^ 64)
      | _ => s
    else s
  | none, none => s

end Sys2Proof.Machine
end

