-- ==== Sys2Proof/Machine/KeepOps.lean ====
section
/-! DEFINITION. Memory access of a keeper core (R314, R320, R321, R331) and the replies of its mesh accesses. -/

namespace Sys2Proof.Machine
open Sys2Proof

/-- R320: where a keeper address leads. -/
inductive KReg where
  | sram (off : Nat)
  | ownRest
  | hive
  | mesh
  | host
  | none
  deriving DecidableEq, Repr

def kRegion (h pa : Nat) : KReg :=
  match regionOf pa with
  | .dram => .mesh
  | .host => .host
  | .ctl => if 0x8000_0000 + h * 0x10_0000 ≤ ctlOff pa ∧ ctlOff pa < 0x8000_0000 + (h + 1) * 0x10_0000 then .hive else .mesh
  | .ksram =>
    let o := kwinOff pa
    if o / 2 ^ 20 ≠ h then .mesh else if o % 2 ^ 20 < 0x40000 then .sram (o % 2 ^ 20) else .ownRest
  | .none => .none

/-- R322, R331: grant register `g` covers [pa, pa + size) with the right to store if `w`. -/
def grantOk (g : W64) (pa size : Nat) (w : Bool) : Bool :=
  let sz := bits g.toNat 2 6
  let base := bits g.toNat 12 34 * 4096 / 2 ^ sz * 2 ^ sz
  g.getLsbD 0 && 12 ≤ sz && sz ≤ 45 && (!w || g.getLsbD 1) && base ≤ pa && pa + size ≤ base + 2 ^ sz

/-- R331: module mode's bounds on a data access. -/
def Keeper.modOk (k : Keeper) (h pa size : Nat) (w : Bool) : Bool :=
  !k.modMode ||
    match kRegion h pa with
    | .sram off => k.pageOk off && k.pageOk (off + size - 1)
    | _ => [0x80D, 0x80E, 0x80F, 0x810].any (fun n => grantOk (k.cr0 n) pa size w)

/-- R321: a free mesh tag of the keeper's eight. -/
def Keeper.freeTag (k : Keeper) : Option Nat :=
  (List.range 8).find? (fun t => !(k.late.any (·.tag == t)) && !(k.quar.any (·.1 == t))
    && !(match k.wait with | some w => w.tag == t | none => false))

def kPhys (acc : Nat) (ea : W64) : KCause := { code := 0x10, acc := acc, val := ea }

/-- Finish a keeper load: the result, then on. -/
def State.kDeliver (s : State) (h rd size : Nat) (sx : Bool) (v : Nat) : State :=
  (s.setKeeper h ((s.keeper h).wg rd (extend size sx v))).retireK h

/-- R321: the clock of mesh accesses: it counts only while PWR_MESHQ.STATE reads RUNNING. -/
def State.runClock (s : State) : Nat := (if s.meshRuns then s.ns else s.meshAt) - s.meshHeld

/-- A mesh access leaves; the keeper waits for its reply. -/
def State.kSend (s : State) (h : Nat) (w : KWait) : Out :=
  match (s.keeper h).freeTag with
  | none => turnedAway s
  | some t => .next (s.setKeeper h { s.keeper h with wait := some { w with tag := t, t0 := s.runClock } })

/-- R105, R320, R325: the checks every keeper access makes first. -/
def State.kCheck (s : State) (h : Nat) (ea : W64) (size acc : Nat) (w : Bool) : Option KCause :=
  let a := ea.toNat
  if a % size ≠ 0 ∨ (regionOf a = .ctl ∧ size ≠ 4 ∧ size ≠ 8) then some { code := 6, acc := acc, val := ea }
  else if a ≥ 2 ^ 46 ∨ kRegion h a = .none ∨ !((s.keeper h).modOk h a size w) then some (kPhys acc ea)
  else none

def State.kLoad (s : State) (h : Nat) (ea : W64) (size rd : Nat) (sx : Bool) : Out :=
  let a := ea.toNat
  match s.kCheck h ea size 1 false with
  | some x => .next (s.kTrap h x)
  | none =>
    match kRegion h a with
    | .sram off =>
      let (v, bad) := s.kwinRead (h * 2 ^ 20 + off) size
      if bad then .next (s.kTrap h { code := 0x18, acc := 1, val := ea }) else .next (s.kDeliver h rd size sx v)
    | .ownRest => .next (s.kDeliver h rd size sx 0)
    | .hive =>
      let (s1, v, ok) := s.ctlRead (ctlOff a) size 0
      if ok then .next (s1.kDeliver h rd size sx v) else .next (s.kTrap h (kPhys 1 ea))
    | .mesh => s.kSend h ⟨0, .load, a, size, sx, rd, 0, none, false, 0⟩
    | .host =>
      if !(s.linked (8 * h) 280) then turnedAway s else
      match s.tileKnows with
      | (some sub, s1) => .next (s1.kTrap h { code := 0x15, acc := 1, sub := sub, val := ea })
      | (none, s1) =>
        if (s.keeper h).freeTag.isNone then turnedAway s else
        match s1.hostAccess (.keeper h) false a size [] with
        | .inl s2 => s2.kSend h ⟨0, .load, a, size, sx, rd, 0, none, false, 0⟩
        | .inr sub => .next ((s1.outErr sub).kTrap h { code := 0x15, acc := 1, sub := sub, val := ea })
    | .none => .next (s.kTrap h (kPhys 1 ea))

def State.kStore (s : State) (h : Nat) (ea : W64) (size : Nat) (v : W64) : Out :=
  let a := ea.toNat
  match s.kCheck h ea size 2 true with
  | some x => .next (s.kTrap h x)
  | none =>
    match kRegion h a with
    | .sram off => .next ((s.kwinWrite (h * 2 ^ 20 + off) size v.toNat).retireK h)
    | .ownRest => .next (s.retireK h)
    | .hive =>
      let (s1, ok) := s.ctlWrite (ctlOff a) size (v.toNat % 2 ^ (8 * size)) 0
      if ok then .next (s1.retireK h) else .next (s.kTrap h (kPhys 2 ea))
    | .mesh => s.kSend h ⟨0, .store, a, size, false, 0, v, none, false, 0⟩
    | .host =>
      if !(s.linked (8 * h) 280) then turnedAway s else
      match s.tileKnows with
      | (some sub, s1) => .next (s1.kTrap h { code := 0x15, acc := 2, sub := sub, val := ea })
      | (none, s1) => .next ((s1.hostPost (.keeper h) a size (leBytes size v.toNat)).retireK h)
    | .none => .next (s.kTrap h (kPhys 2 ea))

def State.kAtomic (s : State) (h : Nat) (ea : W64) (size : Nat) (op : AtomOp) (rd : Nat) (opnd cmp : W64) : Out :=
  let a := ea.toNat
  match s.kCheck h ea size 3 true with
  | some x => .next (s.kTrap h x)
  | none =>
    match kRegion h a with
    | .sram off =>
      let (old, bad) := s.kwinRead (h * 2 ^ 20 + off) size
      if bad then .next (s.kTrap h { code := 0x18, acc := 3, val := ea })
      else
        .next ((s.kwinWrite (h * 2 ^ 20 + off) size (atomNew op size old opnd.toNat cmp.toNat)).kDeliver h rd size true old)
    | .mesh =>
      if regionOf a = .dram then
        s.kSend h ⟨0, .atomic, a, size, true, rd, 0, some ⟨a, op, size, opnd, cmp, lkOff, 0⟩, false, 0⟩
      else .next (s.kTrap h (kPhys 3 ea))
    | _ => .next (s.kTrap h (kPhys 3 ea))

/-- The masked write of `size` bytes at address `a` under PRESERVE. -/
def preserveWr (a size v : Nat) : WrReq := lineWr (a / 64) a (leBytes size v) .preserve

/-- R320: what the target of keeper `h`'s mesh access does: the state after it, the value read, and the code of a failing
reply. None where the line is not quiet, or where tile-in-hive 0's NI has no valid route there or back (R22, R277). -/
def State.kPerform (s : State) (h : Nat) (w : KWait) : Option (State × Nat × Option Nat) :=
  let L := w.pa / 64
  if !(s.linked (8 * h) (if regionOf w.pa = .dram then homeOf L else devIdx w.pa)) then none else
  match regionOf w.pa with
  | .dram =>
    if !s.meshRuns || !(s.homeOpen L 0) then none else
    (match w.acc with
     | .load =>
       if s.lineBusy L then none
       else
         let (s1, d) := s.ncRead L 0
         some (s1, d.read (w.pa % 64) w.size, if spanPoison d.poison (w.pa % 64) w.size then some 0x18 else none)
     | .store =>
       if !(s.lineQuiet L && s.writeOpen L 0) then none
       else
         let (s1, bad) := s.ncWrite L 0 (preserveWr w.pa w.size w.data.toNat)
         some (s1, 0, if bad then some 0x18 else none)
     | _ =>
       match w.at_ with
       | some a =>
         if !(s.lineQuiet L && s.writeOpen L 0) then none
         else
           let (s1, st, old, _) := s.homeAtomic L 0 a
           some (s1, old, if st = 2 then some 0x18 else none)
       | none => none)
  | .ctl =>
    if w.acc = .load then
      let (s1, v, _) := s.ctlRead (ctlOff w.pa) w.size 0
      some (s1, v, none)
    else some ((s.ctlWrite (ctlOff w.pa) w.size (w.data.toNat % 2 ^ (8 * w.size)) 0).1, 0, none)
  | .ksram =>
    if w.acc = .load then
      let (v, bad) := s.kwinRead (kwinOff w.pa) w.size
      some (s, v, if bad then some 0x18 else none)
    else some (s.kwinWrite (kwinOff w.pa) w.size w.data.toNat, 0, none)
  | _ => none

def State.setWait (s : State) (h : Nat) (w : Option KWait) : State := s.setKeeper h { s.keeper h with wait := w }

/-- R320, R321, R325: the reply of keeper `h`'s mesh access; a reply after the timeout is discarded and counted. -/
def execKeeperMeshReply (h : Nat) (s : State) : Out :=
  let k := s.keeper h
  match k.wait with
  | some w =>
    (match s.kPerform h w with
     | none => if regionOf w.pa = .dram ∧ s.meshRuns ∧ !(s.homeOpen (w.pa / 64) 0) then s.arrayWait (w.pa / 64) else turnedAway s
     | some (s1, v, err) =>
       let s2 := s1.setWait h none
       match err with
       | some code => .next (s2.kTrap h { code := code, acc := w.acc.code, val := BitVec.ofNat 64 w.pa })
       | none =>
         match w.acc with
         | .store => .next (s2.retireK h)
         | _ => .next (s2.kDeliver h w.rd w.size w.sx v))
  | none =>
    match k.late.find? (fun w => regionOf w.pa != .host) with
    | some w =>
      let s1 := s.setKeeper h { k with late := k.late.erase w }
      let s2 := if w.acc ≠ .load ∧ s.freeVal % 2 = 0 then
        (match s1.kPerform h w with | some (t, _, _) => t | none => s1) else s1
      let k2 := s2.keeper h
      let n := min ((k2.cr0 0xA03).toNat + 1) 0xFFFF_FFFF
      .next ((s2.setKeeper h (k2.setCr 0xA03 (BitVec.ofNat 64 n))).tickFree)
    | none => turnedAway s

/-- R321, R322: the timeout in ns. -/
def Keeper.mto (k : Keeper) : Nat := min 1000 (max 1 (k.cr0 0x80B).toNat) * 1000

/-- R321: K_MTO's time has been counted since the outstanding mesh access left; the timer counts only while the mesh runs. -/
def execKeeperAccessTimeout (h : Nat) (s : State) : Out :=
  let k := s.keeper h
  match k.wait with
  | some w =>
    whenOk (s.meshRuns && decide (w.t0 + k.mto ≤ s.runClock)) s
      ((s.setKeeper h { k with wait := none, late := k.late ++ [{ w with late := true }],
                               quar := k.quar ++ [(w.tag, s.ns + 2 * k.mto)] }).kTrap h
        { code := 0x19, acc := w.acc.code, val := BitVec.ofNat 64 w.pa })
  | none => turnedAway s

/-- R321: a tag's quarantine ends. -/
def execKeeperTagRelease (h : Nat) (s : State) : Out :=
  let k := s.keeper h
  match k.quar.find? (fun q => q.2 ≤ s.ns) with
  | some q => .next (s.setKeeper h { k with quar := k.quar.erase q, late := k.late.filter (fun w => w.tag != q.1) })
  | none => turnedAway s

/-- R37, R314: an access of another agent through the window of keeper `h`: read or write of up to 8 bytes at SRAM offset
`off`. A read changes nothing here; its value goes to the agent. -/
def execKeeperWindowAccess (h off size : Nat) (wr : Bool) (v : W64) (s : State) : Out :=
  let ok := decide (h < 32) && decide (off < 2 ^ 20) && (size == 1 || size == 2 || size == 4 || size == 8)
    && off % size == 0
  whenOk ok s (if wr then s.kwinWrite (h * 2 ^ 20 + off) size v.toNat else s)

end Sys2Proof.Machine
end

