-- ==== Sys2Proof/Machine/LoadStore.lean ====
section
/-! DEFINITION. Load, store, lock, key, atomic, fence and cache-maintenance instructions (R105 to R112, R122, R161, R177,
R178, R319, R330), and the events of the store buffer and the load queue (R76, R78, R79, R163). -/

namespace Sys2Proof.Machine
open Sys2Proof

/-! ### Scalar loads and stores (R106, R107) -/

def ldOp (a : Agent) (pr : BitVec 4) (rd : BitVec 5) (srcs : List (BitVec 5)) (ea : State → W64) (size : Nat) (sx aq : Bool)
    (s : State) : Out :=
  agRun a pr (rd :: srcs) s (fun s =>
    match a with
    | .core c => s.load c (ea s) size (.g rd.toNat size sx) aq
    | .keeper h => s.kLoad h (ea s) size rd.toNat sx)
def stOp (a : Agent) (pr : BitVec 4) (rd : BitVec 5) (srcs : List (BitVec 5)) (ea : State → W64) (size : Nat) (rl : Bool)
    (s : State) : Out :=
  agRun a pr (rd :: srcs) s (fun s =>
    match a with
    | .core c => s.store c (ea s) size .bytes (((s.rgA a rd).toNat % 2 ^ (8 * size) : Nat)) rl
    | .keeper h => s.kStore h (ea s) size (s.rgA a rd))

section
variable (a : Agent) (pr : BitVec 4) (rd ra : BitVec 5) (imm : BitVec 12) (s : State)

/-- R105: EA = ra + imm. -/
def eaImm (s : State) : W64 := s.rgA a ra + imm.signExtend 64

def execLdB : Out := ldOp a pr rd [ra] (eaImm a ra imm) 1 false false s
def execLdBs : Out := ldOp a pr rd [ra] (eaImm a ra imm) 1 true false s
def execLdH : Out := ldOp a pr rd [ra] (eaImm a ra imm) 2 false false s
def execLdHs : Out := ldOp a pr rd [ra] (eaImm a ra imm) 2 true false s
def execLdW : Out := ldOp a pr rd [ra] (eaImm a ra imm) 4 false false s
def execLdWs : Out := ldOp a pr rd [ra] (eaImm a ra imm) 4 true false s
def execLdD : Out := ldOp a pr rd [ra] (eaImm a ra imm) 8 false false s
def execStB : Out := stOp a pr rd [ra] (eaImm a ra imm) 1 false s
def execStH : Out := stOp a pr rd [ra] (eaImm a ra imm) 2 false s
def execStW : Out := stOp a pr rd [ra] (eaImm a ra imm) 4 false s
def execStD : Out := stOp a pr rd [ra] (eaImm a ra imm) 8 false s
end

/-- R107: EA = ra + (rb << s). -/
def eaIdx (a : Agent) (ra rb : BitVec 5) (lg : Nat) (sc : Bool) (s : State) : W64 :=
  s.rgA a ra + (s.rgA a rb <<< (if sc then lg else 0))

def execLdx (a : Agent) (pr : BitVec 4) (rd ra rb : BitVec 5) (size : BitVec 3) (sc aq : Bool) (s : State) : Out :=
  if size = 7 then turnedAway s
  else
    let lg := size.toNat / 2
    ldOp a pr rd [ra, rb] (eaIdx a ra rb lg sc) (2 ^ lg) (size.getLsbD 0) aq s
def execStx (a : Agent) (pr : BitVec 4) (rd ra rb : BitVec 5) (size : BitVec 2) (sc rl : Bool) (s : State) : Out :=
  stOp a pr rd [ra, rb] (eaIdx a ra rb size.toNat sc) (2 ^ size.toNat) rl s

/-! ### Locks and keys (R108, R161) -/

section
variable (c : Nat) (pr : BitVec 4) (rd ra : BitVec 5) (s : State)

def execStlkW : Out := pRun c pr true s (fun s =>
  s.store c ((s.core c).rg ra.toNat) 4 .lockW (((s.core c).rg rd.toNat).toNat % 16 : Nat) false)
def execStlkL : Out := pRun c pr true s (fun s =>
  s.store c ((s.core c).rg ra.toNat) 64 .lockL (((s.core c).rg rd.toNat).toNat : Nat) false)
def execLdlkW : Out := pRun c pr true s (fun s => s.load c ((s.core c).rg ra.toNat) 4 (.lockW rd.toNat) false)
def execLdlkL : Out := pRun c pr true s (fun s => s.load c ((s.core c).rg ra.toNat) 64 (.lockL rd.toNat) false)
end

def keyed (k : Nat) (x : W64) : W64 := putBits x 60 4 k
def execKey (c : Nat) (pr : BitVec 4) (rd ra rb : BitVec 5) (s : State) : Out :=
  pRun c pr true s (fun s => .next (s.updCore c (fun k =>
    (k.wg rd.toNat (keyed ((k.rg rb.toNat).toNat % 16) (k.rg ra.toNat))).retire)))
def execKeyi (c : Nat) (pr : BitVec 4) (rd ra : BitVec 5) (k : BitVec 4) (s : State) : Out :=
  pRun c pr true s (fun s => .next (s.updCore c (fun x => (x.wg rd.toNat (keyed k.toNat (x.rg ra.toNat))).retire)))

/-! ### Atomics (R109) -/

def atmOp (op : AtomOp) (a : Agent) (pr : BitVec 4) (rd ra rb : BitVec 5) (ord : BitVec 2) (sz : Bool) (s : State) : Out :=
  agRun a pr [rd, ra, rb] s (fun s =>
    let size := if sz then 8 else 4
    match a with
    | .core c => s.atomic c (s.rgA a ra) size op rd.toNat (s.rgA a rb) (s.rgA a rd) ord
    | .keeper h => s.kAtomic h (s.rgA a ra) size op rd.toNat (s.rgA a rb) (s.rgA a rd))

section
variable (a : Agent) (pr : BitVec 4) (rd ra rb : BitVec 5) (ord : BitVec 2) (sz : Bool) (s : State)

def execAtmSwap : Out := atmOp .swap a pr rd ra rb ord sz s
def execAtmCas : Out := atmOp .cas a pr rd ra rb ord sz s
def execAtmAdd : Out := atmOp .add a pr rd ra rb ord sz s
def execAtmAnd : Out := atmOp .and a pr rd ra rb ord sz s
def execAtmOr : Out := atmOp .or a pr rd ra rb ord sz s
def execAtmXor : Out := atmOp .xor a pr rd ra rb ord sz s
def execAtmMin : Out := atmOp .min a pr rd ra rb ord sz s
def execAtmMax : Out := atmOp .max a pr rd ra rb ord sz s
def execAtmMinu : Out := atmOp .minu a pr rd ra rb ord sz s
def execAtmMaxu : Out := atmOp .maxu a pr rd ra rb ord sz s
end

/-! ### Fences (R110, R111, R177, R178, R319, R330, R81) -/

/-- A fence: on a P-core it retires where `go` lets it (none: it waits); on the keeper every access is complete already (R319). -/
def fenceOp (go : State → Nat → Option State) (a : Agent) (pr : BitVec 4) (s : State) : Out :=
  agRun a pr [] s (fun s =>
    match a with
    | .core c => (match go s c with | some s1 => .next (s1.retireP c) | none => turnedAway s)
    | .keeper h => .next (s.retireK h))

section
variable (a : Agent) (pr : BitVec 4) (s : State)

/-- A load is complete when it retires (R177), so older loads hold nothing back. -/
def execFenceLl : Out := fenceOp (fun s _ => some s) a pr s
def execFenceLs : Out := fenceOp (fun s _ => some s) a pr s
/-- R176: older stores hold back younger loads, or younger stores, of every type but Host-ordered. -/
def execFenceSl : Out := fenceOp (fun s c => some (s.addHold c true false)) a pr s
def execFenceSs : Out := fenceOp (fun s c => some (s.addHold c false true)) a pr s
def execFence : Out := fenceOp (fun s c => some (s.addHold c true true)) a pr s
/-- R178: FENCE.IO orders accesses of every type: it waits until each older one is complete. -/
def execFenceIo : Out := fenceOp (fun s c => if s.drained c then some s else none) a pr s
end

/-- R111, R319, R324: SYNC discards every younger instruction fetched and restarts fetch; on the keeper it applies the pending
writes. -/
def execSync (a : Agent) (pr : BitVec 4) (s : State) : Out :=
  match a with
  | .core c => pRun c pr true s (fun s =>
      if s.drained c then .next (s.updCore c (fun k => k.squash.retire)) else turnedAway s)
  | .keeper h => kRun h (pr == 0) (some (encR 0 0x27 0 0 0 8)) s
      (fun s => .next ((s.setKeeper h (s.keeper h).applyPend).retireK h))
/-- R81, R330: SYNC.I also empties the L1I, and a line fetched before it does not enter it; on the keeper it discards the queue. -/
def execSyncI (a : Agent) (pr : BitVec 4) (s : State) : Out :=
  match a with
  | .core c => pRun c pr true s (fun s =>
      if (s.core c).sb.isEmpty then .next (s.updCore c (fun k => { k.squash with l1i := [], fpend := [] }.retire))
      else turnedAway s)
  | .keeper h => kRun h (pr == 0) (some (encR 0 0x27 0 0 0 9)) s
      (fun s => .next ((s.setKeeper h { (s.keeper h).applyPend with pq := [] }).retireK h))

/-! ### Cache maintenance and prefetch (R110, R112, R191, R192, R244) -/

inductive ClOp where
  | wb | inv | wbi
  deriving DecidableEq, Repr

/-- R244: CL on a Normal line. None where the tile has a request or a writeback of the line outstanding (R234). -/
def State.clNormal (s : State) (c L : Nat) (o : ClOp) : Option State :=
  let t := c / 2
  let x := s.l2 t L
  let msg (k : MsgK) (kind : Kind) (drop : Bool) (d : Option LineD) : Msg :=
    { k := k, L := L, agent := t, core := s.cix c, dom := s.govDom c, kind := kind, drop := drop, d := d }
  if s.lineOut t L then none
  else
    match x.st, o with
    | .M, .wb => some ((s.setL2 t L { x with st := .KP, at_ := s.waitClock }).send (msg .wb .keep false (some x.d)))
    | .M, _ => some ((s.setL2 t L { st := .WBP, at_ := s.waitClock }).send (msg .wb .memDrop true (some x.d)))
    | .S, .wb | .E, .wb => some (s.ask (msg .flush .none false none))
    | .I, .wb => some s
    | .S, _ | .E, _ | .I, _ => some ((s.setL2 t L {}).ask (msg .flush .none true none))
    | _, _ => none

/-- R110, R191, R192: CL on a GlobalCached line. -/
def State.clGlobal (s : State) (c L : Nat) (o : ClOp) : State ⊕ Option Nat :=
  let t := c / 2
  let x := s.l2 t L
  match x.st, o with
  | .M, .inv => .inl (s.setL2 t L {})
  | .M, _ =>
    (match s.gcWriteback (.wb t) (s.govDom c) L x.d with
     | .inl s1 => .inl (if o = .wb then s1.setL2 t L { x with st := .E } else s1.setL2 t L {})
     | .inr (.fault code) => .inr (some code)
     | .inr .wait => .inr none)
  | _, .wb => .inl s
  | _, _ => .inl (s.setL2 t L {})

/-- R110, R112, R190: a CL instruction: translated as a load, for its line; older stores to the line go first. Under a type that
the tile does not cache it acts on a copy that stands there under another type (R180). -/
def clInstr (o : ClOp) (c : Nat) (pr : BitVec 4) (ra : BitVec 5) (s : State) : Out :=
  pRun c pr true s (fun s =>
    let ea := (s.core c).rg ra.toNat
    match s.xlate c ea .load with
    | .flt x s1 => pTrap s1 c x
    | .wait s1 => .next s1
    | .ok pa mt mark s1 =>
      let older (gc : Bool) : Bool :=
        !(s.mayLoad c && s.mayStore c) || (s1.core c).sb.any (fun e => e.gc == gc && e.pa / 64 == pa / 64)
      let normal : Out :=
        if older false then turnedAway s
        else s1.gate c mark ea .load (match s1.clNormal c (pa / 64) o with
          | some s2 => .next (s2.retireP c)
          | none => turnedAway s)
      let global : Out :=
        if older true then turnedAway s
        else s1.gate c mark ea .load (match s1.clGlobal c (lineKey true pa) o with
          | .inl s2 => .next (s2.retireP c)
          | .inr (some code) => pTrap s1 c { code := code, acc := .load, val := ea }
          | .inr none => turnedAway s)
      let nothing : Out := s1.gate c mark ea .load (.next (s1.retireP c))
      match mt with
      | .normal => normal
      | .gcached => global
      | .global => if (s1.l2 (c / 2) (lineKey true pa)).st = .I then nothing else global
      | .device => if pa < dramEnd ∧ (s1.l2 (c / 2) (pa / 64)).st ≠ .I then normal else nothing
      | .hostOrdered => nothing)

def execClWb (c : Nat) (pr : BitVec 4) (ra : BitVec 5) (s : State) : Out := clInstr .wb c pr ra s
def execClInv (c : Nat) (pr : BitVec 4) (ra : BitVec 5) (s : State) : Out := clInstr .inv c pr ra s
def execClWbi (c : Nat) (pr : BitVec 4) (ra : BitVec 5) (s : State) : Out := clInstr .wbi c pr ra s
/-- R68, R112: a prefetch never faults and may be ignored: this model ignores it. -/
def execPrefR (c : Nat) (pr : BitVec 4) (_ra : BitVec 5) (s : State) : Out := pRun c pr true s (fun s => .next (s.retireP c))
def execPrefW (c : Nat) (pr : BitVec 4) (_ra : BitVec 5) (s : State) : Out := pRun c pr true s (fun s => .next (s.retireP c))

/-! ### Vector memory (R119, R120, R122) -/

def execVld (c : Nat) (pr : BitVec 4) (vd ra : BitVec 5) (imm : BitVec 12) (s : State) : Out :=
  pRun c pr true s (fun s =>
    s.load c ((s.core c).rg ra.toNat + (imm.signExtend 64) <<< 5) 32 (.v vd.toNat 32) false)
def execVst (c : Nat) (pr : BitVec 4) (vd ra : BitVec 5) (imm : BitVec 12) (s : State) : Out :=
  pRun c pr true s (fun s =>
    s.store c ((s.core c).rg ra.toNat + (imm.signExtend 64) <<< 5) 32 .bytes ((s.core c).rv vd.toNat) false)
def execVls (c : Nat) (pr : BitVec 4) (vd ra : BitVec 5) (st : Bool) (sz : BitVec 2) (imm : BitVec 9) (s : State) : Out :=
  pRun c pr (sz != 0) s (fun s =>
    let n := 2 ^ sz.toNat
    let ea := (s.core c).rg ra.toNat + (imm.signExtend 64) <<< sz.toNat
    if st then s.store c ea n .bytes (((s.core c).rv vd.toNat).toNat % 2 ^ (8 * n) : Nat) false
    else s.load c ea n (.v vd.toNat n) false)

/-! ### Store buffer and load queue events -/

/-- R76, R163, R233: the head of core `c`'s store buffer writes L1D where its line is in M or E, the other core's L1D copy going
first, else asks for ownership. -/
def execStoreBufferWrite (c : Nat) (s : State) : Out :=
  let k := s.core c
  if !(decide (c < 512) && s.tileRuns (c / 2)) then turnedAway s
  else
    match k.sb with
    | [] => turnedAway s
    | e :: rest =>
      let t := c / 2
      let L := lineKey e.gc e.pa
      let x := s.l2 t L
      if x.st = .M ∨ x.st = .E then
        let (d, miss, drop) := sbWrite e x.d
        let s0 := if drop then s else
          let s1 := s.l1Use c L
          s1.setL2 t L { s1.l2 t L with st := .M, d := d, l1 := (1 : BitVec 2) <<< (s.cix c % 2) }
        let s1 := s0.updCore c (fun k =>
          { k with sb := rest, parked := k.parked.map (fun p => { p with mark := p.mark - 1 })
                   holds := k.holds.map (fun h => { h with n := h.n - 1 }) })
        match miss with
        | some (i, l) =>
          let d := if e.priv = .M then 0 else s.domOf t
          let s2 := if drop then s1.incSat (R.DOM_LOCKLATE_COUNT d) else s1
          .next (s2.lockRecord d (s.cix c) e.priv.code 2 true false drop e.lk.key l (wordEa e.ea e.pa i) e.pc)
        | none => .next s1
      else if e.gc then
        (match s.fabRequest (.fill (s.cix c)) (s.govDom c) (e.pa / 2 ^ 46) (e.pa % 2 ^ 46 / 64 * 64) 0 { ty := tyRD } with
         | .inl s1 => .next s1
         | .inr _ => turnedAway s)
      else
        let s1 := s.wantOwn c L
        .next s1

/-- R78, R83: the parked load, which has reached its commit point, reissues once the marked store has written L1D. -/
def execLoadReissue (c : Nat) (s : State) : Out :=
  let k := s.core c
  match k.parked with
  | some p =>
    if !(decide (c < 512) && s.tileRuns (c / 2) && k.run && !k.stopped && p.mark == 0) then turnedAway s
    else
      let s1 := s.setCore c { k with parked := none, commit := true }
      s1.loadCached s c p.gc false ⟨0, 0, .load, p.ea, p.pa, p.size, p.dst, p.lk⟩
  | none => turnedAway s

end Sys2Proof.Machine
end

