-- ==== Sys2Proof/Machine/FrontEnd.lean ====
section
/-! DEFINITION. Which words are legal (R91, R95, R96, R100 to R126), the illegal-instruction fault, and the events of
speculative work: fetch, prediction and resolution of branches, speculative loads and walks; mark swaps and Device store
replies. -/

namespace Sys2Proof.Machine
open Sys2Proof

/-! ### Legal encodings -/

/-- R101: minors of major 0x01; those from 0x30 take RB = 0. -/
def intMinors : List Nat :=
  [0x00, 0x01, 0x02, 0x03, 0x04, 0x05, 0x06, 0x08, 0x09, 0x0A, 0x0B, 0x10, 0x11, 0x18, 0x19, 0x1A, 0x20, 0x21, 0x22,
   0x24, 0x25, 0x26, 0x27, 0x28, 0x29, 0x2A, 0x2B, 0x30, 0x31, 0x32, 0x34, 0x35, 0x36, 0x37, 0x38]

/-- R119: VFP and FPS. -/
def vfpWord (w : Nat) : Bool :=
  let ty := bits w 4 3
  let op := bits w 0 4
  (4 ≤ ty && ty ≤ 6) && op ≤ 12 && (!(op == 4 || op == 7 || op == 8) || bits w 7 5 == 0)
/-- Lanes of a TYPE (R118). -/
def tyLanes (ty : Nat) : Nat := match ty with | 0 => 32 | 1 => 16 | 2 => 8 | 3 => 4 | 4 => 16 | 5 => 8 | 6 => 4 | _ => 0
/-- R119: VMISC. -/
def vmiscWord (w : Nat) : Bool :=
  let ty := bits w 4 3
  let vb := bits w 7 5
  match bits w 0 4 with
  | 0 | 4 => ty ≤ 6
  | 2 | 3 => ty ≤ 6 && vb < tyLanes ty
  | 1 | 5 | 6 | 7 | 12 => ty ≤ 6
  | 8 => 1 ≤ ty && ty ≤ 3
  | 9 => 4 ≤ ty && ty ≤ 6
  | 10 => ty == 4 || ty == 5
  | 11 => ty == 5 || ty == 6
  | 13 => ty ≤ 6 && bits w 20 2 == 0
  | _ => false

/-- The majors both profiles share, as to minors and zero fields (R101 to R116). -/
def sharedWord (w : Nat) : Bool :=
  let rd := bits w 17 5
  let ra := bits w 12 5
  let rb := bits w 7 5
  let min := bits w 0 7
  match bits w 22 6 with
  | 0x01 => intMinors.contains min && (min < 0x30 || rb == 0)
  | 0x02 | 0x03 | 0x04 | 0x05 | 0x07 | 0x08 | 0x09 | 0x0A | 0x0B | 0x0C => true
  | 0x06 => let m := bits w 0 6; m ≤ 6 && (m < 4 || bits w 11 1 == 0)
  | 0x18 | 0x19 | 0x1A | 0x1B | 0x1C | 0x1D | 0x1E | 0x20 | 0x21 | 0x22 | 0x23 => true
  | 0x1F => bits w 0 3 != 7 && bits w 5 2 == 0
  | 0x24 => bits w 2 1 == 0 && bits w 5 2 == 0
  | 0x26 => bits w 0 4 ≤ 9
  | 0x27 => [0, 1, 2, 3, 4, 5, 8, 9].contains min && rd == 0 && ra == 0 && rb == 0
  | 0x33 => ((min == 0 || min == 2) && rd == 0) || ((min == 3 || min == 4) && rd == 0 && ra == 0 && rb == 0)
  | 0x34 | 0x35 | 0x36 => true
  | _ => false

/-- The P-profile's own majors. -/
def ownWordP (w : Nat) : Bool :=
  let rd := bits w 17 5
  let ra := bits w 12 5
  let rb := bits w 7 5
  let min := bits w 0 7
  match bits w 22 6 with
  | 0x0D | 0x2B => vfpWord w
  | 0x10 => min ≤ 0x17 && min % 16 ≤ 7
  | 0x11 | 0x12 | 0x13 | 0x14 | 0x15 | 0x16 => true
  | 0x17 =>
    (min ≤ 2 && bits w 7 4 == 0) || (min == 0x10 && ra == 0 && rb == 0) || (min == 0x11 && rd == 0 && rb == 0)
  | 0x25 =>
    ((min == 0 || min == 1 || min == 8 || min == 9) && rb == 0) || min == 0x10 || (min == 0x11 && bits w 11 1 == 0)
  | 0x27 => [0x10, 0x11, 0x12, 0x18, 0x19].contains min && rd == 0 && rb == 0
  | 0x28 | 0x29 | 0x2C | 0x2D | 0x30 | 0x31 => true
  | 0x2A => bits w 4 3 ≤ 3
  | 0x2E => vmiscWord w
  | 0x2F => bits w 9 2 != 0
  | 0x32 =>
    (min == 0 && rd == 0 && rb == 0) || (min == 1 && rd != 0 && rb == 0) || (min == 2 && rd == 0 && ra == 0 && rb == 0)
  | 0x33 =>
    (min == 1 && rd == 0) || ((min == 8 || min == 12) && rd == 0 && rb == 0)
      || ((min == 9 || min == 10 || min == 13) && rd == 0 && ra == 0 && rb == 0)
  | _ => false

/-- R96: legal on a P-core. -/
def legalP (w : Nat) : Bool := w != 0 && w != 0xFFFF_FFFF && bits w 28 4 != 8 && (sharedWord w || ownWordP w)

/-- R96: the register fields of a shared major name k0 to k15. -/
def regsS (w : Nat) : Bool :=
  let lo (p : Nat) : Bool := bits w p 5 < 16
  match bits w 22 6 with
  | 0x01 | 0x1F | 0x24 | 0x26 => lo 17 && lo 12 && lo 7
  | 0x08 | 0x09 | 0x0A | 0x0B | 0x0C => lo 17
  | 0x27 | 0x33 => true
  | _ => lo 17 && lo 12

/-- R96, R123, R124: legal on a keeper core. -/
def legalS (w : Nat) : Bool :=
  let ka := bits w 17 5
  let kb := bits w 12 5
  w != 0 && w != 0xFFFF_FFFF &&
    match bits w 22 6 with
    | 0x38 => ka < 16 && kb < 16
    | 0x39 | 0x3A => bits w 28 3 == 0
    | 0x3B => bits w 28 3 == 0 && bits w 0 12 == 0 && ka < 16 && kb < 16 && (ka == 0 || ka != kb)
    | _ => bits w 28 4 == 0 && sharedWord w && regsS w

/-- R91, R96, R130: a fetched word that is not legal takes the illegal-instruction fault, whatever its predicate; on a keeper, the word
at the head of the queue, be it what SRAM holds by now or not (R330). -/
def execIllegalInstruction (a : Agent) (word : W32) (s : State) : Out :=
  match a with
  | .core c =>
    if legalP word.toNat || !(s.canIssue c) then turnedAway s
    else pTrap s c { code := 1, val := word.zeroExtend 64 }
  | .keeper h =>
    if legalS word.toNat then turnedAway s
    else kRun h true none s (fun s =>
      if (s.keeper h).pq.head?.map (·.2) = some word.toNat then .next (s.kTrap h { code := 1, val := word.zeroExtend 64 })
      else turnedAway s)

/-! ### What a core may do ahead of its commit point -/

/-- R55, R83: core `c` fetches and runs instructions ahead: it runs, and no interrupt has been recognised. -/
def State.specRuns (s : State) (c : Nat) : Bool :=
  let k := s.core c
  decide (c < 512) && s.tileRuns (c / 2) && k.run && !k.stopped && !k.halt && !k.waitev && !k.recog

/-- R68, R69: the translation of a speculative access, from the TLBs or the walk buffer (then `true`): nothing changes, and an access
that would fault has none. -/
def State.specXlate (s : State) (c : Nat) (va : W64) (acc : Acc) : Option (Nat × MT × Bool) :=
  let k := s.core c
  let v := va.toNat
  let out (r : XRes) (wk : Bool) : Option (Nat × MT × Bool) := match r with | .ok pa mt _ _ => some (pa, mt, wk) | _ => none
  if k.priv = .M then
    if bits v 46 14 ≠ 0 ∨ regionOf v = .none then none else out (regionCheck v (mTypeOf (regionOf v)) false va acc s) false
  else if bits v 55 5 ≠ 0 ∧ bits v 55 5 ≠ 31 then none
  else
    let use (e : TlbE) (wk : Bool) : Option (Nat × MT × Bool) :=
      if (useCheck k e va acc).isSome then none else out (regionCheck (e.pa + v % 2 ^ e.sz) e.mt false va acc s) wk
    match (s.tlbPick c va acc).1, k.walkB.find? (fun b => b.fetch == (acc == .fetch) && tlbMatch k va b.w.e) with
    | some e, _ => use e false
    | none, some b => use b.w.e true
    | none, none => none

/-- R63, R64, R66, R234: a SPEC request for line `L` and its entry in the shadow fill buffer: none where 32 are in use, the tile
has a request for the line out, or the home cannot answer now. -/
def State.specSend (s : State) (c L : Nat) : Option State :=
  let t := c / 2
  let k := s.core c
  if k.sfb.length ≥ 32 || s.lineOut t L || !(decide (L < dramLines) && s.meshRuns && s.homeReady L && s.routed t (homeOf L)) then none
  else
    (s.specAnswer t (s.cix c) L (s.govDom c)).map (fun s1 =>
      (s1.await t L .rdSpec).updCore c (fun k =>
        { k with sfb := k.sfb ++ [{ L := L, d := none, stamp := 0, prom := false }] }))

def Core.enterWin (k : Core) (e : WinE) : Core := { k with win := k.win ++ [e] }

/-! ### Fetch and branches (R57 to R60, R71, R231, R549) -/

/-- R113: the kind of a branch word. -/
def branchKind (w : Nat) : Option BrK :=
  if !(legalP w) then none
  else match bits w 22 6, bits w 0 7 with
    | 0x30, _ => some .direct
    | 0x31, _ => some .call
    | 0x32, 0 => some .indirect
    | 0x32, 1 => some .call
    | 0x32, 2 => some .ret
    | _, _ => none

/-- R71, R234: the line of physical address `pa` for core `c`'s L1I: from the tile's L2, or by a non-registering read. -/
def State.fetchLine (s : State) (c pa : Nat) : State :=
  let L := pa / 64
  let t := c / 2
  let k := s.core c
  match s.tileCopy t L with
  | some d => (s.setCore c (k.l1iPut s.freeVal L d)).tickFree
  | none =>
    if s.lineOut t L then s
    else ((s.setL2 t L { s.l2 t L with st := .IS, at_ := s.waitClock }).send
      { k := .rdFetch, L := L, agent := t, core := s.cix c, dom := s.govDom c }).setCore c { k with fpend := k.fpend ++ [L] }

/-- R58 to R60: the word at `va` has been fetched: where it is a branch, fetch goes on where the predictors say. -/
def Core.fetched (k : Core) (va : W64) (w : Nat) : Core :=
  match branchKind w with
  | none => k
  | some kind =>
    let (next, st) := k.predict va kind (bits w 28 4 != 0)
    { k.enterWin (.branch va next) with retS := st }

/-- The fetch at `va`, of physical address `pa`: from the L1I, whose line is invalidated and fetched again on a parity error
(R231), else of the line. `here`: the instruction at its commit point, which a poisoned code word gives a machine check. -/
def State.fetchAt (s : State) (c : Nat) (va : W64) (pa : Nat) (here parity : Bool) : Out :=
  let k := s.core c
  match k.l1i.find? (·.line == pa / 64) with
  | some e =>
    if parity then .next ((s.setCore c { k with l1i := k.l1i.filter (·.line != pa / 64) }).fetchLine c pa)
    else if spanPoison e.poison (pa % 64) 4 then
      (if here then pTrap s c (poisonCause .fetch va pa) else turnedAway s)
    else if here && k.win.any (fun w => w.isBranch && w.pc == va) then turnedAway s
    else .next (s.setCore c (k.fetched va (e.data.toNat / 2 ^ (8 * (pa % 64)) % 2 ^ 32)))
  | none => .next (s.fetchLine c pa)

/-- An instruction fetch of core `c` at `va`: of the instruction at the pc, whose faults are taken precisely (R131 step 1), or
ahead of it, on a path that may be wrong, which leaves only what R72 names. -/
def execInstructionFetch (c : Nat) (va : W64) (f : FetchOp) (s : State) : Out :=
  if f.ahead then
    if !(s.specRuns c) then turnedAway s
    else match s.specXlate c va .fetch with
      | some (pa, _, _) => s.fetchAt c va pa false f.parity
      | none => turnedAway s
  else if !(s.canIssue c) || va != (s.core c).pc then turnedAway s
  else
    match s.xlate c va .fetch with
    | .flt x s1 => pTrap s1 c x
    | .wait s1 => .next s1
    | .ok pa _ mark s1 => s1.gate c mark va .fetch (s1.fetchAt c va pa true f.parity)

/-- R57, R60: a branch resolves: where fetch went on elsewhere than to its target, everything younger is squashed. -/
def execBranchResolve (c : Nat) (b : Resolved) (s : State) : Out :=
  let k := s.core c
  match k.win.findIdx? (fun e => e.isBranch && e.pc == b.pc) with
  | some i =>
    whenOk (decide (c < 512) && s.tileRuns (c / 2) && k.run && !k.stopped) s
      (if k.win[i]? = some (.branch b.pc b.target) then s
       else s.setCore c ((k.squashAfter i).enterWin (.branch b.pc b.target)))
  | none => turnedAway s

/-! ### Speculative loads (R63 to R68, R77, R79) -/

/-- A speculative load of core `c`, or the lock probe of a store. What would fault, or lies behind a store that it cannot be forwarded from, is not performed. -/
def execRdSpec (c : Nat) (x : SpecAcc) (s : State) : Out :=
  let ⟨pc, va, acc, size⟩ := x
  let k := s.core c
  let t := c / 2
  if !(s.specRuns c) || !(acc == .load || acc == .store) || !([1, 2, 4, 8, 32, 64].contains size) || va.toNat % size != 0 then
    turnedAway s
  else
    match s.specXlate c va acc with
    | none => turnedAway s
    | some (pa, mt, wk) =>
      let gc := mt == .gcached
      let L := lineKey gc pa
      let lk := s.lockReq c va
      let good (d : LineD) : Bool := match checkRead d lk (pa % 64) size with | .lock .. => false | _ => true
      let enter (s : State) (sfb : Option Nat) (done : Bool) : Out :=
        .next (s.updCore c (·.enterWin (.access pc va acc pa size sfb wk done)))
      if !(mt == .normal || gc) then turnedAway s
      else
        match fwdOf k.sb gc pa size with
        | .park _ => turnedAway s
        | .hit e => if good e.line then enter s none true else turnedAway s
        | .none =>
          match s.tileCopy t L, k.sfb.find? (·.L == L) with
          | some d, f =>
            if !(good d) then turnedAway s
            else if (s.l2 t L).l1.getLsbD (s.cix c % 2) then enter s none true
            else if f.isSome then enter s (some L) true
            else if k.sfb.length ≥ 32 then turnedAway s
            else enter (s.setCore c { k with sfb := k.sfb ++ [⟨L, some d, 0, false, true⟩] }) (some L) true
          | none, some f =>
            if (match f.d with | some d => good d | none => true) then enter s (some L) f.d.isSome else turnedAway s
          | none, none =>
            if gc then turnedAway s
            else match s.specSend c L with
              | some s1 => enter s1 (some L) false
              | none => turnedAway s

/-- R79: the address `va` of a store of `n` bytes becomes known that `older` entries of the window precede. The first younger load
that has completed and overlaps it is squashed, with everything younger. -/
def execStoreAddressResolve (c : Nat) (va : W64) (n : Nat) (acc : Acc) (older : Nat) (s : State) : Out :=
  let k := s.core c
  if !(acc == .store || acc == .atomic) || !(decide (c < 512) && s.tileRuns (c / 2) && k.run && !k.stopped) then turnedAway s
  else match s.specXlate c va acc with
    | none => turnedAway s
    | some (st, _, _) =>
      let hit (e : WinE) : Bool := match e with
        | .access _ _ .load pa size _ _ true => decide (st < pa + size ∧ pa < st + n)
        | _ => false
      match (List.range k.win.length).find? (fun i => decide (older ≤ i) && (k.win[i]?.map hit).getD false) with
      | some i => .next (s.setCore c (k.squashAfter i))
      | none => turnedAway s

/-! ### Walks and marks (R69, R216, R218) -/

/-- R69, R218: a speculative walk for an access: a table line that is not at hand is asked for by
a SPEC request; the result waits in the walk buffer; a fault leaves no trace. -/
def execTableWalk (c : Nat) (x : SpecAt) (acc : Acc) (s : State) : Out :=
  let ⟨pc, va⟩ := x
  let k := s.core c
  if !(s.specRuns c) || k.priv == .M || k.walkB.length ≥ 8 then turnedAway s
  else
    match s.walk c true va acc true with
    | .ok w =>
      if (useCheck k w.e va acc).isSome then turnedAway s
      else .next ((s.setCore c (({ k with walkB := k.walkB ++ [(⟨acc == .fetch, va, s.freeVal, w⟩ : WalkB)] } : Core).enterWin
        (.access pc va acc 0 0 none true false))).tickFree)
    | .miss n =>
      (match s.specSend c n with
       | some s1 => .next (s1.updCore c (·.enterWin (.access pc va acc 0 0 (some n) false false)))
       | none => turnedAway s)
    | .flt _ => turnedAway s

/-- R216: the mark that the instruction at its commit point needs for its access is asked for; a fault is taken precisely. -/
def execMarkSwap (c : Nat) (va : W64) (acc : Acc) (s : State) : Out :=
  if !(s.canIssue c) || (s.core c).priv == .M then turnedAway s else s.markSend c va acc

/-! ### Replies to posted Device stores (R129, R160, R511) -/

/-- The reply is recorded: a lock mismatch with FAR, a discard for poison as poison consumed. -/
def execDeviceStoreReply (c tag : Nat) (s : State) : Out :=
  let k := s.core c
  match s.devRep.find? (fun r => r.core == s.cix c && r.tag == tag), k.posted.find? (fun p => !p.fab && p.tag == tag) with
  | some r, some p =>
    let d := if p.priv = .M then 0 else s.domOf (c / 2)
    let s1 := { s with devRep := s.devRep.erase r }.setCore c { k with posted := k.posted.erase p }
    .next (match r.stat with
      | 1 => s1.lockRecord d (s.cix c) p.priv.code 2 false true r.drop p.lk.key r.lock (wordEa p.ea p.pa r.off) p.pc
      | 2 => s1.record 2 (s.cix c) 2 0x0100 (d + 2 * 2 ^ 12) (p.pa / 64 * 64)
      | _ => s1)
  | _, _ => turnedAway s

end Sys2Proof.Machine
end

