-- ==== Sys2Proof/Decode.lean ====
section
/-! DEFINITION. The words of the opcode table, and the 32-bit instruction words of chapter 04. The table gives no row any bits: the
commands of this block are operations, not words, so no word of the table spells one. An instruction word (R95, R100) names the
command that a core executes for it: `instrOf`. -/

namespace Sys2Proof
open Sys2Proof.Machine

/-- The command that `nbits` bits of value `w` spell by the table: none. -/
def decodeTableWord (_nbits _w : Nat) : Option Instr := none

/-! ### Fields of an instruction word (R95) -/

def fld (w p n : Nat) : BitVec n := BitVec.ofNat n (bits w p n)
def fPr (w : Nat) : BitVec 4 := fld w 28 4
def fD (w : Nat) : BitVec 5 := fld w 17 5
def fA (w : Nat) : BitVec 5 := fld w 12 5
def fB (w : Nat) : BitVec 5 := fld w 7 5
def fImm (w : Nat) : BitVec 12 := fld w 0 12
/-- R104, R124: COND. -/
def condOf (n : Nat) : Cond :=
  match n with | 0 => .eq | 1 => .ne | 2 => .lt | 3 => .ge | 4 => .ltu | 5 => .geu | 6 => .tst | _ => .tstn
/-- R99: CM. -/
def cmOf (n : Nat) : CMode := match n with | 0 => .set | 1 => .and | 2 => .or | _ => .setn
/-- R118: TYPE. -/
def tyOf (n : Nat) : VTy := match n with | 0 => .i8 | 1 => .i16 | 2 => .i32 | 3 => .i64 | 4 => .f16 | 5 => .f32 | _ => .f64

/-! ### One major at a time -/

/-- R101. -/
def intOf (a : Agent) (w : Nat) : Option Instr :=
  let pr := fPr w
  let rd := fD w
  let ra := fA w
  let rb := fB w
  match bits w 0 7 with
  | 0 => some (.add a pr rd ra rb)
  | 1 => some (.sub a pr rd ra rb)
  | 2 => some (.and a pr rd ra rb)
  | 3 => some (.or a pr rd ra rb)
  | 4 => some (.xor a pr rd ra rb)
  | 5 => some (.andn a pr rd ra rb)
  | 6 => some (.orn a pr rd ra rb)
  | 8 => some (.sll a pr rd ra rb)
  | 9 => some (.srl a pr rd ra rb)
  | 0xA => some (.sra a pr rd ra rb)
  | 0xB => some (.ror a pr rd ra rb)
  | 0x10 => some (.addW a pr rd ra rb)
  | 0x11 => some (.subW a pr rd ra rb)
  | 0x18 => some (.sllW a pr rd ra rb)
  | 0x19 => some (.srlW a pr rd ra rb)
  | 0x1A => some (.sraW a pr rd ra rb)
  | 0x20 => some (.mul a pr rd ra rb)
  | 0x21 => some (.mulh a pr rd ra rb)
  | 0x22 => some (.mulhu a pr rd ra rb)
  | 0x24 => some (.div a pr rd ra rb)
  | 0x25 => some (.divu a pr rd ra rb)
  | 0x26 => some (.rem a pr rd ra rb)
  | 0x27 => some (.remu a pr rd ra rb)
  | 0x28 => some (.min a pr rd ra rb)
  | 0x29 => some (.max a pr rd ra rb)
  | 0x2A => some (.minu a pr rd ra rb)
  | 0x2B => some (.maxu a pr rd ra rb)
  | 0x30 => some (.clz a pr rd ra)
  | 0x31 => some (.ctz a pr rd ra)
  | 0x32 => some (.popc a pr rd ra)
  | 0x34 => some (.sextB a pr rd ra)
  | 0x35 => some (.sextH a pr rd ra)
  | 0x36 => some (.sextW a pr rd ra)
  | 0x37 => some (.zextW a pr rd ra)
  | 0x38 => some (.bswap a pr rd ra)
  | _ => none

/-- R103: shifts by an immediate. -/
def shiOf (a : Agent) (w : Nat) : Option Instr :=
  match bits w 0 6 with
  | 0 => some (.slli a (fPr w) (fD w) (fA w) (fld w 6 6))
  | 1 => some (.srli a (fPr w) (fD w) (fA w) (fld w 6 6))
  | 2 => some (.srai a (fPr w) (fD w) (fA w) (fld w 6 6))
  | 3 => some (.rori a (fPr w) (fD w) (fA w) (fld w 6 6))
  | 4 => some (.slliW a (fPr w) (fD w) (fA w) (fld w 6 5))
  | 5 => some (.srliW a (fPr w) (fD w) (fA w) (fld w 6 5))
  | 6 => some (.sraiW a (fPr w) (fD w) (fA w) (fld w 6 5))
  | _ => none

/-- R104: predicate logic. -/
def predOf (c w : Nat) : Option Instr :=
  let pr := fPr w
  let pd : BitVec 3 := fld w 19 3
  let pa : BitVec 3 := fld w 16 3
  let pb : BitVec 3 := fld w 12 3
  match bits w 0 7 with
  | 0 => some (.pand c pr pd pa (w.testBit 15) pb (w.testBit 11))
  | 1 => some (.por c pr pd pa (w.testBit 15) pb (w.testBit 11))
  | 2 => some (.pxor c pr pd pa (w.testBit 15) pb (w.testBit 11))
  | 0x10 => some (.ptog c pr (fD w))
  | 0x11 => some (.gtop c pr (fA w))
  | _ => none

/-- R108: locks and keys. -/
def lockOf (c w : Nat) : Option Instr :=
  match bits w 0 7 with
  | 0 => some (.stlkW c (fPr w) (fD w) (fA w))
  | 1 => some (.stlkL c (fPr w) (fD w) (fA w))
  | 8 => some (.ldlkW c (fPr w) (fD w) (fA w))
  | 9 => some (.ldlkL c (fPr w) (fD w) (fA w))
  | 0x10 => some (.key c (fPr w) (fD w) (fA w) (fB w))
  | 0x11 => some (.keyi c (fPr w) (fD w) (fA w) (fld w 7 4))
  | _ => none

/-- R109: atomics. -/
def atmOf (a : Agent) (w : Nat) : Option Instr :=
  let pr := fPr w
  let rd := fD w
  let ra := fA w
  let rb := fB w
  let o : BitVec 2 := fld w 5 2
  let z := w.testBit 4
  match bits w 0 4 with
  | 0 => some (.atmSwap a pr rd ra rb o z)
  | 1 => some (.atmCas a pr rd ra rb o z)
  | 2 => some (.atmAdd a pr rd ra rb o z)
  | 3 => some (.atmAnd a pr rd ra rb o z)
  | 4 => some (.atmOr a pr rd ra rb o z)
  | 5 => some (.atmXor a pr rd ra rb o z)
  | 6 => some (.atmMin a pr rd ra rb o z)
  | 7 => some (.atmMax a pr rd ra rb o z)
  | 8 => some (.atmMinu a pr rd ra rb o z)
  | 9 => some (.atmMaxu a pr rd ra rb o z)
  | _ => none

/-- R110: fences, SYNC and, on a P-core, cache maintenance and prefetch. -/
def fenceOf (a : Agent) (w : Nat) : Option Instr :=
  match bits w 0 7, a with
  | 0, _ => some (.fenceLl a (fPr w))
  | 1, _ => some (.fenceLs a (fPr w))
  | 2, _ => some (.fenceSl a (fPr w))
  | 3, _ => some (.fenceSs a (fPr w))
  | 4, _ => some (.fence a (fPr w))
  | 5, _ => some (.fenceIo a (fPr w))
  | 8, _ => some (.sync a (fPr w))
  | 9, _ => some (.syncI a (fPr w))
  | 0x10, .core c => some (.clWb c (fPr w) (fA w))
  | 0x11, .core c => some (.clInv c (fPr w) (fA w))
  | 0x12, .core c => some (.clWbi c (fPr w) (fA w))
  | 0x18, .core c => some (.prefR c (fPr w) (fA w))
  | 0x19, .core c => some (.prefW c (fPr w) (fA w))
  | _, _ => none

/-- R115: system instructions. -/
def sysOf (a : Agent) (w : Nat) : Option Instr :=
  match bits w 0 7, a with
  | 0, _ => some (.calls a (fPr w) (fld w 7 10))
  | 1, .core c => some (.callm c (fPr w) (fld w 7 10))
  | 2, _ => some (.brk a (fPr w) (fld w 7 10))
  | 3, _ => some (.tret a (fPr w))
  | 4, _ => some (.waitev a (fPr w))
  | 8, .core c => some (.tlbiVa c (fPr w) (fA w))
  | 9, .core c => some (.tlbiAll c (fPr w))
  | 0xA, .core c => some (.tlbiAllg c (fPr w))
  | 0xC, .core c => some (.tlbiS2 c (fPr w) (fA w))
  | 0xD, .core c => some (.tlbiS2all c (fPr w))
  | _, _ => none

/-- R119: VMISC. -/
def vmiscOf (c w : Nat) : Option Instr :=
  let pr := fPr w
  let d := fD w
  let a := fA w
  let ty := tyOf (bits w 4 3)
  match bits w 0 4 with
  | 0 => some (.vsel c pr d a (fB w) ty)
  | 1 => some (.vbcast c pr d a ty)
  | 2 => some (.vins c pr d a (fB w) ty)
  | 3 => some (.vext c pr d a (fB w) ty)
  | 4 => some (.vperm c pr d a (fB w) ty)
  | 5 => some (.vsum c pr d a ty)
  | 6 => some (.vmaxr c pr d a ty)
  | 7 => some (.vminr c pr d a ty)
  | 8 => some (.vcvtIf c pr d a ty)
  | 9 => some (.vcvtFi c pr d a ty)
  | 10 => some (.vcvtW c pr d a ty)
  | 11 => some (.vcvtN c pr d a ty)
  | 12 => some (.vmov c pr d a ty)
  | 13 => some (.vpred c pr (fld w 17 3) a ty)
  | _ => none

/-- R100: the majors of both profiles. -/
def sharedOf (a : Agent) (w : Nat) : Option Instr :=
  let pr := fPr w
  let rd := fD w
  let ra := fA w
  let im := fImm w
  match bits w 22 6 with
  | 0x01 => intOf a w
  | 0x02 => some (.addi a pr rd ra im)
  | 0x03 => some (.andi a pr rd ra im)
  | 0x04 => some (.ori a pr rd ra im)
  | 0x05 => some (.xori a pr rd ra im)
  | 0x06 => shiOf a w
  | 0x07 => some (.addiW a pr rd ra im)
  | 0x08 => some (.liz a pr rd (w.testBit 16) (fld w 0 16))
  | 0x09 => some (.lin a pr rd (w.testBit 16) (fld w 0 16))
  | 0x0A => some (.lik a pr rd (w.testBit 16) (fld w 0 16))
  | 0x0B => some (.liku a pr rd (w.testBit 16) (fld w 0 16))
  | 0x0C => some (.addpc a pr rd (fld w 0 17))
  | 0x18 => some (.ldB a pr rd ra im)
  | 0x19 => some (.ldBs a pr rd ra im)
  | 0x1A => some (.ldH a pr rd ra im)
  | 0x1B => some (.ldHs a pr rd ra im)
  | 0x1C => some (.ldW a pr rd ra im)
  | 0x1D => some (.ldWs a pr rd ra im)
  | 0x1E => some (.ldD a pr rd ra im)
  | 0x1F => some (.ldx a pr rd ra (fB w) (fld w 0 3) (w.testBit 3) (w.testBit 4))
  | 0x20 => some (.stB a pr rd ra im)
  | 0x21 => some (.stH a pr rd ra im)
  | 0x22 => some (.stW a pr rd ra im)
  | 0x23 => some (.stD a pr rd ra im)
  | 0x24 => some (.stx a pr rd ra (fB w) (fld w 0 2) (w.testBit 3) (w.testBit 4))
  | 0x26 => atmOf a w
  | 0x27 => fenceOf a w
  | 0x33 => sysOf a w
  | 0x34 => some (.crx a pr rd ra im)
  | 0x35 => some (.crset a pr rd ra im)
  | 0x36 => some (.crclr a pr rd ra im)
  | _ => none

/-- R100: the majors of the P-profile alone. -/
def ownOfP (c w : Nat) : Option Instr :=
  let pr := fPr w
  let d := fD w
  let a := fA w
  let im := fImm w
  let cmpi (x : Cond) : Instr := .cmpi c pr (fld w 19 3) (cmOf (bits w 17 2)) a im x
  match bits w 22 6 with
  | 0x0D => some (.fps c pr d a (fB w) (tyOf (bits w 4 3)) (fld w 0 4))
  | 0x10 => some (.cmp c pr (fld w 19 3) (cmOf (bits w 17 2)) a (fB w) (w.testBit 4) (condOf (bits w 0 3)))
  | 0x11 => some (cmpi .eq)
  | 0x12 => some (cmpi .ne)
  | 0x13 => some (cmpi .lt)
  | 0x14 => some (cmpi .ge)
  | 0x15 => some (cmpi .ltu)
  | 0x16 => some (cmpi .geu)
  | 0x17 => predOf c w
  | 0x25 => lockOf c w
  | 0x28 => some (.vld c pr d a im)
  | 0x29 => some (.vst c pr d a im)
  | 0x2A => some (.vint c pr d a (fB w) (tyOf (bits w 4 3)) (fld w 0 4))
  | 0x2B => some (.vfp c pr d a (fB w) (tyOf (bits w 4 3)) (fld w 0 4))
  | 0x2C => some (.vfma c pr d a (fB w) (fld w 2 5) (fld w 0 2))
  | 0x2D => some (.vfms c pr d a (fB w) (fld w 2 5) (fld w 0 2))
  | 0x2E => vmiscOf c w
  | 0x2F => some (.vls c pr d a (w.testBit 11) (fld w 9 2) (fld w 0 9))
  | 0x30 => some (.b c pr (fld w 0 22))
  | 0x31 => some (.bl c pr (fld w 0 22))
  | 0x32 =>
    (match bits w 0 7 with
     | 0 => some (.jr c pr a)
     | 1 => some (.jalr c pr d a)
     | 2 => some (.ret c pr)
     | _ => none)
  | _ => none

/-- R124: the majors of the S-profile alone. -/
def ownOfS (h w : Nat) : Option Instr :=
  let sk := w.testBit 31
  match bits w 22 6 with
  | 0x38 => some (.bc h sk (condOf (bits w 28 3)) (fD w) (fA w) (fImm w))
  | 0x39 => some (.j h sk (fld w 0 22))
  | 0x3A => some (.jl h sk (fld w 0 22))
  | 0x3B => some (.jx h sk (fD w) (fA w))
  | _ => none

/-- R91, R95, R96, R100, R123: the command that instruction word `w` names on its core: none where the word is illegal there. -/
def instrOf (a : Agent) (w : Nat) : Option Instr :=
  match a with
  | .core c => if legalP w then (match sharedOf a w with | some i => some i | none => ownOfP c w) else none
  | .keeper h => if legalS w then (match sharedOf a w with | some i => some i | none => ownOfS h w) else none

end Sys2Proof
end

