-- ==== Sys2Proof/Machine/Alu.lean ====
section
/-! DEFINITION. Integer operations and immediates (R101 to R103), compares and predicate operations (R99, R104). -/

namespace Sys2Proof.Machine
open Sys2Proof

/-- Register, register to register. -/
def op2 (f : W64 → W64 → W64) (a : Agent) (pr : BitVec 4) (rd ra rb : BitVec 5) (s : State) : Out :=
  regOp a pr rd [ra, rb] (fun s => f (s.rgA a ra) (s.rgA a rb)) s
/-- Register to register. -/
def op1 (f : W64 → W64) (a : Agent) (pr : BitVec 4) (rd ra : BitVec 5) (s : State) : Out :=
  regOp a pr rd [ra] (fun s => f (s.rgA a ra)) s
/-- A .W form: the low words, the result sign-extended (R102). -/
def opW (f : W32 → W32 → W32) (x y : W64) : W64 := sext32 (f (lo32 x) (lo32 y))

section
variable (a : Agent) (pr : BitVec 4) (rd ra rb : BitVec 5) (s : State)

def execAdd : Out := op2 (· + ·) a pr rd ra rb s
def execSub : Out := op2 (· - ·) a pr rd ra rb s
def execAnd : Out := op2 (· &&& ·) a pr rd ra rb s
def execOr : Out := op2 (· ||| ·) a pr rd ra rb s
def execXor : Out := op2 (· ^^^ ·) a pr rd ra rb s
def execAndn : Out := op2 (fun x y => x &&& ~~~y) a pr rd ra rb s
def execOrn : Out := op2 (fun x y => x ||| ~~~y) a pr rd ra rb s
def execSll : Out := op2 (fun x y => x <<< (y.toNat % 64)) a pr rd ra rb s
def execSrl : Out := op2 (fun x y => x >>> (y.toNat % 64)) a pr rd ra rb s
def execSra : Out := op2 (fun x y => x.sshiftRight (y.toNat % 64)) a pr rd ra rb s
def execRor : Out := op2 (fun x y => x.rotateRight (y.toNat % 64)) a pr rd ra rb s
def execAddW : Out := op2 (opW (· + ·)) a pr rd ra rb s
def execSubW : Out := op2 (opW (· - ·)) a pr rd ra rb s
def execSllW : Out := op2 (opW (fun x y => x <<< (y.toNat % 32))) a pr rd ra rb s
def execSrlW : Out := op2 (opW (fun x y => x >>> (y.toNat % 32))) a pr rd ra rb s
def execSraW : Out := op2 (opW (fun x y => x.sshiftRight (y.toNat % 32))) a pr rd ra rb s
def execMul : Out := op2 (· * ·) a pr rd ra rb s
def execMulh : Out := op2 mulHS a pr rd ra rb s
def execMulhu : Out := op2 mulHU a pr rd ra rb s
def execDiv : Out := op2 divS a pr rd ra rb s
def execDivu : Out := op2 divU a pr rd ra rb s
def execRem : Out := op2 remS a pr rd ra rb s
def execRemu : Out := op2 remU a pr rd ra rb s
def execMin : Out := op2 minS a pr rd ra rb s
def execMax : Out := op2 maxS a pr rd ra rb s
def execMinu : Out := op2 minU a pr rd ra rb s
def execMaxu : Out := op2 maxU a pr rd ra rb s

def execClz : Out := op1 clz64 a pr rd ra s
def execCtz : Out := op1 ctz64 a pr rd ra s
def execPopc : Out := op1 popc64 a pr rd ra s
def execSextB : Out := op1 (fun x => extend 1 true x.toNat) a pr rd ra s
def execSextH : Out := op1 (fun x => extend 2 true x.toNat) a pr rd ra s
def execSextW : Out := op1 (fun x => extend 4 true x.toNat) a pr rd ra s
def execZextW : Out := op1 (fun x => extend 4 false x.toNat) a pr rd ra s
def execBswap : Out := op1 bswap64 a pr rd ra s
end

section
variable (a : Agent) (pr : BitVec 4) (rd ra : BitVec 5) (imm : BitVec 12) (s : State)

def execAddi : Out := op1 (· + imm.signExtend 64) a pr rd ra s
def execAndi : Out := op1 (· &&& imm.signExtend 64) a pr rd ra s
def execOri : Out := op1 (· ||| imm.signExtend 64) a pr rd ra s
def execXori : Out := op1 (· ^^^ imm.signExtend 64) a pr rd ra s
def execAddiW : Out := op1 (fun x => opW (· + ·) x (imm.signExtend 64)) a pr rd ra s
end

section
variable (a : Agent) (pr : BitVec 4) (rd ra : BitVec 5) (sh : BitVec 6) (s : State)

def execSlli : Out := op1 (· <<< sh.toNat) a pr rd ra s
def execSrli : Out := op1 (· >>> sh.toNat) a pr rd ra s
def execSrai : Out := op1 (fun x => x.sshiftRight sh.toNat) a pr rd ra s
def execRori : Out := op1 (fun x => x.rotateRight sh.toNat) a pr rd ra s
end

section
variable (a : Agent) (pr : BitVec 4) (rd ra : BitVec 5) (sh : BitVec 5) (s : State)

def execSlliW : Out := op1 (fun x => sext32 (lo32 x <<< sh.toNat)) a pr rd ra s
def execSrliW : Out := op1 (fun x => sext32 (lo32 x >>> sh.toNat)) a pr rd ra s
def execSraiW : Out := op1 (fun x => sext32 ((lo32 x).sshiftRight sh.toNat)) a pr rd ra s
end

section
variable (a : Agent) (pr : BitVec 4) (rd : BitVec 5) (h : Bool) (imm : BitVec 16) (s : State)

def execLiz : Out := regOp a pr rd [] (fun _ => wideImm h imm) s
def execLin : Out := regOp a pr rd [] (fun _ => ~~~(wideImm h imm)) s
def execLik : Out := regOp a pr rd [] (fun s => insert16 (s.rgA a rd) (if h then 16 else 0) imm) s
def execLiku : Out := regOp a pr rd [] (fun s => insert16 (s.rgA a rd) (if h then 48 else 32) imm) s
end

def execAddpc (a : Agent) (pr : BitVec 4) (rd : BitVec 5) (imm : BitVec 17) (s : State) : Out :=
  regOp a pr rd [] (fun s => (s.pcA a &&& ~~~(0xFFF : W64)) + ((imm.signExtend 64) <<< 12)) s

/-! ### Predicates -/

/-- R99: write predicate `pd` and go on. -/
def predOp (c : Nat) (pr : BitVec 4) (pd : BitVec 3) (v : Core → Bool) (s : State) : Out :=
  pRun c pr true s (fun s => .next (s.updCore c (fun k => (k.wp pd.toNat (v k)).retire)))

def execCmp (c : Nat) (pr : BitVec 4) (pd : BitVec 3) (cm : CMode) (ra rb : BitVec 5) (w : Bool) (cond : Cond)
    (s : State) : Out :=
  predOp c pr pd (fun k => cm.apply (k.rp pd.toNat) (cond.holdsW w (k.rg ra.toNat) (k.rg rb.toNat))) s

def execCmpi (c : Nat) (pr : BitVec 4) (pd : BitVec 3) (cm : CMode) (ra : BitVec 5) (imm : BitVec 12) (cond : Cond)
    (s : State) : Out :=
  if cond = .tst ∨ cond = .tstn then turnedAway s
  else predOp c pr pd (fun k => cm.apply (k.rp pd.toNat) (cond.holds (k.rg ra.toNat) (imm.signExtend 64))) s

section
variable (c : Nat) (pr : BitVec 4) (pd pa : BitVec 3) (na : Bool) (pb : BitVec 3) (nb : Bool) (s : State)

def execPand : Out := predOp c pr pd (fun k => (k.rp pa.toNat ^^ na) && (k.rp pb.toNat ^^ nb)) s
def execPor : Out := predOp c pr pd (fun k => (k.rp pa.toNat ^^ na) || (k.rp pb.toNat ^^ nb)) s
def execPxor : Out := predOp c pr pd (fun k => (k.rp pa.toNat ^^ na) ^^ (k.rp pb.toNat ^^ nb)) s
end

/-- R104: p7…p0 into bits [7:0]; bit 0 is 1. -/
def execPtog (c : Nat) (pr : BitVec 4) (rd : BitVec 5) (s : State) : Out :=
  pRun c pr true s (fun s => .next (s.updCore c (fun k => (k.wg rd.toNat ((k.p ||| 1).zeroExtend 64)).retire)))

/-- R104: p1 to p7 from bits [7:1]. -/
def execGtop (c : Nat) (pr : BitVec 4) (ra : BitVec 5) (s : State) : Out :=
  pRun c pr true s (fun s =>
    .next (s.updCore c (fun k => { k with p := (k.rg ra.toNat).truncate 8 ||| 1 }.retire)))

end Sys2Proof.Machine
end

