-- ==== Sys2Proof/Machine/Fabric2.lean ====
section
/-! DEFINITION. Fabric requests that arrive for this device (R34, R464 to R468, R471), replies to its own (R467), timeouts
(R472) and the send rings (R469). The operand `i` names the packet by its place among those that have arrived. -/

namespace Sys2Proof.Machine
open Sys2Proof

/-! ### Admission -/

/-- R465: entry `n` admits `k`, whose access covers [a, a + len); `grant`: its permission field. -/
def State.rwinAdmits (s : State) (k : Pkt) (a len : Nat) (grant : Nat → Fld) (n : Nat) : Bool :=
  let sz := s.f (R.FAB_RWIN_LOG2SZ n)
  let base := s.f (R.FAB_RWIN_BASE n) * 4096 / 2 ^ sz * 2 ^ sz
  s.f (R.FAB_RWIN_V n) == 1 && decide (12 ≤ sz ∧ sz ≤ 46) && s.f (R.FAB_RWIN_SRCDEV n) == k.srcDev
    && (if k.d0 then s.f (R.FAB_RWIN_D0 n) == 1 else s.f (R.FAB_RWIN_D0 n) == 0 && s.f (R.FAB_RWIN2_SRCEP n) == k.ep)
    && decide (base ≤ a ∧ a + len ≤ base + 2 ^ sz) && s.f (grant n) == 1

/-- R34, R465: the domain that an admitted request is tagged with; none where no entry admits it or it leaves DRAM. -/
def State.rwinDom (s : State) (k : Pkt) (a len : Nat) (grant : Nat → Fld) : Option Nat :=
  match (List.range 256).find? (s.rwinAdmits k a len grant) with
  | some n => if a + len ≤ dramEnd then some (s.f (R.FAB_RWIN2_DOM n)) else none
  | none => none

/-- The reply to `k`: by loopback where it came from this device (R33), else by its hops in reverse (R461). -/
def State.answer (s : State) (k r : Pkt) : State :=
  let q := k.reply k.nhop r.ty s.ownDev
  s.sendReply { r with hop := q.hop, ptr := 0, nhop := q.nhop, srcDev := s.ownDev, dstDev := k.srcDev, tag := k.tag }
    (k.srcDev == s.ownDev)
/-- ERR with a STATUS of R467. -/
def State.answerErr (s : State) (k : Pkt) (st : Nat) : State := s.answer k { ty := tyERR, op := st }
/-- R467 LOCK: the lowest mismatching word and its lock. -/
def lockPkt (ty st mv : Nat) : Pkt := { ty := ty, op := st, woff := mv / 16, elock := mv % 16 }

/-- R371: payload charged to a local domain. -/
def State.fabCharge (s : State) (dom n : Nat) : State := if dom = 0 then s else s.meter dom mtrFAB n

/-- R468: no request of the same source device arrived before packet `i`. -/
def State.fabFirst (s : State) (i : Nat) (k : Pkt) : Bool :=
  !((s.fabIn.take i).any (fun q => !q.isReply && q.srcDev == k.srcDev))

/-- R283, R468, R513: request `i`, of type `ty`, is served by `f`, which has the state without it. -/
def fabServe (ty i : Nat) (s : State) (f : Pkt → State → Out) : Out :=
  match s.fabIn[i]? with
  | none => turnedAway s
  | some k =>
    let s1 := { s with fabIn := s.fabIn.eraseIdx i }
    if k.ty ≠ ty ∨ !(s.fabFirst i k) then turnedAway s
    else if s.isFatal then .next (s1.answerErr k (if ty = tyMSG then 4 else 2))
    else if !s.meshRuns then turnedAway s
    else f k s1

/-- A request for memory: admitted under R465 and served once its line can be, else refused. -/
def fabMem (ty i : Nat) (s : State) (len : Pkt → Nat) (wr : Bool) (grant : Nat → Fld)
    (f : Pkt → Nat → State → State) : Out :=
  fabServe ty i s (fun k s1 =>
    let n := len k
    let a := k.loc / n * n
    match s1.rwinDom k a n grant with
    | none => .next (((s1.answerErr k 2).incSat R.FAB_INBREF_COUNT).raiseFab 5)
    | some dom => if !(s1.memReady a n dom wr 257) then s.memWait a n dom else .next (f k dom s1))

/-- R155, R459: the check that a request carries. -/
def Pkt.lk (k : Pkt) : LockReq := ⟨k.key, if k.chk = 0 then .off else if k.chk = 2 then .log else .precise, k.key0⟩

/-- R466: RD_LINE: the line with its locks and marks; a Global load's key is compared with the word that LOCAL lies in: the packet
names no width (R459), and the source compares the others with the locks of RD_RSP (notes/assumptions/23.md). -/
def State.rdLine (s : State) (k : Pkt) (dom : Nat) : State :=
  let (s1, d) := s.ncRead (k.loc / 64) dom
  let miss := lockMiss k.lk d.effLocks (k.loc % 64 / 4 * 4) 4
  let mv := match miss with | some (w, l) => w * 16 + l | none => 0
  if miss.isSome ∧ k.lk.mode = .precise then s1.answer k (lockPkt tyERR 1 mv)
  else
    (s1.answer k { lockPkt tyRSP (b2n miss.isSome) mv with data := d.data, dl := d.locks, aux := d.poison.toNat }).fabCharge
      dom 64
def execRdLine (i : Nat) (s : State) : Out := fabMem tyRD i s (fun _ => 64) false R.FAB_RWIN_R (fun k dom s => s.rdLine k dom)

/-- R466: WR_LINE: the whole line under CARRIED. -/
def State.wrLine (s : State) (k : Pkt) (dom : Nat) : State :=
  let (s1, bad) := s.ncWrite (k.loc / 64) dom
    ⟨BitVec.allOnes 64, ⟨k.data, k.dl, BitVec.ofNat 8 k.aux⟩, .carried⟩
  (if bad then s1.answerErr k 3 else s1.answer k { ty := tyACK }).fabCharge dom 64
def execWrLine (i : Nat) (s : State) : Out := fabMem tyWR i s (fun _ => 64) true R.FAB_RWIN_W (fun k dom s => s.wrLine k dom)

/-- R466, R296: LKONLY: the locks of one word or of the line; poison refuses it whole (R165). -/
def State.wrLocks (s : State) (k : Pkt) (dom : Nat) : State :=
  let L := k.loc / 64
  let (off, n) := if k.sz then (0, 64) else (k.loc % 64 / 4 * 4, 4)
  let v := k.data.toNat % 2 ^ 64 / 2 ^ (4 * (off / 4))
  let s1 := (s.count L).recall L
  let put (d : LineD) (go : LineD → State) : State × Bool :=
    if spanPoison d.poison off n then (s1, true) else (go { d with locks := writeLocks d.locks off n v }, false)
  let (s2, bad) := match s1.llcE L, s1.chanQueued L with
    | some e, _ => put e.d (fun d => s1.llcPut L dom d true)
    | none, some q => put q (fun d => s1.toChan L dom (.homeWr d none))
    | none, none =>
      let (s2, st, _) := s1.devStore L dom off n (BitVec.ofNat 512 v) true lkOff
      (s2, st == 2)
  (if bad then s2.answerErr k 3 else s2.answer k { ty := tyACK }).fabCharge dom 8

/-- R160, R466: WR_PART: the bytes of its mask under PRESERVE, its key compared here. -/
def State.wrPart (s : State) (k : Pkt) (dom : Nat) : State :=
  let L := k.loc / 64
  let off := k.loc % 64 / 8 * 8
  let m := k.aux % 256
  let lo := ((List.range 8).find? m.testBit).getD 0
  let hi := (((List.range 8).reverse.find? m.testBit).getD 0) + 1
  let d := s.coherent L
  let miss := lockMiss k.lk d.effLocks (off + lo) (hi - lo)
  let mv := match miss with | some (w, l) => w * 16 + l | none => 0
  if miss.isSome ∧ k.lk.mode = .precise then s.answer k (lockPkt tyERR 1 mv)
  else
    let (s1, bad) := s.ncWrite L dom
      ⟨BitVec.ofNat 64 m <<< off, ⟨(k.data &&& BitVec.ofNat 512 (2 ^ 64 - 1)) <<< (8 * off), 0, 0⟩, .preserve⟩
    (if bad then s1.answerErr k 3 else s1.answer k (lockPkt tyACK (b2n miss.isSome) mv)).fabCharge dom (popCount m 8)
def execWrPart (i : Nat) (s : State) : Out :=
  fabMem tyPART i s (fun k => if k.lkonly then (if k.sz then 64 else 4) else 8) true R.FAB_RWIN_W
    (fun k dom s => if k.lkonly then s.wrLocks k dom else s.wrPart k dom)

/-- R188, R466: ATOMIC at the home. An OP that R109 does not give is a bad packet. -/
def State.fabAtomic (s : State) (k : Pkt) (dom : Nat) : State :=
  let n := if k.sz then 8 else 4
  match AtomOp.of k.op with
  | none => s.badPkt
  | some op =>
    let w := k.data.toNat
    let a : AtomReq := ⟨k.loc / n * n, op, n, BitVec.ofNat 64 w, BitVec.ofNat 64 (w / 2 ^ 64), k.lk, 0⟩
    let (s1, st, old, mv) := s.homeAtomic (k.loc / 64) dom a
    match st with
    | 1 => s1.answer k (lockPkt tyERR 1 mv)
    | 2 => s1.answerErr k 3
    | _ => (s1.answer k { lockPkt tyARSP (b2n (st == 3)) mv with data := BitVec.ofNat 512 old }).fabCharge dom (2 * n)
def execFabAtomic (i : Nat) (s : State) : Out :=
  fabMem tyATOM i s (fun k => if k.sz then 8 else 4) true R.FAB_RWIN_A (fun k dom s => s.fabAtomic k dom)

/-! ### Messages (R469, R471) -/

/-- R228: the local DRAM address of a DPA of domain `d`. -/
def State.dpaLoc (s : State) (d dpa : Nat) (wr : Bool) : Option Nat :=
  match s.engXlate d dpa with
  | .inr x => if (if wr then x.w else x.r) && x.mt == .normal && decide (x.out dpa < dramEnd) then some (x.out dpa) else none
  | .inl _ => none

/-- R471: the 64 bytes of receive entry `n`. -/
def msgEntry (k : Pkt) (n lg : Nat) : List Nat :=
  let len := min 48 k.aux
  leBytes 4 k.srcDev ++ leBytes 2 k.ep2 ++ [len, 1 - n / 2 ^ lg % 2]
    ++ leBytes 8 (k.data.toNat / 2 ^ 384) ++ leBytes 48 (k.data.toNat % 2 ^ 384)

/-- R471: a message is delivered to endpoint `k.ep`, or refused. -/
def execMsg (i : Nat) (s : State) : Out :=
  fabServe tyMSG i s (fun k s1 =>
    let e := k.ep
    let own := s1.f (R.FAB_EP_OWNER e)
    let lg := min 16 (max 6 (s1.f (R.FAB_EP_LOG2N e)))
    let base := s1.f (R.FAB_EP2_RXBASE e) * 4096
    let refuse (s : State) : Out := .next (s.answerErr k 4)
    if s1.f (R.FAB_EP_EN e) = 0 ∨ own = 0 then refuse s1
    else
      match s1.dpaLoc own base true with
      | none => refuse s1
      | some hp =>
        if !(s1.memReady hp 8 own true 257) then s.memWait hp 8 own
        else
          let (s2, hd, bad) := s1.memRead own hp 8
          let head := leAt hd 0 4
          if bad then refuse s2
          else if (head + 2 ^ 32 - leAt hd 4 4) % 2 ^ 32 ≥ 2 ^ lg then .next ((s2.answerErr k 5).raiseFab 6)
          else
            match s2.dpaLoc own (base + 64 + head % 2 ^ lg * 64) true with
            | none => refuse s2
            | some ep =>
              if !(s1.memReady ep 64 own true 257) then s.memWait ep 64 own
              else
                let (s3, b1) := s2.memWrite own ep (msgEntry k head lg) .clear
                let (s4, b2) := s3.memWrite own hp (leBytes 4 (head + 1)) .clear
                if b1 || b2 then refuse s4
                else
                  let s5 := (s4.answer k { ty := tyACK }).fabCharge own (min 48 k.aux)
                  let v := s5.f (R.FAB_EP_EVT e)
                  .next (if s5.f (R.FAB_EP_EVT_EN e) = 1 ∧ 1024 ≤ v ∧ s5.f (R.EVT_OWN_OWNER v) = own ∧ s5.f (R.EVT_CFG_RMT v) = 1
                    then s5.trigger v else s5))

/-- R469: a translation failure halts send ring `n`. -/
def State.sqHalt (s : State) (n err : Nat) : State := s.setFs [(R.SQ_STAT_STATE n, rgHALT), (R.SQ_STAT_ERR n, err)]
def State.sqAddr (s : State) (n idx : Nat) : Nat := s.f (R.FAB_SQ_BASE_BASE n) * 4096 + idx % s.sqN n * 64

/-- R469: STATUS is written, then SQ_DONE advances; none where the write must wait. -/
def State.sqStatus (s : State) (n idx st : Nat) : Option State :=
  let d := s.f (R.FAB_SQ_CFG_DOMAIN n)
  match s.dpaLoc d (s.sqAddr n idx + 7) true with
  | none => some (s.sqHalt n csTRANS)
  | some pa =>
    if !(s.memReady pa 1 d true 257) then none
    else some ((s.memWrite d pa [st] .clear).1.incWrap (R.SQ_DONE_DONE n))

/-- R469: the next entry of send ring `n` is read and sent; at most 8 are in flight. -/
def execSendRingFetch (n : Nat) (s : State) : Out :=
  let d := s.f (R.FAB_SQ_CFG_DOMAIN n)
  let cons := s.f (R.SQ_CONS_CONS n)
  let out := s.ftags.countP (fun t => match t.orig with | .ring m _ => m == n | _ => false)
  if !(decide (n < 96 ∧ out < 8) && s.f (R.FAB_SQ_CFG_EN n) == 1 && s.f (R.SQ_STAT_STATE n) == rgRUN
      && s.f (R.SQ_DB_PROD n) != cons && !s.isFatal) then turnedAway s
  else
    match s.dpaLoc d (s.sqAddr n cons) false with
    | none => .next (s.sqHalt n csTRANS)
    | some pa =>
      if !(s.memReady pa 64 d false 257) then s.memWait pa 64 d
      else
        let (s1, b, bad) := s.memRead d pa 64
        if bad then .next (s1.sqHalt n csPOISON)
        else
          let ep := s.f (R.FAB_SQ_CFG_SRCEP n)
          let len := min 48 (leAt b 6 1)
          let s2 := s1.incWrap (R.SQ_CONS_CONS n)
          let fail (st : Nat) : Out := match s2.sqStatus n cons st with | some t => .next t | none => turnedAway s
          if s.f (R.FAB_EP_OWNER ep) ≠ d then fail 6
          else
            let pay := (leAt b 16 48) % 2 ^ (8 * len)
            match s2.fabSend (.ring n cons) d (leAt b 0 4 % 2 ^ 18) 0 len
                { ty := tyMSG, ep := leAt b 4 2 % 2 ^ 12, ep2 := ep, aux := len,
                  data := BitVec.ofNat 512 (pay + leAt b 8 8 * 2 ^ 384) } with
            | .inl t => .next t
            | .inr (.fault c) => fail (if c = 0x14 then 4 else 2)
            | .inr .wait => turnedAway s

/-! ### Replies (R467) -/

/-- How a request of this device ended. -/
structure FEnd where
  /-- STATUS of R467; 16 timeout -/
  st   : Nat := 0
  /-- performed, though a lock mismatched (R159) -/
  done : Bool := false
  woff : Nat := 0
  lock : Nat := 0
  data : Nat := 0
  line : Option LineD := none

/-- R467: the trap code of a load or atomic that failed. -/
def FEnd.code (x : FEnd) : Nat := match x.st with | 6 => 0x14 | 16 => 0x12 | _ => 0x13

/-- R467, last row's count: a posted write has failed. -/
def State.postFail (s : State) : State := (s.incSat R.FAB_POSTERR_COUNT).raiseFab 3

/-- A command or a REARM is emptying tile `t`'s caches (R363, R345). -/
def State.beingEmptied (s : State) (t : Nat) : Bool :=
  s.rearm.contains t || s.cmds.any (fun e => match e.2 with | some c => c.aux.contains t && c.d.op ≠ 0x20 | none => false)

/-- The load or atomic that core `c` waits for ends. -/
def State.fabCoreEnd (s : State) (c dom : Nat) (x : FEnd) : State :=
  let k := s.core c
  match k.wait with
  | none => s
  | some w =>
    if w.net ≠ 1 then s
    else
      let s := s.setCore c { k with wait := none }
      if x.st = 1 ∧ !x.done then s.trap c (lockCause w.acc w.ea w.pa x.woff x.lock w.lk.key)
      else if x.st = 3 then s.machineCheck c (poisonCause w.acc w.ea w.pa)
      else if x.st > 1 then s.trap c { code := x.code, acc := w.acc, val := w.ea }
      else
        match x.line, w.acc, w.dst with
        | some d, .load, _ => (s.fabCharge dom 64).loadDone c w d
        | _, _, .g rd n _ => (s.fabCharge dom w.size).atomOut c w.ea w.pa rd n w.lk (if x.st = 1 then 3 else 0) x.data
            (x.woff * 16 + x.lock)
        | _, _, _ => s

/-- A GlobalCached fill for core `c` ends: the tile takes the line; a waiting load ends, a waiting store goes on. None where no
way of the set can take it now. -/
def State.fabFillEnd (s : State) (c dom key : Nat) (x : FEnd) : Option State :=
  let t := c / 2
  let mine (w : Wait) : Bool := w.net == 3 && lineKey true w.pa == key
  let waits := ((s.core c).wait).filter mine
  let free (s : State) : State := if waits.isSome then s.updCore c (fun k => { k with wait := none }) else s
  match x.line with
  | none =>
    some (match waits with
      | some w => (free s).trap c { code := x.code, acc := w.acc, val := w.ea }
      | none => s)
  | some d =>
    let s := s.fabCharge dom 64
    let put : Option State := if (s.l2 t key).st.valid then some s else s.l2Install t key c .E d
    put.map (fun s =>
      match waits with
      | some w => if w.acc = .load then (free s).loadDone c w (s.l2 t key).d else free s
      | none => s)

/-- A posted Global store of core `c` ends (R160, R467). -/
def State.fabPostEnd (s : State) (c : Nat) (tag : Nat) (x : FEnd) : State :=
  let k := s.core c
  match k.posted.find? (fun p => p.fab && p.tag == tag) with
  | none => if x.st = 0 then s else s.postFail
  | some p =>
    let s1 := s.setCore c { k with posted := k.posted.erase p }
    if x.st = 0 then s1
    else if x.st = 1 then
      (s1.lockRecord (if p.priv = .M then 0 else s.domOf (c / 2)) (s.cix c) p.priv.code 2 false true (!x.done) p.lk.key x.lock
        (wordEa p.ea p.pa x.woff) p.pc).raiseFab 3
    else s1.postFail

/-- R467: message STATUS of an end. -/
def FEnd.msg (x : FEnd) : Nat := match x.st with | 0 => 1 | 5 => 3 | 6 => 4 | 16 => 5 | _ => 2

/-- A request of this device ends; none where what follows must wait. -/
def State.fabEnd (s : State) (t : FTag) (x : FEnd) : Option State :=
  let s := { s with ftags := s.ftags.erase t }
  let s := s.tagsRegs
  match t.orig with
  | .core c => some (s.fabCoreEnd c t.dom x)
  | .post c => some (s.fabPostEnd c t.tag x)
  | .fill c => s.fabFillEnd c t.dom (2 ^ 60 + t.dev * 2 ^ 40 + t.line) x
  | .wb n =>
    some (if x.st = 0 then s
      else
        let s1 := s.postFail
        if s.beingEmptied n then s1.deferred 1 n 0x0200 t.dom ((t.dev * 2 ^ 40 + t.line) * 64) else s1)
  | .job h => some { s with jobRx := s.jobRx ++ [(h, x.line, x.st)] }
  | .ring n idx => s.sqStatus n idx x.msg

/-- R472: reply `i`, of type `ty`, meets its tag; one for a tag in quarantine is late; any other is discarded. -/
def fabReply (ty i : Nat) (s : State) (f : Pkt → FEnd) : Out :=
  match s.fabIn[i]? with
  | none => turnedAway s
  | some k =>
    let s1 := { s with fabIn := s.fabIn.eraseIdx i }
    if k.ty ≠ ty then turnedAway s
    else if s.isFatal then .next s1
    else
      match s1.ftags.find? (·.tag == k.tag) with
      | some t =>
        let s2 := if ty = tyRUN then (s1.incSat R.FAB_RUNAV_COUNT).raiseFab 2 else s1
        (match s2.fabEnd t (f k) with | some s3 => .next s3 | none => turnedAway s)
      | none =>
        .next (if s1.fquar.any (·.1 == k.tag) then (s1.incSat R.FAB_LATE_COUNT).raiseFab 1 else s1)

def execRdRsp (i : Nat) (s : State) : Out :=
  fabReply tyRSP i s (fun k => { line := some ⟨k.data, k.dl, BitVec.ofNat 8 k.aux⟩ })
def execAck (i : Nat) (s : State) : Out :=
  fabReply tyACK i s (fun k => { st := k.op % 2, done := true, woff := k.woff, lock := k.elock })
def execAtomRsp (i : Nat) (s : State) : Out :=
  fabReply tyARSP i s (fun k => { st := k.op % 2, done := true, woff := k.woff, lock := k.elock, data := k.data.toNat % 2 ^ 64 })
def execErr (i : Nat) (s : State) : Out :=
  fabReply tyERR i s (fun k => { st := if k.op = 0 then 2 else k.op, woff := k.woff, lock := k.elock })
def execRouteUnavail (i : Nat) (s : State) : Out := fabReply tyRUN i s (fun _ => { st := 6 })

/-- R472: a request expires. -/
def execRemoteTimeout (tag : Nat) (s : State) : Out :=
  match s.ftags.find? (·.tag == tag) with
  | none => turnedAway s
  | some t =>
    if !(decide (t.till ≤ s.ns)) then turnedAway s
    else
      let s1 := { s with fquar := s.fquar ++ [(tag, s.ns + 2 * s.rto)] }
      let s2 := (s1.incSat R.FAB_TMO_COUNT).raiseFab 0
      match s2.fabEnd t { st := 16 } with
      | some s3 => .next s3
      | none => turnedAway s

/-- R472: a quarantined tag becomes free after 2T. -/
def execRemoteTagRelease (tag : Nat) (s : State) : Out :=
  match s.fquar.find? (·.1 == tag) with
  | some q => whenOk (decide (q.2 ≤ s.ns)) s ({ s with fquar := s.fquar.erase q }).tagsRegs
  | none => turnedAway s

end Sys2Proof.Machine
end

