-- ==== Sys2Proof/Machine/Endpoint.lean ====
section
/-! DEFINITION. The host endpoint's inbound side, its link, configuration space, containment and function-level reset (R396
to R405, R411 to R421). The layouts of configuration space that the spec does not print are those of the PCI Express
specification that R396 names. -/

namespace Sys2Proof.Machine
open Sys2Proof

/-- The link carries TLPs. -/
def State.linkUp (s : State) : Bool := s.f R.HEP_STAT_LINKUP == 1 && !s.pins.inPor

/-! ### How outbound requests end (R409, R431) -/

/-- A read of a ring has ended: with data, or without (R431). -/
def State.ringRead (s : State) (r : Nat) (bs : Option (List Nat)) : State :=
  if (s.cmd r).isSome then s.migData r bs
  else match bs with
    | some b => s.gotDesc r b
    | none => s.descFail r

/-- Keeper `h`'s host access, where it still waits for it. -/
def State.keepHost (s : State) (h : Nat) (good : KWait → State) : State :=
  let k := s.keeper h
  match k.wait with
  | some w => if regionOf w.pa = .host then good w else s
  | none =>
    match k.late.find? (fun w => regionOf w.pa == .host) with
    | some w =>
      let n := min ((k.cr0 0xA03).toNat + 1) 0xFFFF_FFFF
      s.setKeeper h ({ k with late := k.late.erase w }.setCr 0xA03 (BitVec.ofNat 64 n))
    | none => s

/-- R409: a read ends with `sub`, and its originator learns it. -/
def State.readFails (s : State) (q : OutReq) (sub : Nat) : State :=
  let s1 := s.outErr sub
  match q.orig with
  | .core c =>
    (match (s1.core c).wait with
     | some w =>
       if w.net = 0 then (s1.updCore c (fun k => { k with wait := none })).trap c (hostCause w.acc w.ea sub) else s1
     | none => s1)
  | .keeper h => s1.keepHost h (fun w =>
      (s1.setWait h none).kTrap h { code := 0x15, acc := w.acc.code, sub := sub, val := BitVec.ofNat 64 w.pa })
  | .ring r => s1.ringRead r none
  | _ => s1

/-- A read ends with its data. -/
def State.readDone (s : State) (q : OutReq) (bs : List Nat) : State :=
  match q.orig with
  | .core c =>
    (match (s.core c).wait with
     | some w => if w.net = 0 then s.updCore c (fun k => ({ k with wait := none }.deliver w.dst (ofLe bs)).retire) else s
     | none => s)
  | .keeper h => s.keepHost h (fun w => (s.setWait h none).kDeliver h w.rd w.size w.sx (ofLe bs))
  | .ring r => s.ringRead r (some bs)
  | _ => s

/-- R409, R431: a request that has not been transmitted ends with `sub`; a completion is held again. -/
def State.queuedFails (s : State) (q : OutReq) (sub : Nat) : State :=
  if !q.write then s.readFails q sub
  else
    let s1 := s.outErr sub
    match q.orig with
    | .ring r =>
      if q.len = 16 ∧ (Tbl.get none s1.heldC r).isNone then
        (s1.setF (R.CMD_CQ_HEAD_HEAD r) (s1.f (R.CMD_CQ_HEAD_HEAD r) + 2 ^ 32 - 1)).hold r
          (some [leAt q.data 0 4, leAt q.data 4 1, leAt q.data 6 2, leAt q.data 8 8, 0])
      else s1
    | _ => s1

/-- R414, R417, R418: everything in the outbound queue ends with `sub`. -/
def State.endQueue (s : State) (sub : Nat) : State :=
  s.outq.reverse.foldl (fun (s : State) q => s.queuedFails q sub) { s with outq := [] }
/-- R414, R418: every transmitted read is abandoned with `sub`, its tag quarantined for 2T (R412). -/
def State.endReads (s : State) (sub : Nat) : State :=
  (s.htags.foldl (fun (s : State) (t : HTag) => s.readFails t.req sub)
    { s with htags := [], hquar := s.hquar ++ s.htags.map (fun (t : HTag) => (t.tag, s.ns + 2 * s.cto)) }).hepTags

/-! ### Replies to outbound reads (R411, R412) -/

/-- The completion of a read: `status` 0 successful, 1 Unsupported Request, 2 Completer Abort, 3 successful with EP set. -/
def execHostCompletion (tag status : Nat) (data : List (BitVec 8)) (s : State) : Out :=
  if !s.linkUp then turnedAway s
  else
    match s.htags.find? (·.tag == tag) with
    | some t =>
      if status = 0 ∧ data.length ≠ t.req.len then turnedAway s
      else
        let s1 : State := { s with htags := s.htags.erase t }
        let s2 := if status = 0 then s1.readDone t.req (data.map (·.toNat))
          else (if status = 3 then s1.aerAdvisory 12 else s1).readFails t.req 2
        .next s2.pumpHost
    | none => .next ((if s.hquar.any (·.1 == tag) then s.incSat R.HEP_LATE_COUNT else s).aerAdvisory 16)

/-- R411. -/
def execCompletionTimeout (tag : Nat) (s : State) : Out :=
  match s.htags.find? (·.tag == tag) with
  | some t =>
    whenOk (decide (t.till ≤ s.ns)) s
      ((({ s with htags := s.htags.erase t, hquar := s.hquar ++ [(tag, s.ns + 2 * s.cto)] }.incSat
        R.HEP_TMO_COUNT).aerAdvisory 14).readFails t.req 1).pumpHost
  | none => turnedAway s

/-- R412. -/
def execTagQuarantineEnd (tag : Nat) (s : State) : Out :=
  match s.hquar.find? (fun q => q.1 == tag && decide (q.2 ≤ s.ns)) with
  | some q => .next { s with hquar := s.hquar.erase q }.pumpHost
  | none => turnedAway s

/-! ### Containment (R413 to R416) -/

/-- The rings in state `x`. -/
def State.ringsIn (s : State) (x : Nat) : List Nat := (List.range 64).filter (fun r => s.ringState r == x)

/-- R414: containment is entered with `cause`. -/
def State.contain (s : State) (cause : Nat) : State :=
  let s1 := if s.f R.HEP_DV_STAT_STATE = 0 then s.setF R.HEP_DV_STAT_CAUSE cause else s
  let s2 := ((s1.setF R.HEP_DV_STAT_STATE 1).incSat R.HEP_DV_STAT_COUNT).setF R.HEP_DV_TIME_NS s.time
  let s3 := (s2.ringsIn rgRUN ++ s2.ringsIn rgBME).foldl (fun (s : State) r => s.ringHeld r rgCONT) s2
  let s4 := s.hepChange ((s3.endQueue 0).endReads 0)
  (s4.raise 1002 0).record 7 0 3 0x0500 cause (s4.f R.HEP_DV_TIME_NS)

/-- R413: AER's uncorrectable status bit for an error that contains. -/
def State.aerSet (s : State) (bit : Nat) : State := s.cfgSet 0x104 (setBit (s.cfgGet 0x104) bit)
def contained (cause bit : Nat) (s : State) : Out := whenOk s.linkUp s ((s.aerSet bit).contain cause)

def execDataLinkProtocolError (s : State) : Out := contained 2 4 s
def execFlowControlProtocolError (s : State) : Out := contained 3 13 s
def execReceiverOverflow (s : State) : Out := contained 4 17 s
def execMalformedTlp (s : State) : Out := contained 5 18 s
def execUncorrectableInternalError (s : State) : Out := whenOk (!s.pins.inPor) s ((s.aerSet 22).contain 6)

/-- R416: a write of 1 to HEP_DV_CTL.RELEASE. -/
def State.release (s : State) : State :=
  if s.f R.HEP_DV_STAT_STATE ≠ 1 then s
  else if s.f R.HEP_DV_STAT_LINKUP = 0 ∨ s.inFlr then s.setF R.HEP_DV_STAT_RELERR 1
  else s.hepChange (s.setF R.HEP_DV_STAT_STATE 2)
def execRelease (s : State) : Out := whenOk (!s.pins.inPor) s s.release

/-- R416 steps 3 and 4: the state has reached every tile and keeper. -/
def execReleaseDone (s : State) : Out :=
  let s1 : State := { s.setF R.HEP_DV_STAT_STATE 0 with hepWas := s.hepTold }
  whenOk (s.f R.HEP_DV_STAT_STATE == 2) s
    ((s1.mtrGo).record 7 0 0 0x0501 (s.f R.HEP_DV_STAT_COUNT) s.time)

/-! ### Bus Master Enable and D3hot (R400, R417) -/

/-- Requests may be issued as far as Bus Master Enable and the power state go. -/
def State.master (s : State) : Bool := s.bme && !s.d3

/-- R417, R426: configuration space has changed from that of `s` to that of `s1`. -/
def State.masterChange (s s1 : State) : State :=
  let s2 :=
    if s.master && !s1.master then ((s1.ringsIn rgRUN).foldl (fun (s : State) r => s.ringHeld r rgBME) s1).endQueue 3
    else if !s.master && s1.master then
      ((s1.ringsIn rgBME).foldl (fun (s : State) r => (s.setRing r rgRUN).releaseHeld r) s1).mtrGo
    else s1
  let s3 := if s.bme && !s1.bme then s2.raise 1002 1 else s2
  s.hepChange s3

/-- A new value of Command, or of the power state. -/
def State.setBme (s : State) (b : Bool) : State :=
  s.masterChange (s.cfgSet 0x04 (if b then setBit (s.cfgGet 0x04) 2 else clrBit (s.cfgGet 0x04) 2))
def execBusMasterEnableClear (s : State) : Out := whenOk (s.linkUp && s.bme) s (s.setBme false)
def execBusMasterEnableSet (s : State) : Out := whenOk (s.linkUp && !s.bme && !s.inFlr) s (s.setBme true)
def execD3hotEntry (s : State) : Out :=
  whenOk (s.linkUp && !s.d3 && !s.inFlr) s (s.masterChange (s.cfgSet 0x84 (s.cfgGet 0x84 ||| 3)))

/-! ### Function-level reset (R418, R419, R403, R423, R431, R378) -/

/-- The registers of ring `r` return to their reset values; its command runs on, its completion will be discarded. -/
def State.ringReset (s : State) (r : Nat) : State :=
  let s2 := (s.dropHeld r).dropReads r
  let s3 := s2.setFs [(R.CMD_RING_BASE_BASE r, 0), (R.CMD_CQ_BASE_BASE r, 0), (R.CMD_RING_CFG_LOG2N r, 6),
    (R.CMD_RING_CFG_EN r, 0), (R.CMD_RING_DB_PROD r, 0), (R.CMD_RING_CONS_CONS r, 0), (R.CMD_CQ_HEAD_HEAD r, 0),
    (R.CMD_CQ_TAIL_TAIL r, 0), (R.CMD_RING_STAT_STATE r, 0), (R.CMD_RING_STAT_ERR r, 0), (R.CMD_RING_STAT_BADDB r, 0),
    (R.CMD_RING_STAT_BADCFG r, 0), (R.CMD_RING_STAT_HOLD r, 0)]
  match s3.cmd r with
  | some c => s3.setCmd r (some { c with orphan := true })
  | none => s3

/-- R418 steps 2 to 4. -/
def State.flrBody (s : State) : State :=
  let s1 := (s.endQueue 2).endReads 2
  -- step 3: the sticky AER fields stay
  let s2 : State := { s1 with cfg := s1.cfg.filter (fun e => decide (0x104 ≤ e.1 ∧ e.1 < 0x148)), msix := [] }
  let s3 := (List.range 256).foldl (fun (s : State) w =>
    ((s.setWordOf (iwinFlds w) 0).setWordOf (owinFlds w) 0)) s2
  let s4 := (List.range 64).foldl (fun (s : State) r => s.ringReset r) s3
  let s5 : State := { s4 with staged := s4.staged.filter (fun e => !(decide (0x21_0000 ≤ e.1 ∧ e.1 < 0x22_0800))) }
  s.hepChange (s5.setFs [(R.MTR_CTL_EN, 0), (R.MTR_RING_HEAD_HEAD, 0), (R.MTR_RING_TAIL_TAIL, 0)])

/-- R418 from the configuration write on, to step 4. -/
def State.flrStart (s : State) : State := if s.inFlr then s else (s.setF R.HEP_STAT_FLR 1).flrBody
def execFunctionLevelReset (s : State) : Out := whenOk (s.linkUp && !s.inFlr) s s.flrStart

/-- R418 step 5. -/
def State.flrEnd (s : State) : State := ((s.setF R.HEP_STAT_FLR 0).raise 1002 2).mtrGo
def execFlrDone (s : State) : Out := whenOk s.inFlr s s.flrEnd

/-! ### The link -/

/-- R413 cause 1: `kind` 0 surprise link-down, 1 Link Disable, 2 Hot Reset, 3 PERST_N; the last two go on with R418 steps 2 to 5
(R419). What SPEED and WIDTH show on a link that is down is not stated. -/
def execDlActiveLoss (kind : Nat) (s : State) : Out :=
  let s1 := (s.tickFree.tickFree.setFs [(R.HEP_STAT_LINKUP, 0), (R.HEP_DV_STAT_LINKUP, 0), (R.HEP_STAT_SPEED, s.freeVal),
    (R.HEP_STAT_WIDTH, s.tickFree.freeVal)]).contain 1
  let reset := kind = 2 ∨ kind = 3
  whenOk (decide (kind < 4) && !s.pins.inPor && (s.linkUp || kind == 3)) s
    (if reset ∧ !s.inFlr then s1.flrBody.flrEnd else s1)

/-- R396, R416, R420: the link trains to speed code `speed` (1 to 6) and `width` lanes. -/
def execDlActive (speed width : Nat) (s : State) : Out :=
  whenOk (s.f R.HEP_STAT_LINKUP == 0 && !s.pins.inPor && decide (1 ≤ speed ∧ speed ≤ 6) && [1, 2, 4, 8, 16].contains width) s
    (s.setFs [(R.HEP_STAT_LINKUP, 1), (R.HEP_DV_STAT_LINKUP, 1), (R.HEP_STAT_SPEED, speed), (R.HEP_STAT_WIDTH, width)])

/-! ### Window registers and counters -/

def execHepIwinWrite (w o size : Nat) (v : W64) (s : State) : Out :=
  whenOk (decide (w < 256) && ((size == 8 && o == 0) || (size == 4 && (o == 0 || o == 4)))) s (s.winWrite false w o size v.toNat)
def execHepOwinWrite (w o size : Nat) (v : W64) (s : State) : Out :=
  whenOk (decide (w < 256) && ((size == 8 && o == 0) || (size == 4 && (o == 0 || o == 4)))) s (s.winWrite true w o size v.toNat)
def execHepClr (s : State) : Out := .next s.hepClr

/-! ### Inbound requests (R401 to R405) -/

def State.cpl (s : State) (t : TlpBody) : State := s.transmit t
/-- An Unsupported Request completion, logged as advisory (R413). -/
def State.cplUr (s : State) : State := (s.cpl (.cpl [] false true false)).aerAdvisory 20

/-- R405, the first three rows, and R513: an inbound request is turned down; `ok`: the fatal state serves it. -/
def State.inbRefused (s : State) (ok : Bool) : Bool :=
  s.contained || s.inFlr || !s.mse || s.d3 || (s.isFatal && !ok)
def State.inbRefuse (s : State) (wr : Bool) : State :=
  let s1 := if s.contained then s.incSat (if wr then R.HEP_DV_DROP_COUNT else R.HEP_DV_UR_COUNT) else s
  if wr then s1 else s1.cplUr

/-- R402: what a BAR0 offset meets. -/
inductive Bar0At where
  | ctl (off : Nat)
  | msix (o : Nat)
  | pba (o : Nat)
  | none
  deriving DecidableEq, Repr

def bar0At (o : Nat) : Bar0At :=
  if o < 0xB0_0000 then .ctl o
  else if o < 0xB0_8000 then .msix (o - 0xB0_0000)
  else if o < 0xB0_8100 then .pba (o - 0xB0_8000)
  else if o < 0xC0_0000 then .none
  else if o < 0xD8_0000 then .ctl (memBase 0 + (o - 0xC0_0000))
  else if o < 0xE8_0000 then .ctl (portBase 0 + (o - 0xD8_0000))
  else if o < 0x100_0000 then .none
  else if o < 0x200_0000 then .ctl (tileBase 0 + (o - 0x100_0000))
  else .ctl (hiveBase 0 + (o - 0x200_0000))

/-- R403: the dword at byte `o` of the MSI-X table. -/
def State.msixWord (s : State) (o : Nat) : Nat :=
  let e := Tbl.get {} s.msix (o / 16)
  match o / 4 % 4 with
  | 0 => e.addr
  | 1 => e.upper
  | 2 => e.data
  | _ => b2n e.mask
def State.msixPut (s : State) (o v : Nat) : State :=
  let e := Tbl.get {} s.msix (o / 16)
  let e := match o / 4 % 4 with
    | 0 => { e with addr := v / 4 * 4 }
    | 1 => { e with upper := v }
    | 2 => { e with data := v }
    | _ => { e with mask := v.testBit 0 }
  { s with msix := Tbl.set {} s.msix (o / 16) e }

/-- R403: Pending Bit `v`. -/
def State.pendBit (s : State) (v : Nat) : Bool :=
  !(s.msixOpen v) && s.pendSrcs.any (fun n => s.evtEn n && s.f (R.EVT_CFG_TKIND n) == 3 && s.f (R.EVT_CFG_TARGET n) == v)
def State.pbaWord (s : State) (o : Nat) : Nat :=
  (List.range 32).foldl (fun x i => x + b2n (s.pendBit (o / 4 * 32 + i)) * 2 ^ i) 0

/-- R513: the blocks of BAR0 served in the fatal state. -/
def bar0Fatal (o : Nat) : Bool := decide (o < 0x30_0000) || (decide (0x50_0000 ≤ o) && decide (o < 0x60_0000))

/-- A BAR0 read that is performed: the value of `size` (4 or 8) bytes. -/
def State.bar0Get (s : State) (off size : Nat) : State × Nat :=
  let two (w : Nat → Nat) (o : Nat) : Nat := w o + (if size = 8 then w (o + 4) * 2 ^ 32 else 0)
  match bar0At off with
  | .ctl o => let (s1, v, _) := s.ctlRead o size 0; (s1, v)
  | .msix o => (s, two s.msixWord o)
  | .pba o => (s, two s.pbaWord o)
  | .none => (s, 0)
def State.bar0Put (s : State) (off size v : Nat) : State :=
  match bar0At off with
  | .ctl o => (s.ctlWrite o size v 0).1
  | .msix o =>
    let s1 := s.msixPut o (v % 2 ^ 32)
    if size = 8 then s1.msixPut (o + 4) (v / 2 ^ 32 % 2 ^ 32) else s1
  | _ => s

/-- A BAR0 request of `len` bytes lies in the BAR and in one 4 KiB page. -/
def bar0Ok (off len : Nat) : Bool := decide (1 ≤ len) && decide (off < 2 ^ 26) && decide (off % 4096 + len ≤ 4096)

/-- R401, R402, R405, R45. -/
def execBar0Read (off len : Nat) (s : State) : Out :=
  if !(s.linkUp && bar0Ok off len) then turnedAway s
  else if s.inbRefused (bar0Fatal off) then .next (s.inbRefuse false)
  else if ctlForm off len then
    let (s1, v) := s.bar0Get off len
    .next (s1.cpl (.cpl (leBytes len v) false false false))
  else .next ((s.incSat R.HEP_BAR0_BAD_COUNT).cpl (.cpl (List.replicate len 255) false false false))
def execBar0Write (off len : Nat) (v : W64) (s : State) : Out :=
  if !(s.linkUp && bar0Ok off len) then turnedAway s
  else if s.inbRefused (bar0Fatal off) then .next (s.inbRefuse true)
  else if ctlForm off len then .next (s.bar0Put off len (v.toNat % 2 ^ (8 * len)))
  else .next (s.incSat R.HEP_BAR0_BAD_COUNT)

/-! #### BAR2 (R404, R405) -/

def State.lastErr (s : State) (kind w : Nat) (wr : Bool) : State :=
  s.setFs [(R.HEP_LASTERR_KIND, kind), (R.HEP_LASTERR_WINDOW, w), (R.HEP_LASTERR_WRITE, b2n wr)]

/-- R404: the local address, or the KIND of refusal. -/
def State.bar2At (s : State) (off len : Nat) (wr : Bool) : Nat ⊕ Nat :=
  let w := bits off 32 8
  let o := bits off 0 32
  let a := s.f (R.HEP_IWIN_BASE w) * 4096 + o
  if s.f (R.HEP_IWIN_V w) = 0 ∨ s.f (if wr then R.HEP_IWIN_WR w else R.HEP_IWIN_RD w) = 0 then .inr 1
  else if o + len > 2 ^ s.f (R.HEP_IWIN_LOG2SZ w) then .inr 2
  else if a + len > dramEnd then .inr 3
  else .inl a

def State.iwinPol (s : State) (w : Nat) : LockPol :=
  match s.f (R.HEP_IWIN_LPOL w) with
  | 0 => .preserve
  | 1 => .set (BitVec.ofNat 4 (s.f (R.HEP_IWIN_LVAL w)))
  | _ => .clear

/-- A TLP of `len` bytes lies in the BAR and in one 4 KiB page. -/
def bar2Ok (off len : Nat) : Bool := decide (1 ≤ len) && decide (off < 2 ^ 40) && decide (off % 4096 + len ≤ 4096)

/-- The bytes read for the host: a poisoned code word reads all ones (R405). -/
def hostRead (d : LineD) (lo n : Nat) : List Nat × Bool :=
  ((List.range n).map (fun i => if d.poison.getLsbD ((lo + i) / 8) then 255 else d.read (lo + i) 1), spanPoison d.poison lo n)

/-- R405: one completion of at most Max_Payload_Size bytes for each aligned piece of that size. -/
def State.bar2Cpls (s : State) (a n : Nat) : State :=
  let m := s.mps
  (if n = 0 then [] else (List.range ((a + n - 1) / m + 1 - a / m)).map (· + a / m)).foldl (fun (s : State) k =>
    let lo := max a (k * m)
    let hi := min (a + n) (k * m + m)
    let (s1, bs, ep) := (linesOf lo (hi - lo)).foldl (fun (x : State × List Nat × Bool) L =>
      let (t, d) := x.1.ncRead L 0
      let l := max lo (L * 64)
      let (b, p) := hostRead d (l - L * 64) (min hi (L * 64 + 64) - l)
      (t, x.2.1 ++ b, x.2.2 || p)) (s, [], false)
    (if ep then s1.incSat R.HEP_POISON_RD_COUNT else s1).cpl (.cpl bs ep false false)) s

def execBar2Read (off len : Nat) (s : State) : Out :=
  if !(s.linkUp && bar2Ok off len) then turnedAway s
  else if s.inbRefused false then .next (s.inbRefuse false)
  else
    match s.bar2At off len false with
    | .inr kind => .next (((s.lastErr kind (bits off 32 8) false).incSat R.HEP_INB_UR_COUNT).cplUr)
    | .inl a => if s.memReady a len 0 false then .next (s.bar2Cpls a len) else s.memWait a len 0

/-- The bytes that byte enables admit of a line's masked write starting at address `a`. -/
def WrReq.enable (w : WrReq) (L a : Nat) (be : List Bool) : WrReq :=
  { w with mask := BitVec.ofNat 64 ((List.range 64).foldl (fun m i =>
      if L * 64 + i ≥ a ∧ be.getD (L * 64 + i - a) false ∧ maskAt w.mask i then m + 2 ^ i else m) 0) }

/-- R404, R405, R183: `be` says which bytes of `data` are written. -/
def execBar2Write (off : Nat) (data : List (BitVec 8)) (be : List Bool) (s : State) : Out :=
  let len := data.length
  let w := bits off 32 8
  if !(s.linkUp && bar2Ok off len) then turnedAway s
  else if s.inbRefused false then .next (s.inbRefuse true)
  else
    match s.bar2At off len true with
    | .inr kind => .next ((s.lastErr kind w true).incSat R.HEP_INB_DROP_COUNT)
    | .inl a =>
      if !(s.memReady a len 0 true) then s.memWait a len 0
      else
        let (s1, bad) := (linesOf a len).foldl (fun (x : State × Bool) L =>
          let (t, b) := x.1.ncWrite L 0 ((lineWr L a (data.map (·.toNat)) (s.iwinPol w)).enable L a be)
          (t, x.2 || b)) (s, false)
        .next (if bad then (s1.lastErr 4 w true).incSat R.HEP_INB_DROP_COUNT else s1)

/-! ### Configuration requests (R398 to R400, R403, R421) -/

/-- The dword at configuration offset `o`. -/
def State.cfgRead (s : State) (o : Nat) : Nat :=
  if 0x400 ≤ o ∧ o < 0x430 then
    if o = 0x428 then s.f R.HEP_DV_DEV_FATAL + 2 * ((List.range 4096).filter (fun d => s.domSt d == domRUNNING)).length
    else match regFind .cfg 0 o regRows with
      | some x => s.regValue x / 2 ^ (8 * x.q) % 2 ^ 32
      | none => 0
  else if o = 0x50 then
    s.cfgGet o + (if s.linkUp then s.f R.HEP_STAT_SPEED * 2 ^ 16 + s.f R.HEP_STAT_WIDTH * 2 ^ 20 else 0)
  else s.cfgGet o

/-- The bits of a configuration dword that a write sets to the value written. -/
def cfgMask (o : Nat) : Nat :=
  match o with
  | 0x04 => 0x146
  | 0x0C => 0xFF
  | 0x10 => 0xFC00_0000
  | 0x14 => 0xFFFF_FFFF
  | 0x1C => 0xFFFF_FF00
  | 0x3C => 0xFF
  | 0x48 => 0x79FF
  | 0x50 => 0xC8
  | 0x68 => 0x100F
  | 0x90 => 0xC000_0000
  | 0x108 => 0xFFFF_FFFF
  | 0x10C => 0xFFFF_FFFF
  | 0x114 => 0xFFFF_FFFF
  | _ => 0

/-- A write of the bits `m` of the dword at `o`. -/
def State.cfgWrite (s : State) (o v m : Nat) : State :=
  let put (k : Nat) : State :=
    let mm := m &&& k
    let cur := s.cfgGet o
    s.cfgSet o ((cur - (cur &&& mm)) ||| (v &&& mm))
  match o with
  | 0x40C => if bitOf (v &&& m) 8 then s.setF R.HEP_DV_STAT_RELERR 0 else s
  | 0x410 => if bitOf (v &&& m) 0 then s.release else s
  | 0x104 => s.cfgSet o (s.cfgGet o - (s.cfgGet o &&& (v &&& m)))
  | 0x110 => s.cfgSet o (s.cfgGet o - (s.cfgGet o &&& (v &&& m)))
  | 0x84 => if m &&& 3 = 3 ∧ (v % 4 = 0 ∨ v % 4 = 3) then s.masterChange (put 3) else s
  | 0x48 => if bitOf (v &&& m) 15 then (put 0x79FF).flrStart else put 0x79FF
  | _ => s.masterChange (put (cfgMask o))

/-- The bits that four byte enables cover. -/
def beMask (be : BitVec 4) : Nat := (List.range 4).foldl (fun m i => if be.getLsbD i then m + 255 * 256 ^ i else m) 0

/-- A configuration read, or a write (`wr`) of `v`, of the dword at `off`. Before boot ends and in a function-level reset it
completes with Request Retry Status (R418, R524). -/
def execConfigurationRequest (off : Nat) (wr : Bool) (be : BitVec 4) (v : W32) (s : State) : Out :=
  if !(s.linkUp && decide (off < 4096) && off % 4 == 0) then turnedAway s
  else if s.f R.BOOT_STAT_DONE = 0 ∨ s.inFlr then .next (s.cpl (.cpl [] false false true))
  else if wr then .next ((s.cfgWrite off v.toNat (beMask be)).cpl (.cpl [] false false false))
  else .next (s.cpl (.cpl (leBytes 4 (s.cfgRead off)) false false false))

end Sys2Proof.Machine
end

