-- ==== Sys2Proof/Machine/Reply.lean ====
section
/-! DEFINITION. The answers of a home, or of an owner, at the tile that asked (R64, R65, R244, R247, R256). -/

namespace Sys2Proof.Machine
open Sys2Proof

/-- DATA for the shadow fill buffer: the entry, if it is still there, and the loads that wait for it have their data (R63). -/
def Core.specData (k : Core) (m : Msg) : Core :=
  { k with
    sfb := k.sfb.map (fun e => if e.L = m.L ∧ e.d.isNone then { e with d := m.d, stamp := m.stamp } else e)
    win := k.win.map (fun e => match e with
      | .access p va acc pa n (some l) w dn => .access p va acc pa n (some l) w (dn || (l == m.L && n != 0))
      | e => e) }

/-- R81, R231: a fetched line enters the L1I, unless it was asked for before the last SYNC.I or domain switch. -/
def State.fetchData (s : State) (m : Msg) (d : LineD) : State :=
  let k := s.core m.core
  let s1 := s.setL2 m.agent m.L {}
  if k.fpend.contains m.L then
    (s1.setCore m.core ({ k with fpend := k.fpend.erase m.L }.l1iPut s.freeVal m.L d)).tickFree
  else s1

/-- R244: DATA at its requester. One that matches no request is a protocol error (R265). -/
def execData (t L : Nat) (s : State) : Out :=
  if t < 256 ∧ !(s.seamOpen t) then turnedAway s else
  onMsg s .data t L (fun m s1 =>
    .next (
      if 256 ≤ t then s1
      else if m.req = 1 then
        match s1.answered t L .rdSpec with
        | some s2 => s2.updCore m.core (·.specData m)
        | none => s1.protoErr L
      else
        match (s1.l2 t L).st, m.kind, m.d with
        | .IS, .E, some _ | .IS, .S, some _ | .IM, .M, some _ | .SM, .M, some _ => s1.fillIn m
        | .IS, .none, some d => s1.fetchData m d
        | _, .none, none =>
          (match s1.answered t L .atomic with
           | some s2 => s2.atomReply m.core m
           | none => s1.protoErr L)
        | _, _, _ => s1.protoErr L))

def Core.dropSfb (k : Core) (L : Nat) : Core := { k with sfb := k.sfb.filter (fun e => e.L != L) }

/-- R244, R65: GRANT at its tile: the ownership of a line that the tile holds, or the line that a promote named. A tile that has
given up its copy meanwhile (IM) has no data, and GRANT carries none: the model takes the line's value at the home (DESIGN CHOICE,
notes/assumptions/110.md). -/
def execGrant (t L : Nat) (s : State) : Out :=
  if !(s.seamOpen t) then turnedAway s else
  onMsg s .grant t L (fun m s1 =>
    .next (match m.kind with
      | .M =>
        (match (s1.l2 t L).st with
         | .SM => s1.fillIn { m with d := some (s1.l2 t L).d }
         | .IM => s1.fillIn { m with d := some (s1.coherent L) }
         | _ => s1.protoErr L)
      | .E | .S =>
        (match s1.answered t L .promote with
         | none => s1.protoErr L
         | some s2 =>
           match (s2.core m.core).sfb.find? (fun e => e.L == L && e.prom) with
           | some e => (s2.updCore m.core (·.dropSfb L)).fillIn { m with d := e.d }
           | none => s2.send { k := .complete, L := L, agent := t, dom := m.dom })
      | _ => s1.protoErr L))

/-- R64: the SPEC request was not served: the load waits for its commit point. -/
def execNotServed (c L : Nat) (s : State) : Out :=
  if !(s.seamOpen (c / 2)) then turnedAway s else
  onMsg s .notServed (c / 2) L (fun m s1 =>
    .next (match s1.answered (c / 2) L .rdSpec with
      | some s2 => s2.updCore m.core (·.dropSfb L)
      | none => s1.protoErr L))

/-- R65: the stamp changed: the oldest load re-executes as an ordinary read at its commit point, and everything younger is
squashed. -/
def execReplay (c L : Nat) (s : State) : Out :=
  if !(s.seamOpen (c / 2)) then turnedAway s else
  onMsg s .replay (c / 2) L (fun m s1 =>
    .next (match s1.answered (c / 2) L .promote with
      | some s2 => (s2.updCore m.core (fun k => (k.dropSfb L).squash)).wantShare m.core L
      | none => s1.protoErr L))

end Sys2Proof.Machine
end

