-- ==== Sys2Proof/Machine/Vector.lean ====
section
/-! DEFINITION. Vector and floating-point register operations (R118 to R121). -/

namespace Sys2Proof.Machine
open Sys2Proof

/-- FPCR.RM (R138). -/
def Core.rm (k : Core) : RM := RM.ofBits (k.cr0 0).toNat
/-- R121: the flags are sticky in FPCR[6:2]. -/
def Core.addFF (k : Core) (ff : FF) : Core := k.setCr 0 (k.cr0 0 ||| ((ff.zeroExtend 64) <<< 2))

/-- A vector operation: `vd` takes the value and the flags accumulate. -/
def vecOp (c : Nat) (pr : BitVec 4) (legal : Bool) (vd : BitVec 5) (v : Core → W256 × FF) (s : State) : Out :=
  pRun c pr legal s (fun s =>
    .next (s.updCore c (fun k => let (x, ff) := v k; ((k.wv vd.toNat x).addFF ff).retire)))

/-- Lane by lane over two registers. -/
def lanes2 (ty : VTy) (f : Nat → Nat → Nat × FF) (a b : W256) : W256 × FF :=
  lanesFF ty.width ty.lanes (fun i => f (lane a ty.width i) (lane b ty.width i))
/-- Lane 0 only, every other bit zero (R120). -/
def scalar0 (ty : VTy) (x : Nat × FF) : W256 × FF := (BitVec.ofNat 256 (x.1 % 2 ^ ty.width), x.2)

def isI (ty : VTy) : Bool := !ty.isF

def execVint (c : Nat) (pr : BitVec 4) (vd va vb : BitVec 5) (ty : VTy) (op : BitVec 4) (s : State) : Out :=
  vecOp c pr (isI ty) vd (fun k =>
    lanes2 ty (fun x y => (vintOp op.toNat ty.width x y, 0)) (k.rv va.toNat) (k.rv vb.toNat)) s

/-- R119: the legal OP values of VFP and FPS; SQRT, ABS and NEG take VB = 0. -/
def vfpLegal (ty : VTy) (op : BitVec 4) (vb : BitVec 5) : Bool :=
  ty.isF && op.toNat ≤ 12 && (!(op == 4 || op == 7 || op == 8) || vb == 0)

def execVfp (c : Nat) (pr : BitVec 4) (vd va vb : BitVec 5) (ty : VTy) (op : BitVec 4) (s : State) : Out :=
  vecOp c pr (vfpLegal ty op vb) vd (fun k =>
    lanes2 ty (fpOp ty.fmt k.rm op.toNat) (k.rv va.toNat) (k.rv vb.toNat)) s
def execFps (c : Nat) (pr : BitVec 4) (vd va vb : BitVec 5) (ty : VTy) (op : BitVec 4) (s : State) : Out :=
  vecOp c pr (vfpLegal ty op vb) vd (fun k =>
    scalar0 ty (fpOp ty.fmt k.rm op.toNat (lane (k.rv va.toNat) ty.width 0) (lane (k.rv vb.toNat) ty.width 0))) s

/-- R119, the FT field. -/
def ftTy (ft : BitVec 2) : VTy := if ft.getLsbD 0 then .f64 else .f32
def fmaOp (neg : Bool) (c : Nat) (pr : BitVec 4) (vd va vb vc : BitVec 5) (ft : BitVec 2) (s : State) : Out :=
  let ty := ftTy ft
  vecOp c pr true vd (fun k =>
    let f (i : Nat) : Nat × FF := fpFma ty.fmt k.rm neg (lane (k.rv va.toNat) ty.width i)
      (lane (k.rv vb.toNat) ty.width i) (lane (k.rv vc.toNat) ty.width i)
    if ft.getLsbD 1 then scalar0 ty (f 0) else lanesFF ty.width ty.lanes f) s

def execVfma (c : Nat) (pr : BitVec 4) (vd va vb vc : BitVec 5) (ft : BitVec 2) (s : State) : Out :=
  fmaOp false c pr vd va vb vc ft s
def execVfms (c : Nat) (pr : BitVec 4) (vd va vb vc : BitVec 5) (ft : BitVec 2) (s : State) : Out :=
  fmaOp true c pr vd va vb vc ft s

def execVsel (c : Nat) (pr : BitVec 4) (vd va vb : BitVec 5) (ty : VTy) (s : State) : Out :=
  let w := ty.width
  vecOp c pr true vd (fun k => (lanesOf w ty.lanes (fun i =>
    if lane (k.rv vd.toNat) w i = 2 ^ w - 1 then lane (k.rv va.toNat) w i else lane (k.rv vb.toNat) w i), 0)) s
def execVperm (c : Nat) (pr : BitVec 4) (vd va vb : BitVec 5) (ty : VTy) (s : State) : Out :=
  let w := ty.width
  vecOp c pr true vd (fun k => (lanesOf w ty.lanes (fun i =>
    lane (k.rv va.toNat) w (lane (k.rv vb.toNat) w i % ty.lanes)), 0)) s
def execVbcast (c : Nat) (pr : BitVec 4) (vd ra : BitVec 5) (ty : VTy) (s : State) : Out :=
  vecOp c pr true vd (fun k => (lanesOf ty.width ty.lanes (fun _ => (k.rg ra.toNat).toNat), 0)) s
def execVins (c : Nat) (pr : BitVec 4) (vd ra n : BitVec 5) (ty : VTy) (s : State) : Out :=
  vecOp c pr (n.toNat < ty.lanes) vd (fun k =>
    (setLane (k.rv vd.toNat) ty.width n.toNat (k.rg ra.toNat).toNat, 0)) s
def execVext (c : Nat) (pr : BitVec 4) (rd va n : BitVec 5) (ty : VTy) (s : State) : Out :=
  pRun c pr (n.toNat < ty.lanes) s (fun s => .next (s.updCore c (fun k =>
    (k.wg rd.toNat (BitVec.ofNat 64 (lane (k.rv va.toNat) ty.width n.toNat))).retire)))

/-- R119: a reduction into lane 0. -/
def redOp (kind : Nat) (c : Nat) (pr : BitVec 4) (vd va : BitVec 5) (ty : VTy) (s : State) : Out :=
  vecOp c pr true vd (fun k => scalar0 ty (vreduce ty k.rm kind (k.rv va.toNat))) s
def execVsum (c : Nat) (pr : BitVec 4) (vd va : BitVec 5) (ty : VTy) (s : State) : Out := redOp 0 c pr vd va ty s
def execVmaxr (c : Nat) (pr : BitVec 4) (vd va : BitVec 5) (ty : VTy) (s : State) : Out := redOp 1 c pr vd va ty s
def execVminr (c : Nat) (pr : BitVec 4) (vd va : BitVec 5) (ty : VTy) (s : State) : Out := redOp 2 c pr vd va ty s

/-- The floating-point format of a width. -/
def fmtOfWidth (w : Nat) : Fmt := if w = 16 then Machine.f16 else if w = 32 then Machine.f32 else Machine.f64

def execVcvtIf (c : Nat) (pr : BitVec 4) (vd va : BitVec 5) (ty : VTy) (s : State) : Out :=
  let w := ty.width
  vecOp c pr (isI ty && w != 8) vd (fun k =>
    lanesFF w ty.lanes (fun i => fpOfInt (fmtOfWidth w) k.rm w (lane (k.rv va.toNat) w i))) s
def execVcvtFi (c : Nat) (pr : BitVec 4) (vd va : BitVec 5) (ty : VTy) (s : State) : Out :=
  let w := ty.width
  vecOp c pr ty.isF vd (fun k => lanesFF w ty.lanes (fun i => fpToInt ty.fmt k.rm (lane (k.rv va.toNat) w i))) s
def execVcvtW (c : Nat) (pr : BitVec 4) (vd va : BitVec 5) (ty : VTy) (s : State) : Out :=
  let w := ty.width
  vecOp c pr (ty == .f16 || ty == .f32) vd (fun k =>
    lanesFF (2 * w) (ty.lanes / 2) (fun i =>
      fpConv ty.fmt (fmtOfWidth (2 * w)) k.rm (lane (k.rv va.toNat) w i))) s
def execVcvtN (c : Nat) (pr : BitVec 4) (vd va : BitVec 5) (ty : VTy) (s : State) : Out :=
  let w := ty.width
  vecOp c pr (ty == .f32 || ty == .f64) vd (fun k =>
    lanesFF (w / 2) ty.lanes (fun i => fpConv ty.fmt (fmtOfWidth (w / 2)) k.rm (lane (k.rv va.toNat) w i))) s
def execVmov (c : Nat) (pr : BitVec 4) (vd va : BitVec 5) (_ty : VTy) (s : State) : Out :=
  vecOp c pr true vd (fun k => (k.rv va.toNat, 0)) s
def execVpred (c : Nat) (pr : BitVec 4) (pd : BitVec 3) (va : BitVec 5) (ty : VTy) (s : State) : Out :=
  pRun c pr true s (fun s => .next (s.updCore c (fun k =>
    (k.wp pd.toNat (lane (k.rv va.toNat) ty.width 0 != 0)).retire)))

end Sys2Proof.Machine
end

