-- ==== Sys2Proof/Machine/Dispatch.lean ====
section
/-! DEFINITION. One arm per command: its meaning, or its refusal by name. -/

namespace Sys2Proof.Machine
open Sys2Proof

def exec (i : Instr) (s : State) : Host.Outcome State Fault Refusal :=
  match i with
  | .add a pr rd ra rb => Sys2Proof.Machine.execAdd a pr rd ra rb s
  | .sub a pr rd ra rb => Sys2Proof.Machine.execSub a pr rd ra rb s
  | .and a pr rd ra rb => Sys2Proof.Machine.execAnd a pr rd ra rb s
  | .or a pr rd ra rb => Sys2Proof.Machine.execOr a pr rd ra rb s
  | .xor a pr rd ra rb => Sys2Proof.Machine.execXor a pr rd ra rb s
  | .andn a pr rd ra rb => Sys2Proof.Machine.execAndn a pr rd ra rb s
  | .orn a pr rd ra rb => Sys2Proof.Machine.execOrn a pr rd ra rb s
  | .sll a pr rd ra rb => Sys2Proof.Machine.execSll a pr rd ra rb s
  | .srl a pr rd ra rb => Sys2Proof.Machine.execSrl a pr rd ra rb s
  | .sra a pr rd ra rb => Sys2Proof.Machine.execSra a pr rd ra rb s
  | .ror a pr rd ra rb => Sys2Proof.Machine.execRor a pr rd ra rb s
  | .addW a pr rd ra rb => Sys2Proof.Machine.execAddW a pr rd ra rb s
  | .subW a pr rd ra rb => Sys2Proof.Machine.execSubW a pr rd ra rb s
  | .sllW a pr rd ra rb => Sys2Proof.Machine.execSllW a pr rd ra rb s
  | .srlW a pr rd ra rb => Sys2Proof.Machine.execSrlW a pr rd ra rb s
  | .sraW a pr rd ra rb => Sys2Proof.Machine.execSraW a pr rd ra rb s
  | .mul a pr rd ra rb => Sys2Proof.Machine.execMul a pr rd ra rb s
  | .mulh a pr rd ra rb => Sys2Proof.Machine.execMulh a pr rd ra rb s
  | .mulhu a pr rd ra rb => Sys2Proof.Machine.execMulhu a pr rd ra rb s
  | .div a pr rd ra rb => Sys2Proof.Machine.execDiv a pr rd ra rb s
  | .divu a pr rd ra rb => Sys2Proof.Machine.execDivu a pr rd ra rb s
  | .rem a pr rd ra rb => Sys2Proof.Machine.execRem a pr rd ra rb s
  | .remu a pr rd ra rb => Sys2Proof.Machine.execRemu a pr rd ra rb s
  | .min a pr rd ra rb => Sys2Proof.Machine.execMin a pr rd ra rb s
  | .max a pr rd ra rb => Sys2Proof.Machine.execMax a pr rd ra rb s
  | .minu a pr rd ra rb => Sys2Proof.Machine.execMinu a pr rd ra rb s
  | .maxu a pr rd ra rb => Sys2Proof.Machine.execMaxu a pr rd ra rb s
  | .clz a pr rd ra => Sys2Proof.Machine.execClz a pr rd ra s
  | .ctz a pr rd ra => Sys2Proof.Machine.execCtz a pr rd ra s
  | .popc a pr rd ra => Sys2Proof.Machine.execPopc a pr rd ra s
  | .sextB a pr rd ra => Sys2Proof.Machine.execSextB a pr rd ra s
  | .sextH a pr rd ra => Sys2Proof.Machine.execSextH a pr rd ra s
  | .sextW a pr rd ra => Sys2Proof.Machine.execSextW a pr rd ra s
  | .zextW a pr rd ra => Sys2Proof.Machine.execZextW a pr rd ra s
  | .bswap a pr rd ra => Sys2Proof.Machine.execBswap a pr rd ra s
  | .addi a pr rd ra imm => Sys2Proof.Machine.execAddi a pr rd ra imm s
  | .andi a pr rd ra imm => Sys2Proof.Machine.execAndi a pr rd ra imm s
  | .ori a pr rd ra imm => Sys2Proof.Machine.execOri a pr rd ra imm s
  | .xori a pr rd ra imm => Sys2Proof.Machine.execXori a pr rd ra imm s
  | .addiW a pr rd ra imm => Sys2Proof.Machine.execAddiW a pr rd ra imm s
  | .slli a pr rd ra sh => Sys2Proof.Machine.execSlli a pr rd ra sh s
  | .srli a pr rd ra sh => Sys2Proof.Machine.execSrli a pr rd ra sh s
  | .srai a pr rd ra sh => Sys2Proof.Machine.execSrai a pr rd ra sh s
  | .rori a pr rd ra sh => Sys2Proof.Machine.execRori a pr rd ra sh s
  | .slliW a pr rd ra sh => Sys2Proof.Machine.execSlliW a pr rd ra sh s
  | .srliW a pr rd ra sh => Sys2Proof.Machine.execSrliW a pr rd ra sh s
  | .sraiW a pr rd ra sh => Sys2Proof.Machine.execSraiW a pr rd ra sh s
  | .liz a pr rd h imm => Sys2Proof.Machine.execLiz a pr rd h imm s
  | .lin a pr rd h imm => Sys2Proof.Machine.execLin a pr rd h imm s
  | .lik a pr rd h imm => Sys2Proof.Machine.execLik a pr rd h imm s
  | .liku a pr rd h imm => Sys2Proof.Machine.execLiku a pr rd h imm s
  | .addpc a pr rd imm => Sys2Proof.Machine.execAddpc a pr rd imm s
  | .cmp c pr pd cm ra rb w cond => Sys2Proof.Machine.execCmp c pr pd cm ra rb w cond s
  | .cmpi c pr pd cm ra imm cond => Sys2Proof.Machine.execCmpi c pr pd cm ra imm cond s
  | .pand c pr pd pa na pb nb => Sys2Proof.Machine.execPand c pr pd pa na pb nb s
  | .por c pr pd pa na pb nb => Sys2Proof.Machine.execPor c pr pd pa na pb nb s
  | .pxor c pr pd pa na pb nb => Sys2Proof.Machine.execPxor c pr pd pa na pb nb s
  | .ptog c pr rd => Sys2Proof.Machine.execPtog c pr rd s
  | .gtop c pr ra => Sys2Proof.Machine.execGtop c pr ra s
  | .ldB a pr rd ra imm => Sys2Proof.Machine.execLdB a pr rd ra imm s
  | .ldBs a pr rd ra imm => Sys2Proof.Machine.execLdBs a pr rd ra imm s
  | .ldH a pr rd ra imm => Sys2Proof.Machine.execLdH a pr rd ra imm s
  | .ldHs a pr rd ra imm => Sys2Proof.Machine.execLdHs a pr rd ra imm s
  | .ldW a pr rd ra imm => Sys2Proof.Machine.execLdW a pr rd ra imm s
  | .ldWs a pr rd ra imm => Sys2Proof.Machine.execLdWs a pr rd ra imm s
  | .ldD a pr rd ra imm => Sys2Proof.Machine.execLdD a pr rd ra imm s
  | .ldx a pr rd ra rb size sc aq => Sys2Proof.Machine.execLdx a pr rd ra rb size sc aq s
  | .stB a pr rd ra imm => Sys2Proof.Machine.execStB a pr rd ra imm s
  | .stH a pr rd ra imm => Sys2Proof.Machine.execStH a pr rd ra imm s
  | .stW a pr rd ra imm => Sys2Proof.Machine.execStW a pr rd ra imm s
  | .stD a pr rd ra imm => Sys2Proof.Machine.execStD a pr rd ra imm s
  | .stx a pr rd ra rb size sc rl => Sys2Proof.Machine.execStx a pr rd ra rb size sc rl s
  | .stlkW c pr rd ra => Sys2Proof.Machine.execStlkW c pr rd ra s
  | .stlkL c pr rd ra => Sys2Proof.Machine.execStlkL c pr rd ra s
  | .ldlkW c pr rd ra => Sys2Proof.Machine.execLdlkW c pr rd ra s
  | .ldlkL c pr rd ra => Sys2Proof.Machine.execLdlkL c pr rd ra s
  | .key c pr rd ra rb => Sys2Proof.Machine.execKey c pr rd ra rb s
  | .keyi c pr rd ra k => Sys2Proof.Machine.execKeyi c pr rd ra k s
  | .atmSwap a pr rd ra rb ord sz => Sys2Proof.Machine.execAtmSwap a pr rd ra rb ord sz s
  | .atmCas a pr rd ra rb ord sz => Sys2Proof.Machine.execAtmCas a pr rd ra rb ord sz s
  | .atmAdd a pr rd ra rb ord sz => Sys2Proof.Machine.execAtmAdd a pr rd ra rb ord sz s
  | .atmAnd a pr rd ra rb ord sz => Sys2Proof.Machine.execAtmAnd a pr rd ra rb ord sz s
  | .atmOr a pr rd ra rb ord sz => Sys2Proof.Machine.execAtmOr a pr rd ra rb ord sz s
  | .atmXor a pr rd ra rb ord sz => Sys2Proof.Machine.execAtmXor a pr rd ra rb ord sz s
  | .atmMin a pr rd ra rb ord sz => Sys2Proof.Machine.execAtmMin a pr rd ra rb ord sz s
  | .atmMax a pr rd ra rb ord sz => Sys2Proof.Machine.execAtmMax a pr rd ra rb ord sz s
  | .atmMinu a pr rd ra rb ord sz => Sys2Proof.Machine.execAtmMinu a pr rd ra rb ord sz s
  | .atmMaxu a pr rd ra rb ord sz => Sys2Proof.Machine.execAtmMaxu a pr rd ra rb ord sz s
  | .fenceLl a pr => Sys2Proof.Machine.execFenceLl a pr s
  | .fenceLs a pr => Sys2Proof.Machine.execFenceLs a pr s
  | .fenceSl a pr => Sys2Proof.Machine.execFenceSl a pr s
  | .fenceSs a pr => Sys2Proof.Machine.execFenceSs a pr s
  | .fence a pr => Sys2Proof.Machine.execFence a pr s
  | .fenceIo a pr => Sys2Proof.Machine.execFenceIo a pr s
  | .sync a pr => Sys2Proof.Machine.execSync a pr s
  | .syncI a pr => Sys2Proof.Machine.execSyncI a pr s
  | .clWb c pr ra => Sys2Proof.Machine.execClWb c pr ra s
  | .clInv c pr ra => Sys2Proof.Machine.execClInv c pr ra s
  | .clWbi c pr ra => Sys2Proof.Machine.execClWbi c pr ra s
  | .prefR c pr ra => Sys2Proof.Machine.execPrefR c pr ra s
  | .prefW c pr ra => Sys2Proof.Machine.execPrefW c pr ra s
  | .b c pr imm => Sys2Proof.Machine.execB c pr imm s
  | .bl c pr imm => Sys2Proof.Machine.execBl c pr imm s
  | .jr c pr ra => Sys2Proof.Machine.execJr c pr ra s
  | .jalr c pr rd ra => Sys2Proof.Machine.execJalr c pr rd ra s
  | .ret c pr => Sys2Proof.Machine.execRet c pr s
  | .calls a pr code => Sys2Proof.Machine.execCalls a pr code s
  | .callm c pr code => Sys2Proof.Machine.execCallm c pr code s
  | .brk a pr code => Sys2Proof.Machine.execBrk a pr code s
  | .tret a pr => Sys2Proof.Machine.execTret a pr s
  | .waitev a pr => Sys2Proof.Machine.execWaitev a pr s
  | .tlbiVa c pr ra => Sys2Proof.Machine.execTlbiVa c pr ra s
  | .tlbiAll c pr => Sys2Proof.Machine.execTlbiAll c pr s
  | .tlbiAllg c pr => Sys2Proof.Machine.execTlbiAllg c pr s
  | .tlbiS2 c pr ra => Sys2Proof.Machine.execTlbiS2 c pr ra s
  | .tlbiS2all c pr => Sys2Proof.Machine.execTlbiS2all c pr s
  | .crx a pr rd ra cr => Sys2Proof.Machine.execCrx a pr rd ra cr s
  | .crset a pr rd ra cr => Sys2Proof.Machine.execCrset a pr rd ra cr s
  | .crclr a pr rd ra cr => Sys2Proof.Machine.execCrclr a pr rd ra cr s
  | .vint c pr vd va vb ty op => Sys2Proof.Machine.execVint c pr vd va vb ty op s
  | .vfp c pr vd va vb ty op => Sys2Proof.Machine.execVfp c pr vd va vb ty op s
  | .fps c pr vd va vb ty op => Sys2Proof.Machine.execFps c pr vd va vb ty op s
  | .vfma c pr vd va vb vc ft => Sys2Proof.Machine.execVfma c pr vd va vb vc ft s
  | .vfms c pr vd va vb vc ft => Sys2Proof.Machine.execVfms c pr vd va vb vc ft s
  | .vld c pr vd ra imm => Sys2Proof.Machine.execVld c pr vd ra imm s
  | .vst c pr vd ra imm => Sys2Proof.Machine.execVst c pr vd ra imm s
  | .vls c pr vd ra st sz imm => Sys2Proof.Machine.execVls c pr vd ra st sz imm s
  | .vsel c pr vd va vb ty => Sys2Proof.Machine.execVsel c pr vd va vb ty s
  | .vbcast c pr vd ra ty => Sys2Proof.Machine.execVbcast c pr vd ra ty s
  | .vins c pr vd ra n ty => Sys2Proof.Machine.execVins c pr vd ra n ty s
  | .vext c pr rd va n ty => Sys2Proof.Machine.execVext c pr rd va n ty s
  | .vperm c pr vd va vb ty => Sys2Proof.Machine.execVperm c pr vd va vb ty s
  | .vsum c pr vd va ty => Sys2Proof.Machine.execVsum c pr vd va ty s
  | .vmaxr c pr vd va ty => Sys2Proof.Machine.execVmaxr c pr vd va ty s
  | .vminr c pr vd va ty => Sys2Proof.Machine.execVminr c pr vd va ty s
  | .vcvtIf c pr vd va ty => Sys2Proof.Machine.execVcvtIf c pr vd va ty s
  | .vcvtFi c pr vd va ty => Sys2Proof.Machine.execVcvtFi c pr vd va ty s
  | .vcvtW c pr vd va ty => Sys2Proof.Machine.execVcvtW c pr vd va ty s
  | .vcvtN c pr vd va ty => Sys2Proof.Machine.execVcvtN c pr vd va ty s
  | .vmov c pr vd va ty => Sys2Proof.Machine.execVmov c pr vd va ty s
  | .vpred c pr pd va ty => Sys2Proof.Machine.execVpred c pr pd va ty s
  | .bc h sk cond ka kb off => Sys2Proof.Machine.execBc h sk cond ka kb off s
  | .j h sk off => Sys2Proof.Machine.execJ h sk off s
  | .jl h sk off => Sys2Proof.Machine.execJl h sk off s
  | .jx h sk kd ka => Sys2Proof.Machine.execJx h sk kd ka s
  | .instructionFetch c va f => Sys2Proof.Machine.execInstructionFetch c va f s
  | .branchResolve c b => Sys2Proof.Machine.execBranchResolve c b s
  | .loadReissue c => Sys2Proof.Machine.execLoadReissue c s
  | .storeAddressResolve c va n acc older => Sys2Proof.Machine.execStoreAddressResolve c va n acc older s
  | .storeBufferWrite c => Sys2Proof.Machine.execStoreBufferWrite c s
  | .tableWalk c x acc => Sys2Proof.Machine.execTableWalk c x acc s
  | .markSwap c va acc => Sys2Proof.Machine.execMarkSwap c va acc s
  | .deviceStoreReply c tag => Sys2Proof.Machine.execDeviceStoreReply c tag s
  | .eventArrival src => Sys2Proof.Machine.execEventArrival src s
  | .interruptRecognition c => Sys2Proof.Machine.execInterruptRecognition c s
  | .interruptEntry c => Sys2Proof.Machine.execInterruptEntry c s
  | .timerMatch c m => Sys2Proof.Machine.execTimerMatch c m s
  | .keeperTimerMatch h => Sys2Proof.Machine.execKeeperTimerMatch h s
  | .tilClkCtlWrite n v => Sys2Proof.Machine.execTilClkCtlWrite n v s
  | .pllLock n => Sys2Proof.Machine.execPllLock n s
  | .voltageReached n => Sys2Proof.Machine.execVoltageReached n s
  | .sensorRead h tj tmem da => Sys2Proof.Machine.execSensorRead h tj tmem da s
  | .capStep h => Sys2Proof.Machine.execCapStep h s
  | .rdS r x => Sys2Proof.Machine.execRdS r x s
  | .rdO r L => Sys2Proof.Machine.execRdO r L s
  | .upg r L => Sys2Proof.Machine.execUpg r L s
  | .rdSpec c x => Sys2Proof.Machine.execRdSpec c x s
  | .promote c L => Sys2Proof.Machine.execPromote c L s
  | .rdFetch r L => Sys2Proof.Machine.execRdFetch r L s
  | .rdNc g L dom => Sys2Proof.Machine.execRdNc g L dom s
  | .wrNc g L dom wr => Sys2Proof.Machine.execWrNc g L dom wr s
  | .atomic g dom at_ => Sys2Proof.Machine.execAtomic g dom at_ s
  | .flush r L => Sys2Proof.Machine.execFlush r L s
  | .wb r L => Sys2Proof.Machine.execWb r L s
  | .fwdS t L => Sys2Proof.Machine.execFwdS t L s
  | .fwdO t L => Sys2Proof.Machine.execFwdO t L s
  | .fwdPeek t L => Sys2Proof.Machine.execFwdPeek t L s
  | .inv t L => Sys2Proof.Machine.execInv t L s
  | .data t L => Sys2Proof.Machine.execData t L s
  | .grant t L => Sys2Proof.Machine.execGrant t L s
  | .notServed c L => Sys2Proof.Machine.execNotServed c L s
  | .replay c L => Sys2Proof.Machine.execReplay c L s
  | .ownerAck t L => Sys2Proof.Machine.execOwnerAck t L s
  | .invAck t L => Sys2Proof.Machine.execInvAck t L s
  | .notPresent t L => Sys2Proof.Machine.execNotPresent t L s
  | .wbInflight t L => Sys2Proof.Machine.execWbInflight t L s
  | .wbAck t L => Sys2Proof.Machine.execWbAck t L s
  | .flushAck t L => Sys2Proof.Machine.execFlushAck t L s
  | .wrDone g L => Sys2Proof.Machine.execWrDone g L s
  | .complete t L => Sys2Proof.Machine.execComplete t L s
  | .l2Eviction t x => Sys2Proof.Machine.execL2Eviction t x s
  | .pendingRestart L => Sys2Proof.Machine.execPendingRestart L s
  | .retryRestart n => Sys2Proof.Machine.execRetryRestart n s
  | .epochAdvance n => Sys2Proof.Machine.execEpochAdvance n s
  | .silenceTimeout L => Sys2Proof.Machine.execSilenceTimeout L s
  | .flitArrival n p f => Sys2Proof.Machine.execFlitArrival n p f s
  | .routeEntryWrite ni idx o size v => Sys2Proof.Machine.execRouteEntryWrite ni idx o size v s
  | .tilNiCtlDefault ni => Sys2Proof.Machine.execTilNiCtlDefault ni s
  | .tilRtrPortEnWrite n v => Sys2Proof.Machine.execTilRtrPortEnWrite n v s
  | .tilRtrClr n => Sys2Proof.Machine.execTilRtrClr n s
  | .tilHomeClr n => Sys2Proof.Machine.execTilHomeClr n s
  | .meshQuiesce r => Sys2Proof.Machine.execMeshQuiesce r s
  | .quiesceDrained => Sys2Proof.Machine.execQuiesceDrained s
  | .meshRelease r => Sys2Proof.Machine.execMeshRelease r s
  | .releaseCheckDone => Sys2Proof.Machine.execReleaseCheckDone s
  | .modeLlcClass r => Sys2Proof.Machine.execModeLlcClass r s
  | .modeTrainCtl r => Sys2Proof.Machine.execModeTrainCtl r s
  | .modeRdistCtl r => Sys2Proof.Machine.execModeRdistCtl r s
  | .modeForageStep r => Sys2Proof.Machine.execModeForageStep r s
  | .modeLockctl r => Sys2Proof.Machine.execModeLockctl r s
  | .prepare h => Sys2Proof.Machine.execPrepare h s
  | .modeTimeout => Sys2Proof.Machine.execModeTimeout s
  | .commit h => Sys2Proof.Machine.execCommit h s
  | .abort h => Sys2Proof.Machine.execAbort h s
  | .channelRequestAccept ch => Sys2Proof.Machine.execChannelRequestAccept ch s
  | .bankOperation ch L rd => Sys2Proof.Machine.execBankOperation ch L rd s
  | .targetedRefreshDone ch bank => Sys2Proof.Machine.execTargetedRefreshDone ch bank s
  | .throttleExpiry ch bank dom => Sys2Proof.Machine.execThrottleExpiry ch bank dom s
  | .groupCounterReset ch => Sys2Proof.Machine.execGroupCounterReset ch s
  | .refresh ch bank busy => Sys2Proof.Machine.execRefresh ch bank busy s
  | .retraining ch => Sys2Proof.Machine.execRetraining ch s
  | .retrainingDone ch conv len => Sys2Proof.Machine.execRetrainingDone ch conv len s
  | .memTrainDeferWrite ch v => Sys2Proof.Machine.execMemTrainDeferWrite ch v s
  | .deferralEnd ch => Sys2Proof.Machine.execDeferralEnd ch s
  | .memTrainCtlWrite ch v => Sys2Proof.Machine.execMemTrainCtlWrite ch v s
  | .memPasrCtlWrite ch v => Sys2Proof.Machine.execMemPasrCtlWrite ch v s
  | .selfRefreshWake ch => Sys2Proof.Machine.execSelfRefreshWake ch s
  | .selfRefreshExitDone ch conv len => Sys2Proof.Machine.execSelfRefreshExitDone ch conv len s
  | .foragerRead ch => Sys2Proof.Machine.execForagerRead ch s
  | .memScrubRangeWrite ch k v => Sys2Proof.Machine.execMemScrubRangeWrite ch k v s
  | .ceLeak ch => Sys2Proof.Machine.execCeLeak ch s
  | .memClrCounters ch => Sys2Proof.Machine.execMemClrCounters ch s
  | .memClrBucket ch => Sys2Proof.Machine.execMemClrBucket ch s
  | .keeperWindowAccess h off size wr v => Sys2Proof.Machine.execKeeperWindowAccess h off size wr v s
  | .keeperMeshReply h => Sys2Proof.Machine.execKeeperMeshReply h s
  | .keeperAccessTimeout h => Sys2Proof.Machine.execKeeperAccessTimeout h s
  | .keeperTagRelease h => Sys2Proof.Machine.execKeeperTagRelease h s
  | .keeperInterrupt h => Sys2Proof.Machine.execKeeperInterrupt h s
  | .keeperRestart h => Sys2Proof.Machine.execKeeperRestart h s
  | .keeperRestartDone h => Sys2Proof.Machine.execKeeperRestartDone h s
  | .moduleLoad h => Sys2Proof.Machine.execModuleLoad h s
  | .moduleLoadDone h => Sys2Proof.Machine.execModuleLoadDone h s
  | .moduleUnload h => Sys2Proof.Machine.execModuleUnload h s
  | .cuffMismatch t group syn fault diff => Sys2Proof.Machine.execCuffMismatch t group syn fault diff s
  | .agreementExchange t tries => Sys2Proof.Machine.execAgreementExchange t tries s
  | .rearm t => Sys2Proof.Machine.execRearm t s
  | .rearmDone t => Sys2Proof.Machine.execRearmDone t s
  | .pairJoin r => Sys2Proof.Machine.execPairJoin r s
  | .pairSplit r => Sys2Proof.Machine.execPairSplit r s
  | .handoverSync n => Sys2Proof.Machine.execHandoverSync n s
  | .cufHtoExpiry n => Sys2Proof.Machine.execCufHtoExpiry n s
  | .create r => Sys2Proof.Machine.execCreate r s
  | .map r => Sys2Proof.Machine.execMap r s
  | .assignTiles r => Sys2Proof.Machine.execAssignTiles r s
  | .assignEvents r => Sys2Proof.Machine.execAssignEvents r s
  | .assignEp r => Sys2Proof.Machine.execAssignEp r s
  | .start r => Sys2Proof.Machine.execStart r s
  | .park r => Sys2Proof.Machine.execPark r s
  | .resume r => Sys2Proof.Machine.execResume r s
  | .stop r => Sys2Proof.Machine.execStop r s
  | .switch r => Sys2Proof.Machine.execSwitch r s
  | .migrateOut r => Sys2Proof.Machine.execMigrateOut r s
  | .migrateIn r => Sys2Proof.Machine.execMigrateIn r s
  | .copy h n => Sys2Proof.Machine.execCopy h n s
  | .fill h n => Sys2Proof.Machine.execFill h n s
  | .compress h n => Sys2Proof.Machine.execCompress h n s
  | .decompress h n => Sys2Proof.Machine.execDecompress h n s
  | .powerClockTarget r => Sys2Proof.Machine.execPowerClockTarget r s
  | .powerSegmentKeep r => Sys2Proof.Machine.execPowerSegmentKeep r s
  | .powerSelfRefreshEntry r => Sys2Proof.Machine.execPowerSelfRefreshEntry r s
  | .powerSelfRefreshExit r => Sys2Proof.Machine.execPowerSelfRefreshExit r s
  | .powerLinkState r part leave => Sys2Proof.Machine.execPowerLinkState r part leave s
  | .powerTileEntry r => Sys2Proof.Machine.execPowerTileEntry r s
  | .powerTileWake r => Sys2Proof.Machine.execPowerTileWake r s
  | .meterCfg r => Sys2Proof.Machine.execMeterCfg r s
  | .routeSet r => Sys2Proof.Machine.execRouteSet r s
  | .scrubRange r => Sys2Proof.Machine.execScrubRange r s
  | .timeSet r => Sys2Proof.Machine.execTimeSet r s
  | .arrayBist r => Sys2Proof.Machine.execArrayBist r s
  | .cuffInjectionTest r => Sys2Proof.Machine.execCuffInjectionTest r s
  | .sliceBist r => Sys2Proof.Machine.execSliceBist r s
  | .marchTest r => Sys2Proof.Machine.execMarchTest r s
  | .keeperSramBist r => Sys2Proof.Machine.execKeeperSramBist r s
  | .enginePatternTest r => Sys2Proof.Machine.execEnginePatternTest r s
  | .portLoopback r => Sys2Proof.Machine.execPortLoopback r s
  | .retrainNow r => Sys2Proof.Machine.execRetrainNow r s
  | .sensorCalibration r => Sys2Proof.Machine.execSensorCalibration r s
  | .selfTestDone r pass st cnt gp => Sys2Proof.Machine.execSelfTestDone r pass st cnt gp s
  | .periodBoundary => Sys2Proof.Machine.execPeriodBoundary s
  | .recordWrite => Sys2Proof.Machine.execRecordWrite s
  | .mtrCtlWrite v => Sys2Proof.Machine.execMtrCtlWrite v s
  | .mtrRingBaseWrite v => Sys2Proof.Machine.execMtrRingBaseWrite v s
  | .mtrRingTailWrite v => Sys2Proof.Machine.execMtrRingTailWrite v s
  | .hosterrClear => Sys2Proof.Machine.execHosterrClear s
  | .domLockclr d => Sys2Proof.Machine.execDomLockclr d s
  | .domCtxbaseWrite d v => Sys2Proof.Machine.execDomCtxbaseWrite d v s
  | .evtTrig src => Sys2Proof.Machine.execEvtTrig src s
  | .trig n dom v => Sys2Proof.Machine.execTrig n dom v s
  | .pendSet src => Sys2Proof.Machine.execPendSet src s
  | .clrp src => Sys2Proof.Machine.execClrp src s
  | .causeClear src mask => Sys2Proof.Machine.execCauseClear src mask s
  | .evtCfgWrite src v => Sys2Proof.Machine.execEvtCfgWrite src v s
  | .evtDesigWrite d v => Sys2Proof.Machine.execEvtDesigWrite d v s
  | .evtTpgWrite n v => Sys2Proof.Machine.execEvtTpgWrite n v s
  | .presentation src => Sys2Proof.Machine.execPresentation src s
  | .msixMessage src => Sys2Proof.Machine.execMsixMessage src s
  | .configurationRequest off wr be v => Sys2Proof.Machine.execConfigurationRequest off wr be v s
  | .bar0Read off len => Sys2Proof.Machine.execBar0Read off len s
  | .bar0Write off len v => Sys2Proof.Machine.execBar0Write off len v s
  | .bar2Read off len => Sys2Proof.Machine.execBar2Read off len s
  | .bar2Write off data be => Sys2Proof.Machine.execBar2Write off data be s
  | .hostCompletion tag status data => Sys2Proof.Machine.execHostCompletion tag status data s
  | .completionTimeout tag => Sys2Proof.Machine.execCompletionTimeout tag s
  | .tagQuarantineEnd tag => Sys2Proof.Machine.execTagQuarantineEnd tag s
  | .dlActiveLoss kind => Sys2Proof.Machine.execDlActiveLoss kind s
  | .dataLinkProtocolError => Sys2Proof.Machine.execDataLinkProtocolError s
  | .flowControlProtocolError => Sys2Proof.Machine.execFlowControlProtocolError s
  | .receiverOverflow => Sys2Proof.Machine.execReceiverOverflow s
  | .malformedTlp => Sys2Proof.Machine.execMalformedTlp s
  | .uncorrectableInternalError => Sys2Proof.Machine.execUncorrectableInternalError s
  | .release => Sys2Proof.Machine.execRelease s
  | .releaseDone => Sys2Proof.Machine.execReleaseDone s
  | .busMasterEnableClear => Sys2Proof.Machine.execBusMasterEnableClear s
  | .busMasterEnableSet => Sys2Proof.Machine.execBusMasterEnableSet s
  | .d3hotEntry => Sys2Proof.Machine.execD3hotEntry s
  | .functionLevelReset => Sys2Proof.Machine.execFunctionLevelReset s
  | .flrDone => Sys2Proof.Machine.execFlrDone s
  | .hepIwinWrite w o size v => Sys2Proof.Machine.execHepIwinWrite w o size v s
  | .hepOwinWrite w o size v => Sys2Proof.Machine.execHepOwinWrite w o size v s
  | .hepClr => Sys2Proof.Machine.execHepClr s
  | .cmdRingDb r v => Sys2Proof.Machine.execCmdRingDb r v s
  | .cmdCqTail r v => Sys2Proof.Machine.execCmdCqTail r v s
  | .cmdRingRestart r => Sys2Proof.Machine.execCmdRingRestart r s
  | .cmdRingEnWrite r v => Sys2Proof.Machine.execCmdRingEnWrite r v s
  | .descriptorFetch r => Sys2Proof.Machine.execDescriptorFetch r s
  | .cmdClr => Sys2Proof.Machine.execCmdClr s
  | .cmdMonack c v => Sys2Proof.Machine.execCmdMonack c v s
  | .monitorTimeout r => Sys2Proof.Machine.execMonitorTimeout r s
  | .trDb h t v => Sys2Proof.Machine.execTrDb h t v s
  | .trTail h t v => Sys2Proof.Machine.execTrTail h t v s
  | .trRestart h t => Sys2Proof.Machine.execTrRestart h t s
  | .engineJobStart h => Sys2Proof.Machine.execEngineJobStart h s
  | .cmpClr h => Sys2Proof.Machine.execCmpClr h s
  | .frameReceive p frame => Sys2Proof.Machine.execFrameReceive p frame s
  | .nak p => Sys2Proof.Machine.execNak p s
  | .replayTimeout p => Sys2Proof.Machine.execReplayTimeout p s
  | .linkLoss p => Sys2Proof.Machine.execLinkLoss p s
  | .linkUp p => Sys2Proof.Machine.execLinkUp p s
  | .rdLine k => Sys2Proof.Machine.execRdLine k s
  | .wrLine k => Sys2Proof.Machine.execWrLine k s
  | .wrPart k => Sys2Proof.Machine.execWrPart k s
  | .fabAtomic k => Sys2Proof.Machine.execFabAtomic k s
  | .msg k => Sys2Proof.Machine.execMsg k s
  | .rdRsp k => Sys2Proof.Machine.execRdRsp k s
  | .ack k => Sys2Proof.Machine.execAck k s
  | .atomRsp k => Sys2Proof.Machine.execAtomRsp k s
  | .err k => Sys2Proof.Machine.execErr k s
  | .routeUnavail k => Sys2Proof.Machine.execRouteUnavail k s
  | .transitForward => Sys2Proof.Machine.execTransitForward s
  | .remoteTimeout tag => Sys2Proof.Machine.execRemoteTimeout tag s
  | .remoteTagRelease tag => Sys2Proof.Machine.execRemoteTagRelease tag s
  | .drain p => Sys2Proof.Machine.execDrain p s
  | .drainDone p => Sys2Proof.Machine.execDrainDone p s
  | .undrain p => Sys2Proof.Machine.execUndrain p s
  | .retrain p => Sys2Proof.Machine.execRetrain p s
  | .holdExpiry p => Sys2Proof.Machine.execHoldExpiry p s
  | .fabDevnumWrite v => Sys2Proof.Machine.execFabDevnumWrite v s
  | .fabRtIdxWrite v => Sys2Proof.Machine.execFabRtIdxWrite v s
  | .fabRwinWrite n o size v => Sys2Proof.Machine.execFabRwinWrite n o size v s
  | .sqDb n v => Sys2Proof.Machine.execSqDb n v s
  | .sqRestart n => Sys2Proof.Machine.execSqRestart n s
  | .sendRingFetch n => Sys2Proof.Machine.execSendRingFetch n s
  | .fabClr => Sys2Proof.Machine.execFabClr s
  | .fabPortClr p => Sys2Proof.Machine.execFabPortClr p s
  | .preparationEnd t => Sys2Proof.Machine.execPreparationEnd t s
  | .preparationTimeout t => Sys2Proof.Machine.execPreparationTimeout t s
  | .stateReached t => Sys2Proof.Machine.execStateReached t s
  | .wake t => Sys2Proof.Machine.execWake t s
  | .serviceWake t => Sys2Proof.Machine.execServiceWake t s
  | .serviceReturnDone t => Sys2Proof.Machine.execServiceReturnDone t s
  | .exitDone t => Sys2Proof.Machine.execExitDone t s
  | .pwrHclr h => Sys2Proof.Machine.execPwrHclr h s
  | .pwrClr => Sys2Proof.Machine.execPwrClr s
  | .pmcCtlWrite set n k v => Sys2Proof.Machine.execPmcCtlWrite set n k v s
  | .counterWrap set n k inc => Sys2Proof.Machine.execCounterWrap set n k inc s
  | .freeze on => Sys2Proof.Machine.execFreeze on s
  | .clrall => Sys2Proof.Machine.execClrall s
  | .recordAccept => Sys2Proof.Machine.execRecordAccept s
  | .persistentCopy err => Sys2Proof.Machine.execPersistentCopy err s
  | .flushDone => Sys2Proof.Machine.execFlushDone s
  | .erCursorWrite v => Sys2Proof.Machine.execErCursorWrite v s
  | .erWindowAutoinc => Sys2Proof.Machine.execErWindowAutoinc s
  | .erClr v => Sys2Proof.Machine.execErClr v s
  | .clearDone => Sys2Proof.Machine.execClearDone s
  | .ophoursSave => Sys2Proof.Machine.execOphoursSave s
  | .powerOnReset => Sys2Proof.Machine.execPowerOnReset s
  | .deviceReset pairDef selftest bistFull => Sys2Proof.Machine.execDeviceReset pairDef selftest bistFull s
  | .bootCtl v => Sys2Proof.Machine.execBootCtl v s
  | .bootDone chFail tests ms => Sys2Proof.Machine.execBootDone chFail tests ms s
  | .secEnroll slot key => Sys2Proof.Machine.execSecEnroll slot key s
  | .secRevoke slot key => Sys2Proof.Machine.execSecRevoke slot key s
  | .secRollWrite n v => Sys2Proof.Machine.execSecRollWrite n v s
  | .secKeyroll v => Sys2Proof.Machine.execSecKeyroll v s
  | .railMonitorTrip rail => Sys2Proof.Machine.execRailMonitorTrip rail s
  | .thermtrip => Sys2Proof.Machine.execThermtrip s
  | .pwrlimN low => Sys2Proof.Machine.execPwrlimN low s
  | .pwrwarnN => Sys2Proof.Machine.execPwrwarnN s
  | .flashOwnN low imgs => Sys2Proof.Machine.execFlashOwnN low imgs s
  | .smbusBlockRead code => Sys2Proof.Machine.execSmbusBlockRead code s
  | .bypass => Sys2Proof.Machine.execBypass s
  | .idcode => Sys2Proof.Machine.execIdcode s
  | .samplePreload v => Sys2Proof.Machine.execSamplePreload v s
  | .extest => Sys2Proof.Machine.execExtest s
  | .registerWrite off size v dom => Sys2Proof.Machine.execRegisterWrite off size v dom s
  | .illegalInstruction a word => Sys2Proof.Machine.execIllegalInstruction a word s
  | .dlActive speed width => Sys2Proof.Machine.execDlActive speed width s
  | .porNLow => Sys2Proof.Machine.execPorNLow s
  | .railInTolerance rail => Sys2Proof.Machine.execRailInTolerance rail s
  | .fabPortCtlEn p en => Sys2Proof.Machine.execFabPortCtlEn p en s
  | .cmpTrCfgWrite h t v => Sys2Proof.Machine.execCmpTrCfgWrite h t v s
  | .fabSqCfgWrite n v => Sys2Proof.Machine.execFabSqCfgWrite n v s

end Sys2Proof.Machine
end

