-- ==== Sys2Proof/Machine/Tick.lean ====
section
/-! DEFINITION. What happens in one nanosecond of device time while no command waits (notes/assumptions/1.md, DESIGN CHOICE). -/

namespace Sys2Proof.Machine
open Sys2Proof

/-- R517: one more operating second. -/
def State.opSecond (s : State) : State :=
  if s.f R.ER_OPSEC_SEC ≥ 3599 then (s.setF R.ER_OPSEC_SEC 0).incSat R.ER_OPHOURS_HOURS else s.incSat R.ER_OPSEC_SEC

/-- Device time and the interval clock advance by 1 ns (R370). -/
def State.passNs (s : State) : State := { s with time := (s.time + 1) % 2 ^ 64, ns := s.ns + 1 }

/-- One nanosecond: a period boundary that is due, the accrual of R371, device time (R370), operating time (R517). Nothing
passes in power-on reset; in the fatal state the meter is silent (R513). -/
def State.tick (s : State) : State :=
  if s.pins.inPor then s
  else
    let s1 := if s.isFatal then s else s.dueBoundary.accrue
    let s2 := s1.passNs
    if s2.ns % 10 ^ 9 = 0 then s2.opSecond else s2

end Sys2Proof.Machine
end

