-- ==== Sys2Proof/Safety.lean ====
section
/-! DEFINITION. What a safe run is, and the words the statements are made of: a command that completes, an agent that may
execute its next instruction, a change confined to registers, and the forms that memory and fuses keep. -/

namespace Sys2Proof.Machine

/-- DRAM and keeper SRAM list their words in canonical form. -/
def Memory.wf (s : State) : Bool := Tbl.wf (fun _ => none) s.dram && Tbl.wf (fun _ => 0) s.ksram

end Sys2Proof.Machine

namespace Sys2Proof.Safety
open Sys2Proof Sys2Proof.Machine

/-- A step stops nowhere. -/
def Runs (s : State) : Prop := ∃ t, step s = .next t

/-- Command `i` completes at `s`, in a state of which `P` holds. -/
def Completes (i : Instr) (s : State) (P : State → Prop) : Prop := ∃ t, exec i s = .next t ∧ P t

/-- Core `c` executes the instruction at its pc, whose predicate field `pr` holds (R55, R56, R97). -/
def ReadyP (c : Nat) (pr : BitVec 4) (s : State) : Prop :=
  s.canIssue c = true ∧ pr ≠ 8 ∧ (s.core c).predOk pr = true

/-- Keeper `h` executes the instruction at its pc: it may issue, and its fetch meets nothing (R314, R331). -/
def ReadyK (h : Nat) (s : State) : Prop := s.kCanIssue h = true ∧ s.kFetchBad h = none

/-- The agent executes an instruction both profiles have, with register fields `regs` (R91, R96). -/
def Ready (a : Agent) (pr : BitVec 4) (regs : List (BitVec 5)) (s : State) : Prop :=
  match a with
  | .core c => ReadyP c pr s
  | .keeper h => ReadyK h s ∧ pr = 0 ∧ ∀ r ∈ regs, r.toNat < 16

/-- `t` differs from `s` in nothing but the values of the register fields `fs`. -/
def OnlyRegs (s t : State) (fs : List Fld) : Prop :=
  t = { s with csr := t.csr } ∧ ∀ x : Fld, (∀ y ∈ fs, y.key ≠ x.key) → t.f x = s.f x

/-- `t` is `s` with core `c` changed by `f`, and nothing else. -/
def OnlyCore (s t : State) (c : Nat) (f : Core → Core) : Prop :=
  t = { s with cores := t.cores } ∧ t.core c = f (s.core c) ∧ ∀ d, s.cix d ≠ s.cix c → t.core d = s.core d

/-- R429: ring `r` holds command `c` of opcode `op`, and the command processor works. -/
def Ordered (s : State) (r op : Nat) (c : Cmd) : Prop :=
  r < 64 ∧ c.d.dom < 4096 ∧ c.d.tile < 256 ∧ s.cmd r = some c ∧ c.d.op = op ∧ s.f R.CMD_STAT_READY = 1 ∧ s.isFatal = false

/-- R428: row `i` ends the command of ring `r` with a status and a RESULT, in a state of which `P` holds before the completion
is posted. -/
def Finishes (i : Instr) (s : State) (r status result : Nat) (P : State → Prop) : Prop :=
  ∃ u, exec i s = .next (u.finish r status result) ∧ P u

/-- The range [a, a + n) stands in the LLC, owned by no tile and unpoisoned, and reads as `b`. -/
def InLlc (s : State) (a n : Nat) (b : List Nat) : Prop :=
  a + n ≤ dramEnd ∧ (∀ L ∈ linesOf a n, (s.ownerCopy L = none ∧ ∀ e, s.dirE L = some e → e.st ≠ .EX) ∧ ∃ x, s.llcE L = some x ∧ x.d.poison = 0) ∧ (s.memRead 0 a n).2.1 = b

/-- R550, R363: tile `n`, of domain `out`, is awake at a boundary with its cores held and nothing of its L2 left to write back. -/
def SwitchPoint (s : State) (n out : Nat) : Prop :=
  n < 256 ∧ s.domOf n = out ∧ s.asleep n = false ∧ s.tileAtB n (out != 0) = true ∧ s.l2Still n = true ∧ (s.core (2 * n)).run = false
    ∧ (∀ e ∈ s.caches, e.1 / 2 ^ 64 ≠ n) ∧ s.gcOut n = false ∧ s.meshRuns = true

/-- The machine apart from its registers and its rings' commands is the same. -/
def SameCore (s t : State) : Prop :=
  t.cores = s.cores ∧ t.keepers = s.keepers ∧ t.dram = s.dram ∧ t.ksram = s.ksram ∧ t.caches = s.caches ∧ t.llc = s.llc ∧ t.dir = s.dir

/-- R28, R525, R528, R529: what one-time fuses can be: KEYGEN of eight bits; slots 1 to 3, none programmed twice; a rollback
counter of eight bits for each slot. -/
def FusesLegal (u : Fuses) : Prop :=
  u.keygen < 256 ∧ (u.digest.map (·.1)).Nodup ∧ (∀ e ∈ u.digest, 1 ≤ e.1 ∧ e.1 ≤ 3)
    ∧ u.revoked.Nodup ∧ (∀ n ∈ u.revoked, 1 ≤ n ∧ n ≤ 3)
    ∧ (u.roll.map (·.1)).Nodup ∧ (∀ e ∈ u.roll, e.1 < 4 ∧ e.2 < 256)

/-- R528, R529: fuses are only ever blown: KEYGEN bits, digests and revocations stay, and no rollback counter falls. -/
def FusesGrow (u v : Fuses) : Prop :=
  (∀ i, u.keygen.testBit i = true → v.keygen.testBit i = true) ∧ (∀ e ∈ u.digest, e ∈ v.digest)
    ∧ (∀ n ∈ u.revoked, n ∈ v.revoked) ∧ ∀ n x, (n, x) ∈ u.roll → ∃ y, (n, y) ∈ v.roll ∧ x ≤ y

end Sys2Proof.Safety
end

