-- ==== Sys2Proof/Certificates/Slice0/Obligations.lean ====
section
/-! DEFINITION. The statements for the provers: what each command does to a state that meets the spec's conditions for it, in
the spec's order of chapters; then what holds of every step. -/

open Sys2Proof Sys2Proof.Machine Sys2Proof.Safety

/-- R37: a keeper's SRAM window: its place, its first 256 KiB as the keeper's own SRAM, and the rest, which reads zero and ignores
writes. -/
def Obligations.KeeperSramWindows : Prop :=
  ∀ (h x size v : Nat) (s : State), h < 32 → x < 2 ^ 20 → (size = 1 ∨ size = 2 ∨ size = 4 ∨ size = 8) → x % size = 0 →
    let pa := 0x3F01_0000_0000 + h * 0x10_0000 + x
    let o := kwinOff pa
    let word := h * 2 ^ 15 + x / 8
    let t := s.kwinWrite o size v
    regionOf pa = .ksram
    ∧ (x < 0x40000 → (s.kwinRead o size).1 = s.kword word / 2 ^ (8 * (x % 8)) % 2 ^ (8 * size)
        ∧ (t.kwinRead o size).1 = v % 2 ^ (8 * size) ∧ (∀ j, j ≠ word → t.kword j = s.kword j)
        ∧ t = { s with ksram := t.ksram, ksramBad := t.ksramBad })
    ∧ (0x40000 ≤ x → s.kwinRead o size = (0, false) ∧ t = s)

/-- R50, R51: where a line of DRAM lives. The channel is the line's remainder by 24 plus the base-24 digits of its quotient, so
the 24 lines of one quotient lie in 24 channels, and `lineAt` finds the line of a channel and index; the home is the XOR of
the line number's bytes, and every tile is the home of some line. -/
def Obligations.LinesHaveOneChannelAndHome : Prop :=
  (∀ q r, q < 2 ^ 29 → r < 24 → chanOf (24 * q + r) = (r + ((List.range 7).map (fun i => q / 24 ^ i % 24)).sum) % 24)
  ∧ (∀ q a b, q < 2 ^ 29 → a < 24 → b < 24 → chanOf (24 * q + a) = chanOf (24 * q + b) → a = b)
  ∧ (∀ ch q, ch < 24 → q < 2 ^ 29 → chanOf (lineAt ch q) = ch ∧ lineAt ch q / 24 = q)
  ∧ (∀ L, homeOf L = (L % 256) ^^^ (L / 2 ^ 8 % 256) ^^^ (L / 2 ^ 16 % 256) ^^^ (L / 2 ^ 24 % 256) ^^^ (L / 2 ^ 32 % 4))
  ∧ ∀ t, t < 256 → ∃ L, L < 256 ∧ homeOf L = t

/-- R101, R102: every two-operand integer operation writes the value the tables give and goes on, on a P-core and on a keeper;
division has its defined corners, and nothing traps. -/
def Obligations.IntegerRegisterResults : Prop :=
  ∀ (a : Agent) (pr : BitVec 4) (rd ra rb : BitVec 5) (s : State), Ready a pr [rd, ra, rb] s →
    let x := s.rgA a ra
    let y := s.rgA a rb
    let n := y.toNat % 64
    let m := y.toNat % 32
    let xw := x.setWidth 32
    let yw := y.setWidth 32
    let ones : W64 := 0xFFFFFFFFFFFFFFFF
    let gives := fun (i : Instr) (v : W64) => exec i s = .next (((s.fillA a).wgA a rd v).retireA a)
    gives (.add a pr rd ra rb) (x + y) ∧ gives (.sub a pr rd ra rb) (x - y)
    ∧ gives (.and a pr rd ra rb) (x &&& y) ∧ gives (.or a pr rd ra rb) (x ||| y)
    ∧ gives (.xor a pr rd ra rb) (x ^^^ y) ∧ gives (.andn a pr rd ra rb) (x &&& ~~~y)
    ∧ gives (.orn a pr rd ra rb) (x ||| ~~~y)
    ∧ gives (.sll a pr rd ra rb) (x <<< n) ∧ gives (.srl a pr rd ra rb) (x >>> n)
    ∧ gives (.sra a pr rd ra rb) (x.sshiftRight n) ∧ gives (.ror a pr rd ra rb) (x.rotateRight n)
    ∧ gives (.addW a pr rd ra rb) ((xw + yw).signExtend 64) ∧ gives (.subW a pr rd ra rb) ((xw - yw).signExtend 64)
    ∧ gives (.sllW a pr rd ra rb) ((xw <<< m).signExtend 64) ∧ gives (.srlW a pr rd ra rb) ((xw >>> m).signExtend 64)
    ∧ gives (.sraW a pr rd ra rb) ((xw.sshiftRight m).signExtend 64)
    ∧ gives (.mul a pr rd ra rb) (BitVec.ofNat 64 (x.toNat * y.toNat))
    ∧ gives (.mulh a pr rd ra rb) ((x.signExtend 128 * y.signExtend 128).extractLsb' 64 64)
    ∧ gives (.mulhu a pr rd ra rb) ((x.setWidth 128 * y.setWidth 128).extractLsb' 64 64)
    ∧ gives (.div a pr rd ra rb) (if y = 0 then ones else BitVec.ofInt 64 (x.toInt.tdiv y.toInt))
    ∧ gives (.divu a pr rd ra rb) (if y = 0 then ones else BitVec.ofNat 64 (x.toNat / y.toNat))
    ∧ gives (.rem a pr rd ra rb) (if y = 0 then x else BitVec.ofInt 64 (x.toInt.tmod y.toInt))
    ∧ gives (.remu a pr rd ra rb) (if y = 0 then x else BitVec.ofNat 64 (x.toNat % y.toNat))
    ∧ gives (.min a pr rd ra rb) (if x.toInt ≤ y.toInt then x else y)
    ∧ gives (.max a pr rd ra rb) (if x.toInt ≤ y.toInt then y else x)
    ∧ gives (.minu a pr rd ra rb) (if x.toNat ≤ y.toNat then x else y)
    ∧ gives (.maxu a pr rd ra rb) (if x.toNat ≤ y.toNat then y else x)
    ∧ (x = 0x8000000000000000 → y = ones → gives (.div a pr rd ra rb) x ∧ gives (.rem a pr rd ra rb) 0)

/-- R101, R102: the counts, extensions and byte reversal. A count of leading or trailing zeros is the number of zero bits that
stand before the first one bit: 64 where there is none. R103: the immediate operations. Every IMM12 is sign-extended; LIK and
LIKU replace 16 bits and keep the rest. -/
def Obligations.IntegerUnaryAndImmediateResults : Prop :=
  (∀ (a : Agent) (pr : BitVec 4) (rd ra : BitVec 5) (s : State), Ready a pr [rd, ra] s →
    let x := s.rgA a ra
    let gives := fun (i : Instr) (v : W64) => exec i s = .next (((s.fillA a).wgA a rd v).retireA a)
    (∃ n, n ≤ 64 ∧ gives (.clz a pr rd ra) (BitVec.ofNat 64 n) ∧ (∀ i, 64 - n ≤ i → i < 64 → x.getLsbD i = false)
      ∧ (n < 64 → x.getLsbD (63 - n) = true))
    ∧ (∃ n, n ≤ 64 ∧ gives (.ctz a pr rd ra) (BitVec.ofNat 64 n) ∧ (∀ i, i < n → x.getLsbD i = false)
      ∧ (n < 64 → x.getLsbD n = true))
    ∧ gives (.popc a pr rd ra) (BitVec.ofNat 64 ((List.range 64).filter (fun i => x.getLsbD i)).length)
    ∧ gives (.sextB a pr rd ra) ((x.setWidth 8).signExtend 64) ∧ gives (.sextH a pr rd ra) ((x.setWidth 16).signExtend 64)
    ∧ gives (.sextW a pr rd ra) ((x.setWidth 32).signExtend 64) ∧ gives (.zextW a pr rd ra) ((x.setWidth 32).setWidth 64)
    ∧ ∃ v, gives (.bswap a pr rd ra) v ∧ ∀ i j, i < 8 → j < 8 → v.getLsbD (8 * i + j) = x.getLsbD (8 * (7 - i) + j))
  ∧ (∀ (a : Agent) (pr : BitVec 4) (rd ra : BitVec 5) (imm : BitVec 12) (sh : BitVec 6) (shw : BitVec 5) (h : Bool)
    (imm16 : BitVec 16) (imm17 : BitVec 17) (s : State), Ready a pr [rd, ra] s →
    let x := s.rgA a ra
    let i12 := imm.signExtend 64
    let xw := x.setWidth 32
    let at16 := if h then 16 else 0
    let gives := fun (i : Instr) (v : W64) => exec i s = .next (((s.fillA a).wgA a rd v).retireA a)
    let inserts := fun (i : Instr) (lo : Nat) => ∃ v, gives i v ∧
      ∀ j, j < 64 → v.getLsbD j = if lo ≤ j ∧ j < lo + 16 then imm16.getLsbD (j - lo) else (s.rgA a rd).getLsbD j
    gives (.addi a pr rd ra imm) (x + i12) ∧ gives (.andi a pr rd ra imm) (x &&& i12)
    ∧ gives (.ori a pr rd ra imm) (x ||| i12) ∧ gives (.xori a pr rd ra imm) (x ^^^ i12)
    ∧ gives (.addiW a pr rd ra imm) ((xw + imm.signExtend 32).signExtend 64)
    ∧ gives (.slli a pr rd ra sh) (x <<< sh.toNat) ∧ gives (.srli a pr rd ra sh) (x >>> sh.toNat)
    ∧ gives (.srai a pr rd ra sh) (x.sshiftRight sh.toNat) ∧ gives (.rori a pr rd ra sh) (x.rotateRight sh.toNat)
    ∧ gives (.slliW a pr rd ra shw) ((xw <<< shw.toNat).signExtend 64)
    ∧ gives (.srliW a pr rd ra shw) ((xw >>> shw.toNat).signExtend 64)
    ∧ gives (.sraiW a pr rd ra shw) ((xw.sshiftRight shw.toNat).signExtend 64)
    ∧ gives (.liz a pr rd h imm16) (BitVec.ofNat 64 (imm16.toNat * 2 ^ at16))
    ∧ gives (.lin a pr rd h imm16) (~~~(BitVec.ofNat 64 (imm16.toNat * 2 ^ at16)))
    ∧ inserts (.lik a pr rd h imm16) at16 ∧ inserts (.liku a pr rd h imm16) (32 + at16)
    ∧ gives (.addpc a pr rd imm17) ((s.pcA a &&& ~~~(0xFFF : W64)) + (imm17.signExtend 64) <<< 12))

/-- R92, R93: what writing a general register leaves: that register holds the value (register 0 discards it and reads zero), every
other register of the agent, its pc, and the rest of the machine stay. What a P-core instruction's retirement leaves (R55, R66,
R69): the pc takes the next address, and nothing that software sees but the translation buffers changes, which only the walks the
instruction used enter; entries of the shadow fill buffer and of the walk buffer only leave. What fetching leaves of a keeper
(R315): its prefetch queue alone changes, and holds the word at the pc. -/
def Obligations.RegisterWriteFrame : Prop :=
  ∀ (a : Agent) (r q : BitVec 5) (v : W64) (s : State),
    (s.wgA a r v).rgA a q = (if q = r ∧ r ≠ 0 then v else s.rgA a q) ∧ s.rgA a 0 = 0
    ∧ (s.wgA a r v).pcA a = s.pcA a ∧ ((s.wgA a r v).retireA a).rgA a q = (s.wgA a r v).rgA a q
    ∧ (match a with
       | .core c => ((s.wgA a r v).retireA a).pcA a = pcMask (s.pcA a + 4)
          ∧ (s.wgA a r v) = { s with cores := (s.wgA a r v).cores }
          ∧ (s.wgA a r v).core c = { s.core c with g := ((s.wgA a r v).core c).g }
          ∧ ∀ d, s.cix d ≠ s.cix c → (s.wgA a r v).core d = s.core d
       | .keeper h => ((s.keeper h).slot = none → ((s.wgA a r v).retireA a).pcA a = s.pcA a + 4)
          ∧ (s.wgA a r v) = { s with keepers := (s.wgA a r v).keepers }
          ∧ (s.wgA a r v).keeper h = { s.keeper h with k := ((s.wgA a r v).keeper h).k }
          ∧ (∀ g, g ≠ h → (s.wgA a r v).keeper g = s.keeper g)
          ∧ s.fillA a = { s with keepers := (s.fillA a).keepers } ∧ (∀ g, g ≠ h → (s.fillA a).keeper g = s.keeper g)
          ∧ (s.fillA a).keeper h = { s.keeper h with pq := ((s.fillA a).keeper h).pq }
          ∧ ((s.keeper h).queued = true → s.fillA a = s)
          ∧ ((s.keeper h).queued = false → (s.keeper h).pc.toNat % 4 = 0 → ∃ l, ((s.fillA a).keeper h).pq
              = ((s.keeper h).pc.toNat, s.kword (h * 2 ^ 15 + (s.keeper h).pc.toNat / 8) / 2 ^ (8 * ((s.keeper h).pc.toNat % 8)) % 2 ^ 32) :: l))
    ∧ ∀ (k : Core) (next : W64), let k' := k.leave next
      k' = { k with pc := next, commit := false, fill := [], itlb := k'.itlb, dtlb := k'.dtlb, l2tlb := k'.l2tlb, l2big := k'.l2big,
                    walkC := k'.walkC, s2C := k'.s2C, walkB := k'.walkB, sfb := k'.sfb, win := k'.win, retS := k'.retS }
      ∧ (k.fill = [] → k'.itlb = k.itlb ∧ k'.dtlb = k.dtlb ∧ k'.l2tlb = k.l2tlb ∧ k'.l2big = k.l2big ∧ k'.walkC = k.walkC ∧ k'.s2C = k.s2C)
      ∧ (∀ e ∈ k'.sfb, e ∈ k.sfb) ∧ (∀ e ∈ k.sfb, e.prom = true → e ∈ k'.sfb) ∧ (∀ b ∈ k'.walkB, b ∈ k.walkB)
      ∧ k'.win <:+ k.win ∧ (k'.retS = k.retS ∨ k'.retS = k.retR)

/-- R97, R99, R104: compares and predicate operations. The condition enters predicate PD by the mode, p0 reads 1 and discards a
write; PTOG and GTOP move the predicate file. Nothing but the core's destination and its pc changes. -/
def Obligations.CompareAndPredicateResults : Prop :=
  ∀ (c : Nat) (pr : BitVec 4) (pd pa pb : BitVec 3) (cm : CMode) (ra rb rd : BitVec 5) (w na nb : Bool) (cond : Cond)
    (imm : BitVec 12) (s : State), ReadyP c pr s →
    let k := s.core c
    let cut := fun (x : W64) => if w then x.setWidth 32 |>.setWidth 64 else x
    let int := fun (x : W64) => if w then (x.setWidth 32).toInt else x.toInt
    let c2 := fun (x y : W64) => match cond with
      | .eq => decide (cut x = cut y)
      | .ne => decide (cut x ≠ cut y)
      | .lt => decide (int x < int y)
      | .ge => decide (int x ≥ int y)
      | .ltu => decide ((cut x).toNat < (cut y).toNat)
      | .geu => decide ((cut x).toNat ≥ (cut y).toNat)
      | .tst => decide (cut x &&& cut y ≠ 0)
      | .tstn => decide (cut x &&& cut y = 0)
    let into := fun (v : Bool) => match cm with
      | .set => v
      | .and => k.rp pd.toNat && v
      | .or => k.rp pd.toNat || v
      | .setn => !v
    let writes := fun (i : Instr) (v : Bool) => ∃ t, exec i s = .next t ∧ OnlyCore s t c (fun k => Core.retire { k with p := (t.core c).p })
      ∧ ∀ j, j < 8 → (t.core c).rp j = if j = pd.toNat ∧ j ≠ 0 then v else k.rp j
    let p := k.rp pa.toNat ^^ na
    let q := k.rp pb.toNat ^^ nb
    writes (.cmp c pr pd cm ra rb w cond) (into (c2 (k.rg ra.toNat) (k.rg rb.toNat)))
    ∧ (w = false → cond ≠ .tst → cond ≠ .tstn →
        writes (.cmpi c pr pd cm ra imm cond) (into (c2 (k.rg ra.toNat) (imm.signExtend 64))))
    ∧ writes (.pand c pr pd pa na pb nb) (p && q) ∧ writes (.por c pr pd pa na pb nb) (p || q)
    ∧ writes (.pxor c pr pd pa na pb nb) (p != q)
    ∧ exec (.ptog c pr rd) s
        = .next (s.updCore c (fun k => (k.wg rd.toNat ((k.p ||| 1).setWidth 64)).retire))
    ∧ exec (.gtop c pr ra) s
        = .next (s.updCore c (fun k => Core.retire { k with p := (k.rg ra.toNat).setWidth 8 ||| 1 }))

/-- R113, R114, R60: the P-core branches, predicate true. The pc takes the target; BL and JALR write the address of the next
instruction to their link and push it on the retired return stack; RET pops it. Beside these only predictor state changes, and
what retirement lets go; where no branch is left in flight the speculative return stack is the retired one (R60). R58, R61, R98: a P-core branch whose predicate is false falls
through: it counts as not taken, writes no link and pushes nothing. R124, R125: the keeper's branches. A transfer goes to the
target after the slot, or at once with SK; a condition that fails lets the slot and the word after it run. JL links to k15 and
JX to KD, the branch's address + 8. -/
def Obligations.BranchesTransfer : Prop :=
  (∀ (c : Nat) (pr : BitVec 4) (imm : BitVec 22) (rd ra : BitVec 5) (s : State), ReadyP c pr s →
    let k := s.core c
    let link := pcMask (k.pc + 4)
    let rel := pcMask (k.pc + BitVec.ofInt 64 (4 * imm.toInt))
    let target := fun (x : W64) => x &&& 0x0FFFFFFFFFFFFFFC
    let push := fun (l : List W64) => (l ++ [link]).drop (l.length + 1 - 32)
    let jumps := fun (i : Instr) (tgt : W64) (reg : Nat) (retR : List W64) => ∃ t, exec i s = .next t
      ∧ OnlyCore s t c (fun k => { { k.wg reg link with retR := retR }.leave tgt with
          dirT := (t.core c).dirT, btb := (t.core c).btb, btbLru := (t.core c).btbLru, retS := (t.core c).retS })
      ∧ (t.core c).pc = tgt ∧ ((t.core c).win.any WinE.isBranch = false → (t.core c).retS = retR)
    jumps (.b c pr imm) rel 0 k.retR ∧ jumps (.bl c pr imm) rel 31 (push k.retR)
    ∧ jumps (.jr c pr ra) (target (k.rg ra.toNat)) 0 k.retR
    ∧ (rd ≠ 0 → jumps (.jalr c pr rd ra) (target (k.rg ra.toNat)) rd.toNat (push k.retR))
    ∧ jumps (.ret c pr) (target (k.rg 31)) 0 k.retR.dropLast)
  ∧ (∀ (c : Nat) (pr : BitVec 4) (imm : BitVec 22) (rd ra : BitVec 5) (s : State),
    s.canIssue c = true → pr ≠ 8 → (s.core c).predOk pr = false → rd ≠ 0 →
    let k := s.core c
    let i := k.pc.toNat / 4 % 2 ^ 14
    ∀ x : Instr, (x = .b c pr imm ∨ x = .bl c pr imm ∨ x = .jr c pr ra ∨ x = .jalr c pr rd ra ∨ x = .ret c pr) →
      ∃ t, exec x s = .next t ∧ OnlyCore s t c (fun k => { k.retire with dirT := (t.core c).dirT, retS := (t.core c).retS })
        ∧ (Tbl.get 1 (t.core c).dirT i).toNat = (Tbl.get (1 : BitVec 2) k.dirT i).toNat - 1
        ∧ ∀ j, j ≠ i → Tbl.get (1 : BitVec 2) (t.core c).dirT j = Tbl.get 1 k.dirT j)
  ∧ (∀ (h : Nat) (sk : Bool) (cond : Cond) (ka kb kd : BitVec 5) (o12 : BitVec 12) (o22 : BitVec 22) (s : State),
    ReadyK h s → (s.keeper h).slot = none → ka.toNat < 16 → kb.toNat < 16 → kd.toNat < 16 →
    let k := s.keeper h
    let ends := fun (i : Instr) (k1 : Keeper) => ∃ t, exec i s = .next t ∧ t = { s with keepers := t.keepers }
      ∧ (∀ g, g ≠ h → t.keeper g = s.keeper g) ∧ t.keeper h = { k1 with pq := (t.keeper h).pq, issued := k.issued + 1 }
    let goes := fun (i : Instr) (reg : Nat) (tgt : W64) =>
      let k1 := k.wg reg (k.pc + 8)
      ends i (if sk then { k1 with pc := tgt } else { k1 with pc := k.pc + 4, slot := some (k.pc, tgt) })
    (cond.holds (k.rg ka.toNat) (k.rg kb.toNat) = true →
        goes (.bc h sk cond ka kb o12) 0 (k.pc + BitVec.ofInt 64 (4 * o12.toInt)))
    ∧ (cond.holds (k.rg ka.toNat) (k.rg kb.toNat) = false →
        ends (.bc h sk cond ka kb o12) { k with pc := k.pc + 4, slot := some (k.pc, k.pc + 8) })
    ∧ goes (.j h sk o22) 0 (k.pc + BitVec.ofInt 64 (4 * o22.toInt))
    ∧ goes (.jl h sk o22) 15 (k.pc + BitVec.ofInt 64 (4 * o22.toInt))
    ∧ (kd ≠ ka ∨ kd = 0 → goes (.jx h sk kd ka) kd.toNat (k.rg ka.toNat &&& ~~~(3 : W64))))

/-- R56, R97, R98: a P-core instruction whose predicate is false retires and does nothing else: no register, predicate, memory or
control-register effect, no trap, no privilege check. (Branches have a statement of their own: they also count as not taken.) -/
def Obligations.FalsePredicateOnlyRetires : Prop :=
  ∀ (pr key op : BitVec 4) (rd ra rb shw vd va vb vc n : BitVec 5) (imm cr : BitVec 12) (sh : BitVec 6)
    (h w na nb sc aq rl sz st : Bool) (imm16 : BitVec 16) (imm17 : BitVec 17) (c : Nat) (pd pa pb size : BitVec 3)
    (cm : CMode) (cond : Cond) (size2 ord ft sz2 : BitVec 2) (code : BitVec 10) (ty : VTy) (imm9 : BitVec 9) (s : State),
    s.canIssue c = true → pr ≠ 8 → (s.core c).predOk pr = false →
    let idle := fun (i : Instr) => exec i s = .next (s.updCore c Core.retire)
    idle (.add (.core c) pr rd ra rb) ∧ idle (.sub (.core c) pr rd ra rb) ∧ idle (.and (.core c) pr rd ra rb)
    ∧ idle (.or (.core c) pr rd ra rb) ∧ idle (.xor (.core c) pr rd ra rb) ∧ idle (.andn (.core c) pr rd ra rb)
    ∧ idle (.orn (.core c) pr rd ra rb) ∧ idle (.sll (.core c) pr rd ra rb) ∧ idle (.srl (.core c) pr rd ra rb)
    ∧ idle (.sra (.core c) pr rd ra rb) ∧ idle (.ror (.core c) pr rd ra rb) ∧ idle (.addW (.core c) pr rd ra rb)
    ∧ idle (.subW (.core c) pr rd ra rb) ∧ idle (.sllW (.core c) pr rd ra rb) ∧ idle (.srlW (.core c) pr rd ra rb)
    ∧ idle (.sraW (.core c) pr rd ra rb) ∧ idle (.mul (.core c) pr rd ra rb) ∧ idle (.mulh (.core c) pr rd ra rb)
    ∧ idle (.mulhu (.core c) pr rd ra rb) ∧ idle (.div (.core c) pr rd ra rb) ∧ idle (.divu (.core c) pr rd ra rb)
    ∧ idle (.rem (.core c) pr rd ra rb) ∧ idle (.remu (.core c) pr rd ra rb) ∧ idle (.min (.core c) pr rd ra rb)
    ∧ idle (.max (.core c) pr rd ra rb) ∧ idle (.minu (.core c) pr rd ra rb) ∧ idle (.maxu (.core c) pr rd ra rb)
    ∧ idle (.clz (.core c) pr rd ra) ∧ idle (.ctz (.core c) pr rd ra) ∧ idle (.popc (.core c) pr rd ra)
    ∧ idle (.sextB (.core c) pr rd ra) ∧ idle (.sextH (.core c) pr rd ra) ∧ idle (.sextW (.core c) pr rd ra)
    ∧ idle (.zextW (.core c) pr rd ra) ∧ idle (.bswap (.core c) pr rd ra) ∧ idle (.addi (.core c) pr rd ra imm)
    ∧ idle (.andi (.core c) pr rd ra imm) ∧ idle (.ori (.core c) pr rd ra imm) ∧ idle (.xori (.core c) pr rd ra imm)
    ∧ idle (.addiW (.core c) pr rd ra imm) ∧ idle (.slli (.core c) pr rd ra sh) ∧ idle (.srli (.core c) pr rd ra sh)
    ∧ idle (.srai (.core c) pr rd ra sh) ∧ idle (.rori (.core c) pr rd ra sh) ∧ idle (.slliW (.core c) pr rd ra shw)
    ∧ idle (.srliW (.core c) pr rd ra shw) ∧ idle (.sraiW (.core c) pr rd ra shw)
    ∧ idle (.liz (.core c) pr rd h imm16) ∧ idle (.lin (.core c) pr rd h imm16) ∧ idle (.lik (.core c) pr rd h imm16)
    ∧ idle (.liku (.core c) pr rd h imm16) ∧ idle (.addpc (.core c) pr rd imm17) ∧ idle (.cmp c pr pd cm ra rb w cond)
    ∧ (cond ≠ .tst → cond ≠ .tstn → idle (.cmpi c pr pd cm ra imm cond)) ∧ idle (.pand c pr pd pa na pb nb)
    ∧ idle (.por c pr pd pa na pb nb) ∧ idle (.pxor c pr pd pa na pb nb) ∧ idle (.ptog c pr rd) ∧ idle (.gtop c pr ra)
    ∧ idle (.ldB (.core c) pr rd ra imm) ∧ idle (.ldBs (.core c) pr rd ra imm) ∧ idle (.ldH (.core c) pr rd ra imm)
    ∧ idle (.ldHs (.core c) pr rd ra imm) ∧ idle (.ldW (.core c) pr rd ra imm) ∧ idle (.ldWs (.core c) pr rd ra imm)
    ∧ idle (.ldD (.core c) pr rd ra imm) ∧ (size ≠ 7 → idle (.ldx (.core c) pr rd ra rb size sc aq))
    ∧ idle (.stB (.core c) pr rd ra imm) ∧ idle (.stH (.core c) pr rd ra imm) ∧ idle (.stW (.core c) pr rd ra imm)
    ∧ idle (.stD (.core c) pr rd ra imm) ∧ idle (.stx (.core c) pr rd ra rb size2 sc rl) ∧ idle (.stlkW c pr rd ra)
    ∧ idle (.stlkL c pr rd ra) ∧ idle (.ldlkW c pr rd ra) ∧ idle (.ldlkL c pr rd ra) ∧ idle (.key c pr rd ra rb)
    ∧ idle (.keyi c pr rd ra key) ∧ idle (.atmSwap (.core c) pr rd ra rb ord sz)
    ∧ idle (.atmCas (.core c) pr rd ra rb ord sz) ∧ idle (.atmAdd (.core c) pr rd ra rb ord sz)
    ∧ idle (.atmAnd (.core c) pr rd ra rb ord sz) ∧ idle (.atmOr (.core c) pr rd ra rb ord sz)
    ∧ idle (.atmXor (.core c) pr rd ra rb ord sz) ∧ idle (.atmMin (.core c) pr rd ra rb ord sz)
    ∧ idle (.atmMax (.core c) pr rd ra rb ord sz) ∧ idle (.atmMinu (.core c) pr rd ra rb ord sz)
    ∧ idle (.atmMaxu (.core c) pr rd ra rb ord sz) ∧ idle (.fenceLl (.core c) pr) ∧ idle (.fenceLs (.core c) pr)
    ∧ idle (.fenceSl (.core c) pr) ∧ idle (.fenceSs (.core c) pr) ∧ idle (.fence (.core c) pr)
    ∧ idle (.fenceIo (.core c) pr) ∧ idle (.sync (.core c) pr) ∧ idle (.syncI (.core c) pr) ∧ idle (.clWb c pr ra)
    ∧ idle (.clInv c pr ra) ∧ idle (.clWbi c pr ra) ∧ idle (.prefR c pr ra) ∧ idle (.prefW c pr ra)
    ∧ idle (.calls (.core c) pr code) ∧ idle (.callm c pr code) ∧ idle (.brk (.core c) pr code)
    ∧ idle (.tret (.core c) pr) ∧ idle (.waitev (.core c) pr) ∧ idle (.tlbiVa c pr ra) ∧ idle (.tlbiAll c pr)
    ∧ idle (.tlbiAllg c pr) ∧ idle (.tlbiS2 c pr ra) ∧ idle (.tlbiS2all c pr) ∧ idle (.crx (.core c) pr rd ra cr)
    ∧ idle (.crset (.core c) pr rd ra cr) ∧ idle (.crclr (.core c) pr rd ra cr)
    ∧ (ty.isF = false → idle (.vint c pr vd va vb ty op))
    ∧ (vfpLegal ty op vb = true → idle (.vfp c pr vd va vb ty op))
    ∧ (vfpLegal ty op vb = true → idle (.fps c pr vd va vb ty op)) ∧ idle (.vfma c pr vd va vb vc ft)
    ∧ idle (.vfms c pr vd va vb vc ft) ∧ idle (.vld c pr vd ra imm) ∧ idle (.vst c pr vd ra imm)
    ∧ (sz2 ≠ 0 → idle (.vls c pr vd ra st sz2 imm9)) ∧ idle (.vsel c pr vd va vb ty) ∧ idle (.vbcast c pr vd ra ty)
    ∧ (n.toNat < ty.lanes → idle (.vins c pr vd ra n ty)) ∧ (n.toNat < ty.lanes → idle (.vext c pr rd va n ty))
    ∧ idle (.vperm c pr vd va vb ty) ∧ idle (.vsum c pr vd va ty) ∧ idle (.vmaxr c pr vd va ty)
    ∧ idle (.vminr c pr vd va ty) ∧ (ty.isF = false → ty ≠ .i8 → idle (.vcvtIf c pr vd va ty))
    ∧ (ty.isF = true → idle (.vcvtFi c pr vd va ty)) ∧ (ty = .f16 ∨ ty = .f32 → idle (.vcvtW c pr vd va ty))
    ∧ (ty = .f32 ∨ ty = .f64 → idle (.vcvtN c pr vd va ty)) ∧ idle (.vmov c pr vd va ty) ∧ idle (.vpred c pr pd va ty)

/-- R130, R132, R133: CALLS, CALLM and BRK on a P-core take their exception (3, 4, 5) to M, or to S where M_EDELEG delegates it
and the core is below M (CALLM's is never delegated). The level's registers save the next address, the cause with the code, interrupt enable and privilege;
the pc takes the vector; registers and memory stay. R325, R326, R333: CALLS and BRK on a keeper that is not in a trap, outside
a delay slot: TPC, TCAUSE and KSTATUS save the next address, the cause with its code, and the enable and module bits; the pc
takes TVEC as pending writes leave it. A module that takes a trap other than CALLS 0 is unloaded. -/
def Obligations.CallsTakeTheirTrap : Prop :=
  (∀ (c : Nat) (pr : BitVec 4) (code : BitVec 10) (s : State), ReadyP c pr s →
    let k := s.core c
    let enters := fun (i : Instr) (n : Nat) => ∃ t, exec i s = .next t ∧
      let m := !((k.cr0 0xC0A).getLsbD n) || n == 4 || k.priv == .M
      let base := if m then 0xC00 else 0x400
      let k' := t.core c
      t = { s with cores := t.cores } ∧ (∀ d, s.cix d ≠ s.cix c → t.core d = s.core d)
      ∧ k'.priv = (if m then .M else .S) ∧ k'.pc = k.cr0 (base + 1) &&& 0x0FFFFFFFFFFFFFFC
      ∧ k'.cr0 (base + 2) = pcMask (k.pc + 4) ∧ k'.cr0 (base + 3) = BitVec.ofNat 64 (n + code.toNat * 2 ^ 24)
      ∧ k'.cr0 (base + 4) = 0 ∧ (k'.cr0 base).getLsbD 0 = false ∧ (k'.cr0 base).getLsbD 1 = (k.cr0 base).getLsbD 0
      ∧ (if m then bits (k'.cr0 base).toNat 2 2 = k.priv.code else (k'.cr0 base).getLsbD 2 = (k.priv != .U))
      ∧ k'.g = k.g ∧ k'.p = k.p ∧ k'.v = k.v ∧ k'.sb = k.sb ∧ k'.win = []
      ∧ ∀ j, j ≠ base → j ≠ base + 1 → j ≠ base + 2 → j ≠ base + 3 → j ≠ base + 4 → j ≠ 0xC05 → k'.cr0 j = k.cr0 j
    enters (.calls (.core c) pr code) 3 ∧ enters (.brk (.core c) pr code) 5
    ∧ (k.priv ≠ .U → enters (.callm c pr code) 4))
  ∧ (∀ (h : Nat) (code : BitVec 10) (s : State), ReadyK h s → (s.keeper h).slot = none → (s.keeper h).exl = false →
    let k := s.keeper h
    let enters := fun (i : Instr) (n : Nat) => ∃ t, exec i s = .next t ∧
      let k' := t.keeper h
      k'.pc = ((Tbl.get none k.crP 0x801).getD (k.cr0 0x801)) &&& ~~~(3 : W64)
      ∧ k'.cr0 0x802 = k.pc + 4 ∧ k'.cr0 0x803 = 0 ∧ k'.cr0 0x804 = BitVec.ofNat 64 (n + code.toNat * 2 ^ 13)
      ∧ k'.cr0 0x805 = 0 ∧ k'.exl = true ∧ k'.ie = false ∧ k'.modMode = false
      ∧ (k'.cr0 0x800).getLsbD 1 = k.ie ∧ (k'.cr0 0x800).getLsbD 3 = k.modMode ∧ k'.k = k.k ∧ t.ksram = s.ksram
      ∧ (k.modMode = false → t = { s with keepers := t.keepers })
      ∧ (k.modMode = true → ¬(n = 3 ∧ code = 0) → k'.mod = none ∧ t.f (R.HIV_KMOD_STAT_STATUS h) = 0)
    enters (.calls (.keeper h) 0 code) 3 ∧ enters (.brk (.keeper h) 0 code) 5)

/-- R135, R484: TRET on a P-core above U returns to the saved address and privilege and restores the interrupt enable, and an
interrupt that can be taken then is recognised before any instruction there; on a tile
that a parked domain holds, a return that would leave M halts the core at the TRET instead. R326, R324: TRET on a keeper
outside module mode and outside a delay slot: pending writes apply, the pc takes TPC, KSTATUS takes back the enable and module
bits and leaves the trap level, and an interrupt that can be taken then comes first. -/
def Obligations.ReturnsFromTrap : Prop :=
  (∀ (c : Nat) (pr : BitVec 4) (s : State), ReadyP c pr s → (s.core c).priv ≠ .U →
    let k := s.core c
    let m := k.priv == .M
    let base := if m then 0xC00 else 0x400
    let st := k.cr0 base
    let lv : Priv := if m then (match bits st.toNat 2 2 with | 0 => .U | 1 => .S | _ => .M)
      else (if st.getLsbD 2 then .S else .U)
    (Tbl.get 0 s.tilePark (c / 2) ≠ 1 ∨ lv = .M → ∃ t, exec (.tret (.core c) pr) s = .next t ∧
      let k' := t.core c
      t = { s with cores := t.cores } ∧ (∀ d, s.cix d ≠ s.cix c → t.core d = s.core d)
      ∧ k'.pc = k.cr0 (base + 2) &&& 0x0FFFFFFFFFFFFFFC ∧ k'.priv = lv
      ∧ (k'.cr0 base).getLsbD 0 = st.getLsbD 1 ∧ (k'.cr0 base).getLsbD 1 = true ∧ (k'.cr0 base).getLsbD 2 = false
      ∧ k'.recog = (t.intrOf c).isSome
      ∧ k'.g = k.g ∧ k'.p = k.p ∧ k'.v = k.v ∧ ∀ j, j ≠ base → k'.cr0 j = k.cr0 j)
    ∧ (Tbl.get 0 s.tilePark (c / 2) = 1 → lv ≠ .M → ∃ t, exec (.tret (.core c) pr) s = .next t
      ∧ (t.core c).halt = true ∧ (t.core c).pc = k.pc ∧ (t.core c).priv = k.priv))
  ∧ (∀ (h : Nat) (s : State), ReadyK h s → (s.keeper h).slot = none → (s.keeper h).modMode = false →
    let k := s.keeper h
    ∃ t, exec (.tret (.keeper h) 0) s = .next t ∧ t = { s with keepers := t.keepers }
      ∧ (t.keeper h).pc = k.cr0 0x802 &&& ~~~(3 : W64) ∧ (t.keeper h).exl = false
      ∧ (t.keeper h).ie = (k.cr0 0x800).getLsbD 1 ∧ (t.keeper h).modMode = (k.cr0 0x800).getLsbD 3
      ∧ (t.keeper h).k = k.k ∧ (t.keeper h).crP = [] ∧ (t.keeper h).recog = (t.kIntr (t.keeper h)).isSome
      ∧ (∀ n v, n ∈ kSyncRegs → Tbl.get none k.crP n = some v → (t.keeper h).cr0 n = v)
      ∧ ∀ g, g ≠ h → t.keeper g = s.keeper g)

/-- R148: WAITEV goes on at once where an entry is held or a timer is due (an interrupt that can be taken then is recognised at
the next instruction), and otherwise the core or keeper waits at it. R224,
R115: TLBI, at its level and with older work complete, removes from the core's translation buffers exactly the entries it
names (with those made while stage 1 was off, R221) and its walk buffer, discards what is younger, and the core goes on; no other
core and no memory changes. R116, R117,
R138: CRX, CRSET and CRCLR on a P-core at a sufficient level, for the registers that only hold a value: rd takes the old value
(g0 none), the register takes ra, the union or the difference in its writable bits, and a write discards what is younger; CRSET and
CRCLR with RA = g0 write nothing. -/
def Obligations.WaitTlbAndControlRegisters : Prop :=
  ((∀ (c : Nat) (pr : BitVec 4) (s : State), ReadyP c pr s → (s.core c).priv ≠ .U →
    ((s.core c).priv = .S → (s.core c |>.cr0 0xC0B).getLsbD 0 = false) →
    let k := s.core c
    let due := k.held ≠ [] ∨ s.time ≥ (k.cr0 0xC07).toNat ∨ s.time ≥ (k.cr0 0x406).toNat
    ∃ t, exec (.waitev (.core c) pr) s = .next t
      ∧ (due → OnlyCore s t c (fun k => if (s.intrOf c).isSome then { k.retire.squash with recog := true } else k.retire))
      ∧ (¬ due → OnlyCore s t c (fun k => { k with waitev := true })))
  ∧ ∀ (h : Nat) (s : State), ReadyK h s → (s.keeper h).slot = none → (s.keeper h).modMode = false →
    let k := s.keeper h
    let due := k.held ≠ [] ∨ s.time ≥ (k.cr0 0x808).toNat
    ∃ t, exec (.waitev (.keeper h) 0) s = .next t ∧ t = { s with keepers := t.keepers }
      ∧ (due → t.keeper h = { k with pc := k.pc + 4, recog := (s.kIntr k).isSome, pq := (t.keeper h).pq })
      ∧ (¬ due → t.keeper h = { k with waitev := true, pq := (t.keeper h).pq })
      ∧ ∀ g, g ≠ h → t.keeper g = s.keeper g)
  ∧ (∀ (c : Nat) (pr : BitVec 4) (ra : BitVec 5) (s : State), ReadyP c pr s → s.drained c = true →
    let k := (s.core c).settle
    let x := (k.rg ra.toNat).toNat
    let removes := fun (i : Instr) (gone : TlbE → Prop) (s2gone : S2E → Prop) => ∃ t, exec i s = .next t ∧
      let k' := t.core c
      OnlyCore s t c (fun k => { k.squash.retire with itlb := k'.itlb, dtlb := k'.dtlb, l2tlb := k'.l2tlb,
                                                      l2big := k'.l2big, walkB := [], walkC := [], s2C := k'.s2C })
      ∧ ∀ e, (e ∈ k'.itlb ↔ e ∈ k.itlb ∧ ¬ gone e) ∧ (e ∈ k'.dtlb ↔ e ∈ k.dtlb ∧ ¬ gone e)
        ∧ (e ∈ k'.l2tlb ↔ e ∈ k.l2tlb ∧ ¬ gone e) ∧ (e ∈ k'.l2big ↔ e ∈ k.l2big ∧ ¬ gone e)
        ∧ ∀ y, y ∈ k'.s2C ↔ y ∈ k.s2C ∧ ¬ s2gone y
    (k.priv ≠ .U →
      removes (.tlbiVa c pr ra) (fun e => x % 2 ^ 60 / 2 ^ e.sz * 2 ^ e.sz = e.va ∨ e.byp = true) (fun _ => False)
      ∧ removes (.tlbiAll c pr) (fun e => e.g = false ∨ e.byp = true) (fun _ => False)
      ∧ removes (.tlbiAllg c pr) (fun _ => True) (fun _ => False))
    ∧ (k.priv = .M →
      removes (.tlbiS2 c pr ra) (fun e => x % 2 ^ 46 / 2 ^ e.s2sz * 2 ^ e.s2sz = e.dpa ∨ e.byp = true)
        (fun y => x % 2 ^ 46 / 2 ^ y.sz * 2 ^ y.sz = y.dpa)
      ∧ removes (.tlbiS2all c pr) (fun _ => True) (fun _ => True)))
  ∧ (∀ (c : Nat) (pr : BitVec 4) (rd ra : BitVec 5) (cr : BitVec 12) (s : State), ReadyP c pr s →
    let n := cr.toNat
    let k := s.core c
    n ∈ [0x000, 0x400, 0x401, 0x402, 0x403, 0x404, 0x405, 0x406, 0x407, 0x409, 0xC01, 0xC02, 0xC03, 0xC04, 0xC05, 0xC06,
         0xC07, 0xC08, 0xC0A, 0xC0B, 0xC0C] →
    (k.priv = .M ∨ (k.priv = .S ∧ n < 0xC00) ∨ n < 0x400) →
    let old := k.cr0 n
    let v := k.rg ra.toNat
    let does := fun (i : Instr) (wr : Bool) (new : W64) => ∃ t, exec i s = .next t ∧
      OnlyCore s t c (fun k =>
        let k1 := { k with g := (k.wg rd.toNat old).g, cr := (t.core c).cr }
        (if wr then k1.squash else k1).retire)
      ∧ (t.core c).cr0 n = new ∧ ∀ m, m ≠ n → (t.core c).cr0 m = k.cr0 m
    does (.crx (.core c) pr rd ra cr) true (v &&& crMask n)
    ∧ does (.crset (.core c) pr rd ra cr) (ra != 0) (if ra = 0 then old else (old ||| v) &&& crMask n)
    ∧ does (.crclr (.core c) pr rd ra cr) (ra != 0) (if ra = 0 then old else (old &&& ~~~v) &&& crMask n))

/-- R118, R119: vector operations on integers and on bit patterns, lane by lane: VINT's sixteen operations, and the moves VSEL,
VPERM, VBCAST, VINS, VMOV. Every lane of the destination takes the stated value; no other register, no flag and no memory
changes. R119: VEXT and VPRED read one lane into a general register or a predicate; KEY and KEYI (R108, R161) replace a
pointer's key. -/
def Obligations.VectorIntegerMovesAndKeys : Prop :=
  (∀ (c : Nat) (pr op : BitVec 4) (vd va vb ra n : BitVec 5) (ty : VTy) (s : State), ReadyP c pr s →
    let k := s.core c
    let w := ty.width
    let ln := fun (r : BitVec 5) (i : Nat) => BitVec.ofNat w ((k.rv r.toNat).toNat / 2 ^ (w * i))
    let lanes := fun (i : Instr) (f : Nat → BitVec w) => ∃ t, exec i s = .next t ∧
      OnlyCore s t c (fun k => Core.retire { k with v := (t.core c).v, cr := (t.core c).cr })
      ∧ (∀ m, (t.core c).cr0 m = k.cr0 m) ∧ (∀ q, q ≠ vd.toNat → (t.core c).rv q = k.rv q)
      ∧ ∀ j, j < 256 / w → BitVec.ofNat w (((t.core c).rv vd.toNat).toNat / 2 ^ (w * j)) = f j
    let ones := BitVec.allOnes w
    (ty.isF = false → lanes (.vint c pr vd va vb ty op) (fun i =>
      let x := ln va i
      let y := ln vb i
      match op.toNat with
      | 0 => x + y | 1 => x - y | 2 => x * y
      | 3 => if x.toInt ≤ y.toInt then x else y | 4 => if x.toInt ≤ y.toInt then y else x
      | 5 => if x.toNat ≤ y.toNat then x else y | 6 => if x.toNat ≤ y.toNat then y else x
      | 7 => x &&& y | 8 => x ||| y | 9 => x ^^^ y | 10 => x &&& ~~~y
      | 11 => x <<< (y.toNat % w) | 12 => x >>> (y.toNat % w) | 13 => x.sshiftRight (y.toNat % w)
      | 14 => if x = y then ones else 0
      | _ => if x.toInt > y.toInt then ones else 0))
    ∧ lanes (.vsel c pr vd va vb ty) (fun i => if ln vd i = ones then ln va i else ln vb i)
    ∧ lanes (.vperm c pr vd va vb ty) (fun i => ln va ((ln vb i).toNat % (256 / w)))
    ∧ lanes (.vbcast c pr vd ra ty) (fun _ => (k.rg ra.toNat).setWidth w)
    ∧ (n.toNat < 256 / w → lanes (.vins c pr vd ra n ty) (fun i => if i = n.toNat then (k.rg ra.toNat).setWidth w else ln vd i))
    ∧ lanes (.vmov c pr vd va ty) (fun i => ln va i))
  ∧ (∀ (c : Nat) (pr kk : BitVec 4) (rd va n ra rb : BitVec 5) (pd : BitVec 3) (ty : VTy) (s : State), ReadyP c pr s →
    let k := s.core c
    let w := ty.width
    let lane0 := fun (i : Nat) => (k.rv va.toNat).toNat / 2 ^ (w * i) % 2 ^ w
    let writes := fun (i : Instr) (v : W64) => ∃ t, exec i s = .next t
      ∧ OnlyCore s t c (fun k => Core.retire { k with g := (k.wg rd.toNat v).g })
    (n.toNat < 256 / w → writes (.vext c pr rd va n ty) (BitVec.ofNat 64 (lane0 n.toNat)))
    ∧ (∃ t, exec (.vpred c pr pd va ty) s = .next t
        ∧ OnlyCore s t c (fun k => Core.retire { k with p := (t.core c).p })
        ∧ ∀ j, j < 8 → (t.core c).rp j = if j = pd.toNat ∧ j ≠ 0 then decide (lane0 0 ≠ 0) else k.rp j)
    ∧ writes (.key c pr rd ra rb) (((k.rg rb.toNat).setWidth 4 ++ (k.rg ra.toNat).setWidth 60 : BitVec 64))
    ∧ writes (.keyi c pr rd ra kk) ((kk ++ (k.rg ra.toNat).setWidth 60 : BitVec 64)))

/-- R119, R120, R121: floating-point vector operations. Each lane takes its operation's result under FPCR's rounding mode (the
scalar forms lane 0 and zeros), and the flags the lanes raise stick in FPCR; nothing traps. R121: what the rules fix of
floating-point values: sums and products of small integers are exact, every NaN result is the default quiet NaN, a signalling
operand raises invalid, MIN and MAX put −0 below +0 and prefer a number to a NaN, and a conversion to an integer saturates,
gives 0 for a NaN, and then raises invalid. -/
def Obligations.VectorFloatingPoint : Prop :=
  (∀ (c : Nat) (pr op : BitVec 4) (vd va vb vc : BitVec 5) (ty : VTy) (ft : BitVec 2) (s : State), ReadyP c pr s →
    let k := s.core c
    let w := ty.width
    let rm := k.rm
    let ln := fun (w : Nat) (r : BitVec 5) (i : Nat) => (k.rv r.toNat).toNat / 2 ^ (w * i) % 2 ^ w
    -- `m` lanes of `wo` bits, each with its flags; every other bit of the register zero
    let lanes := fun (i : Instr) (wo m : Nat) (f : Nat → Nat × FF) => ∃ t, exec i s = .next t ∧
      OnlyCore s t c (fun k => Core.retire { k with v := (t.core c).v, cr := (t.core c).cr })
      ∧ (t.core c).cr0 0 = k.cr0 0 ||| (((List.range m).foldl (fun acc j => acc ||| (f j).2) (0 : FF)).zeroExtend 64 <<< 2)
      ∧ (∀ n, n ≠ 0 → (t.core c).cr0 n = k.cr0 n) ∧ (∀ q, q ≠ vd.toNat → (t.core c).rv q = k.rv q)
      ∧ (∀ j, j < m → ((t.core c).rv vd.toNat).toNat / 2 ^ (wo * j) % 2 ^ wo = (f j).1 % 2 ^ wo)
      ∧ ((t.core c).rv vd.toNat).toNat < 2 ^ (wo * m)
    let fw := if ft.getLsbD 0 then 64 else 32
    let fma := fun (neg : Bool) (i : Nat) => fpFma (if ft.getLsbD 0 then f64 else f32) rm neg (ln fw va i) (ln fw vb i) (ln fw vc i)
    let fl := if ft.getLsbD 1 then 1 else 256 / fw
    (vfpLegal ty op vb = true →
      lanes (.vfp c pr vd va vb ty op) w (256 / w) (fun i => fpOp ty.fmt rm op.toNat (ln w va i) (ln w vb i))
      ∧ lanes (.fps c pr vd va vb ty op) w 1 (fun i => fpOp ty.fmt rm op.toNat (ln w va i) (ln w vb i)))
    ∧ lanes (.vfma c pr vd va vb vc ft) fw fl (fma false) ∧ lanes (.vfms c pr vd va vb vc ft) fw fl (fma true)
    ∧ lanes (.vsum c pr vd va ty) w 1 (fun _ => vreduce ty rm 0 (k.rv va.toNat))
    ∧ lanes (.vmaxr c pr vd va ty) w 1 (fun _ => vreduce ty rm 1 (k.rv va.toNat))
    ∧ lanes (.vminr c pr vd va ty) w 1 (fun _ => vreduce ty rm 2 (k.rv va.toNat))
    ∧ (ty.isF = false → ty ≠ .i8 →
        lanes (.vcvtIf c pr vd va ty) w (256 / w) (fun i => fpOfInt (fmtOfWidth w) rm w (ln w va i)))
    ∧ (ty.isF = true → lanes (.vcvtFi c pr vd va ty) w (256 / w) (fun i => fpToInt ty.fmt rm (ln w va i)))
    ∧ (ty = .f16 ∨ ty = .f32 →
        lanes (.vcvtW c pr vd va ty) (2 * w) (128 / w) (fun i => fpConv ty.fmt (fmtOfWidth (2 * w)) rm (ln w va i)))
    ∧ (ty = .f32 ∨ ty = .f64 →
        lanes (.vcvtN c pr vd va ty) (w / 2) (256 / w) (fun i => fpConv ty.fmt (fmtOfWidth (w / 2)) rm (ln w va i))))
  ∧ ((∀ (rm : RM) (x : Nat), (fpUnpack f64 x).isNan = true →
      ∀ y, fpAdd f64 rm x y = (0x7FF8000000000000, if (fpUnpack f64 x).isSig || (fpUnpack f64 y).isSig then ffNV else 0)
        ∧ fpMul f64 rm x y = (0x7FF8000000000000, if (fpUnpack f64 x).isSig || (fpUnpack f64 y).isSig then ffNV else 0)
        ∧ fpToInt f64 rm x = (0, ffNV))
  ∧ (∀ x, (fpUnpack f32 x).isNan = false → x < 2 ^ 32 →
      (fpMinMax f32 true x 0x7FC00000).1 = x ∧ (fpMinMax f32 false 0x7FC00000 x).1 = x)
  ∧ (fpMinMax f32 false 0 0x80000000).1 = 0x80000000 ∧ (fpMinMax f32 true 0x80000000 0).1 = 0
  ∧ (fpMinMax f32 true 0x7FC00001 0x7FC00002).1 = 0x7FC00000
  ∧ fpToInt f32 .nearest 0x4F000000 = (0x7FFFFFFF, ffNV) ∧ fpToInt f32 .nearest 0xCF800000 = (0x80000000, ffNV)
  ∧ fpAdd f32 .nearest 0x3F800000 0x40000000 = (0x40400000, 0) ∧ fpMul f32 .nearest 0x40400000 0xC0000000 = (0xC0C00000, 0)
  ∧ fpAdd f32 .down 0x3F800000 0xBF800000 = (0x80000000, 0) ∧ fpAdd f32 .nearest 0x3F800000 0xBF800000 = (0, 0))

/-- R105, R106, R107, R314, R320: a keeper's loads from its own SRAM. An aligned access within the pages its mode opens, of a word
that is correctable, takes the little-endian bytes at the address, zero- or sign-extended, and goes on; nothing else changes.
R105, R106, R107, R314: a keeper's stores to its own SRAM change exactly the bytes stored to, and the keeper goes on. R109,
R123, R320: every atomic on a keeper's own SRAM: the word takes the operation's value, rd the old value, sign-extended, in one
step; no other word changes. -/
def Obligations.KeeperSramAccesses : Prop :=
  (∀ (h : Nat) (rd ra rb : BitVec 5) (imm : BitVec 12) (size : BitVec 3) (sc aq : Bool) (o : Nat) (s : State),
    ReadyK h s → rd.toNat < 16 → ra.toNat < 16 → rb.toNat < 16 → o < 0x40000 →
    let k := s.keeper h
    let u := s.kFill h
    let loads := fun (i : Instr) (ea : W64) (n : Nat) (sx : Bool) =>
      ea.toNat = 0x3F0100000000 + h * 2 ^ 20 + o → o % n = 0 →
      (k.modMode = true → bits (k.cr0 0x80C).toNat 0 6 ≤ o / 4096 ∧ o / 4096 ≤ bits (k.cr0 0x80C).toNat 8 6) →
      h * 2 ^ 15 + o / 8 ∉ s.ksramBad →
      let v := s.kword (h * 2 ^ 15 + o / 8) / 2 ^ (8 * (o % 8)) % 2 ^ (8 * n)
      exec i s = .next ((u.setKeeper h ((u.keeper h).wg rd.toNat
        (if sx then (BitVec.ofNat (8 * n) v).signExtend 64 else BitVec.ofNat 64 v))).retireK h)
    let ea := k.rg ra.toNat + imm.signExtend 64
    let a := Agent.keeper h
    loads (.ldB a 0 rd ra imm) ea 1 false ∧ loads (.ldBs a 0 rd ra imm) ea 1 true ∧ loads (.ldH a 0 rd ra imm) ea 2 false
    ∧ loads (.ldHs a 0 rd ra imm) ea 2 true ∧ loads (.ldW a 0 rd ra imm) ea 4 false ∧ loads (.ldWs a 0 rd ra imm) ea 4 true
    ∧ loads (.ldD a 0 rd ra imm) ea 8 false
    ∧ (size ≠ 7 → loads (.ldx a 0 rd ra rb size sc aq)
        (k.rg ra.toNat + k.rg rb.toNat <<< (if sc then size.toNat / 2 else 0)) (2 ^ (size.toNat / 2)) (size.getLsbD 0)))
  ∧ (∀ (h : Nat) (rd ra rb : BitVec 5) (imm : BitVec 12) (size : BitVec 2) (sc rl : Bool) (o : Nat) (s : State),
    ReadyK h s → rd.toNat < 16 → ra.toNat < 16 → rb.toNat < 16 → o < 0x40000 →
    let k := s.keeper h
    let stores := fun (i : Instr) (ea : W64) (n : Nat) =>
      ea.toNat = 0x3F0100000000 + h * 2 ^ 20 + o → o % n = 0 →
      (k.modMode = true → bits (k.cr0 0x80C).toNat 0 6 ≤ o / 4096 ∧ o / 4096 ≤ bits (k.cr0 0x80C).toNat 8 6) →
      ∃ t, exec i s = .next t ∧ t = { s with keepers := t.keepers, ksram := t.ksram, ksramBad := t.ksramBad }
        ∧ (∀ g, g ≠ h → t.keeper g = s.keeper g)
        ∧ t.keeper h = { k.retire with pq := (t.keeper h).pq, issued := k.issued + 1 }
        ∧ (∀ w, w ≠ h * 2 ^ 15 + o / 8 → t.kword w = s.kword w ∧ (w ∈ t.ksramBad ↔ w ∈ s.ksramBad))
        ∧ ∀ j, j < 8 → t.kword (h * 2 ^ 15 + o / 8) / 256 ^ j % 256 =
            if o % 8 ≤ j ∧ j < o % 8 + n then (k.rg rd.toNat).toNat / 256 ^ (j - o % 8) % 256
            else s.kword (h * 2 ^ 15 + o / 8) / 256 ^ j % 256
    let ea := k.rg ra.toNat + imm.signExtend 64
    let a := Agent.keeper h
    stores (.stB a 0 rd ra imm) ea 1 ∧ stores (.stH a 0 rd ra imm) ea 2 ∧ stores (.stW a 0 rd ra imm) ea 4
    ∧ stores (.stD a 0 rd ra imm) ea 8
    ∧ stores (.stx a 0 rd ra rb size sc rl) (k.rg ra.toNat + k.rg rb.toNat <<< (if sc then size.toNat else 0)) (2 ^ size.toNat))
  ∧ (∀ (h : Nat) (rd ra rb : BitVec 5) (ord : BitVec 2) (sz : Bool) (o : Nat) (s : State),
    ReadyK h s → rd.toNat < 16 → ra.toNat < 16 → rb.toNat < 16 → o < 0x40000 →
    let k := s.keeper h
    let n := if sz then 8 else 4
    let w := 8 * n
    (k.rg ra.toNat).toNat = 0x3F0100000000 + h * 2 ^ 20 + o → o % n = 0 →
    (k.modMode = true → bits (k.cr0 0x80C).toNat 0 6 ≤ o / 4096 ∧ o / 4096 ≤ bits (k.cr0 0x80C).toNat 8 6) →
    h * 2 ^ 15 + o / 8 ∉ s.ksramBad →
    let word := fun (t : State) => BitVec.ofNat w (t.kword (h * 2 ^ 15 + o / 8) / 2 ^ (8 * (o % 8)))
    let x := word s
    let y := (k.rg rb.toNat).setWidth w
    let z := (k.rg rd.toNat).setWidth w
    let does := fun (i : Instr) (new : BitVec w) => ∃ t, exec i s = .next t ∧ word t = new
      ∧ t = { s with keepers := t.keepers, ksram := t.ksram, ksramBad := t.ksramBad } ∧ (∀ g, g ≠ h → t.keeper g = s.keeper g)
      ∧ t.keeper h = { (k.wg rd.toNat (x.signExtend 64)).retire with pq := (t.keeper h).pq, issued := k.issued + 1 }
      ∧ ∀ j, j ≠ h * 2 ^ 15 + o / 8 → t.kword j = s.kword j
    let a := Agent.keeper h
    does (.atmSwap a 0 rd ra rb ord sz) y ∧ does (.atmCas a 0 rd ra rb ord sz) (if x = z then y else x)
    ∧ does (.atmAdd a 0 rd ra rb ord sz) (x + y) ∧ does (.atmAnd a 0 rd ra rb ord sz) (x &&& y)
    ∧ does (.atmOr a 0 rd ra rb ord sz) (x ||| y) ∧ does (.atmXor a 0 rd ra rb ord sz) (x ^^^ y)
    ∧ does (.atmMin a 0 rd ra rb ord sz) (if x.toInt ≤ y.toInt then x else y)
    ∧ does (.atmMax a 0 rd ra rb ord sz) (if x.toInt ≤ y.toInt then y else x)
    ∧ does (.atmMinu a 0 rd ra rb ord sz) (if x.toNat ≤ y.toNat then x else y)
    ∧ does (.atmMaxu a 0 rd ra rb ord sz) (if x.toNat ≤ y.toNat then y else x))

/-- R105 to R108, R119, R122, R157, R63, R65, R234: P-core loads of Normal memory. Where the access is aligned and translates with
no mark to set, no fence and no acquire holds it, no store in the core's buffer overlaps it, the tile holds the line and the lock
and poison checks pass, the destination takes the bytes (or locks) of the tile's copy, and the core goes on. No byte of memory and
no cached data changes. Where the tile holds no copy and none is on its way, the load waits at its commit point for the line that
it asks for. -/
def Obligations.NormalLoads : Prop :=
  ∀ (c : Nat) (pr : BitVec 4) (rd ra rb vd : BitVec 5) (imm : BitVec 12) (imm9 : BitVec 9) (size : BitVec 3) (sz : BitVec 2)
    (sc aq : Bool) (pa : Nat) (d : LineD) (s s1 : State), ReadyP c pr s → s.mayLoad c = true →
    let k := s.core c
    let k1 := s1.core c
    let x := s1.l2 (c / 2) (pa / 64)
    let loads := fun (i : Instr) (ea : W64) (n : Nat) (lk : LockReq) (dst : Core → Core) =>
      ea.toNat % n = 0 → s.xlate c ea .load = .ok pa .normal false s1 → fwdOf k1.sb false pa n = .none →
      (s1.tileCopy (c / 2) (pa / 64) = some d → checkRead d lk (pa % 64) n = .ok →
        ∃ t, exec i s = .next t ∧ t.core c = Core.retire { dst k1 with l1dLru := (t.core c).l1dLru }
          ∧ t.dram = s1.dram ∧ t.ksram = s1.ksram ∧ t.csr = s1.csr ∧ ∀ g M, (t.l2 g M).d = (s1.l2 g M).d)
      ∧ (s1.tileCopy (c / 2) (pa / 64) = none → x.st.transient = false → exec i s = .next (s1.waitLine c (pa / 64)))
    let val := fun (n : Nat) (sx : Bool) => let v := d.read (pa % 64) n
      if sx then (BitVec.ofNat (8 * n) v).signExtend 64 else BitVec.ofNat 64 v
    let toG := fun (n : Nat) (sx : Bool) (y : Core) => y.wg rd.toNat (val n sx)
    let ea := k.rg ra.toNat + imm.signExtend 64
    let a := Agent.core c
    let lk := s1.lockReq c
    loads (.ldB a pr rd ra imm) ea 1 (lk ea) (toG 1 false) ∧ loads (.ldBs a pr rd ra imm) ea 1 (lk ea) (toG 1 true)
    ∧ loads (.ldH a pr rd ra imm) ea 2 (lk ea) (toG 2 false) ∧ loads (.ldHs a pr rd ra imm) ea 2 (lk ea) (toG 2 true)
    ∧ loads (.ldW a pr rd ra imm) ea 4 (lk ea) (toG 4 false) ∧ loads (.ldWs a pr rd ra imm) ea 4 (lk ea) (toG 4 true)
    ∧ loads (.ldD a pr rd ra imm) ea 8 (lk ea) (toG 8 false)
    ∧ (size ≠ 7 → (aq = true → k.sb.any (·.rel) = false ∧ k.posted.any (fun p => p.rel && !p.done) = false) →
        let e := k.rg ra.toNat + k.rg rb.toNat <<< (if sc then size.toNat / 2 else 0)
        loads (.ldx a pr rd ra rb size sc aq) e (2 ^ (size.toNat / 2)) (lk e) (toG (2 ^ (size.toNat / 2)) (size.getLsbD 0)))
    ∧ (let e := k.rg ra.toNat + BitVec.ofInt 64 (32 * imm.toInt)
       loads (.vld c pr vd ra imm) e 32 (lk e) (fun y => y.wv vd.toNat (BitVec.ofNat 256 (d.read (pa % 64) 32))))
    ∧ (sz ≠ 0 → let e := k.rg ra.toNat + BitVec.ofInt 64 (2 ^ sz.toNat * imm9.toInt)
       loads (.vls c pr vd ra false sz imm9) e (2 ^ sz.toNat) (lk e)
         (fun y => y.wv vd.toNat (BitVec.ofNat 256 (d.read (pa % 64) (2 ^ sz.toNat)))))
    ∧ loads (.ldlkW c pr rd ra) (k.rg ra.toNat) 4 ⟨0, .off, true⟩
        (fun y => y.wg rd.toNat (BitVec.ofNat 64 ((d.locks.toNat / 16 ^ (pa % 64 / 4)) % 16)))
    ∧ loads (.ldlkL c pr rd ra) (k.rg ra.toNat) 64 ⟨0, .off, true⟩ (fun y => y.wg rd.toNat (BitVec.ofNat 64 d.locks.toNat))

/-- R75, R76, R105 to R108, R161: P-core stores and STLK to Normal memory retire into the store buffer. Where the access is
aligned and translates with no mark to set, no fence holds it, the buffer has room, the tile holds the line and the commit-point
check passes, the buffer's last entry holds the address, the size and the register's bytes, and the core goes on. No byte of
memory and no cached data changes yet. Where the tile holds no copy and none is on its way, the store waits for the line whose
locks it reads (the model's choice, notes/assumptions/109.md). -/
def Obligations.NormalStoresEnterTheBuffer : Prop :=
  ∀ (c : Nat) (pr : BitVec 4) (rd ra rb vd : BitVec 5) (imm : BitVec 12) (imm9 : BitVec 9) (size sz : BitVec 2)
    (sc rl : Bool) (pa : Nat) (d : LineD) (s s1 : State), ReadyP c pr s → s.mayStore c = true →
    let k := s.core c
    let k1 := s1.core c
    let stores := fun (i : Instr) (ea : W64) (n : Nat) (kind : SbKind) (data : W256) (release : Bool) =>
      ea.toNat % n = 0 → s.xlate c ea .store = .ok pa .normal false s1 → k1.sb.length < 64 →
      (s1.tileCopy (c / 2) (pa / 64) = some d →
        checkRead { d with locks := commitLocks k1.sb false pa d.locks }
          (if kind = .bytes then s1.lockReq c ea else ⟨0, .off, true⟩) (pa % 64) n = .ok →
        ∃ t e, exec i s = .next t ∧ t.core c = Core.retire { k1 with sb := k1.sb ++ [e] }
          ∧ e.pa = pa ∧ e.gc = false ∧ e.kind = kind ∧ e.size = n ∧ e.data = data ∧ e.rel = release ∧ e.ea = ea ∧ e.pc = k.pc
          ∧ t.dram = s1.dram ∧ t.ksram = s1.ksram ∧ t.csr = s1.csr ∧ ∀ g M, (t.l2 g M).d = (s1.l2 g M).d)
      ∧ (s1.tileCopy (c / 2) (pa / 64) = none → (s1.l2 (c / 2) (pa / 64)).st.transient = false →
        exec i s = .next (s1.waitLine c (pa / 64)))
    let cut := fun (n : Nat) => BitVec.ofNat 256 ((k.rg rd.toNat).toNat % 2 ^ (8 * n))
    let ea := k.rg ra.toNat + imm.signExtend 64
    let a := Agent.core c
    stores (.stB a pr rd ra imm) ea 1 .bytes (cut 1) false ∧ stores (.stH a pr rd ra imm) ea 2 .bytes (cut 2) false
    ∧ stores (.stW a pr rd ra imm) ea 4 .bytes (cut 4) false ∧ stores (.stD a pr rd ra imm) ea 8 .bytes (cut 8) false
    ∧ ((rl = true → k.posted.all (·.done) = true ∧ s.clDone c = true) →
        stores (.stx a pr rd ra rb size sc rl) (k.rg ra.toNat + k.rg rb.toNat <<< (if sc then size.toNat else 0))
          (2 ^ size.toNat) .bytes (cut (2 ^ size.toNat)) rl)
    ∧ stores (.vst c pr vd ra imm) (k.rg ra.toNat + BitVec.ofInt 64 (32 * imm.toInt)) 32 .bytes (k.rv vd.toNat) false
    ∧ (sz ≠ 0 → stores (.vls c pr vd ra true sz imm9) (k.rg ra.toNat + BitVec.ofInt 64 (2 ^ sz.toNat * imm9.toInt))
        (2 ^ sz.toNat) .bytes (BitVec.ofNat 256 ((k.rv vd.toNat).toNat % 2 ^ (8 * 2 ^ sz.toNat))) false)
    ∧ stores (.stlkW c pr rd ra) (k.rg ra.toNat) 4 .lockW (BitVec.ofNat 256 ((k.rg rd.toNat).toNat % 16)) false
    ∧ stores (.stlkL c pr rd ra) (k.rg ra.toNat) 64 .lockL (BitVec.ofNat 256 (k.rg rd.toNat).toNat) false

/-- R109, R188, R190, R248, R254: an atomic of a P-core on Normal memory. Once no fence, no older release and no older store to the
line holds it, it leaves for the line's home as an ATOMIC with its operation and operands, and the core waits. At the home
(`atomLine`) an access that meets no poison and no refused lock writes exactly its operation's value over exactly its bytes, and
leaves every lock. DATA then brings the old value: rd takes it, sign-extended, and the core goes on. -/
def Obligations.NormalAtomics : Prop :=
  (∀ (c : Nat) (pr : BitVec 4) (rd ra rb : BitVec 5) (ord : BitVec 2) (sz : Bool) (pa : Nat) (s s1 : State),
    ReadyP c pr s → s.mayLoad c = true → s.mayStore c = true →
    let k := s.core c
    let ea := k.rg ra.toNat
    let n := if sz then 8 else 4
    ea.toNat % n = 0 → (ord.getLsbD 1 = true → s.drained c = true) →
    (ord.getLsbD 0 = true → k.sb.any (·.rel) = false ∧ k.posted.any (fun p => p.rel && !p.done) = false) →
    s.xlate c ea .atomic = .ok pa .normal false s1 → k.sb.any (fun e => e.pa / 64 == pa / 64) = false →
    s1.lineOut (c / 2) (pa / 64) = false →
    let sends := fun (i : Instr) (op : AtomOp) =>
      let q : AtomReq := ⟨pa % 2 ^ 46, op, n, k.rg rb.toNat, k.rg rd.toNat, s1.lockReq c ea, ord⟩
      let m : Msg := { k := .atomic, L := pa / 64, agent := c / 2, core := s1.cix c, dom := s1.govDom c, at_ := some q }
      exec i s = .next ((s1.updCore c (fun k => { k with
        wait := some ⟨4, 0, .atomic, ea, pa, n, .g rd.toNat n true, s1.lockReq c ea⟩ })).ask m)
    let a := Agent.core c
    sends (.atmSwap a pr rd ra rb ord sz) .swap ∧ sends (.atmCas a pr rd ra rb ord sz) .cas
    ∧ sends (.atmAdd a pr rd ra rb ord sz) .add ∧ sends (.atmAnd a pr rd ra rb ord sz) .and
    ∧ sends (.atmOr a pr rd ra rb ord sz) .or ∧ sends (.atmXor a pr rd ra rb ord sz) .xor
    ∧ sends (.atmMin a pr rd ra rb ord sz) .min ∧ sends (.atmMax a pr rd ra rb ord sz) .max
    ∧ sends (.atmMinu a pr rd ra rb ord sz) .minu ∧ sends (.atmMaxu a pr rd ra rb ord sz) .maxu)
  ∧ (∀ (t c L rd n : Nat) (ea : W64) (pa : Nat) (lk : LockReq) (m : Msg) (s s1 s2 : State), t < 256 → s.seamOpen t = true →
    s.take .data t L = some (m, s1) → m.req ≠ 1 → m.kind = .none → m.d = none → m.stat = 0 → m.core = c →
    s1.answered t L .atomic = some s2 → (s2.core c).mark = none → (s2.core c).wait = some ⟨4, 0, .atomic, ea, pa, n, .g rd n true, lk⟩ →
    exec (.data t L) s = .next ((s2.setCore c { s2.core c with wait := none }).updCore c (fun k =>
      (k.wg rd (extend n true (m.val % 2 ^ 64))).retire)))
  ∧ ∀ (d : LineD) (q : AtomReq), (q.size = 4 ∨ q.size = 8) → q.addr % q.size = 0 →
    spanPoison d.poison (q.addr % 64) q.size = false → lockMiss q.lk d.locks (q.addr % 64) q.size = none →
    let off := q.addr % 64
    let x := BitVec.ofNat (8 * q.size) (d.read off q.size)
    let y := q.opnd.setWidth (8 * q.size)
    let z := q.cmp.setWidth (8 * q.size)
    let new := match q.op with
      | .swap => y | .cas => if x = z then y else x | .add => x + y | .and => x &&& y | .or => x ||| y | .xor => x ^^^ y
      | .min => if x.toInt ≤ y.toInt then x else y | .max => if x.toInt ≤ y.toInt then y else x
      | .minu => if x.toNat ≤ y.toNat then x else y | .maxu => if x.toNat ≤ y.toNat then y else x
    ∃ e, atomLine d q = (e, 0, d.read off q.size, 0) ∧ e.locks = d.locks ∧ e.poison = d.poison ∧ e.read off q.size = new.toNat
      ∧ ∀ j, j < 512 → (j < 8 * off ∨ 8 * (off + q.size) ≤ j) → e.data.getLsbD j = d.data.getLsbD j

/-- R81, R110, R111, R176, R177, R178, R319, R324, R330: fences and synchronisation. FENCE.LL and FENCE.LS go on at once, older
loads being complete. FENCE.SL holds back younger loads, FENCE.SS younger stores, FENCE both, until every older store is in L1D or
answered and every CL acknowledged; where they are, nothing new is held back. FENCE.IO and SYNC wait for that. SYNC discards what is
younger; SYNC.I waits for the store buffer and also empties the core's L1I. On a keeper each goes on, SYNC and SYNC.I apply the
pending register writes, and after SYNC.I every word in the queue is what the SRAM holds. R110, R112, R244: cache maintenance of a
Normal line that no older store or fence holds and for which the tile has nothing outstanding, by the state of the tile's copy: a
dirty line goes to its home (CL.WB keeps the copy, CL.INV and CL.WBI drop it), a clean one asks the home to flush; of a GlobalCached
line, CL.INV drops the copy; of a Host-ordered address nothing; a prefetch only goes on (R68 lets it be ignored: the model's choice).
No lock and no data in memory changes. -/
def Obligations.FencesAndCacheMaintenance : Prop :=
  ((∀ (c : Nat) (pr : BitVec 4) (s : State), ReadyP c pr s →
    let k := s.core c
    let a := Agent.core c
    let on := fun (i : Instr) => exec i s = .next (s.updCore c Core.retire)
    let holds := fun (i : Instr) (l st : Bool) => ∃ t, exec i s = .next t
      ∧ OnlyCore s t c (fun k => Core.retire { k with holds := (t.core c).holds })
      ∧ (s.drained c = true → ∀ x ∈ (t.core c).holds, x ∈ k.holds)
      ∧ t.mayLoad c = (s.mayLoad c && (s.drained c || !l)) ∧ t.mayStore c = (s.mayStore c && (s.drained c || !st))
    on (.fenceLl a pr) ∧ on (.fenceLs a pr)
    ∧ holds (.fenceSl a pr) true false ∧ holds (.fenceSs a pr) false true ∧ holds (.fence a pr) true true
    ∧ (s.drained c = true → on (.fenceIo a pr) ∧ exec (.sync a pr) s = .next (s.updCore c (fun k => k.squash.retire)))
    ∧ (s.drained c = false → exec (.fenceIo a pr) s = .next s ∧ exec (.sync a pr) s = .next s)
    ∧ (k.sb = [] → exec (.syncI a pr) s = .next (s.updCore c (fun k =>
        Core.retire { k.squash with l1i := [], fpend := [] })))
    ∧ (s.drained c = true → k.sb = [] ∧ (∀ p ∈ k.posted, p.done = true) ∧ (∀ r ∈ s.outReq, r.t = c / 2 → r.k ≠ .flush)
        ∧ ∀ L, L < 2 ^ 64 → (s.l2 (c / 2) L).st ≠ .WBP ∧ (s.l2 (c / 2) L).st ≠ .KP))
  ∧ ∀ (h : Nat) (s : State), ReadyK h s →
    let a := Agent.keeper h
    let on := fun (i : Instr) => exec i s = .next ((s.kFill h).retireK h)
    on (.fenceLl a 0) ∧ on (.fenceLs a 0) ∧ on (.fenceSl a 0) ∧ on (.fenceSs a 0) ∧ on (.fence a 0) ∧ on (.fenceIo a 0)
    ∧ ((s.keeper h).slot = none → ∀ i, (i = .sync a 0 ∨ i = .syncI a 0) → ∃ t, exec i s = .next t
        ∧ t = { s with keepers := t.keepers } ∧ (t.keeper h).pc = (s.keeper h).pc + 4 ∧ (t.keeper h).crP = []
        ∧ (t.keeper h).k = (s.keeper h).k
        ∧ (i = .syncI a 0 → ∀ w ∈ (t.keeper h).pq, w ∈ t.kWords h w.1)
        ∧ ∀ n v, n ∈ kSyncRegs → Tbl.get none (s.keeper h).crP n = some v → (t.keeper h).cr0 n = v))
  ∧ (∀ (c : Nat) (pr : BitVec 4) (ra : BitVec 5) (pa : Nat) (s s1 : State), ReadyP c pr s →
    let ea := (s.core c).rg ra.toNat
    let L := pa / 64
    let x := s1.l2 (c / 2) L
    let older := fun (gc : Bool) => (s1.core c).sb.any (fun e => e.gc == gc && e.pa / 64 == pa / 64)
    let msg := fun (k : MsgK) (kind : Kind) (drop : Bool) (d : Option LineD) =>
      ({ k := k, L := L, agent := c / 2, core := s1.cix c, dom := s1.govDom c, kind := kind, drop := drop, d := d } : Msg)
    let leaves := fun (i : Instr) (y : L2Line) (ms : List Msg) => ∃ t, exec i s = .next t ∧ t.l2 (c / 2) L = y
      ∧ t.msgs = s1.msgs ++ ms ∧ t.core c = (s1.core c).retire ∧ t.dram = s1.dram
      ∧ (∀ g M, (g, M) ≠ (c / 2, L) → M < 2 ^ 64 → L < 2 ^ 64 → t.l2 g M = s1.l2 g M)
      ∧ ∀ m ∈ ms, m.k = .flush → (⟨c / 2, L, .flush, s1.waitClock⟩ : Ask) ∈ t.outReq
    (∀ i, i = .prefR c pr ra ∨ i = .prefW c pr ra → exec i s = .next (s.retireP c))
    ∧ (s.xlate c ea .load = .ok pa .normal false s1 → s.mayLoad c = true → s.mayStore c = true → older false = false →
      s1.lineOut (c / 2) L = false →
      (x.st = .M → leaves (.clWb c pr ra) { x with st := .KP, at_ := s1.waitClock } [msg .wb .keep false (some x.d)]
        ∧ leaves (.clInv c pr ra) { st := .WBP, at_ := s1.waitClock } [msg .wb .memDrop true (some x.d)]
        ∧ leaves (.clWbi c pr ra) { st := .WBP, at_ := s1.waitClock } [msg .wb .memDrop true (some x.d)])
      ∧ (x.st = .S ∨ x.st = .E → leaves (.clWb c pr ra) x [msg .flush .none false none])
      ∧ (x.st = .I → leaves (.clWb c pr ra) x [])
      ∧ (x.st = .S ∨ x.st = .E ∨ x.st = .I → leaves (.clInv c pr ra) {} [msg .flush .none true none]
        ∧ leaves (.clWbi c pr ra) {} [msg .flush .none true none]))
    ∧ (s.xlate c ea .load = .ok pa .gcached false s1 → s.mayLoad c = true → s.mayStore c = true → older true = false →
      exec (.clInv c pr ra) s = .next ((s1.setL2 (c / 2) (2 ^ 60 + L) {}).retireP c))
    ∧ (s.xlate c ea .load = .ok pa .hostOrdered false s1 →
      ∀ i, i = .clWb c pr ra ∨ i = .clInv c pr ra ∨ i = .clWbi c pr ra → exec i s = .next (s1.retireP c)))

/-- R91, R96, R130, R133, R325: a word that is not a legal encoding for its core takes the illegal-instruction fault, whatever its
predicate: cause 1, the word in TVAL, the instruction's own address in TPC, at the level M_EDELEG gives; on a keeper, where the word
is the one its queue gives to issue. R57, R58, R60, R66, R69, R71, R72, R79, R83, R216, R218, R549: fetch and the events of
speculation. The fetch of the instruction at the pc finds its line in the L1I, or brings it there from the tile's copy, or asks its
home for it. A branch whose path was predicted otherwise, and a store that overlaps a younger completed load, squash what is younger
and leave no architectural register changed. A speculative walk waits in the walk buffer. The mark that an access needs goes to the
entry's home as a compare-and-swap of A, and of D for a store; its answer has the translation made again. -/
def Obligations.IllegalWordsFetchAndSpeculation : Prop :=
  ((∀ (c : Nat) (word : W32) (s : State), s.canIssue c = true → legalP word.toNat = false →
    let k := s.core c
    let m := !((k.cr0 0xC0A).getLsbD 1) || k.priv == .M
    let base := if m then 0xC00 else 0x400
    ∃ t, exec (.illegalInstruction (.core c) word) s = .next t ∧ t = { s with cores := t.cores }
      ∧ (t.core c).priv = (if m then .M else .S) ∧ (t.core c).pc = k.cr0 (base + 1) &&& 0x0FFFFFFFFFFFFFFC
      ∧ (t.core c).cr0 (base + 2) = k.pc ∧ (t.core c).cr0 (base + 3) = 1 ∧ (t.core c).cr0 (base + 4) = word.setWidth 64
      ∧ (t.core c).g = k.g ∧ (t.core c).v = k.v ∧ ∀ d, s.cix d ≠ s.cix c → t.core d = s.core d)
  ∧ ∀ (h : Nat) (word : W32) (s : State), ReadyK h s → (s.keeper h).exl = false → (s.keeper h).slot = none →
    legalS word.toNat = false → ((s.kFill h).keeper h).pq.head?.map (·.2) = some word.toNat →
    ∃ t, exec (.illegalInstruction (.keeper h) word) s = .next t
      ∧ (t.keeper h).cr0 0x802 = (s.keeper h).pc ∧ (t.keeper h).cr0 0x804 = 1 ∧ (t.keeper h).cr0 0x805 = word.setWidth 64
      ∧ (t.keeper h).exl = true ∧ (t.keeper h).pq = [] ∧ (t.keeper h).k = (s.keeper h).k)
  ∧ (∀ (c : Nat) (pa : Nat) (mt : MT) (s s1 : State), s.canIssue c = true →
    let k := s.core c
    let k1 := s1.core c
    let L := pa / 64
    let f := exec (.instructionFetch c k.pc ⟨false, false⟩) s
    s.xlate c k.pc .fetch = .ok pa mt false s1 →
      (∀ e, k1.l1i.find? (·.line == L) = some e → spanPoison e.poison (pa % 64) 4 = false →
        k1.win.any (fun w => w.isBranch && w.pc == k.pc) = false →
        let kind := branchKind (e.data.toNat / 2 ^ (8 * (pa % 64)) % 2 ^ 32)
        (kind = none → f = .next (s1.setCore c k1))
        ∧ ∀ b, kind = some b → ∃ t, f = .next t ∧ OnlyCore s1 t c (fun x => { x with
              win := k1.win ++ [.branch k.pc (((t.core c).win.getLast?.bind (fun w => match w with
                | .branch _ n => some n | _ => none)).getD 0)], retS := (t.core c).retS })
            ∧ ((∀ x ∈ k1.btb, x.set = bits k.pc.toNat 2 10 → x.tag ≠ bits k.pc.toNat 12 12) →
                (t.core c).win = k1.win ++ [.branch k.pc (pcNext k.pc)] ∧ (t.core c).retS = k1.retS))
      ∧ (k1.l1i.find? (·.line == L) = none →
        (∀ d, s1.tileCopy (c / 2) L = some d →
          ∃ t, f = .next t ∧ (⟨L, d.data, d.poison⟩ : IcE) ∈ (t.core c).l1i ∧ (t.core c).pc = k1.pc ∧ (t.core c).g = k1.g
            ∧ t.msgs = s1.msgs)
        ∧ (s1.tileCopy (c / 2) L = none → s1.lineOut (c / 2) L = false →
          ∃ t, f = .next t ∧ (t.l2 (c / 2) L).st = .IS
            ∧ t.msgs = s1.msgs ++ [{ k := .rdFetch, L := L, agent := c / 2, core := s1.cix c, dom := s1.govDom c }]
            ∧ OnlyCore { s1 with msgs := t.msgs, caches := t.caches } t c (fun x => { x with fpend := x.fpend ++ [L] }))))
  ∧ (∀ (c i st n pa size : Nat) (pc target next va : W64) (sf : Option Nat) (wk : Bool) (s : State), c < 512 →
    s.tileRuns (c / 2) = true → (s.core c).run = true → (s.core c).stopped = false →
    let k := s.core c
    let cut := fun (t : State) (more : List WinE) =>
      OnlyCore s t c (fun k => { k with win := k.win.take i ++ more, retS := k.retR, sfb := (t.core c).sfb, walkB := (t.core c).walkB })
      ∧ (∀ e, e ∈ (t.core c).sfb ↔ e ∈ k.sfb ∧ (e.prom = true ∨ ∃ w ∈ k.win.take i, w.usesLine e.L = true))
      ∧ ∀ b, b ∈ (t.core c).walkB ↔ b ∈ k.walkB ∧ ∃ w ∈ k.win.take i, w.usesWalk b = true
    (k.win.findIdx? (fun e => e.isBranch && e.pc == pc) = some i → k.win[i]? = some (.branch pc next) →
      (next = target → exec (.branchResolve c ⟨pc, target⟩) s = .next s)
      ∧ (next ≠ target → ∃ t, exec (.branchResolve c ⟨pc, target⟩) s = .next t ∧ cut t [.branch pc target]))
    ∧ ∀ acc mt b, acc = .store ∨ acc = .atomic → s.specXlate c target acc = some (st, mt, b) →
      k.win[i]? = some (.access pc va .load pa size sf wk true) → st < pa + size → pa < st + n →
      ∃ t, exec (.storeAddressResolve c target n acc i) s = .next t ∧ cut t [])
  ∧ (∀ (c : Nat) (pc va : W64) (acc : Acc) (w : WalkOut) (s : State), (s.core c).priv ≠ .M →
    let k := s.core c
    (s.specRuns c = true → k.walkB.length < 8 → s.walk c true va acc true = .ok w → useCheck k w.e va acc = none →
      ∃ t, exec (.tableWalk c ⟨pc, va⟩ acc) s = .next t
        ∧ OnlyCore { s with free := t.free } t c (fun k => { k with
            walkB := k.walkB ++ [⟨acc == .fetch, va, s.freeVal, w⟩]
            win := k.win ++ [.access pc va acc 0 0 none true false] }))
    ∧ (s.canIssue c = true → s.walk c false va acc false = .ok w → useCheck k w.e va acc = none → w.e.needsMark acc = true →
      w.leafW = true → s.lineOut (c / 2) (w.leaf / 64) = false → k.sb.any (fun b => !b.gc && b.pa / 64 == w.leaf / 64) = false →
      let a : AtomReq := ⟨w.leaf, .cas, 8,
        BitVec.ofNat 64 (w.raw ||| (if acc = .store ∨ acc = .atomic then 0x600 else 0x200)), BitVec.ofNat 64 w.raw, ⟨0, .off, true⟩, 0⟩
      exec (.markSwap c va acc) s = .next ((s.updCore c (fun k => { k with
        commit := true, mark := some ⟨va, acc, w.raw, w.e.lvl, w.leaf / 64⟩ })).ask
          { k := .atomic, L := w.leaf / 64, agent := c / 2, core := s.cix c, dom := s.domOf (c / 2), at_ := some a })))
  ∧ ∀ (t c L : Nat) (m : Msg) (q : MarkReq) (s s1 s2 : State), t < 256 → s.seamOpen t = true →
    s.take .data t L = some (m, s1) → m.req ≠ 1 → m.kind = .none → m.d = none → m.stat ≠ 2 → m.core = c →
    s1.answered t L .atomic = some s2 → (s2.core c).mark = some q →
    ∃ u, exec (.data t L) s = .next u ∧ OnlyCore s2 u c (fun k => { k with
        mark := none, fill := [], itlb := (u.core c).itlb, dtlb := (u.core c).dtlb, l2tlb := (u.core c).l2tlb
        l2big := (u.core c).l2big })
      ∧ ∀ e, tlbMatch (u.core c) q.va e = true → e ∉ (u.core c).itlb ∧ e ∉ (u.core c).dtlb ∧ e ∉ (u.core c).l2tlb
        ∧ e ∉ (u.core c).l2big

/-- R76, R78, R129, R160, R163: what finishes stores and parked loads. The head of a store buffer writes its bytes (or locks) into
the tile's owned line and leaves the buffer, where no lock has changed since its commit point or none mismatches; a parked load
whose store has written takes its value; the reply of a Device store removes the posted entry. -/
def Obligations.StoreBufferAndReplies : Prop :=
  ∀ (c : Nat) (e : SbE) (rest : List SbE) (p : Parked) (r : DevReply) (q : Posted) (s : State), c < 512 →
    let k := s.core c
    let key := fun (gc : Bool) (pa : Nat) => if gc then 2 ^ 60 + pa / 64 else pa / 64
    let x := s.l2 (c / 2) (key e.gc e.pa)
    (s.tileRuns (c / 2) = true → k.sb = e :: rest → (x.st = .M ∨ x.st = .E) → x.d.poison = 0 →
      (e.kind = .bytes → x.d.locks = e.locks ∨ lockMiss e.lk x.d.locks (e.pa % 64) e.size = none) → e.pa % 64 + e.size ≤ 64 →
      ∃ t, exec (.storeBufferWrite c) s = .next t ∧ (t.core c).sb = rest ∧ (t.core c).g = k.g ∧ (t.core c).pc = k.pc
        ∧ t.dram = s.dram ∧ (t.l2 (c / 2) (key e.gc e.pa)).st = .M
        ∧ (let d := (t.l2 (c / 2) (key e.gc e.pa)).d
           (e.kind = .bytes → d.read (e.pa % 64) e.size = e.data.toNat % 2 ^ (8 * e.size) ∧ d.locks = x.d.locks
              ∧ ∀ j, j < 512 → (j < 8 * (e.pa % 64) ∨ 8 * (e.pa % 64 + e.size) ≤ j) → d.data.getLsbD j = x.d.data.getLsbD j)
           ∧ (e.kind = .lockW → d.data = x.d.data ∧ ∀ i, i < 16 → lockAt d.locks i =
                if i = e.pa % 64 / 4 then e.data.toNat % 16 else lockAt x.d.locks i)
           ∧ (e.kind = .lockL → d.data = x.d.data ∧ ∀ i, i < 16 → lockAt d.locks i = e.data.toNat / 16 ^ i % 16)))
    ∧ (s.tileRuns (c / 2) = true → k.run = true → k.stopped = false → k.parked = some p → p.mark = 0 →
       fwdOf k.sb p.gc p.pa p.size = .none →
       ∀ d, s.tileCopy (c / 2) (key p.gc p.pa) = some d → checkRead d p.lk (p.pa % 64) p.size = .ok →
       ∃ t, exec (.loadReissue c) s = .next t ∧ t.dram = s.dram
         ∧ t.core c = Core.retire { ({ k with parked := none, commit := true } : Core).deliver p.dst
             (loadRaw d p.dst (p.pa % 64) p.size) with l1dLru := (t.core c).l1dLru })
    ∧ (s.devRep.find? (fun a => a.core == s.cix c && a.tag == r.tag) = some r → r.stat = 0 →
       k.posted.find? (fun a => !a.fab && a.tag == r.tag) = some q →
       exec (.deviceStoreReply c r.tag) s
         = .next ({ s with devRep := s.devRep.erase r }.setCore c { k with posted := k.posted.erase q }))

/-- R83, R133, R140, R143, R145 to R148, R316, R323, R328, R329: events at cores and keepers. An arrival enters its holder's list of
at most 32, and wakes it; an interrupt is recognised when one may be taken, which squashes what has not reached its commit point, and
then entered at its level with its code and interrupt bit, saving the pc; a timer's match ends a WAITEV; a keeper takes its timer
before an event, and its queue is discarded. -/
def Obligations.InterruptsAndArrivals : Prop :=
  ∀ (c h : Nat) (a : Arrival) (m : Bool) (s : State),
    (s.arrivals.find? (fun b => b.h.src == a.h.src) = some a →
      (a.holder < 512 → s.tileRuns (a.holder / 2) = true → (s.core a.holder).held.length < 32 →
        ∃ t, exec (.eventArrival a.h.src) s = .next t
        ∧ t.arrivals = s.arrivals.erase a ∧ (t.core a.holder).held = (s.core a.holder).held ++ [a.h]
        ∧ (t.core a.holder).waitev = false ∧ t.csr = s.csr)
      ∧ (512 ≤ a.holder → s.f (R.HIV_KSTAT_STATE (a.holder - 512)) = 1 → ∃ t, exec (.eventArrival a.h.src) s = .next t
        ∧ t.arrivals = s.arrivals.erase a
        ∧ (t.keeper (a.holder - 512)).held = (s.keeper (a.holder - 512)).held ++ [a.h]
        ∧ (t.keeper (a.holder - 512)).waitev = false ∧ t.csr = s.csr))
    ∧ (c < 512 → s.tileRuns (c / 2) = true → (s.core c).run = true → (s.core c).stopped = false → (s.core c).waitev = false →
      let k := s.core c
      (k.recog = false → s.intrOf c ≠ none → ∃ t, exec (.interruptRecognition c) s = .next t
        ∧ OnlyCore s t c (fun k => { k with recog := true, win := [], sfb := k.sfb.filter (·.prom), walkB := [], retS := k.retR }))
      ∧ (∀ (code : Nat), k.recog = true → k.commit = false → k.wait = none → k.parked = none → k.mark = none →
        s.intrOf c = some (m, code) →
        let base := if m then 0xC00 else 0x400
        ∃ t, exec (.interruptEntry c) s = .next t ∧ (t.core c).recog = false ∧ (t.core c).halt = false
          ∧ (t.core c).priv = (if m then .M else .S) ∧ (t.core c).pc = k.cr0 (base + 1) &&& 0x0FFFFFFFFFFFFFFC
          ∧ (t.core c).cr0 (base + 2) = k.pc ∧ (t.core c).cr0 (base + 3) = BitVec.ofNat 64 (code + 2 ^ 63)
          ∧ ((t.core c).cr0 base).getLsbD 0 = false ∧ ((t.core c).cr0 base).getLsbD 1 = (k.cr0 base).getLsbD 0
          ∧ (t.core c).g = k.g))
    ∧ (c < 512 → s.tileRuns (c / 2) = true → s.time ≥ ((s.core c).cr0 (if m then 0xC07 else 0x406)).toNat →
        ∃ t, exec (.timerMatch c m) s = .next t ∧ (t.core c).waitev = false
          ∧ (t.core c).pc = (if (s.core c).waitev then pcMask ((s.core c).pc + 4) else (s.core c).pc) ∧ t.csr = s.csr)
    ∧ (h < 32 → s.f (R.HIV_KSTAT_STATE h) = 1 →
      let k := s.keeper h
      (s.time ≥ (k.cr0 0x808).toNat → ∃ t, exec (.keeperTimerMatch h) s = .next t ∧ (t.keeper h).waitev = false
        ∧ (t.keeper h).k = k.k ∧ t.csr = s.csr)
      ∧ (k.wait = none → k.waitev = false → k.slot = none → k.ie = true → k.exl = false → s.isFatal = false →
        (s.time ≥ (k.cr0 0x808).toNat ∨ k.held.any (fun x => x.pri ≥ (k.cr0 0x809).toNat % 16) = true) →
        ∃ t, exec (.keeperInterrupt h) s = .next t ∧ t = { s with keepers := t.keepers } ∧ (t.keeper h).recog = false
          ∧ (t.keeper h).pq = []
          ∧ (t.keeper h).cr0 0x802 = k.pc ∧ (t.keeper h).exl = true ∧ (t.keeper h).ie = false
          ∧ (t.keeper h).cr0 0x804 = BitVec.ofNat 64 ((if s.time ≥ (k.cr0 0x808).toNat then 2 else 1) + 2 ^ 63)
          ∧ (t.keeper h).pc = ((Tbl.get none k.crP 0x801).getD (k.cr0 0x801)) &&& ~~~(3 : W64)))

/-- R381, R387, R389, R390: triggers of event sources. A trigger makes a live idle source pending; of one already pending or held
it counts a merge and nothing more; a dead source never becomes pending. EVT_TRIG and TRIG refuse hardware sources and record
them, and a page triggers only sources of its owner. R381, R383, R388, R391, R392, R394, R395: the event network's other
commands: presentation at a holder that can take it, CLRP, clearing of CAUSE bits, and writes of EVT_CFG (a target that does
not exist is refused and recorded), EVT_DESIG and EVT_TPG. -/
def Obligations.EventTriggersAndNetwork : Prop :=
  (∀ (src n dom v : Nat) (s : State), src < 8192 → n < 2048 →
    let own := s.f (R.EVT_OWN_OWNER src)
    let triggers := fun (i : Instr) => ∃ t, exec i s = .next t
      ∧ OnlyRegs s t [R.EVT_STAT_PEND src, R.EVT_MERGE_COUNT src, R.EVT_DPEND_DOM (own / 32), R.EVT_STAT_PEND 1007, R.EVT_MERGE_COUNT 1007]
      ∧ (s.deadSource src = true → t.f (R.EVT_STAT_PEND src) = s.f (R.EVT_STAT_PEND src))
      ∧ (s.deadSource src = false → s.f (R.EVT_STAT_PEND src) ≠ 1 → s.f (R.EVT_STAT_HELD src) ≠ 1 → t.f (R.EVT_STAT_PEND src) = 1)
      ∧ (s.deadSource src = false → s.f (R.EVT_STAT_PEND src) = 1 ∨ s.f (R.EVT_STAT_HELD src) = 1 → src ≠ 1007 →
          t.f (R.EVT_STAT_PEND src) = s.f (R.EVT_STAT_PEND src)
          ∧ t.f (R.EVT_MERGE_COUNT src) = min (s.f (R.EVT_MERGE_COUNT src) + 1) 0xFFFFFFFF)
    let reports := fun (i : Instr) (x : Nat) => exec i s = .next (s.setFs [(R.EVT_ERR_BADTRIG, 1), (R.EVT_ERR_SRC, x)])
    triggers (.pendSet src)
    ∧ (1024 ≤ src → triggers (.evtTrig src)) ∧ (src < 1024 → reports (.evtTrig src) src)
    ∧ (v % 8192 = src → dom = 0 ∨ dom = s.f (R.EVT_TPG_OWNER n) →
        (1024 ≤ src → own = s.f (R.EVT_TPG_OWNER n) → triggers (.trig n dom v))
        ∧ (1024 ≤ src → own ≠ s.f (R.EVT_TPG_OWNER n) → ∃ t, exec (.trig n dom v) s = .next t
            ∧ OnlyRegs s t [R.EVT_TPG_BAD n] ∧ t.f (R.EVT_TPG_BAD n) = min (s.f (R.EVT_TPG_BAD n) + 1) 0xFFFF)
        ∧ (src < 1024 → reports (.trig n dom v) src))
    ∧ (dom ≠ 0 → dom ≠ s.f (R.EVT_TPG_OWNER n) → exec (.trig n dom v) s = .next s))
  ∧ (∀ (src mask d n v hd : Nat) (s : State), src < 8192 → d < 4096 → n < 2048 →
    let own := s.f (R.EVT_OWN_OWNER src)
    (s.evtHolder src = some hd → s.evtReady src = true → s.holderFree hd = true → s.holderOpen hd = true →
      s.evtFirst src hd = true → ∃ t, exec (.presentation src) s = .next t ∧ t.f (R.EVT_STAT_HELD src) = 1
        ∧ (src ≠ 1007 → t.f (R.EVT_STAT_PEND src) = 0) ∧ t.f (R.EVT_STAT_HOLDER src) = hd % 1024
        ∧ t = { s with csr := t.csr, arrivals := s.arrivals ++ [⟨hd, ⟨src, (s.evtCfg src).2.2.1, own⟩⟩] })
    ∧ (∃ t, exec (.clrp src) s = .next t ∧ (src ≠ 1007 → t.f (R.EVT_STAT_PEND src) = 0)
        ∧ OnlyRegs s t [R.EVT_STAT_PEND src, R.EVT_DPEND_DOM (own / 32), R.EVT_STAT_PEND 1007, R.EVT_MERGE_COUNT 1007])
    ∧ (src < 1024 → ∃ t, exec (.causeClear src mask) s = .next t ∧ OnlyRegs s t [R.EVT_STAT_CAUSE src]
        ∧ ∀ j, j < 8 → (t.f (R.EVT_STAT_CAUSE src)).testBit j = ((s.f (R.EVT_STAT_CAUSE src)).testBit j && !mask.testBit j))
    ∧ (let tk := v / 2 % 4
       let tgt := v / 256 % 2048
       let bad := src < 512 ∨ (tk = 0 ∧ (tgt > 511 ∨ s.fused (tgt / 2) = true)) ∨ (tk = 1 ∧ (tgt > 31 ∨ own ≠ 0))
       (s.deadSource src = true → exec (.evtCfgWrite src v) s = .next s)
       ∧ (s.deadSource src = false → bad →
          exec (.evtCfgWrite src v) s = .next (s.setFs [(R.EVT_ERR_BADTGT, 1), (R.EVT_ERR_SRC, src)]))
       ∧ (s.deadSource src = false → ¬ bad → ∃ t, exec (.evtCfgWrite src v) s = .next t
          ∧ t.f (R.EVT_CFG_EN src) = v % 2 ∧ t.f (R.EVT_CFG_TKIND src) = tk ∧ t.f (R.EVT_CFG_PRI src) = v / 16 % 16
          ∧ t.f (R.EVT_CFG_TARGET src) = tgt ∧ t.f (R.EVT_CFG_RMT src) = (if src < 1024 then 0 else v / 8 % 2)
          ∧ t = { s with csr := t.csr }))
    ∧ exec (.evtDesigWrite d v) s = .next (s.setFs [(R.EVT_DESIG_CORE d, v % 512), (R.EVT_DESIG_V d, v / 512 % 2)])
    ∧ exec (.evtTpgWrite n v) s = .next (s.setFs [(R.EVT_TPG_OWNER n, v % 4096), (R.EVT_TPG_BAD n, 0)]))

/-- R231, R239, R246 to R250, R254, R256, R261, R265: requests at a home with nothing open or waiting on the line. An uncached line
is granted: EX to the requester, with the LLC's data; a shared line adds a reader or invalidates the other sharers; an owned line is
forwarded to its owner; a snapshot and a tile's ATOMIC are served from the LLC. A busy line's request waits; where the home's queue
is full its credit is withheld, and the cycle counted. An error met in the home's arrays leaves a poison mark, or is fatal. -/
def Obligations.HomeServesRequests : Prop :=
  (∀ (k : MsgK) (r L d0 : Nat) (m : Msg) (e : DirE) (x : LlcE) (a q : AtomReq) (s s1 : State),
    s.meshRuns = true → s.take k r L = some (m, s1) → s1.homeReady L = true →
    let home := homeOf L
    let free := (s1.txns.filter (fun q => homeOf q.L == home)).length < 64
      ∧ (s1.retryQ.filter (fun q => homeOf q.L == home)).length < 32
    let idle := s1.lineBusy L = false ∧ (s1.pendQ ++ s1.retryQ).any (fun q => q.L == L) = false ∧ free
    let way := ((s1.dir.filter (fun q => dirKey q.1 == dirKey L)).length < 16)
    let data := fun (kind : Kind) => ({ k := .data, L := L, agent := r, core := m.core, dom := m.dom, kind := kind, d := some x.d } : Msg)
    let fwd := fun (f : MsgK) => ({ k := f, L := L, agent := e.ptrs.headD 0, req := r, core := m.core, dom := m.dom } : Msg)
    let at_ := fun (i : Instr) (P : State → Prop) => ∃ t, exec i s = .next t ∧ t.dram = s1.dram ∧ t.cores = s.cores ∧ P t
    let others := (s1.listed e).filter (· != r)
    let rdS := Instr.rdS r ⟨L, .none⟩
    -- a request of a busy line
    (s1.lineBusy L = true →
      ∀ i, (k = .rdS ∧ i = rdS) ∨ (k = .rdO ∧ i = .rdO r L) ∨ (k = .upg ∧ i = .upg r L) ∨ (k = .flush ∧ i = .flush r L) →
        ((s1.pendQ.filter (fun q => homeOf q.L == home)).length < 64 → exec i s = .next { s1 with pendQ := s1.pendQ ++ [m] })
        ∧ (64 ≤ (s1.pendQ.filter (fun q => homeOf q.L == home)).length → ∃ t, exec i s = .next t
            ∧ OnlyRegs s t [R.TIL_HOME_BP_COUNT home] ∧ t.f (R.TIL_HOME_BP_COUNT home)
              = min (s.f (R.TIL_HOME_BP_COUNT home) + 1) (2 ^ (R.TIL_HOME_BP_COUNT home).w - 1)))
    ∧ (idle →
      -- uncached
      (s1.dirE L = none → way → s1.llcE L = some x →
        (k = .rdS → at_ rdS (fun t => t.msgs = s1.msgs ++ [data .E] ∧ t.lineBusy L = true
          ∧ ∃ y, t.dirE L = some y ∧ y.st = .EX ∧ y.ptrs = [r] ∧ y.pin = true))
        ∧ (k = .rdO → at_ (.rdO r L) (fun t => t.msgs = s1.msgs ++ [data .M] ∧ ∃ y, t.dirE L = some y ∧ y.st = .EX ∧ y.ptrs = [r])))
      -- shared
      ∧ (s1.dirE L = some e → e.st ≠ .EX →
        (k = .rdS → s1.llcE L = some x → at_ rdS (fun t => t.msgs = s1.msgs ++ [data .S] ∧ t.lineBusy L = true))
        ∧ (k = .rdO → others ≠ [] → at_ (.rdO r L) (fun t =>
            t.msgs = s1.msgs ++ others.map (fun q => ({ k := .inv, L := L, agent := q, dom := m.dom } : Msg)) ∧ t.lineBusy L = true))
        ∧ (k = .upg → others = [] → r ∈ s1.listed e → at_ (.upg r L) (fun t =>
            t.msgs = s1.msgs ++ [{ k := .grant, L := L, agent := r, kind := .M }]
            ∧ ∃ y, t.dirE L = some y ∧ y.st = .EX ∧ y.ptrs = [r])))
      -- owned by another tile
      ∧ (s1.dirE L = some e → e.st = .EX → e.ptrs.headD 0 ≠ r →
        (k = .rdS → at_ rdS (fun t => t.msgs = s1.msgs ++ [fwd .fwdS] ∧ t.lineBusy L = true))
        ∧ (k = .rdO → at_ (.rdO r L) (fun t => t.msgs = s1.msgs ++ [fwd .fwdO] ∧ t.lineBusy L = true))
        ∧ (k = .rdFetch → at_ (.rdFetch r L) (fun t => t.msgs = s1.msgs ++ [fwd .fwdPeek] ∧ t.lineBusy L = true)))
      -- a snapshot, and an atomic of a tile, of a line that no tile holds
      ∧ (s1.dirE L = none → s1.llcE L = some x →
        (k = .rdFetch → at_ (.rdFetch r L) (fun t => t.msgs = s1.msgs ++ [data .none] ∧ t.dirE L = none))
        ∧ (k = .atomic → r < 256 → q.addr / 64 = L → m.at_ = some a → s1.llcAt L x.way = some (L, x) →
          spanPoison x.d.poison (a.addr % 64) a.size = false → lockMiss a.lk x.d.locks (a.addr % 64) a.size = none →
          at_ (.atomic r d0 q) (fun t => t.dirE L = none ∧ t.lineBusy L = false
            ∧ t.msgs = s1.msgs ++ [{ k := .data, L := L, agent := r, core := m.core, val := x.d.read (a.addr % 64) a.size }]
            ∧ ∃ y, t.llcE L = some y ∧ y.dirty = true ∧ y.d = (atomLine x.d a).1)))))
  ∧ ∀ (r L : Nat) (err : ArrErr) (s : State), (s.take .rdS r L).isSome = true → s.meshRuns = true →
    let home := homeOf L
    let u := s.homeErr L (s.domOf r) err
    exec (.rdS r ⟨L, err⟩) s = exec (.rdS r ⟨L, .none⟩) u ∧ (err = .fixed → u = s)
    ∧ (∀ i y, err = .data i → s.llcE L = some y →
        u.llcE L = some { y with d := { y.d with poison := y.d.poison ||| ((1 : BitVec 8) <<< (i % 8)) } })
    ∧ ∀ n, (err = .dir ∧ n = 1) ∨ (err = .tag ∧ n = 2) ∨ (err = .slot ∧ n = 3) → s.isFatal = false →
        s.f (R.TIL_HOME_ERR_KIND home) = 0 → u.isFatal = true ∧ u.f (R.TIL_HOME_ERR_KIND home) = n

/-- R63, R64, R65, R234, R242, R246, R255, R256: promotes, flushes, writebacks and speculative reads. A promote whose stamp is
current grants, else it is replayed and counted; FLUSH is acknowledged and takes dirty data to memory; an owner's WB frees the
entry and is acknowledged. A speculative load that would take no fault, of a line the tile does not hold, sends a SPEC request and
takes an entry of the shadow fill buffer; it is answered from the LLC without a trace at the home, or not served. One whose line
the tile's L2 holds copies it into an entry and sends nothing. -/
def Obligations.HomeSpeculationAndWritebacks : Prop :=
  ∀ (c L size pa : Nat) (pc va : W64) (wk : Bool) (m : Msg) (e : DirE) (x : LlcE) (d : LineD) (s s1 : State),
    let t0 := c / 2
    let home := homeOf L
    let idle := s1.homeReady L = true ∧ s1.lineBusy L = false ∧ (s1.pendQ ++ s1.retryQ).any (fun q => q.L == L) = false
      ∧ (s1.txns.filter (fun q => homeOf q.L == home)).length < 64 ∧ (s1.retryQ.filter (fun q => homeOf q.L == home)).length < 32
    let answer := fun (k : MsgK) => ({ k := k, L := L, agent := t0, core := m.core } : Msg)
    (s.meshRuns = true → s.take .promote t0 L = some (m, s1) → idle →
      (s1.stampOk L m.stamp = false → ∃ t, exec (.promote c L) s = .next t ∧ t.msgs = s1.msgs ++ [answer .replay]
        ∧ t.f (R.TIL_HOME_LATE_COUNT home) = min (s1.f (R.TIL_HOME_LATE_COUNT home) + 1) (2 ^ (R.TIL_HOME_LATE_COUNT home).w - 1)
        ∧ t.dir = s1.dir)
      ∧ (s1.stampOk L m.stamp = true → s1.dirE L = some e → e.st ≠ .EX → ∃ t, exec (.promote c L) s = .next t
        ∧ t.msgs = s1.msgs ++ [{ answer .grant with kind := .S }] ∧ t.lineBusy L = true ∧ t.csr = s1.csr))
    ∧ (s.meshRuns = true → s.take .flush t0 L = some (m, s1) → idle → s1.llcE L = none → s1.dirE L = none →
        exec (.flush t0 L) s = .next (s1.send (answer .flushAck)))
    ∧ (s.take .wb t0 L = some (m, s1) → m.d = some d → m.kind = .evict → s1.dirE L = some e → e.st = .EX → e.ptrs.headD 0 = t0 →
        s1.lineBusy L = false → s1.llcE L = some x → ∃ t, exec (.wb t0 L) s = .next t ∧ t.dirE L = none
        ∧ t.llcE L = some { x with d := d, dirty := true } ∧ t.msgs = s1.msgs ++ [{ k := .wbAck, L := L, agent := t0 }])
    ∧ (let k := s.core c
       let win := k.win ++ [.access pc va .load pa size (some L) wk false]
       pa / 64 = L → s.specRuns c = true → (size = 1 ∨ size = 2 ∨ size = 4 ∨ size = 8 ∨ size = 32 ∨ size = 64) → va.toNat % size = 0 →
       s.specXlate c va .load = some (pa, .normal, wk) → fwdOf k.sb false pa size = .none → k.sfb.length < 32 →
       k.sfb.find? (·.L == L) = none →
        (s.tileCopy t0 L = none → s.lineOut t0 L = false → L < dramLines → s.meshRuns = true → s.homeReady L = true →
          s.routed t0 home = true →
          let sent := fun (t : State) => t.dir = s.dir ∧ t.llc = s.llc ∧ t.csr = s.csr ∧ t.lineOut t0 L = true
            ∧ (t.core c).sfb = k.sfb ++ [⟨L, none, 0, false, false⟩] ∧ (t.core c).win = win
          (s.txns.any (·.L == L) = true → ∃ t, exec (.rdSpec c ⟨pc, va, .load, size⟩) s = .next t
            ∧ t.msgs = s.msgs ++ [{ k := .notServed, L := L, agent := t0, core := s.cix c }] ∧ sent t)
          ∧ (s.txns.any (·.L == L) = false → s.dirE L = none → s.llcE L = some x →
            ∃ t, exec (.rdSpec c ⟨pc, va, .load, size⟩) s = .next t ∧ sent t
            ∧ t.msgs = s.msgs ++ [{ k := .data, L := L, agent := t0, core := s.cix c, req := 1, d := some x.d, stamp := s.stamp L }]))
        ∧ (s.tileCopy t0 L = some d → checkRead d (s.lockReq c va) (pa % 64) size = .ok →
          (s.l2 t0 L).l1.getLsbD (s.cix c % 2) = false → ∃ t, exec (.rdSpec c ⟨pc, va, .load, size⟩) s = .next t
          ∧ OnlyCore s t c (fun k => { k with sfb := k.sfb ++ [⟨L, some d, 0, false, true⟩]
                                              win := k.win ++ [.access pc va .load pa size (some L) wk true] })))

/-- R22, R178, R254, R260, R277: agents without a cache, whose NI has a valid route, at the home of a line that no tile holds and the
LLC does. RD_NC takes a copy; WR_NC merges its bytes and is answered WR_DONE; ATOMIC writes its result and answers DATA with the
old value; no directory entry is made. R169: the lock log's record waits for its line, and then writes its bytes. R235, R245: forwards at a tile whose Seam is open, by the state of its copy: a dirty or clean
owner answers the requester and the home and keeps, shares or drops the line; a sharer drops it on INV; a line being written back
answers that it is on its way; no copy answers so. -/
def Obligations.NonCachingAgentsAndForwards : Prop :=
  (∀ (g L dom : Nat) (w : WrReq) (a : AtomReq) (x : LlcE) (s : State), 256 ≤ g → L < dramLines → s.meshRuns = true → s.homeReady L = true →
    s.isFatal = false → s.routed (agentNi g (homeOf L)) (homeOf L) = true →
    s.lineBusy L = false → (s.pendQ ++ s.retryQ).any (fun q => q.L == L) = false →
    (s.txns.filter (fun q => homeOf q.L == homeOf L)).length < 64 → (s.retryQ.filter (fun q => homeOf q.L == homeOf L)).length < 32 →
    s.dirE L = none → s.llcE L = some x →
    (∃ t, exec (.rdNc g L dom) s = .next t ∧ t.llc = s.llc ∧ t.dir = s.dir
      ∧ t.msgs = s.msgs ++ [{ k := .data, L := L, agent := g, dom := dom, d := some x.d }])
    ∧ (x.d.poison = 0 → w.pol = .preserve → g ≠ logAgent → ∃ t, exec (.wrNc g L dom w) s = .next t ∧ t.dirE L = none
      ∧ t.lineBusy L = false ∧ t.msgs = s.msgs ++ [{ k := .wrDone, L := L, agent := g }]
      ∧ ∃ y, t.llcE L = some y ∧ y.dirty = true ∧ y.d.locks = x.d.locks
        ∧ ∀ i, i < 64 → y.d.read i 1 = if w.mask.getLsbD i then w.d.read i 1 else x.d.read i 1)
    ∧ (∀ q : LogW, s.lockQ = [q] → (s.lineQuiet q.L = false → exec (.wrNc logAgent L dom w) s = .next s)
      ∧ (q.L = L → s.lineQuiet L = true → x.d.poison = 0 → q.wr.pol ≠ .carried → s.llcAt L x.way = some (L, x) →
        ∃ t, exec (.wrNc logAgent L dom w) s = .next t ∧ t.lockQ = [] ∧ t.dirE L = none
        ∧ ∃ y, t.llcE L = some y ∧ y.dirty = true
          ∧ ∀ i, i < 64 → y.d.read i 1 = if q.wr.mask.getLsbD i then q.wr.d.read i 1 else x.d.read i 1))
    ∧ ((a.size = 4 ∨ a.size = 8) → a.addr % a.size = 0 → a.addr / 64 = L → spanPoison x.d.poison (a.addr % 64) a.size = false →
      lockMiss a.lk x.d.locks (a.addr % 64) a.size = none → s.llcAt L x.way = some (L, x) →
      ∃ t, exec (.atomic g dom a) s = .next t ∧ t.dirE L = none
      ∧ t.msgs = s.msgs ++ [{ k := .data, L := L, agent := g, val := x.d.read (a.addr % 64) a.size }]
      ∧ ∃ y, t.llcE L = some y ∧ y.dirty = true ∧ y.d = (atomLine x.d a).1))
  ∧ (∀ (k : MsgK) (t0 L : Nat) (m : Msg) (i : Instr) (s s1 : State), s.seamOpen t0 = true → s.take k t0 L = some (m, s1) →
    (∀ f ∈ s1.fillQ, f.agent ≠ t0) →
    (k = .fwdS ∧ i = .fwdS t0 L) ∨ (k = .fwdO ∧ i = .fwdO t0 L) ∨ (k = .fwdPeek ∧ i = .fwdPeek t0 L) ∨ (k = .inv ∧ i = .inv t0 L) →
    let x := s1.l2 t0 L
    let own := x.st = .M ∨ x.st = .E
    let dirty := x.st == .M
    let rsp := fun (k : MsgK) (d : Option LineD) => ({ k := k, L := L, agent := t0, dom := s1.domOf t0, d := d } : Msg)
    let dat := fun (kind : Kind) (dirty : Bool) =>
      ({ k := .data, L := L, agent := m.req, core := m.core, dom := m.dom, kind := kind, d := some x.d, dirty := dirty
         src := some t0 } : Msg)
    let leaves := fun (st : LSt) (ms : List Msg) => ∃ t, exec i s = .next t ∧ t.msgs = s1.msgs ++ ms ∧ (t.l2 t0 L).st = st
      ∧ (st ≠ .I → (t.l2 t0 L).d = x.d) ∧ t.cores = s.cores ∧ t.dram = s.dram ∧ t.csr = s.csr
    (own → k = .fwdS → leaves .S [dat .S false, rsp .ownerAck (if dirty then some x.d else none)])
    ∧ (own → k = .fwdO → leaves .I [dat .M dirty])
    ∧ (own → k = .fwdPeek → leaves x.st [dat .none false, rsp .ownerAck none])
    ∧ (own ∨ x.st = .S → k = .inv → leaves .I [rsp .invAck (if dirty then some x.d else none)])
    ∧ (x.st = .SM → k = .inv → leaves .IM [rsp .invAck none])
    ∧ (x.st = .WBP → leaves .WBP [rsp .wbInflight none])
    ∧ (x.st = .I ∨ x.st = .IS ∨ x.st = .IM → leaves x.st [rsp .notPresent none]))

/-- R27, R64, R65, R81, R244, R245, R265: replies at their requester, through an open Seam. DATA and GRANT put the line into the
tile's L2 in the state they give, and COMPLETE leaves; DATA of an RD_FETCH fills the L1I where no SYNC.I has come since; NOT_SERVED
frees its fill buffer entry; REPLAY squashes what is younger and asks again by RD_S; WB_ACK ends a writeback; FLUSH_ACK and WR_DONE
are received. A reply that matches no request is fatal. -/
def Obligations.RepliesAtTheRequester : Prop :=
  ∀ (c t0 L : Nat) (m : Msg) (d : LineD) (e : SfbE) (s s1 s2 : State),
    let x := s1.l2 t0 L
    let fills := fun (i : Instr) (st : LSt) (v : LineD) => ∃ t, exec i s = .next t ∧ (t.l2 t0 L).st = st ∧ (t.l2 t0 L).d = v
      ∧ t.msgs.getLast? = some { k := .complete, L := L, agent := t0, dom := m.dom }
    (t0 < 256 → s.seamOpen t0 = true →
      (s.take .data t0 L = some (m, s1) → m.req ≠ 1 → m.d = some d →
        (x.st = .IS → m.kind = .E → s1.l2Install t0 L m.core .E d ≠ none → fills (.data t0 L) .E d)
        ∧ (x.st = .IS → m.kind = .S → s1.l2Install t0 L m.core .S d ≠ none → fills (.data t0 L) .S d)
        ∧ (x.st = .IM ∨ x.st = .SM → m.kind = .M → s1.l2Install t0 L m.core .M d ≠ none → fills (.data t0 L) .M d)
        ∧ (x.st = .IS → m.kind = .none → ∃ t, exec (.data t0 L) s = .next t ∧ t.l2 t0 L = {} ∧ t.msgs = s1.msgs
            ∧ (L ∈ (s1.core m.core).fpend → (⟨L, d.data, d.poison⟩ : IcE) ∈ (t.core m.core).l1i)
            ∧ (L ∉ (s1.core m.core).fpend → t.cores = s1.cores)))
      ∧ (s.take .data t0 L = some (m, s1) → m.req = 1 → s1.answered t0 L .rdSpec = some s2 → m.core / 2 = t0 →
          ∃ t, exec (.data t0 L) s = .next t ∧ OnlyCore s2 t m.core (fun k => { k with sfb := (t.core m.core).sfb, win := (t.core m.core).win })
            ∧ ∀ q, (s2.core m.core).sfb = [q] → q.L = L → q.d = none → (t.core m.core).sfb = [{ q with d := m.d, stamp := m.stamp }])
      ∧ (s.take .grant t0 L = some (m, s1) →
        (m.kind = .M → x.st = .SM → s1.l2Install t0 L m.core .M x.d ≠ none → fills (.grant t0 L) .M x.d)
        ∧ (m.kind = .S → s1.answered t0 L .promote = some s2 →
            (s2.core m.core).sfb.find? (fun q => q.L == L && q.prom) = some e → e.d = some d →
            (s2.updCore m.core (·.dropSfb L)).l2Install t0 L m.core .S d ≠ none → fills (.grant t0 L) .S d))
      ∧ (s.take .wbAck t0 L = some (m, s1) → (∀ f ∈ s1.fillQ, f.agent ≠ t0) →
        (x.st = .WBP → exec (.wbAck t0 L) s = .next (s1.setL2 t0 L {}))
        ∧ (x.st = .KP → x.held = none → exec (.wbAck t0 L) s = .next (s1.setL2 t0 L { x with st := .E })))
      ∧ (s.take .flushAck t0 L = some (m, s1) →
        (s1.answered t0 L .flush = some s2 → exec (.flushAck t0 L) s = .next s2)
        ∧ (s1.answered t0 L .flush = none → s1.isFatal = false → s1.f (R.TIL_HOME_ERR_KIND (homeOf L)) = 0 →
            ∃ t, exec (.flushAck t0 L) s = .next t ∧ t.isFatal = true ∧ t.f (R.TIL_HOME_ERR_KIND (homeOf L)) = 4)))
    ∧ (s.seamOpen (c / 2) = true → s.take .notServed (c / 2) L = some (m, s1) → s1.answered (c / 2) L .rdSpec = some s2 →
        exec (.notServed c L) s = .next (s2.updCore m.core (fun k => { k with sfb := k.sfb.filter (fun q => q.L != L) })))
    ∧ (s.seamOpen (c / 2) = true → s.take .replay (c / 2) L = some (m, s1) → s1.answered (c / 2) L .promote = some s2 →
        m.core / 2 = c / 2 → (s2.l2 (c / 2) L).st = .I → s2.lineOut (c / 2) L = false → ∃ t, exec (.replay c L) s = .next t
        ∧ (t.l2 (c / 2) L).st = .IS ∧ (t.core m.core).win = [] ∧ (∀ q ∈ (t.core m.core).sfb, q.L ≠ L)
        ∧ t.msgs = s2.msgs ++ [{ k := .rdS, L := L, agent := c / 2, core := s2.cix m.core, dom := s2.govDom m.core }])
    ∧ (s.take .wrDone t0 L = some (m, s1) → exec (.wrDone t0 L) s = .next s1)

/-- R249, R252, R257, R263: answers at the home of an open transaction. OWNER_ACK and the requester's COMPLETE close it, in either
order; NOT_PRESENT serves a forwarded read from the home as if uncached and counts the stale pointer; WB_INFLIGHT waits for
the writeback; an INV answer leaves the wait list. R192, R231, R242, R244, R249, R262, R265, R513: a tile's eviction, whose read may
meet an uncorrectable word, which leaves as poison, or a tag, which is fatal; the restart of waiting requests, a new epoch, and the
silence for 1 ms that is fatal. -/
def Obligations.ResponsesAndEventsAtTheHome : Prop :=
  (∀ (t0 L : Nat) (m : Msg) (x : Txn) (y : LlcE) (e : DirE) (s s1 : State),
    let home := homeOf L
    let closes := fun (i : Instr) (P : State → Prop) => ∃ t, exec i s = .next t ∧ t.txns = s1.txns.filter (fun q => q.L != L) ∧ P t
    (s.take .ownerAck t0 L = some (m, s1) → s1.txns.find? (fun q => q.fwdTo == some t0 && q.L == L) = some x → m.d = none →
      (x.m.k = .rdS → x.done = true → s1.dirE L = some e → closes (.ownerAck t0 L) (fun t =>
        t.dirE L = some { ({ e with st := .S, ptrs := [t0] } : DirE).add x.m.agent with pin := false }))
      ∧ (x.m.k = .rdNc → closes (.ownerAck t0 L) (fun t => t.msgs = s1.msgs)))
    ∧ (s.take .complete t0 L = some (m, s1) → s1.txnOf L = some x → x.m.agent = t0 → x.fwdTo = none → x.sent = true →
        closes (.complete t0 L) (fun t => t.msgs = s1.msgs ∧ t.llc = s1.llc))
    ∧ (s.take .notPresent t0 L = some (m, s1) → s1.txns.find? (fun q => q.fwdTo == some t0 && q.L == L) = some x → x.wbData = none →
        x.m.k = .rdO → x.L = L → x.m.L = L → s1.dirE L = some e → s1.llcE L = some y → ∃ t, exec (.notPresent t0 L) s = .next t
        ∧ t.dirE L = some { e with st := .EX, ptrs := [x.m.agent], mask := 0 }
        ∧ t.msgs = s1.msgs ++ [{ k := .data, L := L, agent := x.m.agent, core := x.m.core, dom := x.m.dom, kind := .M, d := some y.d }]
        ∧ t.f (R.TIL_DIR_STALE_COUNT home) = min (s1.f (R.TIL_DIR_STALE_COUNT home) + 1) (2 ^ (R.TIL_DIR_STALE_COUNT home).w - 1))
    ∧ (s.take .wbInflight t0 L = some (m, s1) → s1.txns.find? (fun q => q.fwdTo == some t0 && q.L == L) = some x → x.wbData = none →
        exec (.wbInflight t0 L) s = .next (s1.setTxn { x with infl := true }))
    ∧ (s.take .invAck t0 L = some (m, s1) → m.d = none →
        s1.txns.find? (fun q => q.waitInv.contains t0 && (q.evict == some L || (q.evict == none && q.L == L))) = some x →
        x.waitInv.filter (· != t0) ≠ [] →
        exec (.invAck t0 L) s = .next (s1.setTxn { x with waitInv := x.waitInv.filter (· != t0), infl := false, wbData := none })))
  ∧ (∀ (t0 L n : Nat) (m : Msg) (s : State),
    let x := s.l2 t0 L
    (t0 < 256 → s.tileRuns t0 = true →
      (x.st = .S ∨ x.st = .E → exec (.l2Eviction t0 ⟨L, .none⟩) s = .next (s.setL2 t0 L {}))
      ∧ (x.st = .M → L < 2 ^ 60 → exec (.l2Eviction t0 ⟨L, .none⟩) s
          = .next ((s.setL2 t0 L { st := .WBP, at_ := s.waitClock }).send
          { k := .wb, L := L, agent := t0, dom := s.domOf t0, kind := .evict, d := some x.d }))
      ∧ (x.st = .M → L < 2 ^ 60 → ∀ i, i < 8 → ∃ t, exec (.l2Eviction t0 ⟨L, .data i⟩) s = .next t
          ∧ t.msgs = s.msgs ++ [{ k := .wb, L := L, agent := t0, dom := s.domOf t0, kind := .evict
                                  d := some { x.d with poison := x.d.poison ||| ((1 : BitVec 8) <<< i) } }])
      ∧ (∃ t, exec (.l2Eviction t0 ⟨L, .tag⟩) s = .next t ∧ t.isFatal = true))
    ∧ (s.pendQ.find? (fun q => q.L == L) = some m → s.lineBusy L = false → s.retryQ.any (fun q => q.L == L) = false →
        (s.txns.filter (fun q => homeOf q.L == homeOf L)).length < 64 →
        exec (.pendingRestart L) s = .next (({ s with pendQ := s.pendQ.eraseP (fun q => q.L == L) }).openReq m))
    ∧ (let sel := fun (q : Msg) => homeOf q.L == n && s.setOpens q.L && !(s.lineBusy q.L)
       s.retryQ.find? sel = some m → (s.txns.filter (fun q => homeOf q.L == n)).length < 64 →
       exec (.retryRestart n) s = .next (({ s with retryQ := s.retryQ.eraseP sel }).openReq m))
    ∧ (n < 256 → ∃ t, exec (.epochAdvance n) s = .next t ∧ OnlyRegs s t [R.TIL_HOME_EPOCH_EPOCH n]
        ∧ t.f (R.TIL_HOME_EPOCH_EPOCH n) = (s.f (R.TIL_HOME_EPOCH_EPOCH n) + 1) % 256)
    ∧ (let dies := fun (u : Nat) => s.f (R.TIL_HOME_ERR_KIND u) = 0 → ∃ t, exec (.silenceTimeout L) s = .next t ∧ t.isFatal = true
          ∧ t.f (R.TIL_HOME_ERR_KIND u) = 5 ∧ t.ftags = [] ∧ t.dram = s.dram ∧ t.cores = s.cores
       s.f R.PWR_MESHQ_STATE < 2 → s.isFatal = false →
        ((∃ y ∈ s.txns, y.L = L ∧ y.at_ + 1000000 ≤ s.waitClock) → dies (homeOf L))
        ∧ ((∀ y ∈ s.txns, y.L = L → s.waitClock < y.at_ + 1000000) →
            (∀ u, s.tileSilent L = some u → u < 256 → dies u) ∧ (s.tileSilent L = none → exec (.silenceTimeout L) s = .next s))))

/-- R269 to R273, R277, R278, R280: packets at the routers. An NI whose entry for the destination is valid injects a packet with the
header of that entry where the port's buffer has room; without a valid entry it waits. The first packet of an input and VN leaves by
the output that NEXTP names, where that link is in effect and the arbitration gives it the output, with its header moved on and its
data flit behind it; a corrected bit is counted, and an uncorrectable flit or a port not in effect is fatal. At most one input wins an
output; VN1 and VN2 go before a VN0 header that has not waited 32 mesh cycles. R239, R279, R281: route tables and router registers.
An 8-byte write of an entry, or the high word after the low, puts a legal route into effect and a refused one only into the NI's
status; DEFAULT restores every entry; port enables change only while the mesh is quiesced; each clear bit clears its counters. -/
def Obligations.RoutersAndRouteTables : Prop :=
  (∀ (n p vn idx err ni : Nat) (d : Option LineD) (k : MPkt) (rest : List MPkt) (s : State), n < 256 → p < 5 → vn < 3 →
    let x := hdrOf k.h
    let o := x.nextp
    let moves := Instr.flitArrival n p ⟨vn, none, err⟩
    let entry := niEntry ni idx
    let k0 : MPkt := ⟨hdrWord (hdrInject (s.f entry.1) (s.f entry.2.1) vn (b2n d.isSome)), d, s.ns⟩
    (niAt n p = some ni → s.f R.PWR_MESHQ_STATE = 0 →
      (idx < 282 → stopFits ni idx = true → s.f entry.2.2 = 1 → s.roomAt n p vn k0 = true → s.portLive n p = true →
        exec (.flitArrival n p ⟨vn, some (idx, d), err⟩) s = .next (s.setMeshQ n p vn (s.meshQ n p vn ++ [k0])))
      ∧ (s.f entry.2.2 = 0 → exec (.flitArrival n p ⟨vn, some (idx, d), err⟩) s = .next s))
    ∧ (s.meshQ n p vn = k :: rest →
      (err < 2 → s.portLive n p = true → o ≤ 4 → s.linkLive n o = true →
        (s.wins n o p vn = true → ∃ t, exec moves s = .next t ∧ t = { s with csr := t.csr, meshIn := t.meshIn, meshRr := t.meshRr }
          ∧ t.meshQ n p vn = rest
          ∧ (∀ m, nbr n o = some m → t.meshQ m (oppPort o) vn
              = s.meshQ m (oppPort o) vn ++ [{ k with h := hdrWord x.forward, at_ := s.ns }])
          ∧ OnlyRegs s { t with meshIn := s.meshIn, meshRr := s.meshRr } [R.TIL_RTR_CORR_COUNT n]
          ∧ (err = 0 → t.csr = s.csr)
          ∧ (err = 1 → t.f (R.TIL_RTR_CORR_COUNT n) = min (s.f (R.TIL_RTR_CORR_COUNT n) + 1) (2 ^ (R.TIL_RTR_CORR_COUNT n).w - 1)))
        ∧ (s.wins n o p vn = false → exec moves s = .next s))
      ∧ ((err = 2 ∨ s.portLive n p = false ∨ 4 < o ∨ s.linkLive n o = false) → s.isFatal = false →
          ∃ t, exec moves s = .next t ∧ t.isFatal = true ∧ (s.f (R.TIL_HOME_ERR_KIND n) = 0 → t.f (R.TIL_HOME_ERR_KIND n) = 4)))
    ∧ (∀ q v w, s.wins n o p v = true → s.wins n o q w = true → p = q ∧ v = w)
    ∧ (s.wins n o p 0 = true → (∀ c ∈ s.wanting n o, c.2.2 = false) → ∀ c ∈ s.wanting n o, c.2.1 = 0)
    ∧ (0 < x.nextp → 1 < x.left → segLen x.seg x.sp ≠ 0 →
        x.forward = { x with left := x.left - 1, nextp := segDir x.seg x.sp + 1 })
    ∧ (0 < x.nextp → x.left = 1 → segLen x.seg x.sp ≠ 0 → x.forward = { x with
        sp := x.sp + 1, left := segLen x.seg (x.sp + 1), nextp := if segLen x.seg (x.sp + 1) = 0 then x.exit else segDir x.seg (x.sp + 1) + 1 }))
  ∧ (∀ (ni idx n v : Nat) (e : W64) (s : State), ni < 296 → idx < 282 → n < 256 →
    let w := e.toNat
    let fs := (niEntry ni idx).1
    let fe := (niEntry ni idx).2.1
    let fv := (niEntry ni idx).2.2
    let st := niStat ni
    let why := if w.testBit 63 then routeWhy ni idx (bits w 0 48) (bits w 48 3) else 0
    let holds := fun (t : State) => t.f fs = bits w 0 48 ∧ t.f fe = bits w 48 3 ∧ t.f fv = bits w 63 1
    let same := fun (t : State) => t.f fs = s.f fs ∧ t.f fe = s.f fe ∧ t.f fv = s.f fv
    (why = 0 → Completes (.routeEntryWrite ni idx 0 8 e) s holds)
    ∧ (why ≠ 0 → Completes (.routeEntryWrite ni idx 0 8 e) s (fun t => same t ∧ t.f st.1 = 1 ∧ t.f st.2.1 = idx ∧ t.f st.2.2 = why))
    ∧ Completes (.routeEntryWrite ni idx 0 4 e) s (fun t => same t
        ∧ (why = 0 → Completes (.routeEntryWrite ni idx 4 4 (e >>> 32)) t holds))
    ∧ Completes (.tilNiCtlDefault ni) s (fun t => ∀ j, j < 282 → t.f (niEntry ni j).1 = defSeg ni j % 2 ^ 48
        ∧ t.f (niEntry ni j).2.1 = defExit ni j % 8 ∧ t.f (niEntry ni j).2.2 = 1)
    ∧ (s.f R.PWR_MESHQ_STATE = 2 → Completes (.tilRtrPortEnWrite n v) s (fun t => OnlyRegs s t [R.TIL_RTR_PORT_EN_EN n]
        ∧ ∀ i, i < 5 → bitOf (t.f (R.TIL_RTR_PORT_EN_EN n)) i = (bitOf v i && bitOf (portsConnected n) i)))
    ∧ (s.f R.PWR_MESHQ_STATE ≠ 2 → Completes (.tilRtrPortEnWrite n v) s (fun t => OnlyRegs s t [R.TIL_RTR_STAT_WERR n]
        ∧ t.f (R.TIL_RTR_STAT_WERR n) = 1))
    ∧ Completes (.tilRtrClr n) s (fun t => OnlyRegs s t [R.TIL_RTR_CORR_COUNT n] ∧ t.f (R.TIL_RTR_CORR_COUNT n) = 0)
    ∧ Completes (.tilHomeClr n) s (fun t =>
        let cs := [R.TIL_DIR_STALE_COUNT n, R.TIL_DIR_COARSE_COUNT n, R.TIL_DIR_EVICT_COUNT n, R.TIL_DIR_RETRY_COUNT n,
          R.TIL_HOME_BP_COUNT n, R.TIL_HOME_LATE_COUNT n]
        OnlyRegs s t cs ∧ ∀ x ∈ cs, t.f x = 0))

/-- R281 to R283: the mesh's quiesce and release. A quiesce goes to DRAINING, and once the mesh is empty to QUIESCED; a release goes
to RELEASING, and its check, with no flit in a router, either puts the enables of both ends into effect and runs the mesh, the clock
of awaited answers having stood meanwhile, or finds a fault and stays quiesced. R434, R493 to R497: device-wide mode changes. A legal MODE command starts PREPARE at every hive with the next
generation; a hive answers READY or why not; the last answer (or the timeout) sends COMMIT to the ready hives and ABORT to the
others; the last COMMIT ends the command, with OK only where all 32 applied. MODE_LOCKCTL is done by the command processor
itself. -/
def Obligations.MeshQuiesceAndModeChanges : Prop :=
  (∀ (r : Nat) (c : Cmd) (m : ModeOp) (s : State),
    let sent := fun (code : Nat) => Ordered s r 0x20 c ∧ c.d.par 0 = code ∧ c.phase = 0 ∧ noArgs c.d = true ∧ s.mode = none
      ∧ c.d.okP false false [mLow 16, mLow 32, mAll, mAll, mAll, mAll] = true
    let starts := fun (t : State) (code : Nat) => t.f R.PWR_MODE_STAT_PHASE = 1 ∧ t.f R.PWR_GEN_GEN = (s.f R.PWR_GEN_GEN + 1) % 2 ^ 32
      ∧ (∃ m, t.mode = some m ∧ m.ring = r ∧ m.code = code ∧ m.at_ = s.ns) ∧ SameCore s t
    let ends := fun (u : State) => u.mode = none ∧ u.f R.PWR_MODE_STAT_PHASE = 0 ∧ SameCore s u
    (sent 1 → Completes (.meshQuiesce r) s (fun t => t.f R.PWR_MESHQ_STATE = 1 ∧ starts t 1))
    ∧ (sent 2 → Completes (.meshRelease r) s (fun t => t.f R.PWR_MESHQ_STATE = 3 ∧ starts t 2))
    ∧ (s.mode = some m → m.code = 1 → s.f R.PWR_MESHQ_STATE = 1 → s.meshEmpty = true → s.isFatal = false →
        ∃ res, Finishes .quiesceDrained s m.ring stOK res (fun u => u.f R.PWR_MESHQ_STATE = 2 ∧ ends u))
    ∧ (s.mode = some m → m.code = 2 → s.f R.PWR_MESHQ_STATE = 3 → s.isFatal = false → (∀ e ∈ s.meshIn, e.2 = []) →
        (s.releaseFault = none → ∃ res, Finishes .releaseCheckDone s m.ring stOK res (fun u => u.f R.PWR_MESHQ_STATE = 0 ∧ ends u
          ∧ u.meshIdle = s.meshIdle + (s.ns - s.meshQat) ∧ u.meshHeld = s.meshHeld + (s.ns - s.meshAt) ∧ ∀ n p, n < 256 → p < 5 → u.portLive n p
            = (s.enPort n p && (match nbr n p with | some q => s.enPort q (oppPort p) | none => true))))
        ∧ (∀ ni idx why, s.releaseFault = some (ni, idx, why) → ∃ res, Finishes .releaseCheckDone s m.ring stMESH res (fun u =>
          u.f R.PWR_MESHQ_STATE = 2 ∧ ends u ∧ u.f R.PWR_MESHQ_BAD_NI = ni % 512 ∧ u.f R.PWR_MESHQ_BAD_IDX = idx % 512
          ∧ u.f R.PWR_MESHQ_BAD_WHY = why % 8 ∧ ∀ n, n < 256 → u.f (R.TIL_RTR_STAT_ACTIVE n)
            = s.f (R.TIL_RTR_STAT_ACTIVE n)))))
  ∧ (∀ (r h : Nat) (c : Cmd) (m : ModeOp) (s : State), h < 32 →
    let starts := fun (i : Instr) (code : Nat) => Ordered s r 0x20 c → c.d.par 0 = code → c.phase = 0 → s.mode = none →
      c.d.okP false false [mLow 16, mLow 32, mAll, mAll, mAll, mAll] = true →
      Completes i s (fun t => t.f R.PWR_MODE_STAT_PHASE = 1 ∧ t.f R.PWR_MODE_APPLIED_HIVES = 0 ∧ t.f R.PWR_MODE_READY_HIVES = 0
        ∧ t.f R.PWR_GEN_GEN = (s.f R.PWR_GEN_GEN + 1) % 2 ^ 32 ∧ ∃ q, t.mode = some q ∧ q.ring = r ∧ q.code = code
        ∧ q.wait = List.range 32 ∧ q.tout = if c.d.par 1 = 0 then 1000 else c.d.par 1)
    let last := c.d.par 4 = 0 ∧ c.d.par 5 = 0
    (c.d.par 2 < 16 → c.d.par 3 < 2 ^ 16 → last → starts (.modeLlcClass r) 0x10)
    ∧ (1 ≤ c.d.par 2 → c.d.par 2 ≤ 64 → c.d.par 3 = 0 → last → starts (.modeTrainCtl r) 0x11)
    ∧ (c.d.par 2 &&& fldMask (rdistFlds 0) = c.d.par 2 → c.d.par 3 = 0 → last → starts (.modeRdistCtl r) 0x12)
    ∧ (c.d.par 2 < 2 ^ 32 → c.d.par 3 = 0 → last → starts (.modeForageStep r) 0x13)
    ∧ (Ordered s r 0x20 c → c.d.par 0 = 0x20 → c.phase = 0 → s.mode = none → s.cmds.all (fun e => e.1 == r) = true →
        c.d.okP false false [mLow 16, mLow 32, mAll, mAll, mAll, mAll] = true → c.d.par 2 < 4096 → c.d.par 3 = c.d.par 2 →
        c.d.par 4 &&& fldMask (lockCtlFlds 0) = c.d.par 4 → c.d.par 5 &&& (mAll - 0xFE0) = c.d.par 5 →
        s.domSt (c.d.par 2) ≠ domRUNNING → ∃ res, Finishes (.modeLockctl r) s r stOK res (fun u => u.mode = none
          ∧ u.f (R.DOM_LOCKLOG_BASE_BASE (c.d.par 2)) = bits (c.d.par 5) 12 34
          ∧ u.f (R.DOM_LOCKCTL_CHK_U (c.d.par 2)) = bits (c.d.par 4) (R.DOM_LOCKCTL_CHK_U 0).lo (R.DOM_LOCKCTL_CHK_U 0).w))
    ∧ (s.mode = some m → s.f R.PWR_MODE_STAT_PHASE = 1 → h ∈ m.wait → 0x10 ≤ m.code → s.isFatal = false →
        (s.modeWhy m.code h = 0 → m.wait ≠ [h] → m.wait.Nodup → Completes (.prepare h) s (fun t =>
          t.f (R.PWR_HPREP_GEN h) = s.f R.PWR_GEN_GEN % 2 ^ 32 ∧ bitOf (t.f R.PWR_MODE_READY_HIVES) h = true
          ∧ t.mode = some { m with wait := m.wait.filter (· != h) }))
        ∧ (s.modeWhy m.code h = 0 → m.wait = [h] → Completes (.prepare h) s (fun t => t.f R.PWR_MODE_STAT_PHASE = 2
          ∧ ∃ q, t.mode = some q ∧ ∀ g, g ∈ q.wait ↔ g < 32 ∧ (g = h ∨ bitOf (s.f R.PWR_MODE_READY_HIVES) g = true)))
        ∧ (s.modeWhy m.code h ≠ 0 → m.wait ≠ [h] → m.wait.Nodup → Completes (.prepare h) s (fun t =>
          t.f R.PWR_MODE_READY_HIVES = s.f R.PWR_MODE_READY_HIVES
          ∧ bits (t.f (R.PWR_MODE_WHY_WHY (h / 8))) (4 * (h % 8)) 4 = s.modeWhy m.code h))
        ∧ (m.at_ + m.tout * 1000 ≤ s.ns → (∃ g, g < 32 ∧ bitOf (s.f R.PWR_MODE_READY_HIVES) g = true) → Completes .modeTimeout s (fun t =>
          t.f R.PWR_MODE_STAT_PHASE = 2 ∧ ∃ q, t.mode = some q ∧ q.wait = (List.range 32).filter (bitOf (s.f R.PWR_MODE_READY_HIVES)))))
    ∧ (s.mode = some m → s.f R.PWR_MODE_STAT_PHASE = 2 → h ∈ m.wait → s.isFatal = false →
        let allApplied := setBit (s.f R.PWR_MODE_APPLIED_HIVES) h % 2 ^ 32 = allHives
        (m.wait ≠ [h] → m.wait.Nodup → Completes (.commit h) s (fun t => t.f (R.PWR_HGEN_GEN h) = s.f R.PWR_GEN_GEN % 2 ^ 32
          ∧ t.f (R.PWR_HPREP_GEN h) = 0 ∧ bitOf (t.f R.PWR_MODE_APPLIED_HIVES) h = true
          ∧ (m.code = 0x10 → m.args.getD 0 0 < 16 → ∀ j, j < 8 →
            t.f (R.TIL_LLC_CLASS_WAYS (8 * h + j) (m.args.getD 0 0)) = m.args.getD 1 0 % 2 ^ 16)
          ∧ (m.code = 0x13 → ∀ ch ∈ hiveChans h, t.f (R.MEM_FORAGE_STEP_NS ch) = m.args.getD 0 0 % 2 ^ 32)))
        ∧ (m.wait = [h] → ∃ res, Finishes (.commit h) s m.ring (if allApplied then stOK else stPARTIAL) res (fun u =>
          u.mode = none ∧ u.f R.PWR_MODE_STAT_PHASE = 0 ∧ u.f (R.PWR_HGEN_GEN h) = s.f R.PWR_GEN_GEN % 2 ^ 32)))
    ∧ (h ∈ s.aborts → Completes (.abort h) s (fun t => t.f (R.PWR_HPREP_GEN h) = 0 ∧ h ∉ t.aborts)))

/-- R88 to R90, R434, R492: tile clocks. A write of a legal CODE sets TARGET and starts a change towards the lower of TARGET and
the hive's cap: the voltage rises first, or the clock stops; PLL_LOCK makes the new CODE current, and VOLTAGE_REACHED ends the
stage it ends. POWER subop 0 writes TARGET and completes when CUR has reached it; a CODE above 96 is refused as a direct write of it
is. R540, R542: readings, caps and the
power-limit contact. A reading is kept as read; a hive that reaches 102 °C for the first time steps to 4 below its fastest
tile; each further step takes 4, or gives 4 back once everything has been clear for 1 ms; PWRLIM_N low caps every hive at
PWR_PWRLIM. SMBALERT_N is low from the first step on. -/
def Obligations.TileClocksAndLimits : Prop :=
  (∀ (r n : Nat) (v : W32) (c : Cmd) (s : State), n < 256 →
    let code := bits v.toNat 0 7
    let want := min code (s.f (R.PWR_HCAP_CAP (n / 8)))
    let cur := s.f (R.TIL_CLK_STAT_CUR n)
    let still := s.f (R.TIL_CLK_STAT_BUSY n) = 0 ∧ s.f (R.TIL_PWR_STAT_STATE n) = 0 ∧ s.f (R.TIL_PWR_STAT_PREP n) = 0
      ∧ s.f (R.TIL_PWR_STAT_ENTERING n) = 0 ∧ s.f (R.CUF_STAT_HANDOVER n) = 0
    (s.fused n = true → exec (.tilClkCtlWrite n v) s = .next s)
    ∧ (s.fused n = false → 96 < code → Completes (.tilClkCtlWrite n v) s (fun t => OnlyRegs s t [R.TIL_CLK_STAT_BADCODE n]
        ∧ t.f (R.TIL_CLK_STAT_BADCODE n) = 1))
    ∧ (s.fused n = false → code ≤ 96 → Completes (.tilClkCtlWrite n v) s (fun t => t.f (R.TIL_CLK_CTL_TARGET n) = code
        ∧ t.f (R.TIL_CLK_STAT_CUR n) = cur ∧ t.f (R.TIL_CLK_STAT_LIMIT n) = (if s.f (R.PWR_HCAP_CAP (n / 8)) < code then 1 else 0)
        ∧ (still → want ≠ cur → t.f (R.TIL_CLK_STAT_BUSY n) = 1 ∧ (t.tpw n).clk = want ∧ t.tclk n = if want > cur then 1 else 2)
        ∧ SameCore s t))
    ∧ (s.tclk n = 1 → Completes (.voltageReached n) s (fun t => t.tclk n = 2 ∧ t = { s with tileClk := t.tileClk }))
    ∧ (s.tclk n = 2 → (s.tpw n).clk = s.clkWant n → s.cmds = [] → Completes (.pllLock n) s (fun t =>
        t.f (R.TIL_CLK_STAT_CUR n) = s.clkWant n ∧ t.f (R.TIL_CLK_STAT_BUSY n) = 0 ∧ t.tclk n = if s.clkWant n < cur then 3 else 0))
    ∧ (s.tclk n = 3 → Completes (.voltageReached n) s (fun t => t.tclk n = 0 ∧ t = { s with tileClk := t.tileClk }))
    ∧ (Ordered s r 0x21 c → c.d.tile = n → c.d.par 0 = 0 → s.fused n = false →
        (c.phase = 0 → c.d.okP false true [0xFF, 0x7F] = true → s.clash r 0 [n] = false → c.d.par 1 ≤ 96 → c.d.par 1 ≠ cur →
          c.d.par 1 ≤ s.f (R.PWR_HCAP_CAP (n / 8)) → Completes (.powerClockTarget r) s (fun t =>
            t.f (R.TIL_CLK_CTL_TARGET n) = c.d.par 1 ∧ t.cmd r = some { c with phase := 1, at_ := s.ns, aux := [n] }))
        ∧ (c.phase = 0 → c.d.okP false true [0xFF, 0x7F] = true → s.clash r 0 [n] = false → 96 < c.d.par 1 →
          Finishes (.powerClockTarget r) s r stPARAM 0 (fun u =>
            OnlyRegs s u [R.TIL_CLK_STAT_BADCODE n] ∧ u.f (R.TIL_CLK_STAT_BADCODE n) = 1))
        ∧ (c.phase = 1 → s.cmds = [(r, some c)] → cur = s.f (R.TIL_CLK_CTL_TARGET n) →
          Finishes (.powerClockTarget r) s r stOK 0 (fun u => u = s))))
  ∧ (∀ (h tj tmem da : Nat) (low : Bool) (s : State), h < 32 →
    let cap := fun (t : State) (g : Nat) => t.f (R.PWR_HCAP_CAP g)
    let after := degC (tj % 256)
    Completes (.sensorRead h tj tmem da) s (fun t => t.hiveTemp h = after ∧ t.f R.PWR_TEMP_TMEM = tmem % 256
      ∧ t.f R.PWR_IMAIN_DA = da % 2 ^ 16 ∧ t.cores = s.cores)
    ∧ (s.hiveTemp h < 102 → 102 ≤ after → after < 105 → degC (tmem % 256) < 95 → da < 6000 → cap s h ≤ 96 →
        Completes (.sensorRead h tj tmem da) s (fun t => cap t h = min (cap s h) (s.maxCur h - 4) ∧ t.f R.PWR_LIMSTAT_THERM = 1
          ∧ (s.maxCur h < 100 → t.smbAlertN = false)
          ∧ ∀ g, g < 32 → g ≠ h → cap t g = cap s g))
    ∧ (s.stepsNow h = true → Tbl.get 0 s.capAt h + 100000 ≤ s.ns → Completes (.capStep h) s (fun t => cap t h = cap s h - 4
        ∧ ∀ g, g < 32 → g ≠ h → cap t g = cap s g))
    ∧ (s.allClear = true → cap s h < 96 → s.clearAt + 1000000 ≤ s.ns → Tbl.get 0 s.capAt h + 1000000 ≤ s.ns →
        Completes (.capStep h) s (fun t => cap t h = min 96 (cap s h + 4) ∧ ∀ g, g < 32 → g ≠ h → cap t g = cap s g))
    ∧ Completes (.pwrlimN low) s (fun t => t.pins = { s.pins with limN := !low } ∧ t.f R.PWR_LIMSTAT_PIN = b2n low
        ∧ ∀ g, g < 32 → cap t g = if low then min (cap s g) (min 96 (s.f R.PWR_PWRLIM_CODE)) else cap s g))

/-- R434, R482 to R490, R500, R501: tile power states. Preparation ends in entry or, with an event at hand, in a counted abort;
the state is reached; a core wake, or a forward at the Seam, starts an exit or a service wake, or is latched while the tile
enters; the exit ends in T0 with a free tile's cores running. POWER subops 5 and 6 do so for free tiles; an entry asked for during a
hand-over is refused and counted (R352). -/
def Obligations.TilePowerStates : Prop :=
  ∀ (r n : Nat) (c : Cmd) (s : State), n < 256 →
    let x := s.tpw n
    let st := fun (t : State) => t.f (R.TIL_PWR_STAT_STATE n)
    let entering := s.f (R.TIL_PWR_STAT_ENTERING n) = 1
    let halted := fun (t : State) (b : Bool) => ∀ k, k / 2 = n → (t.core k).halt = b
    let aborts := fun (who : Nat) (t : State) => t.f (R.TIL_PWR_STAT_PREP n) = 0 ∧ t.f (R.TIL_PWR_STAT_ENTERING n) = 0 ∧ st t = st s
      ∧ t.f (R.PWR_HABT_COUNT (n / 8) (x.goal - 1) who) = min (s.f (R.PWR_HABT_COUNT (n / 8) (x.goal - 1) who) + 1) (2 ^ 32 - 1)
      ∧ t.f (R.PWR_HLAST_WHO (n / 8)) = who ∧ t.f (R.PWR_HLAST_TILE (n / 8)) = n % 8
    (s.f (R.TIL_PWR_STAT_PREP n) = 1 → s.tileOut n = false → s.evRefuses n = false → Completes (.preparationEnd n) s (fun t =>
        OnlyRegs s t [R.TIL_PWR_STAT_PREP n, R.TIL_PWR_STAT_ENTERING n] ∧ t.f (R.TIL_PWR_STAT_PREP n) = 0
        ∧ t.f (R.TIL_PWR_STAT_ENTERING n) = 1))
    ∧ (s.f (R.TIL_PWR_STAT_PREP n) = 1 → 1 ≤ x.goal → x.goal ≤ 3 → x.ring = none →
        (s.tileOut n = false → s.evRefuses n = true → Completes (.preparationEnd n) s (aborts 2))
        ∧ (x.at_ + 4000 ≤ s.ns → Completes (.preparationTimeout n) s (aborts 0)))
    ∧ (entering → x.ring = none → x.goal < 4 →
        (s.f (R.TIL_PWR_STAT_LATCHED n) = 0 → Completes (.stateReached n) s (fun t => st t = x.goal
          ∧ t.f (R.TIL_PWR_STAT_ENTERING n) = 0 ∧ t.f (R.TIL_PWR_STAT_EXITING n) = s.f (R.TIL_PWR_STAT_EXITING n) ∧ SameCore s t))
        ∧ (s.f (R.TIL_PWR_STAT_LATCHED n) = 1 → x.core = true → Completes (.stateReached n) s (fun t => st t = x.goal
          ∧ t.f (R.TIL_PWR_STAT_LATCHED n) = 0 ∧ t.f (R.TIL_PWR_STAT_EXITING n) = 1)))
    ∧ (s.asleep n = true → s.coreWakeDue n = true → s.f (R.CUF_STAT_STOPPED n) = 0 →
        (¬ entering → Completes (.wake n) s (fun t => t.f (R.TIL_PWR_STAT_EXITING n) = 1 ∧ Tbl.get 0 t.tileSvc n = 0
          ∧ t.f (R.TIL_PWR_WAKES_COUNT n) = min (s.f (R.TIL_PWR_WAKES_COUNT n) + 1) (2 ^ 32 - 1) ∧ SameCore s t))
        ∧ (entering → Completes (.wake n) s (fun t => t.f (R.TIL_PWR_STAT_LATCHED n) = 1 ∧ (t.tpw n).core = true ∧ SameCore s t)))
    ∧ (s.asleep n = true → s.fwdWaits n = true → Tbl.get 0 s.tileSvc n = 0 → s.f (R.TIL_PWR_STAT_LATCHED n) = 0 → x.back = false →
        (¬ entering → Completes (.serviceWake n) s (fun t => t.f (R.TIL_PWR_STAT_EXITING n) = 1 ∧ Tbl.get 0 t.tileSvc n = 1
          ∧ t.f (R.TIL_PWR_SVC_COUNT n) = min (s.f (R.TIL_PWR_SVC_COUNT n) + 1) (2 ^ 32 - 1) ∧ t.msgs = s.msgs))
        ∧ (entering → Completes (.serviceWake n) s (fun t => t.f (R.TIL_PWR_STAT_LATCHED n) = 1 ∧ Tbl.get 0 t.tileSvc n = 0)))
    ∧ (Tbl.get 0 s.tileSvc n = 1 → s.fwdWaits n = false → s.f (R.TIL_PWR_STAT_LATCHED n) = 0 →
        Completes (.serviceReturnDone n) s (fun t => Tbl.get 0 t.tileSvc n = 0 ∧ t.f (R.TIL_PWR_STAT_EXITING n) = 0 ∧ st t = st s))
    ∧ (s.f (R.TIL_PWR_STAT_EXITING n) = 1 → Tbl.get 0 s.tileSvc n = 0 → s.cmds = [] → Completes (.exitDone n) s (fun t =>
        st t = 0 ∧ t.f (R.TIL_PWR_STAT_EXITING n) = 0 ∧ (s.domOf n = 0 → halted t false) ∧ (s.domOf n ≠ 0 → t.cores = s.cores)))
    ∧ Completes (.pwrHclr (n / 8)) s (fun t => (∀ i j, i < 3 → j < 5 → t.f (R.PWR_HREF_COUNT (n / 8) i j) = 0
        ∧ t.f (R.PWR_HABT_COUNT (n / 8) i j) = 0) ∧ t.f (R.TIL_PWR_SVC_COUNT n) = 0 ∧ t.f (R.TIL_PWR_WAKES_COUNT n) = 0 ∧ SameCore s t)
    ∧ Completes .pwrClr s (fun t => (∀ i j, i < 3 → j < 5 → t.f (R.PWR_REF_COUNT i j) = 0 ∧ t.f (R.PWR_ABT_COUNT i j) = 0)
        ∧ SameCore s t)
    ∧ (Ordered s r 0x21 c → c.d.tile = n → s.domOf n = 0 → s.f (R.CUF_STAT_STOPPED n) = 0 →
        (c.d.par 0 = 5 → c.phase = 0 → c.d.okP false true [0xFF, mLow 24] = true → s.clash r 0 [n] = false → s.fused n = false →
          s.asleep n = false → s.f (R.TIL_PWR_STAT_PREP n) = 0 → st s = 0 →
          (s.f (R.CUF_STAT_HANDOVER n) = 0 ∨ c.d.par 1 < 50) → Completes (.powerTileEntry r) s (fun t =>
            t.cmd r = some { c with phase := 1, at_ := s.ns, aux := [n] } ∧ SameCore s t))
        ∧ (c.d.par 0 = 5 → c.phase = 0 → c.d.okP false true [0xFF, mLow 24] = true → s.fused n = false →
          s.asleep n = false → s.f (R.TIL_PWR_STAT_PREP n) = 0 → st s = 0 → s.f (R.CUF_STAT_HANDOVER n) = 1 → 50 ≤ c.d.par 1 →
          let who := R.PWR_HREF_COUNT (n / 8) (powerGoal (c.d.par 1) - 1) 4
          Finishes (.powerTileEntry r) s r stOK 0 (fun u => u.f who = min (s.f who + 1) (2 ^ 32 - 1)
            ∧ u.f (R.PWR_HLAST_WHO (n / 8)) = 4 ∧ u.f (R.PWR_HLAST_TILE (n / 8)) = n % 8 ∧ u.f (R.TIL_PWR_STAT_PREP n) = 0))
        ∧ (c.d.par 0 = 5 → c.phase = 1 → c.aux = [n] → s.tileAtB n false = true → s.tileOut n = false →
          s.f (R.TIL_CLK_STAT_BUSY n) = 0 → (∀ k, k / 2 = n → (s.core k).held = [] ∧ s.timerWakes k = false) →
          50 ≤ c.d.par 1 → Completes (.powerTileEntry r) s (fun t => halted t true ∧ t.f (R.TIL_PWR_STAT_PREP n) = 1
            ∧ (t.tpw n).goal = powerGoal (c.d.par 1) ∧ t.cmd r = some { c with phase := 2 }))
        ∧ (c.d.par 0 = 6 → c.phase = 0 → c.d.okP false true [0xFF, 0] = true → s.clash r 0 [n] = false → s.fused n = false →
          (s.asleep n = false → st s = 0 → Finishes (.powerTileWake r) s r stOK 0 (fun u => halted u false ∧ u.dram = s.dram))
          ∧ (s.asleep n = true → ¬ entering → Completes (.powerTileWake r) s (fun t => t.f (R.TIL_PWR_STAT_EXITING n) = 1
            ∧ t.cmd r = some { c with phase := 1, at_ := s.ns, aux := [n] }))))

/-- R292 to R294: the code that stands on every DRAM word: an intact word reads as it was written, and any one or any two wrong
bits of its 88 are found and put right. -/
def Obligations.OneOrTwoWrongBitsAreCorrected : Prop :=
  ∀ (data locks : Nat) (p : Bool),
    let w := codeEnc data locks p
    cwData w = data % 2 ^ 64 ∧ cwLocks w = locks % 2 ^ 8 ∧ cwPois w = p ∧ codeDec w = (w, 0)
    ∧ (∀ i, i < 88 → codeDec (w ^^^ 2 ^ i) = (w, 1))
    ∧ (∀ i j, i < 88 → j < 88 → i ≠ j → codeDec (w ^^^ 2 ^ i ^^^ 2 ^ j) = (w, 2))

/-- R177, R238, R254, R288 to R290, R292, R296, R299: a channel takes the first request at its Seam into the queue of its kind; what
waited for a write's acceptance goes on then (a fill of the LLC whose victim it writes, WR_DONE, a Device store). It serves a line's
read from the array, or from a queued whole-line write that is older, with DATA to the home's requester, which waits where the LLC
takes the line and a dirty victim stands in its way; and a queued write by storing the line's eight code words. -/
def Obligations.ChannelServesRequests : Prop :=
  ∀ (ch : Nat) (q w : ChReq) (rest : List ChReq) (m : Msg) (kind : Kind) (x : LineD) (fill : Option LlcFill) (s : State),
    ch < 24 → s.chanOpen ch = true →
    let k := s.chan ch
    let took := { q with n := k.accN, at_ := s.ns }
    let data := fun (d : LineD) =>
      ({ k := .data, L := q.L, agent := m.agent, core := m.core, dom := m.dom, kind := kind, d := some d } : Msg)
    let word := fun (i : Nat) => if x.poison.getLsbD i then poisonWord
      else codeEnc (x.read (8 * i) 8) (lockAt x.locks (2 * i) + 16 * lockAt x.locks (2 * i + 1)) false
    let serves := s.bankOpen ch q.bank = true ∧ s.throttled ch q.bank q.dom = false
    let queued := fun (o : ChOp) (t : State) => t.chan ch = { k with inq := rest, accN := k.accN + 1
                                                                     wrq := k.wrq ++ [{ took with op := o }]
                                                                     drain := k.drain || decide (k.wrq.length + 1 ≥ 48) }
    (k.inq = q :: rest → q.isRead = true → k.rdq.length < 64 → Completes (.channelRequestAccept ch) s (fun t =>
        t.chan ch = { k with inq := rest, accN := k.accN + 1, rdq := k.rdq ++ [took], drain := k.drain || decide (k.wrq.length ≥ 48) }
        ∧ t = { s with chans := t.chans }))
    ∧ (k.inq = q :: rest → k.wrq.length < 64 →
        (q.op = .homeWr x none → Completes (.channelRequestAccept ch) s (fun t => queued (.homeWr x none) t ∧ t = { s with chans := t.chans }))
        ∧ (∀ f, q.op = .homeWr x (some f) → (∀ V y, s.llcAt f.L f.e.way = some (V, y) → y.dirty = false) →
            Completes (.channelRequestAccept ch) s (fun t => queued (.homeWr x none) t ∧ t.llcE f.L = some f.e ∧ t.msgs = s.msgs ++ f.msgs))
        ∧ (q.op = .ncWr m → s.txns.any (fun y => y.L == q.L && y.m == m) = true → Completes (.channelRequestAccept ch) s (fun t =>
            queued q.op.accepted t ∧ t.txns = s.txns.filter (fun y => y.L != q.L)
            ∧ ∃ st, t.msgs = s.msgs ++ [{ k := .wrDone, L := q.L, agent := m.agent, stat := st }] ∧ (s.chanGone q.L = true → st = 1)
              ∧ (s.chanGone q.L = false → q.op.wholeLine.isSome = true → st = 0)))
        ∧ (∀ c tag off size v lo lk, q.op = .devWr c tag off size v lo lk → Completes (.channelRequestAccept ch) s (fun t =>
            queued q.op t ∧ ∀ p, p ∈ (t.core c).posted → p.fab = false → p.tag = tag → p.done = true)))
    ∧ (k.rdq = [q] → k.wrq = [] → q.op = .homeRd m kind false → m.k ≠ .atomic → serves → ∃ d, Completes (.bankOperation ch q.L true) s (fun t =>
        t.msgs = s.msgs ++ [data d] ∧ (t.chan ch).rdq = [] ∧ t.llc = s.llc
        ∧ (s.chanGone q.L = true → d = linePoison)
        ∧ (s.chanGone q.L = false → (∀ i, i < 8 → Tbl.get none s.dram (q.L * 8 + i) = some (word i)) →
            d.poison = x.poison ∧ ∀ i, i < 8 → x.poison.getLsbD i = false → d.read (8 * i) 8 = x.read (8 * i) 8
              ∧ lockAt d.locks (2 * i) = lockAt x.locks (2 * i) ∧ lockAt d.locks (2 * i + 1) = lockAt x.locks (2 * i + 1))))
    ∧ (k.rdq = [q] → k.wrq = [] → q.op = .homeRd m kind true → m.k ≠ .atomic → serves → q.dom < 4096 → s.llcE q.L = none → ∀ v V y, s.llcWay q.L q.dom = some v →
        s.llcAt q.L v = some (V, y) → V ≠ q.L → ∃ d, Completes (.bankOperation ch q.L true) s (fun t => (t.chan ch).rdq = []
          ∧ (y.dirty = false → t.msgs = s.msgs ++ [data d] ∧ t.llcE q.L = some ⟨d, false, v⟩)
          ∧ (y.dirty = true → t.msgs = s.msgs ∧ t.llcE q.L = none ∧ (t.chan (chanOf V)).inq = (s.chan (chanOf V)).inq
              ++ [{ L := V, dom := q.dom, op := .homeWr y.d (some ⟨q.L, ⟨d, false, v⟩, [data d], false⟩) }])))
    ∧ (k.rdq = [q] → k.wrq = [w] → w.L = q.L → w.n < q.n → w.op = .homeWr x fill → q.op = .homeRd m kind false → m.k ≠ .atomic →
        Completes (.bankOperation ch q.L true) s (fun t => (t.chan ch).wrq = [w] ∧ t.dram = s.dram
          ∧ t.msgs = s.msgs ++ [data (if s.chanGone q.L then linePoison else x)]))
    ∧ (k.rdq = [] → k.wrq = [q] → q.op = .homeWr x fill → serves → s.chanGone q.L = false →
        Completes (.bankOperation ch q.L false) s (fun t => (t.chan ch).wrq = [] ∧ t.msgs = s.msgs
          ∧ (∀ i, i < 8 → Tbl.get none t.dram (q.L * 8 + i) = some (word i))
          ∧ ∀ j, j / 8 ≠ q.L → Tbl.get none t.dram j = Tbl.get none s.dram j))

/-- R287, R301 to R306, R312: refresh, the disturbance defence and retraining. A targeted refresh or a throttle ends; the group
counters restart every 32 ms; a refresh is performed or postponed; a due retraining pauses the channel, and its end counts it,
with the failures in a row; a deferral holds retraining back, in self-refresh to its own end; the interval takes 1 to 64. -/
def Obligations.RefreshAndRetraining : Prop :=
  ∀ (ch bank dom len : Nat) (v : W32) (s : State), ch < 24 →
    let k := s.chan ch
    let only := fun (k1 : Chan) (t : State) => t.chan ch = k1 ∧ t = { s with chans := t.chans } ∧ ∀ g, g ≠ ch → t.chan g = s.chan g
    let due := Tbl.get 0 k.refDue bank
    let sel := fun (x : Throttle) => x.bank == bank && x.dom == dom && decide (x.till ≤ s.ns)
    let deferred := fun (t : State) => t.f (R.MEM_TRAIN_STAT_DEFERRED ch)
    let paused := fun (t : State) => t.f (R.MEM_STAT_PAUSED ch)
    let us := min 16000 (bits v.toNat 0 15)
    (k.asked = none → s.trainDue ch = k.trainAt + s.f (R.MEM_TRAIN_CTL_INTERVAL ch) * 500000)
    ∧ (k.tref.any (·.1 == bank) = true → Completes (.targetedRefreshDone ch bank) s (only { k with tref := k.tref.eraseP (·.1 == bank) }))
    ∧ (k.thr.any sel = true → Completes (.throttleExpiry ch bank dom) s (only { k with thr := k.thr.filter (fun x => !(sel x)) }))
    ∧ (k.grpAt + 32000000 ≤ s.ns → Completes (.groupCounterReset ch) s (only { k with grp := [], grpAt := k.grpAt + (s.ns - k.grpAt) / 32000000 * 32000000 }))
    ∧ (bank < 64 → s.f (R.MEM_STAT_TRAINED ch) = 1 → s.f (R.MEM_STAT_SREF ch) = 0 →
        (due < 8 → Completes (.refresh ch bank true) s (fun t => Tbl.get 0 (t.chan ch).refDue bank = due + 1))
        ∧ (due = 8 → exec (.refresh ch bank true) s = .next s)
        ∧ (paused s = 0 → k.tref.any (·.1 == bank) = false → Completes (.refresh ch bank false) s (fun t =>
            Tbl.get 0 (t.chan ch).refDue bank = 0 ∧ ∀ b, b ≠ bank → Tbl.get 0 (t.chan ch).refDue b = Tbl.get 0 k.refDue b)))
    ∧ (s.chanOpen ch = true → s.trainDue ch ≤ s.ns → deferred s = 0 →
        Completes (.retraining ch) s (fun t => paused t = 1 ∧ (t.chan ch).trainAt = s.ns ∧ (t.chan ch).asked = none ∧ t.chanOpen ch = false))
    ∧ (paused s = 1 → len ≤ 200 →
        let fails := min 3 (s.f (R.MEM_TRAIN_STAT_FAILS ch) + 1)
        let ended := fun (t : State) => paused t = 0 ∧ t.f (R.MEM_TRAIN_STAT_LAST_NS ch) = len
          ∧ t.f (R.MEM_TRAIN_COUNT_COUNT ch) = min (s.f (R.MEM_TRAIN_COUNT_COUNT ch) + 1) (2 ^ 32 - 1)
        Completes (.retrainingDone ch true len) s (fun t => ended t ∧ t.f (R.MEM_TRAIN_STAT_FAILS ch) = 0)
        ∧ Completes (.retrainingDone ch false len) s (fun t => ended t ∧ t.f (R.MEM_TRAIN_STAT_FAILS ch) = fails
          ∧ t.f (R.MEM_STAT_FAILED ch) = if fails = 3 then 1 else s.f (R.MEM_STAT_FAILED ch)))
    ∧ Completes (.memTrainDeferWrite ch v) s (fun t => deferred t = (if us = 0 then 0 else 1)
        ∧ (t.chan ch).deferTo = s.ns + us * 1000 ∧ SameCore s t)
    ∧ (deferred s = 1 → (if s.f (R.MEM_STAT_SREF ch) = 1 ∨ k.exiting = true then k.deferTo
          else min k.deferTo (s.trainDue ch + 16000000)) ≤ s.ns →
        Completes (.deferralEnd ch) s (fun t => deferred t = 0
          ∧ (paused t = 1 ↔ paused s = 1 ∨ (s.chanOpen ch = true ∧ s.trainDue ch ≤ s.ns))))
    ∧ (1 ≤ bits v.toNat 0 7 → bits v.toNat 0 7 ≤ 64 → Completes (.memTrainCtlWrite ch v) s (fun t =>
        OnlyRegs s t [R.MEM_TRAIN_CTL_INTERVAL ch] ∧ t.f (R.MEM_TRAIN_CTL_INTERVAL ch) = bits v.toNat 0 7))
    ∧ ((bits v.toNat 0 7 = 0 ∨ 64 < bits v.toNat 0 7) → Completes (.memTrainCtlWrite ch v) s (fun t =>
        OnlyRegs s t [R.MEM_TRAIN_STAT_BADVAL ch] ∧ t.f (R.MEM_TRAIN_STAT_BADVAL ch) = 1))

/-- R299, R300, R434, R489: segments and self-refresh. KEEP and FSKIP follow a write bit by bit, a segment let go loses what it
stored, and POWER subop 1 writes every channel's KEEP; a request wakes a channel from self-refresh, and the exit's end
restarts it; POWER subop 2 takes the channels that nothing refuses, and subop 3 starts their exits. -/
def Obligations.SegmentsAndSelfRefresh : Prop :=
  ∀ (r ch g len : Nat) (v : W32) (conv : Bool) (c : Cmd) (s : State), ch < 24 → g < 8 →
    let keep := fun (t : State) (ch : Nat) => bitOf (t.f (R.MEM_PASR_CTL_KEEP ch)) g
    let skip := fun (t : State) => bitOf (t.f (R.MEM_PASR_CTL_FSKIP ch)) g
    let sref := fun (t : State) (ch : Nat) => t.f (R.MEM_STAT_SREF ch)
    let quiet := fun (ch : Nat) => (s.chan ch).rdq = [] ∧ (s.chan ch).wrq = []
    (quiet ch → Completes (.memPasrCtlWrite ch v) s (fun t => keep t ch = v.getLsbD g
        ∧ skip t = ((skip s && !(v.getLsbD (8 + g))) || (!(keep s ch) && v.getLsbD g))
        ∧ ∀ L i, i < 8 → chanOf L = ch → segOf (L / 24) = g → Tbl.get none t.dram (L * 8 + i)
          = if keep s ch && !(v.getLsbD g) then none else Tbl.get none s.dram (L * 8 + i)))
    ∧ (Ordered s r 0x21 c → c.d.par 0 = 1 → c.d.okP false false [0xFF, 0xFF] = true → (∀ j, j < 24 → quiet j) →
        Finishes (.powerSegmentKeep r) s r stOK 0 (fun u => ∀ j, j < 24 → u.f (R.MEM_PASR_CTL_KEEP j) = c.d.par 1))
    ∧ (sref s ch = 1 → (s.chan ch).exiting = false → (s.chan ch).inq ≠ [] → Completes (.selfRefreshWake ch) s (fun t =>
        sref t ch = 0 ∧ t.f (R.MEM_STAT_SRWAKE ch) = 1 ∧ t.chan ch = { s.chan ch with exiting := true } ∧ t.chanOpen ch = false))
    ∧ ((s.chan ch).exiting = true → len ≤ 200 → s.cmds = [] → Completes (.selfRefreshExitDone ch conv len) s (fun t =>
        sref t ch = 0 ∧ (t.chan ch).exiting = false ∧ (t.chan ch).trainAt = s.ns - len ∧ (t.chan ch).asked = none ∧ t.f (R.MEM_TRAIN_STAT_LAST_NS ch) = len
        ∧ t.f (R.MEM_TRAIN_COUNT_COUNT ch) = min (s.f (R.MEM_TRAIN_COUNT_COUNT ch) + 1) (2 ^ 32 - 1)))
    ∧ (Ordered s r 0x21 c → c.d.par 0 = 2 → c.d.okP false false [0xFF, mLow 24] = true →
        ∃ res, Finishes (.powerSelfRefreshEntry r) s r stOK res (fun u => SameCore s u ∧ ∀ j, j < 24 →
          (bitOf res j = true ↔ sref u j = 1) ∧ sref u j
            = if sref s j = 1 ∨ (bitOf (c.d.par 1) j = true ∧ s.srefRefuser j = none) then 1 else 0))
    ∧ (Ordered s r 0x21 c → c.d.par 0 = 3 → c.phase = 0 → s.cmds = [(r, some c)] → c.d.okP false false [0xFF, mLow 24] = true →
        bitOf (c.d.par 1) ch = true → sref s ch = 1 → Completes (.powerSelfRefreshExit r) s (fun t =>
          sref t ch = 0 ∧ (t.chan ch).exiting = true ∧ t.cmd r = some { c with phase := 1, at_ := s.ns, aux := [] }))

/-- R308 to R313, R432: the Forager and the error accounts. Each pass reads the next covered line and moves on, counting the wrap;
a range entry holds what is written, by register or by SCRUB_RANGE; the bucket leaks one at its interval and arms again at
half its threshold; each clear bit clears its counters. -/
def Obligations.ForagerAndErrorAccounts : Prop :=
  ∀ (r ch n q : Nat) (v : W64) (c : Cmd) (s : State), ch < 24 → n < 8 →
    let k := s.chan ch
    let pos := fun (t : State) => t.f (R.MEM_FORAGE_POS_Q ch)
    let passes := fun (t : State) => t.f (R.MEM_FORAGE_PASS_COUNT ch)
    let iv := max 1 (s.f (R.MEM_CE_CTL_LEAK_MS ch)) * 1000000
    let left := s.f (R.MEM_CE_BUCKET_COUNT ch) - 1
    let cs := [R.MEM_TRAIN_COUNT_COUNT ch, R.MEM_SEG_REFUSED_COUNT ch, R.MEM_FORAGE_PASS_COUNT ch, R.MEM_CE_TOTAL_COUNT ch,
      R.MEM_UE_TOTAL_COUNT ch, R.MEM_POISON_RD_COUNT ch, R.MEM_RMW_COUNT ch, R.MEM_RDIST_COUNT_COUNT ch, R.MEM_RDIST_OVF_COUNT ch]
    let range := fun (t : State) (ch n a b x : Nat) => t.f (R.MEM_SCRUB_RANGE_FIRST ch n) = a
      ∧ t.f (R.MEM_SCRUB_RANGE_LAST ch n) = b ∧ t.f (R.MEM_SCRUB_RANGE_V ch n) = x
    (s.chanOpen ch = true → s.f (R.MEM_FORAGE_CTL_EN ch) = 1 → k.forageAt + max 100 (s.f (R.MEM_FORAGE_STEP_NS ch)) ≤ s.ns →
        k.tref.any (·.1 == bankOf q) = false → Tbl.get 0 k.refDue (bankOf q) < 8 →
        (s.nextCovered ch (pos s) = some q → Completes (.foragerRead ch) s (fun t =>
          (t.chan ch).forageAt = s.ns ∧ t.cores = s.cores ∧ t.msgs = s.msgs
          ∧ (∀ p, s.nextCovered ch (q + 1) = some p → pos t = p ∧ passes t = passes s)
          ∧ (∀ p, s.nextCovered ch (q + 1) = none → s.nextCovered ch 0 = some p → pos t = p
              ∧ passes t = min (passes s + 1) (2 ^ 32 - 1))))
        ∧ (s.nextCovered ch (pos s) = none → s.nextCovered ch 0 = some q → Completes (.foragerRead ch) s (fun t =>
          (t.chan ch).forageAt = s.ns ∧ t.cores = s.cores ∧ t.msgs = s.msgs
          ∧ ∀ p, s.nextCovered ch (q + 1) = some p → pos t = p ∧ passes t = min (passes s + 1) (2 ^ 32 - 1))))
    ∧ Completes (.memScrubRangeWrite ch n v) s (fun t => range t ch n (bits v.toNat 0 29) (bits v.toNat 32 29) (bits v.toNat 63 1)
        ∧ ∀ p, t.nextCovered ch (pos s) = some p → pos t = p)
    ∧ (Ordered s r 0x24 c → c.d.okP false false [0xF, mAll, mAll] = true →
        let a := c.d.par 1
        let b := c.d.par 2
        8 ≤ c.d.par 0 → a % 1536 = 0 → b % 1536 = 0 → a < b → b ≤ 0xC0_0000_0000 → Finishes (.scrubRange r) s r stOK 0 (fun u =>
          SameCore s u ∧ ∀ j, j < 24 → range u j (c.d.par 0 - 8) (a / 1536) (b / 1536 - 1) 1))
    ∧ (k.leakAt + iv ≤ s.ns → Completes (.ceLeak ch) s (fun t => t.f (R.MEM_CE_BUCKET_COUNT ch) = left
        ∧ t.chan ch = { k with leakAt := k.leakAt + iv } ∧ t.f (R.MEM_CE_BUCKET_ARMED ch)
          = if left ≤ max 1 (s.f (R.MEM_CE_CTL_THRESH ch)) / 2 then 1 else s.f (R.MEM_CE_BUCKET_ARMED ch)))
    ∧ Completes (.memClrCounters ch) s (fun t => OnlyRegs s t cs ∧ ∀ x ∈ cs, t.f x = 0)
    ∧ Completes (.memClrBucket ch) s (fun t => OnlyRegs s t [R.MEM_CE_BUCKET_COUNT ch, R.MEM_CE_BUCKET_ARMED ch]
        ∧ t.f (R.MEM_CE_BUCKET_COUNT ch) = 0 ∧ t.f (R.MEM_CE_BUCKET_ARMED ch) = 1)

/-- R37, R314, R320, R321, R325, R334: a keeper unit as the rest of the device meets it. Its window reads and writes its first 256
KiB; the reply of a mesh access delivers its value, and one past its time is only counted; the timeout traps with code 0x19
and quarantines the tag until its time ends; RESTART stops the keeper, and its end starts checked firmware or fails. R332 to
R334: modules. LOAD starts on an active keeper; the load ends with the module in place and STATUS 2 where the image passes
every check, and with the STATUS of what failed where one does not; UNLOAD takes the module away. R315, R316: between two issues
a keeper may fetch ahead; it changes its queue alone, which keeps what it holds and grows to at most 4 words, each the SRAM's word
at its address; a trap empties it. -/
def Obligations.KeeperUnitsAndModules : Prop :=
  (∀ (h off size : Nat) (v : W64) (w : KWait) (s : State), h < 32 →
    let k := s.keeper h
    let key := h * 2 ^ 15 + off / 8
    let byte := fun (t : State) (j : Nat) => t.kword key / 256 ^ j % 256
    ((size = 1 ∨ size = 2 ∨ size = 4 ∨ size = 8) → off < 2 ^ 20 → off % size = 0 →
        exec (.keeperWindowAccess h off size false v) s = .next s
        ∧ (off < 0x40000 → Completes (.keeperWindowAccess h off size true v) s (fun t =>
            t = { s with ksram := t.ksram, ksramBad := t.ksramBad } ∧ (∀ j, j ≠ key → t.kword j = s.kword j)
            ∧ (∀ j, j < 8 → byte t j = if off % 8 ≤ j ∧ j < off % 8 + size then v.toNat / 256 ^ (j - off % 8) % 256 else byte s j)
            ∧ (size = 8 → key ∉ t.ksramBad)))
        ∧ (0x40000 ≤ off → exec (.keeperWindowAccess h off size true v) s = .next s))
    ∧ (k.wait = some w → regionOf w.pa = .ksram → w.acc = .load → s.linked (8 * h) (kwinOff w.pa / 2 ^ 20 % 32 * 8) = true →
        (∀ x, s.kwinRead (kwinOff w.pa) w.size = (x, false) → Completes (.keeperMeshReply h) s (fun t =>
          t.keeper h = s.kAhead h ({ k with wait := none }.wg w.rd (extend w.size w.sx x)).retire ∧ t = { s with keepers := t.keepers }))
        ∧ (∀ x, s.kwinRead (kwinOff w.pa) w.size = (x, true) → k.exl = false → k.modMode = false →
          Completes (.keeperMeshReply h) s (fun t => t.keeper h = ({ k with wait := none } : Keeper).enter
            { code := 0x18, acc := 1, val := BitVec.ofNat 64 w.pa } false)))
    ∧ (k.wait = none → k.late = [w] → regionOf w.pa ≠ .host → w.acc = .load → Completes (.keeperMeshReply h) s (fun t =>
        (t.keeper h).late = [] ∧ (t.keeper h).pc = k.pc ∧ (t.keeper h).k = k.k
        ∧ ((t.keeper h).cr0 0xA03).toNat = min ((k.cr0 0xA03).toNat + 1) 0xFFFF_FFFF))
    ∧ (k.wait = some w → s.meshRuns = true → w.t0 + k.mto ≤ s.runClock → k.exl = false → k.modMode = false →
        Completes (.keeperAccessTimeout h) s (fun t => t.keeper h = ({ k with
          wait := none, late := k.late ++ [{ w with late := true }], quar := k.quar ++ [(w.tag, s.ns + 2 * k.mto)] } : Keeper).enter
            { code := 0x19, acc := w.acc.code, val := BitVec.ofNat 64 w.pa } false))
    ∧ (∀ tag till, k.quar = [(tag, till)] → till ≤ s.ns → Completes (.keeperTagRelease h) s (fun t => t.keeper h = { k with
        quar := [], late := k.late.filter (fun x => x.tag != tag) } ∧ t = { s with keepers := t.keepers }))
    ∧ Completes (.keeperRestart h) s (fun t => t.f (R.HIV_KSTAT_STATE h) = 0 ∧ t.keeper h = {}
        ∧ t.f (R.HIV_KMOD_STAT_STATUS h) = 0 ∧ t.cores = s.cores ∧ t.dram = s.dram)
    ∧ (s.f (R.HIV_KSTAT_STATE h) = 0 → s.f R.BOOT_STAT_DONE = 1 →
        (∀ b, s.pickImage 0 0 0x40000 = some b → Completes (.keeperRestartDone h) s (fun t => t.f (R.HIV_KSTAT_STATE h) = 1
          ∧ t.keeper h = { pc := BitVec.ofNat 64 (imgEntry b.1) }))
        ∧ (s.pickImage 0 0 0x40000 = none → Completes (.keeperRestartDone h) s (fun t => OnlyRegs s t [R.HIV_KSTAT_STATE h]
          ∧ t.f (R.HIV_KSTAT_STATE h) = 3))))
  ∧ (∀ (h : Nat) (hd code : List Nat) (s s1 s2 : State), h < 32 →
    let status := fun (t : State) => t.f (R.HIV_KMOD_STAT_STATUS h)
    let a := s.f (R.HIV_KMOD_ADDR_ADDR h) * 256
    let n := imgCodeLen hd
    let b := hd ++ code
    let read := status s = 1 ∧ s.f (R.HIV_KSTAT_STATE h) = 1 ∧ s.memReady a 256 0 false (258 + h) = true ∧ s.memRead 0 a 256 = (s1, hd, false)
      ∧ a + 256 + n ≤ dramEnd ∧ n ≤ 0x40000 ∧ s.memReady a (256 + n) 0 false (258 + h) = true ∧ s1.memRead 0 (a + 256) n = (s2, code, false)
    (status s ≠ 1 → Completes (.moduleLoad h) s (fun t => OnlyRegs s t [R.HIV_KMOD_STAT_STATUS h]
        ∧ status t = if s.f (R.HIV_KSTAT_STATE h) = 1 then 1 else 8))
    ∧ (read → s2.imgCheck b 1 0x40000 = 0 → modCheck b = 2 → Completes (.moduleLoadDone h) s (fun t => status t = 2
        ∧ (t.keeper h).mod = some ⟨imgOff b, n, imgEntry b, leAt b 0x22 2, leAt b 0x24 2, imgGrants b, leAt b 8 4⟩
        ∧ (t.keeper h).pc = (s2.keeper h).pc ∧ t.dram = s2.dram))
    ∧ (read → s2.imgCheck b 1 0x40000 = 1 → Completes (.moduleLoadDone h) s (fun t => status t = 3 ∧ OnlyRegs s2 t [R.HIV_KMOD_STAT_STATUS h]))
    ∧ (read → s2.imgCheck b 1 0x40000 = 3 → Completes (.moduleLoadDone h) s (fun t => status t = 4 ∧ OnlyRegs s2 t [R.HIV_KMOD_STAT_STATUS h]))
    ∧ (status s ≠ 1 → Completes (.moduleUnload h) s (fun t => status t = 0 ∧ t.keeper h = { s.keeper h with mod := none }
        ∧ t.ksram = s.ksram)))
  ∧ ∀ (h : Nat) (k : Keeper) (x : KCause) (next : Bool) (s : State),
    let k1 := s.kAhead h k
    k1 = { k with pq := k1.pq, issued := k1.issued } ∧ k.pq <+: k1.pq ∧ (k.pq.length ≤ 4 → k1.pq.length ≤ 4) ∧ (k.enter x next).pq = []
    ∧ (k.pc.toNat % 4 = 0 → (∀ w ∈ k.pq, w.1 % 4 = 0) → (∀ b t, k.slot = some (b, t) → t.toNat % 4 = 0) →
        ∀ w ∈ k1.pq.drop k.pq.length, w.1 < 0x40000
          ∧ w.2 = s.kword (h * 2 ^ 15 + w.1 / 8) / 2 ^ (8 * (w.1 % 8)) % 2 ^ 32)

/-- R339 to R346, R510: a mismatch stops both cores and says what it found: kind 1 with its group and syndrome, or a comparator
fault of kind 2, which also fails the tile for pairing; an exchange that passes is silent or counted, and one that disagrees
twice is a comparator fault; a tenant's domain goes to FAULTED. REARM is taken of a stopped tile whose domain at the stop, if a tenant's, is FREE, and
brings both cores back halted in M with everything reported cleared. R347 to R352: joining and splitting a pair. A join or a
split that its checks pass waits for the sync point; there a join leaves one core's state in force with the pair on, a split
gives both cores that state and core 1 its service interrupt; a tile already so ends at once; a join whose core 1 was not idle
in time ends with its own status. -/
def Obligations.LockstepPairs : Prop :=
  (∀ (n group : Nat) (syn : W64) (diff : List (Nat × BitVec 8)) (s : State), n < 256 →
    let stopped := fun (t : State) (kind : Nat) => t.f (R.CUF_STAT_STOPPED n) = 1 ∧ t.f (R.CUF_STAT_KIND n) = kind
      ∧ (t.core (2 * n)).stopped = true
    let count := fun (t : State) (x : Fld) => t.f x = min (s.f x + 1) (2 ^ 32 - 1)
    let own := s.domOf n = 0 ∨ s.domTiles (s.domOf n) = [n]
    let stopD := Tbl.get 0 s.stopDom n
    let faulted := fun (t : State) => s.domOf n ≠ 0 → s.f (R.DOM_STATE_STATE (s.domOf n)) ≠ domFREE →
      t.f (R.DOM_STATE_STATE (s.domOf n)) = domFAULTED
    (s.pairLive n = true → s.cmds = [] → own →
      (group < 6 → Completes (.cuffMismatch n group syn false diff) s (fun t => stopped t 1 ∧ t.f (R.CUF_STAT_GROUP n) = group
        ∧ t.f (R.CUF_MISM_SYN_SYN n) = syn.toNat ∧ t.f (R.CUF_MISM_PC_PC n) = (s.core (2 * n)).pc.toNat
        ∧ count t (R.CUF_MISMATCHES_COUNT n) ∧ faulted t))
      ∧ (group < 6 → Completes (.cuffMismatch n group syn true diff) s (fun t => stopped t 2 ∧ t.f (R.CUF_STAT_TESTFAIL n) = 1
        ∧ count t (R.CUF_CFAULTS_COUNT n) ∧ faulted t))
      ∧ exec (.agreementExchange n 0) s = .next s
      ∧ Completes (.agreementExchange n 1) s (fun t => OnlyRegs s t [R.CUF_XRETRY_COUNT n] ∧ count t (R.CUF_XRETRY_COUNT n))
      ∧ Completes (.agreementExchange n 2) s (fun t => stopped t 2 ∧ count t (R.CUF_XRETRY_COUNT n) ∧ count t (R.CUF_CFAULTS_COUNT n)))
    ∧ (s.fused n = false → s.f (R.CUF_STAT_STOPPED n) = 1 → n ∉ s.rearm → (stopD = 0 ∨ s.f (R.DOM_STATE_STATE stopD) = domFREE) →
        exec (.rearm n) s = .next { s with rearm := s.rearm ++ [n] })
    ∧ (s.fused n = false → (s.f (R.CUF_STAT_STOPPED n) = 0 ∨ n ∈ s.rearm ∨ stopD ≠ 0 ∧ s.f (R.DOM_STATE_STATE stopD) ≠ domFREE) →
      Completes (.rearm n) s (fun t => OnlyRegs s t [R.CUF_STAT_WERR n]
        ∧ t.f (R.CUF_STAT_WERR n) = 1))
    ∧ (n ∈ s.rearm → s.l2Still n = true → s.gcDirty n = [] → s.gcOut n = false → Completes (.rearmDone n) s (fun t =>
        t.f (R.CUF_STAT_STOPPED n) = 0 ∧ t.f (R.CUF_STAT_KIND n) = 0 ∧ t.f (R.CUF_STAT_GROUP n) = 0 ∧ t.domOf n = 0 ∧ n ∉ t.rearm
        ∧ t.core (2 * n) = { held := (s.core (2 * n)).held, run := true, halt := true }
        ∧ (s.f (R.CUF_STAT_TESTFAIL n) = 1 → t.paired n = false) ∧ (s.f (R.CUF_STAT_TESTFAIL n) = 0 → t.paired n = s.paired n)
        ∧ (t.paired n = false → (t.core (2 * n + 1)).g = [] ∧ (t.core (2 * n + 1)).priv = .M))))
  ∧ (∀ (r n : Nat) (join : Bool) (c : Cmd) (s : State), n < 256 →
    let i := if join then Instr.pairJoin r else Instr.pairSplit r
    let asked := Ordered s r (if join then 0x0D else 0x0E) c ∧ c.d.tile = n
    let fit := c.phase = 0 ∧ c.d.okP false true [] = true ∧ s.clash r 0 [n] = false ∧ s.fused n = false ∧ s.f (R.CUF_STAT_STOPPED n) = 0
      ∧ s.f (R.CUF_STAT_HANDOVER n) = 0 ∧ s.f (R.TIL_PWR_STAT_STATE n) = 0 ∧ s.f (R.TIL_PWR_STAT_PREP n) = 0
      ∧ s.f (R.TIL_PWR_STAT_ENTERING n) = 0
    let waits := s.cmds = [(r, some c)] ∧ c.phase = 1
    let k0 := s.core (2 * n)
    let k1 := s.core (2 * n + 1)
    let runs := s.tileRuns n = true ∧ s.f (R.CUF_STAT_STOPPED n) = 0
    (asked → fit → s.paired n = join → Finishes i s r stOK (s.f (R.CUF_HOCYC_CYC n)) (fun u => u = s))
    ∧ (asked → fit → s.paired n = !join → s.f (R.CUF_STAT_TESTFAIL n) = 0 → Completes i s (fun t =>
        t.f (R.CUF_STAT_HANDOVER n) = b2n join ∧ t.cmd r = some { c with phase := 1, at_ := s.ns, aux := [n] } ∧ SameCore s t))
    ∧ (asked → fit → join = true → s.paired n = false → s.f (R.CUF_STAT_TESTFAIL n) = 1 → Finishes i s r stTESTFAIL 0 (fun u => u = s))
    ∧ (asked → waits → runs → join = true → s.paired n = false → k1.waitev = true → k1.priv = .M →
        let back := k1.held ++ (s.arrivals.filter (fun a => a.holder == 2 * n + 1)).map (·.h)
        (∀ x ∈ back, x.src < 8192 ∧ x.dom < 4096) →
        s.coreDone (2 * n) = true → s.coreDone (2 * n + 1) = true → Finishes (.handoverSync n) s r stOK 14352 (fun u =>
          (∀ x ∈ back, u.f (R.EVT_STAT_PEND x.src) = 1) ∧ u.arrivals = s.arrivals.filter (fun a => a.holder != 2 * n + 1)
          ∧ u.paired n = true ∧ u.f (R.CUF_STAT_HANDOVER n) = 0 ∧ u.core (2 * n) = k0.clearCtx ∧ u.core (2 * n + 1) = k0.clearCtx
          ∧ u.f (R.CUF_HOCYC_CYC n) = 14352))
    ∧ (asked → waits → runs → join = false → s.paired n = true → s.coreDone (2 * n) = true →
        Finishes (.handoverSync n) s r stOK 14352 (fun u => u.paired n = false ∧ u.core (2 * n) = k0.clearCtx
          ∧ (u.core (2 * n + 1)).g = k0.g ∧ (u.core (2 * n + 1)).v = k0.v ∧ (u.core (2 * n + 1)).priv = .M
          ∧ u.f (R.CUF_HOCYC_CYC n) = 14352))
    ∧ (asked → waits → s.f (R.CUF_STAT_STOPPED n) = 1 → Finishes (.handoverSync n) s r stSTOPPED 0 (fun u => u.cores = s.cores
        ∧ (join = true → u.f (R.CUF_STAT_HANDOVER n) = 0)))
    ∧ (asked → waits → join = true → k1.waitev = false → c.at_ + max 1 (s.f (R.CUF_HTO_US n)) * 1000 ≤ s.ns →
        Finishes (.cufHtoExpiry n) s r stC1TIME 0 (fun u => u.f (R.CUF_STAT_HANDOVER n) = 0 ∧ u.cores = s.cores)))

/-- R153, R355 to R359, R424, R432, R433, R435, R471: setting a domain up. CREATE makes a free domain CREATED with its descriptor
and opens its first period; the ASSIGN commands give it tiles, events and endpoints; MAP moves its memory count, and with a
shootdown fills and rings every mailbox of its cores, which the acknowledgements or the timeout end. -/
def Obligations.DomainSetup : Prop :=
  ∀ (r x t0 : Nat) (c : Cmd) (v : W32) (w : W64) (s : State), t0 < 256 →
    let d := c.d.dom
    let par := c.d.par
    let fin := fun (i : Instr) (res : Nat) (P : State → Prop) => Finishes i s r stOK res P
    let fit := s.clash r d [] = false ∧ 0 < d ∧ d < 4096
    let m := par 1 + par 2 * 2 ^ 64 + par 3 * 2 ^ 128 + par 4 * 2 ^ 192
    let mine := fun (t : State) (e : Nat) => t.f (R.EVT_OWN_OWNER e) = d ∧ t.f (R.EVT_CFG_EN e) = 0 ∧ t.f (R.EVT_STAT_PEND e) = 0
    let pages : Int := (s.f (R.DOM_MEMHELD_PAGES d) : Int) + (if par 2 < 2 ^ 31 then (par 2 : Int) else par 2 - 2 ^ 32)
    (Ordered s r 1 c → fit → c.d.okP true false [fldMask (domCfgFlds d), fldMask (ctxBaseFlds d), fldMask (s2RootFlds d)] = true →
      (s.domSt d = domFREE → fin (.create r) 0 (fun u => u.domSt d = domCREATED ∧ u.f (R.DOM_CTXBASE_BASE d) = bits (par 1) 20 26
        ∧ u.f (R.DOM_CFG_LLC_CLASS d) = bits (par 0) 0 4 ∧ u.f (R.DOM_S2ROOT_V d) = bits (par 2) 0 1
        ∧ u.f (R.DOM_LOCKCTL_CHK_U d) = 0 ∧ u.f (R.DOM_LOCKLOG_SEQ_SEQ d) = 0
        ∧ Tbl.get {} u.mper d = { isOpen := true, start := s.time, first := true } ∧ SameCore s u))
      ∧ (s.domSt d ≠ domFREE → Finishes (.create r) s r stSTATE 0 (fun u => u = s)))
    ∧ (Ordered s r 3 c → fit → c.d.okP true false [1, mAll, mAll, mAll, mAll] = true → s.domOpen d = true →
      (∀ t, t < 256 → m.testBit t = true → s.fused t = false) →
      (par 0 = 0 → (∀ t, t < 256 → m.testBit t = true → s.f (R.CUF_STAT_STOPPED t) = 0) → ∃ res, fin (.assignTiles r) res (fun u =>
        res = u.f (R.DOM_STATE_NSET d) ∧ u.inSet d t0 = (s.inSet d t0 || m.testBit t0)))
      ∧ (par 0 = 1 → (∀ t, t < 256 → m.testBit t = true → s.domOf t ≠ d ∧ t ∉ s.rearm) → ∃ res, fin (.assignTiles r) res (fun u =>
        res = u.f (R.DOM_STATE_NSET d) ∧ u.inSet d t0 = (s.inSet d t0 && !(m.testBit t0)))))
    ∧ (Ordered s r 4 c → fit → c.d.okP true false [mLow 13, mLow 13] = true → s.domOpen d = true → 1024 ≤ par 0 → par 0 + par 1 ≤ 8192 →
      (∀ e, par 0 ≤ e → e < par 0 + par 1 → (s.f (R.EVT_OWN_OWNER e) = 0 ∨ s.f (R.EVT_OWN_OWNER e) = d)
        ∧ s.f (R.EVT_STAT_HELD e) = 0 ∧ s.f (R.EVT_STAT_ACTIVE e) = 0) →
      ∃ res, fin (.assignEvents r) res (fun u => (∀ e, par 0 ≤ e → e < par 0 + par 1 → mine u e) ∧ SameCore s u))
    ∧ (Ordered s r 5 c → fit → c.d.okP true false [mLow 12, mLow 13] = true → s.domOpen d = true → par 0 + par 1 ≤ 4096 →
      (∀ y, y < 4096 → y ≠ d → s.f (R.DOM_FABEP_COUNT y) = 0) → fin (.assignEp r) 0 (fun u => u.f (R.DOM_FABEP_FIRST d) = par 0
        ∧ u.f (R.DOM_FABEP_COUNT d) = par 1
        ∧ ∀ e, par 0 ≤ e → e < par 0 + par 1 → u.f (R.FAB_EP_OWNER e) = d ∧ u.f (R.FAB_EP_EN e) = 0))
    ∧ (Ordered s r 2 c → fit → c.phase = 0 → c.d.okP true false [mLow 46 - 4095, 0x33F, mLow 32] = true → s.domOpen d = true →
      12 ≤ bits (par 1) 0 6 → bits (par 1) 0 6 ≤ 46 → (par 1).testBit 9 = false → 0 ≤ pages → pages < 2 ^ 28 →
      ((par 1).testBit 8 = false → fin (.map r) 0 (fun u => u.f (R.DOM_MEMHELD_PAGES d) = pages.toNat))
      ∧ ((par 1).testBit 8 = true → s.f R.CMD_MONEV_V = 1 → s.runners d = [x] → x < 512 → s.cmds = [(r, some c)] →
        1024 ≤ s.f R.CMD_MONEV_BASE → s.f R.CMD_MONEV_BASE + x < 8192 → s.f (R.EVT_STAT_HELD (s.f R.CMD_MONEV_BASE + x)) = 0 →
        s.f (R.CMD_MONACK_SEQ x) ≠ (s.f (R.CMD_MONSEQ_SEQ x) + 1) % 2 ^ 32 → Completes (.map r) s (fun t =>
          t.f (R.DOM_MEMHELD_PAGES d) = pages.toNat ∧ t.f (R.CMD_MONREQ_LOG2SZ x) = bits (par 1) 0 6
          ∧ t.f (R.CMD_MONREQ_DPA x) = par 0 / 4096 ∧ t.f (R.CMD_MONREQ_DOMAIN x) = d
          ∧ t.f (R.CMD_MONSEQ_SEQ x) = (s.f (R.CMD_MONSEQ_SEQ x) + 1) % 2 ^ 32
          ∧ t.f (R.EVT_STAT_PEND (s.f R.CMD_MONEV_BASE + x)) = 1 ∧ ∃ c', t.cmd r = some c' ∧ c'.phase = 1 ∧ c'.todo = [x])))
    ∧ (x < 512 → s.cmds = [] → Completes (.cmdMonack x v) s (fun t => OnlyRegs s t [R.CMD_MONACK_SEQ x]
        ∧ t.f (R.CMD_MONACK_SEQ x) = v.toNat))
    ∧ (Ordered s r 2 c → c.phase = 1 → s.cmds = [(r, some c)] → c.todo = [x] → x < 512 → c.aux = [] → s.domOf (x / 2) = d →
        Tbl.get 0 s.tilePark (x / 2) = 0 →
        (s.f (R.CMD_MONSEQ_SEQ x) = v.toNat → Finishes (.cmdMonack x v) s r stOK 1 (fun u => u.f (R.CMD_MONACK_SEQ x) = v.toNat))
        ∧ (s.f (R.CMD_MONACK_SEQ x) ≠ s.f (R.CMD_MONSEQ_SEQ x) → c.at_ + max 1 (s.f R.CMD_MONTO_US) * 1000 ≤ s.ns →
          Finishes (.monitorTimeout r) s r stMTIME 0 (fun u => u = s)))
    ∧ (x < 4096 → Completes (.domLockclr x) s (fun t =>
        OnlyRegs s t [R.DOM_LOCKLOG_SEQ_SEQ x, R.DOM_LOCKMISS_COUNT x, R.DOM_LOCKLATE_COUNT x] ∧ t.f (R.DOM_LOCKLOG_SEQ_SEQ x) = 0
        ∧ t.f (R.DOM_LOCKMISS_COUNT x) = 0 ∧ t.f (R.DOM_LOCKLATE_COUNT x) = 0))
    ∧ (x < 4096 → Completes (.domCtxbaseWrite x w) s (fun t => OnlyRegs s t [R.DOM_CTXBASE_BASE x] ∧ t.f (R.DOM_CTXBASE_BASE x)
        = if s.domSt x = domFREE ∨ s.domSt x = domCREATED then bits w.toNat 20 26 else s.f (R.DOM_CTXBASE_BASE x)))

/-- R359 to R367, R550, R551: a domain's tiles run, halt and change hands. START begins with the free tiles of the set and, at
each tile's switch point, loads its slot, counts it and brings it to the monitor; RESUME lets a held tile go on; SWITCH to
domain 0 saves the images to their slot and leaves the tile free, and is refused on a fused tile (R8) or one outside the set; PARK holds each tile at its boundary and ends in PARKED. -/
def Obligations.DomainRunsOnTiles : Prop :=
  ∀ (r n : Nat) (c : Cmd) (b : List Nat) (s : State),
    let d := c.d.dom
    let a := s.slotAddr d n
    let nrun := fun (t : State) => t.f (R.DOM_STATE_NRUN d)
    let running := fun (u : State) => u.domSt d = domRUNNING ∧ nrun u = (nrun s + 1) % 512
    let valid := (leAt b 0xC00 1).testBit 0
    0 < d → d < 4096 →
    (Ordered s r 6 c → c.phase = 0 → c.d.okP true false [] = true → s.domSt d = domCREATED → s.freeTiles d = [n] →
      s.clash r d [n] = false → s.headsReady d [n] = true → InLlc s (a + 0xC00) 8 b → (bitOf (leAt b 0 1) 0 = true →
        bitOf (leAt b 0 1) 1 = s.paired n) → Completes (.start r) s (fun t =>
          t.cmd r = some { c with phase := 1, at_ := s.ns, aux := [n], todo := [n], err := 0 } ∧ SameCore s t))
    ∧ (Ordered s r 6 c → c.phase = 0 → c.d.okP true false [] = true → s.domSt d = domCREATED → s.freeTiles d = [] →
      s.clash r d [] = false → Finishes (.start r) s r stNOTILE 0 (fun u => u = s))
    ∧ (Ordered s r 6 c → c.phase = 1 → c.todo = [n] → c.res = 0 → SwitchPoint s n 0 → InLlc s a 0xC40 b →
      (s.domSt d = domCREATED ∨ s.domSt d = domRUNNING) → s.f (R.CUF_STAT_STOPPED n) = 0 → Tbl.get 0 s.tilePark n = 0 →
      s.slotReady n d 0xC40 false = true → Finishes (.start r) s r stOK 1 (fun u => u.domOf n = d ∧ running u
        ∧ (u.core (2 * n)).run = true ∧ (u.core (2 * n)).halt = false ∧ (u.core (2 * n)).priv = .M
        ∧ ∀ i, 1 ≤ i → i < 32 → (u.core (2 * n)).rg i = if valid then BitVec.ofNat 64 (leAt b (8 * (i - 1)) 8) else 0))
    ∧ (Ordered s r 8 c → c.phase = 1 → c.todo = [n] → n < 256 → s.domOf n = d → s.domSt d = domPARKED → s.asleep n = false →
      s.f (R.TIL_PWR_STAT_STATE n) = 0 → s.f (R.TIL_PWR_STAT_LATCHED n) = 0 → s.f (R.CUF_STAT_HANDOVER n) = 0 →
      s.f (R.CUF_STAT_STOPPED n) = 0 → Finishes (.resume r) s r stOK ((nrun s + 1) % 512) (fun u => running u
        ∧ Tbl.get 0 u.tilePark n = 0 ∧ (u.core (2 * n)).halt = false ∧ (u.core (2 * n + 1)).halt = false ∧ u.dram = s.dram))
    ∧ (Ordered s r 8 c → c.phase = 0 → c.d.okP true false [] = true → s.domSt d = domPARKED → s.domTiles d = [n] → s.freeTiles d = [] →
      s.clash r d [n] = false → Completes (.resume r) s (fun t => ∃ c', t.cmd r = some c' ∧ c'.phase = 1 ∧ c'.todo = [n]))
    ∧ (Ordered s r 7 c → c.phase = 0 → c.d.okP true false [] = true → s.domSt d = domRUNNING → s.domTiles d = [n] →
      Tbl.get 0 s.tilePark n = 0 → s.clash r d [n] = false → Completes (.park r) s (fun t =>
        ∃ c', t.cmd r = some c' ∧ c'.phase = 1 ∧ c'.todo = [n] ∧ c'.aux = [n]))
    ∧ (Ordered s r 7 c → c.phase = 1 → c.todo = [n] → c.aux = [n] → n < 256 → s.domSt d = domRUNNING → s.tileAtB n true = true →
      s.f (R.DOM_LATTOL_NS d) < 50 → s.f (R.TIL_PWR_STAT_PREP n) = 0 → Finishes (.park r) s r stOK 0 (fun u =>
        u.domSt d = domPARKED ∧ nrun u = 0 ∧ Tbl.get 0 u.tilePark n = 1 ∧ (u.core (2 * n)).halt = true
        ∧ (u.core (2 * n + 1)).halt = true ∧ (u.core (2 * n)).itlb = []))
    ∧ (∀ out : Nat, Ordered s r 0x0A { c with d := { c.d with dom := 0, tile := n } } → c.phase = 1 → 0 < out → SwitchPoint s n out →
      s.f (R.CUF_STAT_STOPPED n) = 0 → InLlc s (s.slotAddr out n) 0xC40 b → s.slotReady n out 0xC40 true = true →
      (∀ L ∈ linesOf (s.slotAddr out n) 0xC40, s.lineBusy L = false) → Finishes (.switch r) s r stOK 0 (fun u => u.domOf n = 0
        ∧ Tbl.get 0 u.tilePark n = 0 ∧ (u.memRead 0 (s.slotAddr out n) 0xC40).2 = (s.slotBytes n, false)))
    ∧ (Ordered s r 0x0A c → c.phase = 0 → c.d.okP true true [] = true →
      (s.fused c.d.tile = true → Finishes (.switch r) s r stDISABLED 0 (fun u => u = s))
      ∧ (s.fused c.d.tile = false → s.inSet d c.d.tile = false → Finishes (.switch r) s r stPARAM 0 (fun u => u = s)))

/-- R361, R368, R369, R436: how a domain ends. STOP and MIGRATE_OUT wait for its jobs, give back its rings and then all it holds,
and end with its last record and FREE; MIGRATE_OUT first writes the image of a parked domain where it is told to; MIGRATE_IN
makes a parked domain of a legal image. -/
def Obligations.DomainEndsAndMigrates : Prop :=
  ∀ (r : Nat) (c : Cmd) (b : List Nat) (s s1 s2 : State), 0 < c.d.dom → c.d.dom < 4096 →
    let d := c.d.dom
    let par := c.d.par
    let stop := Ordered s r 9 c
    let out := Ordered s r 0x0B c
    let phase := fun (t : State) (n : Nat) => ∃ c', t.cmd r = some c' ∧ c'.phase = n ∧ c'.d = c.d
    let row := fun (i : Instr) => i = .stop r ∧ stop ∨ i = .migrateOut r ∧ out
    let last := c.phase = 4 ∧ s.time < s.mbound ∧ s.backlog.length < 8192
    (stop → c.phase = 0 → c.d.okP true false [1] = true → s.clash r d (s.domTiles d) = false → s.domSt d ≠ domFREE →
      Completes (.stop r) s (fun t => phase t 1))
    ∧ (out → c.phase = 0 → c.d.okP true false [mAll, mAll] = true → s.clash r d (s.domTiles d) = false → s.domSt d = domPARKED →
      Completes (.migrateOut r) s (fun t => phase t 1))
    ∧ (stop → c.phase = 1 → s.jobsLeft d = false → Completes (.stop r) s (fun t => phase t 2
        ∧ ∀ h t0, h < 32 → t0 < 64 → s.f (R.CMP_TR_CFG_DOMAIN h t0) = d → t.f (R.CMP_TR_CFG_DOMAIN h t0) = 0
          ∧ t.f (R.CMP_TR_CFG_EN h t0) = 0 ∧ t.f (R.TR_STAT_STATE h t0) = rgIDLE))
    ∧ (stop → c.phase = 2 → c.todo = [] → Completes (.stop r) s (fun t => phase t 3))
    ∧ (∀ n, stop → c.phase = 2 → c.todo = [n] → n < 256 → s.f (R.CUF_STAT_STOPPED n) = 1 → Completes (.stop r) s (fun t =>
        t.domOf n = 0 ∧ Tbl.get 0 t.tilePark n = 0 ∧ ∃ c', t.cmd r = some c' ∧ c'.todo = []))
    ∧ (out → c.phase = 1 → s.jobsLeft d = false → Completes (.migrateOut r) s (fun t => phase t 2))
    ∧ (out → c.phase = 2 → c.todo = [] → s.domSt d = domPARKED → (∀ t, t < 256 → s.slotReady t d 4096 false = true) →
      ∀ slots, s.validSlots d = (s1, slots, 0) → 4096 * (1 + slots.length) ≤ par 1 → par 0 + 4096 * (1 + slots.length) ≤ dramEnd →
        s1.memReady (par 0) (4096 * (1 + slots.length)) 0 true = true →
        s1.memWrite 0 (par 0) (s1.migImage d slots) .clear = (s2, false) → Completes (.migrateOut r) s (fun t => t.dram = s2.dram
          ∧ t.llc = s2.llc ∧ ∃ c', t.cmd r = some c' ∧ c'.phase = 3 ∧ c'.res = 4096 * (1 + slots.length)))
    ∧ (∀ i, row i → c.phase = 3 → s.slotsReady d = true → Completes i s (fun t => phase t 4
        ∧ (∀ e, 1024 ≤ e → e < 8192 → s.f (R.EVT_OWN_OWNER e) = d → t.f (R.EVT_OWN_OWNER e) = 0 ∧ t.f (R.EVT_CFG_EN e) = 0)
        ∧ (∀ n, n < 256 → t.inSet d n = false) ∧ t.f (R.DOM_MEMHELD_PAGES d) = 0 ∧ t.f (R.DOM_FABEP_COUNT d) = 0))
    ∧ (∀ i, row i → last → Finishes i s r stOK c.res (fun u => u.domSt d = domFREE ∧ u.f (R.DOM_STATE_NRUN d) = 0
        ∧ ((Tbl.get {} s.mper d).isOpen = true → u.backlog.length = s.backlog.length + 1 ∧ (Tbl.get {} u.mper d).isOpen = false)))
    ∧ (Ordered s r 0x0C c → c.phase = 0 → c.d.okP true false [mAll, mAll, fldMask (ctxBaseFlds d), fldMask (s2RootFlds d)] = true →
      s.clash r d [] = false → s.domSt d = domFREE → 4096 ≤ par 1 → par 1 % 4096 = 0 → par 1 ≤ 4096 * 257 → par 0 + par 1 ≤ dramEnd →
      Completes (.migrateIn r) s (fun t => phase t 1 ∧ SameCore s t))
    ∧ (Ordered s r 0x0C c → c.phase = 1 → par 0 + par 1 ≤ dramEnd → s.memReady (par 0) (par 1) 0 false = true →
      s.memRead 0 (par 0) (par 1) = (s1, b, false) → s1.imgBad b (par 1) = 0 → leAt b 0x50 32 = 0 →
      Finishes (.migrateIn r) s r stOK 0 (fun u => u.domSt d = domPARKED ∧ u.f (R.DOM_LATTOL_NS d) = leAt b 0x14 4 % 2 ^ 24
        ∧ (∀ n, n < 256 → u.inSet d n = (leAt b 0x30 32).testBit n)
        ∧ u.f (R.DOM_CTXBASE_BASE d) = bits (par 2) 20 26 ∧ (Tbl.get {} u.mper d).migr = true))
    ∧ (Ordered s r 0x0C c → c.phase = 1 → par 0 + par 1 ≤ dramEnd → s.memReady (par 0) (par 1) 0 false = true →
      s.memRead 0 (par 0) (par 1) = (s1, b, false) → s1.imgBad b (par 1) = stIMGBAD →
      Finishes (.migrateIn r) s r stIMGBAD 0 (fun u => u = s1))

/-- R440 to R453: the compression engines. An engine takes its next job from its host queue or a tenant ring; a step of a job
reads a source line, converts what it has read, writes a destination line, or ends it; the end is counted and completes the
job's command. Doorbells, tails, restarts and configurations of tenant rings follow their rules. -/
def Obligations.CompressionEngines : Prop :=
  ∀ (h t0 pa : Nat) (v : W32) (j : Job) (rest : List Job) (b : List Nat) (s s1 : State), h < 32 → t0 < 64 →
    let e := s.engine h
    let run := fun (t : State) => (t.engine h).run
    let rows : List (Instr × Nat) := [(.copy h 1, 0x10), (.fill h 1, 0x11), (.compress h 1, 0x12), (.decompress h 1, 0x13)]
    let works := e.run = some j ∧ s.isFatal = false ∧ j.stop = false
    let src := j.d.srcOf
    let dst := j.d.dstOf
    let k := linePart src.1 j.spos src.2
    let busy := fun (t : State) => t.f (R.CMP_STAT_BUSY h)
    let jobs := fun (t : State) => t.f (R.CMP_JOBS_COUNT h)
    let size := 2 ^ min 12 (max 6 (s.f (R.CMP_TR_CFG_LOG2N h t0)))
    let st := fun (t : State) => t.f (R.TR_STAT_STATE h t0)
    -- the next job
    (e.run = none → s.f R.BOOT_STAT_DONE = 1 → s.isFatal = false → s.engTest h = false → s.cmds = [] →
      (e.hostq = j :: rest → (∀ t, t < 64 → s.tenWork h t = false) → j.ten = false → s.jobCheck j = none →
        Completes (.engineJobStart h) s (fun t => t.engine h = { hostq := rest, run := some j, last := 0 } ∧ busy t = 1 ∧ SameCore s t))
      ∧ (e.hostq = [] → (∀ t, t < 64 → s.tenWork h t = decide (t = t0)) →
        let cons := s.f (R.TR_CONS_CONS h t0)
        let jt : Job := { d := descOf b, idx := cons, ring := t0, ten := true, dom := s.f (R.CMP_TR_CFG_DOMAIN h t0) }
        s.jobLoc { jt with d := {} } (s.f (R.CMP_TR_BASE_BASE h t0) * 4096 + cons % size * 64) false = .loc pa →
        s.memReady pa 64 jt.dom false (258 + h) = true → s.memRead jt.dom pa 64 = (s1, b, false) → s1.csr = s.csr →
        isJob jt.d.op = true → jobRefuse jt.d true = none → Completes (.engineJobStart h) s (fun t => run t = some jt
          ∧ t.f (R.TR_CONS_CONS h t0) = (cons + 1) % 2 ^ 32 ∧ busy t = 1)))
    -- a step of a job
    ∧ (∀ i op, (i, op) ∈ rows → j.d.op = op → works →
      (j.wait = 0 → op ≠ 0x11 → (op = 0x10 → j.dpos ≠ dst.2 ∧ j.buf.length < linePart dst.1 j.dpos dst.2) →
        (op ≠ 0x10 → j.part = 0 ∧ j.spos < src.2) → s.jobLoc j (src.1 + j.spos) false = .loc pa →
        s.memReady pa k j.agentDom false (258 + h) = true → s.memRead j.agentDom pa k = (s1, b, false) → b.length = k →
        let j1 := { j with spos := j.spos + k, buf := j.buf ++ b }
        (j1.early = none → Completes i s (fun t => run t = some j1))
        ∧ (∀ x, j1.early = some x → Completes i s (fun t => run t = some (j1.fail x.1 x.2))))
      ∧ (j.wait = 0 → (op = 0x10 ∨ op = 0x11 → j.dpos ≠ dst.2) → (op = 0x10 → linePart dst.1 j.dpos dst.2 ≤ j.buf.length) →
        (op = 0x12 ∨ op = 0x13 → j.part = 1 ∧ j.buf ≠ []) → s.jobLoc j (dst.1 + j.dpos) true = .loc pa →
        s.memReady pa j.next.length j.agentDom true (258 + h) = true → s.memWrite j.agentDom pa j.next j.d.pol = (s1, false) →
        Completes i s (fun t => run t = some { j with dpos := j.dpos + j.next.length, buf := j.buf.drop j.next.length }
          ∧ t.dram = s1.dram ∧ t.llc = s1.llc))
      ∧ (j.wait = 0 → op = 0x12 → j.part = 0 → src.2 ≤ j.spos →
        (pack j.buf (bits j.d.ctl 8 5) (bits j.d.ctl 6 2)).length ≤ j.d.par 3 → Completes i s (fun t =>
          run t = some { j with part := 1, buf := pack j.buf (bits j.d.ctl 8 5) (bits j.d.ctl 6 2) } ∧ SameCore s t))
      ∧ (j.wait = 0 → op = 0x13 → j.part = 0 → src.2 ≤ j.spos → ∀ out, unpack j.buf (j.d.par 3) = .inr out → Completes i s (fun t =>
          run t = some { j with part := 1, buf := out } ∧ SameCore s t))
      ∧ (j.wait = 0 → (op = 0x10 ∨ op = 0x11) → j.dpos = dst.2 → Completes i s (fun t => run t = some (j.over stOK dst.2) ∧ SameCore s t))
      ∧ (j.wait = 3 → j.ten = false → j.spos = 0 →
        (∃ u, exec i s = .next ((u.finishNote j.ring stOK j.dpos [768 + h, 3]).jobLeave h j)
          ∧ jobs u % 2 ^ 32 = min (jobs s % 2 ^ 32 + 1) (2 ^ 32 - 1) ∧ jobs u / 2 ^ 32 = jobs s / 2 ^ 32)
        ∧ (s.cmds = [] → Completes i s (fun t => run t = none ∧ busy t = 0))))
    -- registers
    ∧ Completes (.cmpClr h) s (fun t => OnlyRegs s t [R.CMP_IN_BYTES h, R.CMP_OUT_BYTES h, R.CMP_JOBS_COUNT h]
        ∧ t.f (R.CMP_IN_BYTES h) = 0 ∧ t.f (R.CMP_OUT_BYTES h) = 0 ∧ jobs t = 0)
    ∧ Completes (.trDb h t0 v) s (fun t => OnlyRegs s t [R.TR_DB_PROD h t0] ∧ t.f (R.TR_DB_PROD h t0)
        = if (v.toNat + 2 ^ 32 - s.f (R.TR_CONS_CONS h t0)) % 2 ^ 32 ≤ size then v.toNat else s.f (R.TR_DB_PROD h t0))
    ∧ (let left := fun (n : Nat) => (s.f (R.TR_HEAD_HEAD h t0) + 2 ^ 32 - n) % 2 ^ 32
       Completes (.trTail h t0 v) s (fun t => OnlyRegs s t [R.TR_TAIL_TAIL h t0] ∧ t.f (R.TR_TAIL_TAIL h t0)
        = if left v.toNat ≤ size ∧ left v.toNat ≤ left (s.f (R.TR_TAIL_TAIL h t0)) then v.toNat else s.f (R.TR_TAIL_TAIL h t0)))
    ∧ Completes (.trRestart h t0) s (fun t => OnlyRegs s t [R.TR_STAT_STATE h t0] ∧ st t = if st s = rgHALT then rgRUN else st s)
    ∧ Completes (.cmpTrCfgWrite h t0 v) s (fun t => t.f (R.CMP_TR_CFG_EN h t0) = bits v.toNat 5 1
        ∧ t.f (R.CMP_TR_CFG_LOG2N h t0) = (if s.f (R.CMP_TR_CFG_EN h t0) = 1 then s.f (R.CMP_TR_CFG_LOG2N h t0) else bits v.toNat 0 5)
        ∧ t.f (R.CMP_TR_CFG_DOMAIN h t0) = (if s.f (R.CMP_TR_CFG_EN h t0) = 1 then s.f (R.CMP_TR_CFG_DOMAIN h t0) else bits v.toNat 6 12)
        ∧ (v.getLsbD 5 = true → st s = rgIDLE → st t = rgRUN) ∧ SameCore s t)

/-- R530, R531, R353: self-tests by command. A test of a quiesced tile stops its cores and, once its caches are written back,
begins; a test of another quiesced unit begins at once; a unit in use is refused; RETRAIN_NOW pauses the channels it names, but those
whose retraining is deferred (R302).
The end gives 1 for a pass, or what failed, and leaves what the test leaves. -/
def Obligations.SelfTests : Prop :=
  ∀ (r : Nat) (c : Cmd) (pass : Bool) (st : BitVec 4) (cnt : W32) (gp : BitVec 7) (s : State),
    Ordered s r 0x25 c → c.d.okP false false [mAll, mAll] = true →
    let u := c.d.par 1
    let code := c.d.par 0
    let tile := fun (i : Instr) (n : Nat) => code = n → u < 256 → s.fused u = false →
      (c.phase = 0 → s.clash r 0 [u] = false → s.tileQuiet u = false → Finishes i s r stUACT 0 (fun t => t = s))
      ∧ (c.phase = 0 → s.clash r 0 [u] = false → s.tileQuiet u = true → Completes i s (fun t => (t.core (2 * u)).run = false
          ∧ (t.core (2 * u + 1)).run = false ∧ t.cmd r = some { c with phase := 1, at_ := s.ns, aux := [u] }))
      ∧ (c.phase = 1 → s.l2Still u = true → s.gcDirty u = [] → s.gcOut u = false → Completes i s (fun t =>
          (∀ L, L < 2 ^ 64 → t.l2 u L = {}) ∧ t.cmd r = some { c with phase := 2 }))
    let unit := fun (i : Instr) (n k : Nat) (quiet : Prop) => code = n → c.phase = 0 →
      (k ≤ u → Finishes i s r stPARAM 0 (fun t => t = s))
      ∧ (u < k → ¬ quiet → Finishes i s r stUACT 0 (fun t => t = s))
      ∧ (u < k → quiet → Completes i s (fun t => t.cmd r = some { c with phase := 2, at_ := s.ns } ∧ SameCore s t))
    let selfTest := s.f R.BOOT_STAT_SELFTEST = 1
    let ended := fun (ok : Prop) (P : State → Prop) => (ok → Finishes (.selfTestDone r pass st cnt gp) s r stOK 1 P)
      ∧ (¬ ok → Finishes (.selfTestDone r pass st cnt gp) s r stOK (st.toNat * 16 + cnt.toNat * 2 ^ 32) P)
    tile (.arrayBist r) 1 ∧ tile (.cuffInjectionTest r) 2
    ∧ unit (.sliceBist r) 3 256 (selfTest ∧ s.f R.PWR_MESHQ_STATE = 2)
    ∧ unit (.marchTest r) 4 24 selfTest
    ∧ unit (.keeperSramBist r) 5 32 (s.f (R.HIV_KSTAT_STATE u) = 2 ∨ s.f (R.HIV_KSTAT_STATE u) = 3)
    ∧ unit (.enginePatternTest r) 6 32 (s.f (R.CMP_STAT_BUSY u) = 0 ∧ s.f (R.CMP_STAT_HOSTQ u) = 0
        ∧ ∀ t, t < 64 → s.f (R.CMP_TR_CFG_EN u t) = 0)
    ∧ unit (.portLoopback r) 7 16 (s.f (R.FAB_PORT_STAT_STATE u) = 4)
    ∧ (code = 0x10 → c.phase = 0 → u < 2 ^ 24 → Completes (.retrainNow r) s (fun t => t.cmd r = some { c with phase := 2, at_ := s.ns }
        ∧ ∀ ch, ch < 24 → bitOf u ch = true → s.chanOpen ch = true →
          (s.f (R.MEM_TRAIN_STAT_DEFERRED ch) = 0 → t.f (R.MEM_STAT_PAUSED ch) = 1 ∧ (t.chan ch).trainAt = s.ns)
          ∧ (s.f (R.MEM_TRAIN_STAT_DEFERRED ch) = 1 → t.f (R.MEM_STAT_PAUSED ch) = 0 ∧ t.chan ch = { s.chan ch with asked := some s.ns })))
    ∧ (code = 0x11 → c.phase = 0 → Completes (.sensorCalibration r) s (fun t => t.cmd r = some { c with phase := 2, at_ := s.ns }
        ∧ t.f R.PWR_TEMP_TJ = s.f R.PWR_TEMP_TJ ∧ t.temps = s.temps))
    ∧ (c.phase = 2 → code = 1 → u < 256 → s.paired u = false → ended (pass = true) (fun t => (t.core (2 * u)).run = true
        ∧ (t.core (2 * u)).itlb = [] ∧ (t.core (2 * u + 1)).run = true ∧ t.csr = s.csr))
    ∧ (c.phase = 2 → code = 2 → u < 256 → ended (gp = 127) (fun t => (t.core (2 * u)).run = true
        ∧ t.f (R.CUF_TEST_GPASS u) = gp.toNat % 64 ∧ t.f (R.CUF_TEST_CFPASS u) = gp.toNat / 64
        ∧ t.f (R.CUF_STAT_TESTFAIL u) = if gp = 127 then 0 else 1))
    ∧ (c.phase = 2 → code = 4 → u < 24 → ended (pass = true) (fun t => ∀ L i, i < 8 → L < dramLines → chanOf L = u →
        Tbl.get none t.dram (L * 8 + i) = none))

/-- R370 to R379, R432: the meter. A boundary closes every open period with a record of 128 bytes and opens the next; the oldest
record goes to the ring where it may, and a refusal stops the meter until one of its causes; METER_CFG and TIME_SET change the
period, the bands and device time at a boundary; each register write has its range. -/
def Obligations.Metering : Prop :=
  ∀ (r d : Nat) (c : Cmd) (p : MPer) (q : MRec) (rest : List MRec) (v : W32) (w : W64) (s : State),
    let hd := s.f R.MTR_RING_HEAD_HEAD
    let size := 2 ^ min 16 (max 6 (s.f R.MTR_RING_SIZE_LOG2N))
    let at_ := s.f R.MTR_RING_BASE_BASE * 4096 + hd % size * 128
    let len := fun (sec : Nat) => sec * 1000000000
    let send := s.backlog = q :: rest ∧ s.f R.MTR_CTL_EN = 1 ∧ s.mstall = false ∧ (hd + 2 ^ 32 - s.f R.MTR_RING_TAIL_TAIL) % 2 ^ 32 < size
      ∧ s.isFatal = false ∧ s.contained = false ∧ s.bme = true ∧ s.outq = []
    let moved := fun (n : Nat) => (n + 2 ^ 32 - s.f R.MTR_RING_TAIL_TAIL) % 2 ^ 32
    (s.mbound ≤ s.time → s.isFatal = false → d < 4096 → s.mper = [(d, p)] → p.isOpen = true → s.backlog.length < 8192 →
      Completes .periodBoundary s (fun t => (∃ e, t.backlog = s.backlog ++ [e] ∧ e.endP = true ∧ e.bytes.length = 128
          ∧ leAt e.bytes 2 2 = d ∧ leAt e.bytes 4 4 = s.f (R.DOM_MTRSEQ_SEQ d) ∧ leAt e.bytes 8 8 = p.start % 2 ^ 64
          ∧ leAt e.bytes 16 8 = s.mbound % 2 ^ 64)
        ∧ Tbl.get {} t.mper d = { isOpen := true, start := s.mbound } ∧ t.f (R.DOM_MTRSEQ_SEQ d) = (s.f (R.DOM_MTRSEQ_SEQ d) + 1) % 2 ^ 32
        ∧ t.msec = s.f R.MTR_PERIOD_SEC ∧ t.mbound = (s.mbound / len t.msec + 1) * len t.msec ∧ t.mstall = false))
    ∧ (send → inHost at_ 128 = true → s.outRefuse (some at_) = none → Completes .recordWrite s (fun t => t.backlog = rest
        ∧ t.f R.MTR_RING_HEAD_HEAD = (hd + 1) % 2 ^ 32 ∧ t.tx = s.tx ++ [⟨.req ⟨.meter, true, s.hostAddr at_, 128, q.bytes, s.outNs at_⟩ 0, false, false⟩]
        ∧ (q.endP = true → bitOf (t.f (R.EVT_STAT_CAUSE 1000)) 0 = true)))
    ∧ (send → inHost at_ 128 = false ∨ s.outRefuse (some at_) ≠ none → Completes .recordWrite s (fun t => t.backlog = s.backlog ∧ t.mstall = true
        ∧ t.f R.MTR_STAT_HOSTERR = 1 ∧ t.f R.MTR_RING_HEAD_HEAD = hd))
    ∧ (Ordered s r 0x22 c → c.d.okP false false [mLow 12, 0x7F7F7F, 1] = true → 1 ≤ c.d.par 0 → c.d.par 0 ≤ 3600 →
      mtrBandsOk (c.d.par 1) = true → s.time < s.mbound → Finishes (.meterCfg r) s r stOK 0 (fun u => u.f R.MTR_PERIOD_SEC = c.d.par 0
        ∧ u.f R.MTR_BANDS_B1 = bits (c.d.par 1) 0 7 ∧ u.f R.MTR_BANDS_B2 = bits (c.d.par 1) 8 7 ∧ u.f R.MTR_BANDS_B3 = bits (c.d.par 1) 16 7
        ∧ (c.d.par 2 = 0 → u.msec = s.msec ∧ u.mbands = s.mbands)
        ∧ (c.d.par 2 = 1 → u.msec = c.d.par 0 ∧ u.mbands = [bits (c.d.par 1) 0 7, bits (c.d.par 1) 8 7, bits (c.d.par 1) 16 7]
          ∧ u.mbound = (s.time / len u.msec + 1) * len u.msec)))
    ∧ (Ordered s r 0x26 c → c.d.okP false false [mAll] = true → s.time < s.mbound → Finishes (.timeSet r) s r stOK s.time (fun u =>
        u.time = c.d.par 0 ∧ u.ns = s.ns ∧ u.mbound = (c.d.par 0 / len s.msec + 1) * len s.msec))
    ∧ Completes (.mtrCtlWrite v) s (fun t => t.f R.MTR_CTL_EN = bits v.toNat 0 1 ∧ t.mstall = false ∧ SameCore s t)
    ∧ Completes (.mtrRingBaseWrite w) s (fun t => t.f R.MTR_RING_BASE_BASE = bits w.toNat 12 34 ∧ t.mstall = false ∧ SameCore s t)
    ∧ (moved v.toNat ≤ moved hd → Completes (.mtrRingTailWrite v) s (fun t => OnlyRegs s t [R.MTR_RING_TAIL_TAIL]
        ∧ t.f R.MTR_RING_TAIL_TAIL = v.toNat))
    ∧ (moved hd < moved v.toNat → Completes (.mtrRingTailWrite v) s (fun t => OnlyRegs s t [R.MTR_STAT_BADVAL] ∧ t.f R.MTR_STAT_BADVAL = 1))
    ∧ Completes .hosterrClear s (fun t => t.f R.MTR_STAT_HOSTERR = 0 ∧ t.mstall = false ∧ SameCore s t)

/-- R182, R393, R398, R401 to R405, R408 to R412: what the host endpoint receives and sends. A configuration read or write, a BAR0
access and a BAR2 access of memory that an open window and the caches hold complete as their rows say; one that a window or
the form refuses completes as refused, and is counted; a completion delivers its data and frees its tag; a timeout quarantines
the tag; an MSI-X message leaves for a pending source. -/
def Obligations.HostTraffic : Prop :=
  ∀ (src tag off len a o c : Nat) (be : BitVec 4) (w : W32) (v : W64) (data : List (BitVec 8)) (b : List Nat) (q : HTag) (k : Wait)
    (s s1 : State), s.linkUp = true →
    let sent := fun (t : State) (x : TlpBody) => t.tx = s.tx ++ [⟨x, false, false⟩]
    let answers := fun (x : List Nat) => TlpBody.cpl x false false false
    let count := fun (t : State) (x : Fld) => t.f x = min (s.f x + 1) (2 ^ 32 - 1)
    let open_ := fun (fatal : Bool) => s.inbRefused fatal = false
    let vec := Tbl.get {} s.msix (s.f (R.EVT_CFG_TARGET src))
    let bytes := data.map (·.toNat)
    let win := bits off 32 8
    (512 ≤ src → src < 8192 → src ≠ 1007 → s.f (R.EVT_CFG_TKIND src) = 3 → s.evtEn src = true → s.f (R.EVT_STAT_PEND src) = 1 →
      s.f (R.EVT_STAT_HELD src) = 0 → s.f (R.EVT_STAT_ACTIVE src) = 0 → s.msixOpen (s.f (R.EVT_CFG_TARGET src)) = true → s.outq = [] →
      (∀ x ∈ s.pendSrcs, s.msixReady x = true → s.f (R.EVT_CFG_PRI x) ≤ s.f (R.EVT_CFG_PRI src)) →
        Completes (.msixMessage src) s (fun t => t.f (R.EVT_STAT_PEND src) = 0
        ∧ sent t (.req ⟨.msix src, true, vec.addr + vec.upper * 2 ^ 32, 4, leBytes 4 vec.data, false⟩ 0)))
    -- configuration
    ∧ (off < 4096 → off % 4 = 0 →
      ((s.f R.BOOT_STAT_DONE = 0 ∨ s.inFlr = true) → ∀ wr, exec (.configurationRequest off wr be w) s = .next (s.cpl (.cpl [] false false true)))
      ∧ (s.f R.BOOT_STAT_DONE = 1 → s.inFlr = false →
        exec (.configurationRequest off false be w) s = .next (s.cpl (answers (leBytes 4 (s.cfgRead off))))
        ∧ Completes (.configurationRequest 0x14 true be w) s (fun t => sent t (answers []) ∧ t.csr = s.csr ∧ ∀ i, i < 4 →
          t.cfgGet 0x14 / 256 ^ i % 256 = if be.getLsbD i then w.toNat / 256 ^ i % 256 else s.cfgGet 0x14 / 256 ^ i % 256)))
    -- BAR0
    ∧ (bar0Ok off len = true → open_ (bar0Fatal off) → ctlForm off len = true →
        (∀ x, s.bar0Get off len = (s1, x) → exec (.bar0Read off len) s = .next (s1.cpl (answers (leBytes len x))))
        ∧ exec (.bar0Write off len v) s = .next (s.bar0Put off len (v.toNat % 2 ^ (8 * len))))
    ∧ (bar0Ok off len = true → open_ (bar0Fatal off) → ctlForm off len = false →
        Completes (.bar0Read off len) s (fun t => sent t (answers (List.replicate len 255)) ∧ count t R.HEP_BAR0_BAD_COUNT)
        ∧ Completes (.bar0Write off len v) s (fun t => OnlyRegs s t [R.HEP_BAR0_BAD_COUNT] ∧ count t R.HEP_BAR0_BAD_COUNT))
    ∧ (o < 0x8000 → o % 4 = 0 → open_ false → Completes (.bar0Write (0xB0_0000 + o) 4 v) s (fun t => t.tx = s.tx ∧ t.csr = s.csr
        ∧ t.msixWord o = (match o / 4 % 4 with | 0 => v.toNat % 2 ^ 32 / 4 * 4 | 3 => v.toNat % 2 | _ => v.toNat % 2 ^ 32)
        ∧ ∀ p, p / 4 ≠ o / 4 → t.msixWord p = s.msixWord p))
    ∧ (bar0Ok off len = true → s.contained = true →
        Completes (.bar0Read off len) s (fun t => sent t (.cpl [] false true false) ∧ count t R.HEP_DV_UR_COUNT)
        ∧ Completes (.bar0Write off len v) s (fun t => OnlyRegs s t [R.HEP_DV_DROP_COUNT] ∧ count t R.HEP_DV_DROP_COUNT))
    -- BAR2
    ∧ (bar2Ok off len = true → open_ false → s.bar2At off len false = .inl a → a % 64 + len ≤ 64 → InLlc s a len b →
        s.memReady a len 0 false = true → exec (.bar2Read off len) s = .next (s.cpl (answers b)))
    ∧ (bar2Ok off len = true → open_ false → s.bar2At off len false = .inr o → Completes (.bar2Read off len) s (fun t =>
        sent t (.cpl [] false true false) ∧ count t R.HEP_INB_UR_COUNT ∧ t.f R.HEP_LASTERR_KIND = o ∧ t.f R.HEP_LASTERR_WINDOW = win))
    ∧ (bar2Ok off data.length = true → open_ false → s.bar2At off data.length true = .inl a → a % 64 + data.length ≤ 64 →
        InLlc s a data.length b → s.memReady a data.length 0 true = true →
        Completes (.bar2Write off data (List.replicate data.length true)) s (fun t => t.memRead 0 a data.length = (t, bytes, false)
          ∧ t.tx = s.tx ∧ t.dram = s.dram))
    ∧ (bar2Ok off data.length = true → open_ false → s.bar2At off data.length true = .inr o →
        Completes (.bar2Write off data (List.replicate data.length true)) s (fun t => t = { s with csr := t.csr }
          ∧ count t R.HEP_INB_DROP_COUNT ∧ t.f R.HEP_LASTERR_KIND = o ∧ t.f R.HEP_LASTERR_WRITE = 1))
    -- outbound reads
    ∧ (s.htags = [q] → q.tag = tag → s.outq = [] →
        (q.req.orig = .core c → c < 512 → (s.core c).wait = some k → k.net = 0 → data.length = q.req.len →
          Completes (.hostCompletion tag 0 data) s (fun t => t.htags = []
            ∧ t.core c = ({ s.core c with wait := none }.deliver k.dst (ofLe bytes)).retire))
        ∧ (q.req.orig = .gone → Completes (.hostCompletion tag 1 data) s (fun t => t.htags = [] ∧ count t R.HEP_OUT_ERR_COUNT))
        ∧ (q.req.orig = .gone → q.till ≤ s.ns → Completes (.completionTimeout tag) s (fun t => t.htags = []
            ∧ t.hquar = s.hquar ++ [(tag, s.ns + 2 * s.cto)] ∧ count t R.HEP_TMO_COUNT ∧ bitOf (t.cfgGet 0x104) 14 = true)))
    ∧ (s.htags = [] → (s.hquar.any (·.1 == tag)) = true → Completes (.hostCompletion tag 0 data) s (fun t => count t R.HEP_LATE_COUNT))
    ∧ (s.hquar = [(tag, o)] → o ≤ s.ns → s.outq = [] → Completes (.tagQuarantineEnd tag) s (fun t => t.hquar = [] ∧ t.htags = s.htags))

/-- R396, R400, R404 to R407, R413 to R421, R426: the endpoint's link, containment and resets. Each error that contains, and the
loss of the link, enters containment with its cause and ends everything outbound; a release leads through RELEASING back to
serving; clearing Bus Master Enable or entering D3hot holds the running rings, setting it lets them go on; a function-level
reset returns the function's own registers to reset (R423: BUSY among them); window entries and counters take their writes. -/
def Obligations.ContainmentLeavesAndReturns : Prop :=
  ∀ (r w speed width kind : Nat) (v : W64) (s : State), r < 64 → w < 256 → s.pins.inPor = false →
    let state := fun (t : State) => t.f R.HEP_DV_STAT_STATE
    let quiet := s.outq = [] ∧ s.htags = []
    let free := quiet ∧ Tbl.get none s.heldC r = none ∧ s.cmd r = none
    let contains := fun (cause : Nat) (t : State) => state t = 1 ∧ t.outq = [] ∧ t.htags = [] ∧ t.cores = s.cores ∧ t.dram = s.dram
      ∧ (state s = 0 → t.f R.HEP_DV_STAT_CAUSE = cause) ∧ t.f R.HEP_DV_STAT_COUNT = min (s.f R.HEP_DV_STAT_COUNT + 1) (2 ^ 16 - 1)
      ∧ t.f R.HEP_DV_TIME_NS = s.time % 2 ^ 64 ∧ (s.ringState r = rgRUN ∨ s.ringState r = rgBME → t.ringState r = rgCONT)
    let error := fun (i : Instr) (cause bit : Nat) => quiet → Completes i s (fun t => contains cause t ∧ bitOf (t.cfgGet 0x104) bit = true)
    let reset := fun (t : State) => t.ringState r = rgIDLE ∧ t.f (R.CMD_RING_CFG_EN r) = 0 ∧ t.f (R.CMD_RING_CONS_CONS r) = 0 ∧ t.msix = []
      ∧ t.f (R.HEP_IWIN_V w) = 0 ∧ t.f (R.HEP_OWIN_V w) = 0 ∧ t.f R.MTR_CTL_EN = 0 ∧ t.bme = false ∧ t.outq = [] ∧ t.htags = []
      ∧ (s.cmd r ≠ none → t.f (R.CMD_RING_STAT_BUSY r) = 0)
    let notes := ∀ q x, Tbl.get none s.heldC q = some x → x.getD 5 0 < 8192
    let sz := fun (out : Bool) => if out then bits v.toNat 2 6 else bits v.toNat 46 6
    (s.linkUp = true → error .dataLinkProtocolError 2 4 ∧ error .flowControlProtocolError 3 13 ∧ error .receiverOverflow 4 17
      ∧ error .malformedTlp 5 18)
    ∧ error .uncorrectableInternalError 6 22
    ∧ (s.linkUp = true → quiet → kind < 2 → Completes (.dlActiveLoss kind) s (fun t => contains 1 t ∧ t.linkUp = false))
    ∧ (s.linkUp = true → quiet → notes → s.inFlr = false → (kind = 2 ∨ kind = 3) → Completes (.dlActiveLoss kind) s (fun t => state t = 1
        ∧ t.linkUp = false ∧ reset t ∧ t.cores = s.cores))
    ∧ (s.f R.HEP_STAT_LINKUP = 0 → 1 ≤ speed → speed ≤ 6 → width ∈ [1, 2, 4, 8, 16] → Completes (.dlActive speed width) s (fun t =>
        t.linkUp = true ∧ t.f R.HEP_STAT_SPEED = speed ∧ t.f R.HEP_STAT_WIDTH = width ∧ t.f R.HEP_DV_STAT_LINKUP = 1 ∧ state t = state s))
    ∧ (state s = 1 → s.f R.HEP_DV_STAT_LINKUP = 1 → s.inFlr = false → Completes .release s (fun t => state t = 2 ∧ SameCore s t))
    ∧ (state s = 1 → s.f R.HEP_DV_STAT_LINKUP = 0 → Completes .release s (fun t => OnlyRegs s t [R.HEP_DV_STAT_RELERR]
        ∧ t.f R.HEP_DV_STAT_RELERR = 1))
    ∧ (state s = 2 → Completes .releaseDone s (fun t => state t = 0 ∧ t.mstall = false ∧ SameCore s t))
    ∧ (s.linkUp = true → s.bme = true → s.d3 = false → free → Completes .busMasterEnableClear s (fun t => t.bme = false
        ∧ (s.ringState r = rgRUN → t.ringState r = rgBME) ∧ bitOf (t.f (R.EVT_STAT_CAUSE 1002)) 1 = true))
    ∧ (s.linkUp = true → s.bme = true → s.d3 = false → s.inFlr = false → free → Completes .d3hotEntry s (fun t => t.d3 = true
        ∧ (s.ringState r = rgRUN → t.ringState r = rgBME)))
    ∧ (s.linkUp = true → s.bme = false → s.d3 = false → s.inFlr = false → free → s.heldC = [] → Completes .busMasterEnableSet s (fun t =>
        t.bme = true ∧ t.mstall = false ∧ (s.ringState r = rgBME → t.ringState r = rgRUN)))
    ∧ (s.linkUp = true → s.inFlr = false → quiet → notes → Completes .functionLevelReset s (fun t => t.f R.HEP_STAT_FLR = 1 ∧ reset t
        ∧ t.cores = s.cores ∧ t.dram = s.dram))
    ∧ (s.inFlr = true → Completes .flrDone s (fun t => t.inFlr = false ∧ t.mstall = false
        ∧ bitOf (t.f (R.EVT_STAT_CAUSE 1002)) 2 = true))
    ∧ (12 ≤ sz false → sz false ≤ 32 → bits v.toNat 3 2 ≠ 3 → Completes (.hepIwinWrite w 0 8 v) s (fun t =>
        t.f (R.HEP_IWIN_V w) = bits v.toNat 0 1 ∧ t.f (R.HEP_IWIN_BASE w) = bits v.toNat 12 34 ∧ t.f (R.HEP_IWIN_LOG2SZ w) = sz false
        ∧ t.f (R.HEP_IWIN_RD w) = bits v.toNat 1 1 ∧ t.f (R.HEP_IWIN_WR w) = bits v.toNat 2 1 ∧ SameCore s t))
    ∧ (12 ≤ sz true → sz true ≤ 32 → Completes (.hepOwinWrite w 0 8 v) s (fun t => t.f (R.HEP_OWIN_V w) = bits v.toNat 0 1
        ∧ t.f (R.HEP_OWIN_BASE w) = bits v.toNat 12 52 ∧ t.f (R.HEP_OWIN_LOG2SZ w) = sz true
        ∧ t.f (R.HEP_OWIN_NS w) = bits v.toNat 1 1 ∧ SameCore s t))
    ∧ (v.getLsbD 0 = true → (sz true < 12 ∨ 32 < sz true) → Completes (.hepOwinWrite w 0 8 v) s (fun t => t.f R.HEP_STAT_BADWIN = 1
        ∧ t.f (R.HEP_OWIN_BASE w) = s.f (R.HEP_OWIN_BASE w) ∧ t.f (R.HEP_OWIN_V w) = s.f (R.HEP_OWIN_V w)))
    ∧ (let cs := [R.HEP_TMO_COUNT, R.HEP_LATE_COUNT, R.HEP_INB_DROP_COUNT, R.HEP_INB_UR_COUNT, R.HEP_BAR0_BAD_COUNT,
        R.HEP_POISON_RD_COUNT, R.HEP_OUT_ERR_COUNT]
      Completes .hepClr s (fun t => OnlyRegs s t cs ∧ ∀ x ∈ cs, t.f x = 0))

/-- R422, R425, R426, R428, R429, R431: command rings. A doorbell or a TAIL in range is accepted, one out of range only sets
BADDB; the configuration and RESTART move the ring between its states; a fetch reads the descriptor at CONS through the
outbound windows, or halts the ring, with DMA_REGION where the base lies outside the host aperture (R49); a completion is written at HEAD with its
PHASE, and held where the host cannot be reached. -/
def Obligations.CommandRings : Prop :=
  ∀ (r status result tag : Nat) (v : W32) (c : Cmd) (s : State), r < 64 →
    let f := fun (t : State) (x : Nat → Fld) => t.f (x r)
    let now := f s
    let size := 2 ^ min 16 (max 6 (now R.CMD_RING_CFG_LOG2N))
    let cons := now R.CMD_RING_CONS_CONS
    let head := now R.CMD_CQ_HEAD_HEAD
    let left := fun (n : Nat) => (head + 2 ^ 32 - n) % 2 ^ 32
    let tail := now R.CMD_CQ_TAIL_TAIL
    let st := fun (t : State) => f t R.CMD_RING_STAT_STATE
    let bad := fun (t : State) => f t R.CMD_RING_STAT_BADDB
    let idle := s.cmd r = none ∧ Tbl.get none s.heldC r = none
    let at_ := now R.CMD_RING_BASE_BASE * 4096 + cons % size * 64
    let cq := now R.CMD_CQ_BASE_BASE * 4096 + head % size * 16
    let fetches := s.f R.CMD_STAT_READY = 1 ∧ s.isFatal = false ∧ st s = 1 ∧ now R.CMD_RING_CFG_EN = 1
      ∧ now R.CMD_RING_DB_PROD ≠ cons ∧ idle ∧ s.ringReading r = false
    let cpl := leBytes 4 c.d.tag ++ [status, 1 - head / size % 2] ++ leBytes 2 (c.idx % 2 ^ 16) ++ leBytes 8 result
    Completes (.cmdRingDb r v) s (fun t => OnlyRegs s t [R.CMD_RING_DB_PROD r, R.CMD_RING_STAT_BADDB r]
        ∧ (f t R.CMD_RING_DB_PROD, bad t)
          = if (v.toNat + 2 ^ 32 - cons) % 2 ^ 32 ≤ size then (v.toNat, bad s) else (now R.CMD_RING_DB_PROD, 1))
    ∧ Completes (.cmdCqTail r v) s (fun t => OnlyRegs s t [R.CMD_CQ_TAIL_TAIL r, R.CMD_RING_STAT_BADDB r]
        ∧ (f t R.CMD_CQ_TAIL_TAIL, bad t)
          = if left v.toNat ≤ size ∧ left v.toNat ≤ left tail then (v.toNat, bad s) else (tail, 1))
    ∧ (Tbl.get none s.heldC r = none → (st s = 2 ∨ st s = 4) → s.contained = false → (s.bme = false ∨ s.d3 = true) →
        Completes (.cmdRingRestart r) s (fun t => st t = 3))
    ∧ (Tbl.get none s.heldC r = none → (st s = 2 ∨ st s = 4) → s.contained = false → s.bme = true → s.d3 = false →
      Completes (.cmdRingRestart r) s (fun t => OnlyRegs s t [R.CMD_RING_STAT_STATE r] ∧ st t = 1))
    ∧ (¬ ((st s = 2 ∨ st s = 4) ∧ s.contained = false) → exec (.cmdRingRestart r) s = .next s)
    ∧ (now R.CMD_RING_CFG_EN = 0 → Completes (.cmdRingEnWrite r v) s (fun t => f t R.CMD_RING_CFG_LOG2N = bits v.toNat 0 5
        ∧ f t R.CMD_RING_CFG_EN = bits v.toNat 5 1 ∧ (v.getLsbD 5 = true → st s = 0 →
          st t = if s.contained then 4 else if s.bme = false ∨ s.d3 = true then 3 else 1)))
    ∧ (now R.CMD_RING_CFG_EN = 1 → idle → Completes (.cmdRingEnWrite r v) s (fun t => f t R.CMD_RING_CFG_LOG2N = now R.CMD_RING_CFG_LOG2N
        ∧ f t R.CMD_RING_CFG_EN = bits v.toNat 5 1 ∧ (v.getLsbD 5 = false → st t = 0)
        ∧ (bits v.toNat 0 5 ≠ now R.CMD_RING_CFG_LOG2N → f t R.CMD_RING_STAT_BADCFG = 1)))
    ∧ (fetches → left tail ≠ size → s.outq = [] →
        (inHost at_ 64 = true → s.outRefuse (some at_) = none → s.freeHTag = some tag → Completes (.descriptorFetch r) s (fun t =>
          t.tx = s.tx ++ [⟨.req ⟨.ring r, false, s.hostAddr at_, 64, [], s.outNs at_⟩ tag, false, false⟩]
          ∧ f t R.CMD_RING_CONS_CONS = cons))
        ∧ (inHost at_ 64 = false → Completes (.descriptorFetch r) s (fun t => st t = 2 ∧ f t R.CMD_RING_STAT_ERR = 0x20
          ∧ f t R.CMD_RING_CONS_CONS = cons ∧ t.tx = s.tx))
        ∧ (inHost at_ 64 = true → s.outRefuse (some at_) ≠ none → Completes (.descriptorFetch r) s (fun t => st t = 2 ∧ f t R.CMD_RING_STAT_ERR = 0x23
          ∧ f t R.CMD_RING_CONS_CONS = cons ∧ t.tx = s.tx)))
    ∧ (left tail = size → exec (.descriptorFetch r) s = .next s)
    ∧ Completes .cmdClr s (fun t => OnlyRegs s t [R.CMD_LOST_COUNT] ∧ t.f R.CMD_LOST_COUNT = 0)
    ∧ (s.cmd r = some c → c.d.dom < 4096 → c.orphan = false → c.d.flags = 0 → now R.CMD_RING_CFG_EN = 1 → st s ≠ 4 → st s ≠ 3 →
        s.outq = [] → inHost cq 16 = true → s.outRefuse (some cq) = none →
        let t := s.finish r status result
        t.tx = s.tx ++ [⟨.req ⟨.ring r, true, s.hostAddr cq, 16, cpl, s.outNs cq⟩ 0, false, false⟩] ∧ t.cmd r = none
          ∧ f t R.CMD_CQ_HEAD_HEAD = (head + 1) % 2 ^ 32 ∧ f t R.CMD_RING_STAT_BUSY = 0 ∧ st t = st s)
    ∧ (s.cmd r = some c → c.d.dom < 4096 → c.orphan = false → now R.CMD_RING_CFG_EN = 1 → (st s = 4 ∨ st s = 3) →
        let t := s.finish r status result
        Tbl.get none t.heldC r = some [c.d.tag, status, c.idx % 2 ^ 16, result, c.d.flags] ∧ f t R.CMD_RING_STAT_HOLD = 1
          ∧ f t R.CMD_CQ_HEAD_HEAD = head ∧ t.tx = s.tx)

/-- R454 to R456, R473 to R476, R479, R481: ports and links. A frame with a bad CRC is counted and refused by NAK; a good idle
frame returns credits; a one-flit packet in sequence arrives; a replay resends every unacknowledged flit, and after sixteen of
them the next loses the link; losing, raising, draining, retraining and enabling a port move it between its states; a held packet that has
stood its time is dropped. -/
def Obligations.FabricPortsAndLinks : Prop :=
  ∀ (p n : Nat) (frame : BitVec 336) (k : Pkt) (rest : List (Pkt × Nat)) (s : State), p < 16 →
    let x := s.port p
    let fv := frame.toNat
    let st := fun (t : State) => t.f (R.FAB_PORT_STAT_STATE p)
    let count := fun (t : State) (c : Fld) => t.f c = min (s.f c + 1) (2 ^ c.w - 1)
    let good := bits fv 320 16 = frameCrc fv ∧ fv.testBit 313 = false ∧ x.unack = [] ∧ x.q = []
    let hdr := frame.truncate 288
    let pk := Pkt.ofFlits [hdr] (bits fv 288 2)
    let resend := x.unack ≠ []
    let replayed := fun (t : State) => count t (R.FAB_PORT_REPLAY_COUNT p) ∧ (t.port p).unack = x.unack
      ∧ (t.port p).tries = x.tries + 1 ∧ (t.port p).out.length = x.out.length + x.unack.length
    let lost := fun (t : State) => count t (R.FAB_PORT_DOWNS_COUNT p) ∧ (t.port p).unack = [] ∧ (t.port p).hold = x.hold
      ∧ t.f (R.FAB_PORT_STAT_LANES p) = 0
    let portCounts := [R.FAB_PORT_CRC_COUNT p, R.FAB_PORT_REPLAY_COUNT p, R.FAB_PORT_DROP_COUNT p, R.FAB_PORT_DOWNS_COUNT p,
      R.FAB_PORT_TXF_COUNT p, R.FAB_PORT_RXF_COUNT p]
    let devCounts := [R.FAB_TMO_COUNT, R.FAB_LATE_COUNT, R.FAB_RUNAV_COUNT, R.FAB_POSTERR_COUNT, R.FAB_INBREF_COUNT, R.FAB_BADPKT_COUNT]
    -- frames
    ((st s = 2 ∨ st s = 3) → bits fv 320 16 ≠ frameCrc fv → Completes (.frameReceive p frame) s (fun t =>
        count t (R.FAB_PORT_CRC_COUNT p) ∧ t.port p = { x with nak := true }.emit (s.withhold p) none))
    ∧ (st s = 2 → good → fv.testBit 290 = false → Completes (.frameReceive p frame) s (fun t =>
        t.port p = { x with cred := x.cred.set (bits fv 314 2) (min 32 (x.cred.getD (bits fv 314 2) 0 + bits fv 316 4)) }.emit
          (s.withhold p) none))
    ∧ (st s = 2 → good → fv.testBit 290 = true → bits fv 291 11 ≠ x.rxSeq → Completes (.frameReceive p frame) s (fun t =>
        (t.port p).out.length = x.out.length + 1 ∧ (t.port p).rxSeq = x.rxSeq ∧ t.fabIn = s.fabIn))
    ∧ (st s = 2 → good → fv.testBit 290 = true → bits fv 291 11 = x.rxSeq → x.asm = [] → flitsOf hdr = 1 →
        s.f R.FAB_DEVNUM_LOCK = 1 → tyKnown pk.ty = true → 0 < pk.ptr → pk.ptr = pk.nhop → pk.nhop ≤ 24 → pk.dstDev = s.ownDev →
        Completes (.frameReceive p frame) s (fun t => t.fabIn = s.fabIn ++ [{ pk with hop := pk.hop.set (pk.ptr - 1) p }]
          ∧ count t (R.FAB_PORT_RXF_COUNT p) ∧ (t.port p).rxSeq = (x.rxSeq + 1) % 2048))
    ∧ (∀ i, i = .nak p ∨ (i = .replayTimeout p ∧ x.sentAt.headD 0 + 384 ≤ s.ns) → (st s = 2 ∨ st s = 3) → resend →
        (x.tries < 16 → Completes i s replayed) ∧ (16 ≤ x.tries → x.q = [] → Completes i s (fun t => lost t ∧ st t = 0)))
    -- states
    ∧ (st s ≠ 0 → x.q = [] → Completes (.linkLoss p) s (fun t => lost t ∧ st t = s.f (R.FAB_PORT_CTL_EN p)))
    ∧ (s.f (R.FAB_PORT_CTL_EN p) = 1 → (st s = 0 ∨ st s = 1) → Completes (.linkUp p) s (fun t => t.f (R.FAB_PORT_STAT_LANES p) = 8
        ∧ (s.f (R.FAB_PORT_CTL_DRAIN p) = 1 → OnlyRegs s t [R.FAB_PORT_STAT_LANES p, R.FAB_PORT_STAT_STATE p] ∧ st t = 4)
        ∧ (s.f (R.FAB_PORT_CTL_DRAIN p) = 0 → st t = 2 ∧ (t.port p).hold = [] ∧ t.f (R.FAB_PORT_STAT_HELD p) = 0)))
    ∧ (st s ≠ 2 ∨ x.q = [] → Completes (.drain p) s (fun t => OnlyRegs s t [R.FAB_PORT_CTL_DRAIN p, R.FAB_PORT_STAT_STATE p]
        ∧ t.f (R.FAB_PORT_CTL_DRAIN p) = 1 ∧ st t = if st s = 2 then 3 else st s))
    ∧ (st s = 2 → x.q ≠ [] → x.hold.length + x.q.length ≤ 64 → s.f R.FAB_HOLD_US ≠ 0 → Completes (.drain p) s (fun t =>
        t.f (R.FAB_PORT_CTL_DRAIN p) = 1 ∧ st t = 3 ∧ t.port p = { x with q := [], first := 0, hold := x.hold ++ x.q.map (fun k => (k, s.ns)) }))
    ∧ (st s = 3 → x.unack = [] → x.asm = [] → Completes (.drainDone p) s (fun t => st t = 4 ∧ t.port p = x))
    ∧ Completes (.undrain p) s (fun t => t.f (R.FAB_PORT_CTL_DRAIN p) = 0 ∧ (st s ≠ 4 → st t = st s ∧ t.port p = x)
        ∧ (st s = 4 → st t = 2 ∧ (t.port p).hold = [] ∧ t.f (R.FAB_PORT_STAT_HELD p) = 0))
    ∧ (st s = 4 → Completes (.retrain p) s (fun t => OnlyRegs s t [R.FAB_PORT_STAT_STATE p, R.FAB_PORT_STAT_LANES p]
        ∧ st t = 1 ∧ t.f (R.FAB_PORT_STAT_LANES p) = 0))
    ∧ (st s ≠ 4 → exec (.retrain p) s = .next s)
    ∧ Completes (.fabPortCtlEn p true) s (fun t => OnlyRegs s t [R.FAB_PORT_CTL_EN p, R.FAB_PORT_STAT_STATE p]
        ∧ t.f (R.FAB_PORT_CTL_EN p) = 1 ∧ st t = if st s = 0 then 1 else st s)
    ∧ (x.q = [] → Completes (.fabPortCtlEn p false) s (fun t => t.f (R.FAB_PORT_CTL_EN p) = 0 ∧ st t = 0 ∧ (st s ≠ 0 → lost t)))
    ∧ (x.hold = (k, n) :: rest → n + s.f R.FAB_HOLD_US * 1000 ≤ s.ns → rest.length < 64 →
        (k.isReply = true → Completes (.holdExpiry p) s (fun t => (t.port p).hold = rest ∧ t.f (R.FAB_PORT_STAT_HELD p) = rest.length
          ∧ count t (R.FAB_PORT_DROP_COUNT p) ∧ count t R.FAB_BADPKT_COUNT))
        ∧ (k.isReply = false → k.ptr = 1 → k.srcDev = s.ownDev → Completes (.holdExpiry p) s (fun t => (t.port p).hold = rest
          ∧ count t (R.FAB_PORT_DROP_COUNT p) ∧ ∃ a, t.fabIn = s.fabIn ++ [a] ∧ a.ty = 12 ∧ a.op = 6 ∧ a.tag = k.tag)))
    -- counters
    ∧ Completes (.fabPortClr p) s (fun t => OnlyRegs s t portCounts ∧ ∀ c ∈ portCounts, t.f c = 0)
    ∧ Completes .fabClr s (fun t => OnlyRegs s t devCounts ∧ ∀ c ∈ devCounts, t.f c = 0)

/-- R457, R458, R461 to R463, R465, R475, R477, R480: the fabric's numbers, tables and transit. NUM is fixed by LOCK; RT_IDX shows
an entry; a window entry is written whole; a packet in transit leaves by its next port, or stands in that port's hold while
the port is not UP; ROUTE_SET writes legal entries; the link power command moves drained ports whose partners are drained. -/
def Obligations.FabricNumbersRoutesAndTransit : Prop :=
  ∀ (r n part lo hi : Nat) (v : W32) (w : W64) (k : Pkt) (rest : List Pkt) (c : Cmd) (b : List Nat) (s s1 : State),
    let key := 0x920000 + 16 * n
    let out := k.hop.getD k.ptr 0
    let x := s.port out
    let turns := (k.hop.getD (k.ptr - 1) 0) / 2 ≠ out / 2
    let k' := { k with ptr := k.ptr + 1, vcH := (if turns then false else k.vcH) || s.f (R.FAB_PORT_CTL_DATELINE out) == 1 }
    let count := fun (t : State) (c : Fld) => t.f c = min (s.f c + 1) (2 ^ c.w - 1)
    let st := fun (t : State) (p : Nat) => t.f (R.FAB_PORT_STAT_STATE p)
    let par := c.d.par
    let ms := bits (par 1) 0 16
    let lp := bits (par 1) 16 2
    Completes (.fabDevnumWrite v) s (fun t => OnlyRegs s t [R.FAB_DEVNUM_NUM, R.FAB_DEVNUM_LOCK]
        ∧ t.f R.FAB_DEVNUM_NUM = (if s.f R.FAB_DEVNUM_LOCK = 1 then s.f R.FAB_DEVNUM_NUM else bits v.toNat 0 18)
        ∧ t.f R.FAB_DEVNUM_LOCK = if v.getLsbD 31 then 1 else s.f R.FAB_DEVNUM_LOCK)
    ∧ Completes (.fabRtIdxWrite v) s (fun t => OnlyRegs s t [R.FAB_RT_IDX_IDX, R.FAB_RT_DATA_ENTRY]
        ∧ t.f R.FAB_RT_IDX_IDX = bits v.toNat 0 18 ∧ t.f R.FAB_RT_DATA_ENTRY = Tbl.get 0 s.routes (bits v.toNat 0 18) % 2 ^ 128)
    ∧ (n < 256 → Completes (.fabRwinWrite n 0 8 w) s (fun t => (∀ y ∈ rwin1 n, t.f y = bits w.toNat y.lo y.w)
        ∧ (s.stagedAt (key + 8) = none → s.stagedAt (key + 12) = none → ∀ y ∈ rwin2 n, t.f y = s.f y)
        ∧ (s.stagedAt (key + 8) = some lo → s.stagedAt (key + 12) = some hi → lo < 2 ^ 32 → hi < 2 ^ 32 →
          ∀ y ∈ rwin2 n, t.f y = bits (lo + hi * 2 ^ 32) y.lo y.w)))
    ∧ (n < 256 → Completes (.fabRwinWrite n 8 8 w) s (fun t => t.csr = s.csr ∧ t.stagedAt (key + 8) = some (w.toNat % 2 ^ 32)
        ∧ t.stagedAt (key + 12) = some (w.toNat / 2 ^ 32)))
    -- transit
    ∧ (s.transit = k :: rest → out < 16 → st s out ≠ 2 → x.hold.length < 64 → s.f R.FAB_HOLD_US ≠ 0 →
        Completes .transitForward s (fun t => t.transit = rest ∧ (t.port out).hold = x.hold ++ [(k', s.ns)]
          ∧ t.f (R.FAB_PORT_STAT_HELD out) = x.hold.length + 1))
    ∧ (s.transit = k :: rest → out < 16 → st s out = 2 → x.q = [] → k'.flits ≤ x.cred.getD k'.vc 0 → x.unack.length + k'.flits ≤ 1024 →
        Completes .transitForward s (fun t => t.transit = rest ∧ (t.port out).q = []
          ∧ (t.port out).unack = x.unack ++ k'.toFlits.map (fun f => (k'.vc, f))
          ∧ (t.port out).cred = x.cred.set k'.vc (x.cred.getD k'.vc 0 - k'.flits)))
    ∧ (s.transit = k :: rest → 16 ≤ out → k.isReply = true → Completes .transitForward s (fun t => t.transit = rest
        ∧ count t R.FAB_BADPKT_COUNT))
    -- commands
    ∧ (Ordered s r 0x23 c → c.d.okP false false [mAll, mAll, mAll] = true → par 0 + par 1 ≤ 262144 → par 2 + 16 * par 1 ≤ dramEnd →
        s.memReady (par 2) (16 * par 1) 0 false = true → s.memRead 0 (par 2) (16 * par 1) = (s1, b, false) → s1 = s →
        let es := (List.range (par 1)).map (fun j => leAt b (16 * j) 16)
        (es.any fabRouteBad = true → Finishes (.routeSet r) s r stPARAM 0 (fun u => u = s))
        ∧ (es.any fabRouteBad = false → Finishes (.routeSet r) s r stOK (par 1) (fun u => ∀ i, Tbl.get 0 u.routes i
          = if par 0 ≤ i ∧ i < par 0 + par 1 then leAt b (16 * (i - par 0)) 16 else Tbl.get 0 s.routes i)))
    ∧ (Ordered s r 0x21 c → par 0 = 4 → c.d.okP false false [0xFF, mLow 18] = true → (lp = 1 ∨ lp = 2) →
        ((∀ p, p < 16 → ms.testBit p = true → st s p = 4 ∧ part.testBit p = true) → Finishes (.powerLinkState r part 0) s r stOK 0
          (fun u => ∀ p, p < 16 → st u p = if ms.testBit p then 4 + lp else st s p))
        ∧ (∀ p, p < 16 → ms.testBit p = true → st s p ≠ 4 → Finishes (.powerLinkState r part 0) s r stSTATE 0 (fun u =>
          ∀ q, q < 16 → st u q = st s q)))
    ∧ (Ordered s r 0x21 c → par 0 = 4 → c.d.okP false false [0xFF, mLow 18] = true → lp = 0 → Finishes (.powerLinkState r part 0) s r stOK 0
        (fun u => ∀ p, p < 16 → st u p = if ms.testBit p = true ∧ (st s p = 5 ∨ st s p = 6) then 4 else st s p))

/-- R33, R34, R160, R165, R188, R465 to R467, R469, R471: requests that arrive on the fabric. A window that admits the request
gives its domain; the request is served in memory and answered with its tag, by loopback or by its hops in reverse; one that
no window admits ends with STATUS 2 and is counted. A message is written to its endpoint's receive ring before it is
acknowledged. -/
def Obligations.FabricRequestsServed : Prop :=
  ∀ (dom hp ep : Nat) (k r : Pkt) (e : LlcE) (op : AtomOp) (hd : List Nat) (s s2 s3 s4 : State),
    let s0 := { s with fabIn := [] }
    let served := fun (ty : Nat) => s.fabIn = [k] ∧ k.ty = ty ∧ s.isFatal = false ∧ s.meshRuns = true
    let L := k.loc / 64
    let inLlc := s.ownerCopy L = none ∧ s.llcE L = some e ∧ e.d.poison = 0
    let mem := fun (n : Nat) (wr : Bool) (grant : Nat → Fld) => inLlc ∧ s0.rwinDom k (k.loc / n * n) n grant = some dom
      ∧ s0.memReady (k.loc / n * n) n dom wr 257 = true
    let answers := fun (i : Instr) (a : Pkt) (bytes : Nat) (P : State → Prop) =>
      ∃ u, exec i s = .next ((u.answer k a).fabCharge dom bytes) ∧ u.fabIn = [] ∧ P u
    let line := fun (u : State) (P : LineD → Prop) => ∃ e', u.llcE L = some e' ∧ e'.d.poison = 0 ∧ P e'.d
    let off := k.loc % 64 / 8 * 8
    let m := k.aux % 256
    let n := if k.sz then 8 else 4
    let at_ := k.loc / n * n % 64
    let w := k.data.toNat
    let old := e.d.read at_ n
    let wide := if k.sz then 64 else 4
    let own := s.f (R.FAB_EP_OWNER k.ep)
    let base := s.f (R.FAB_EP2_RXBASE k.ep) * 4096
    let lg := min 16 (max 6 (s.f (R.FAB_EP_LOG2N k.ep)))
    let head := leAt hd 0 4
    let len := min 48 k.aux
    -- an answer
    (k.srcDev = s.ownDev → ∃ a, s.answer k r = { s with fabIn := s.fabIn ++ [a] } ∧ a.ty = r.ty ∧ a.tag = k.tag ∧ a.op = r.op ∧ a.data = r.data)
    -- memory
    ∧ (served 1 → mem 64 false R.FAB_RWIN_R → k.chk = 0 →
        answers (.rdLine 0) { ty := 8, data := e.d.data, dl := e.d.locks } 64 (fun u => u = { s0 with csr := u.csr }
          ∧ ((∀ x, s.dirE L = some x → x.st ≠ .EX) → u = s0)))
    ∧ (served 2 → mem 64 true R.FAB_RWIN_W → bits k.aux 0 8 = 0 →
        answers (.wrLine 0) { ty := 9 } 64 (fun u => line u (fun d => d.data = k.data ∧ d.locks = k.dl)))
    ∧ (served 3 → k.lkonly = false → mem 8 true R.FAB_RWIN_W → k.chk = 0 → answers (.wrPart 0) { ty := 9 } (popCount m 8) (fun u =>
        line u (fun d => d.locks = e.d.locks ∧ ∀ j, j < 64 → d.read j 1
          = if off ≤ j ∧ j < off + 8 ∧ m.testBit (j - off) = true then w / 2 ^ (8 * (j - off)) % 256 else e.d.read j 1)))
    ∧ (served 3 → k.lkonly = true → mem wide true R.FAB_RWIN_W → answers (.wrPart 0) { ty := 9 } 8 (fun u =>
        line u (fun d => d.data = e.d.data ∧ ∀ j, j < 16 → lockAt d.locks j
          = if k.sz = true ∨ j = k.loc % 64 / 4 then w / 2 ^ (4 * j) % 16 else lockAt e.d.locks j)))
    ∧ (served 4 → mem n true R.FAB_RWIN_A → k.chk = 0 → AtomOp.of k.op = some op →
        answers (.fabAtomic 0) { ty := 10, data := BitVec.ofNat 512 old } (2 * n) (fun u => line u (fun d => d.locks = e.d.locks
          ∧ d.read at_ n = atomNew op n old (w % 2 ^ 64) (w / 2 ^ 64 % 2 ^ 64) % 2 ^ (8 * n))))
    ∧ (served 1 → s0.rwinDom k (k.loc / 64 * 64) 64 R.FAB_RWIN_R = none → k.srcDev = s.ownDev → Completes (.rdLine 0) s (fun t =>
        t.f R.FAB_INBREF_COUNT = min (s.f R.FAB_INBREF_COUNT + 1) (2 ^ 32 - 1) ∧ t.llc = s.llc ∧ ∃ a, t.fabIn = [a] ∧ a.ty = 11 ∧ a.op = 2))
    -- a message
    ∧ (served 5 → s.f (R.FAB_EP_EN k.ep) = 1 → own ≠ 0 → s0.dpaLoc own base true = some hp → s0.memReady hp 8 own true 257 = true →
        s0.memRead own hp 8 = (s2, hd, false) → (head + 2 ^ 32 - leAt hd 4 4) % 2 ^ 32 < 2 ^ lg →
        s2.dpaLoc own (base + 64 + head % 2 ^ lg * 64) true = some ep → s0.memReady ep 64 own true 257 = true →
        s2.memWrite own ep (leBytes 4 k.srcDev ++ leBytes 2 k.ep2 ++ [len, 1 - head / 2 ^ lg % 2] ++ leBytes 8 (w / 2 ^ 384)
          ++ leBytes 48 (w % 2 ^ 384)) .clear = (s3, false) → s3.memWrite own hp (leBytes 4 (head + 1)) .clear = (s4, false) →
        let u := (s4.answer k { ty := 9 }).fabCharge own len
        u.f (R.FAB_EP_EVT_EN k.ep) = 0 → exec (.msg 0) s = .next u)

/-- R467, R469, R472: replies to this device's requests, and the send rings. A request enters with a tag, a bound and its
originator, whose NI has a valid route (R277); its reply frees the tag and ends the originator's access; a timeout ends it too and quarantines the tag, which
later becomes free. A send ring's doorbell, restart and configuration follow their rules, and its next entry leaves as a
message. -/
def Obligations.FabricRepliesAndSendRings : Prop :=
  ∀ (c h n pa dev loc x till rd : Nat) (sx : Bool) (v : W32) (k : Pkt) (g : FTag) (w : Wait) (p : Posted) (o : FOrig) (b : List Nat) (s s1 : State),
    c < 512 → n < 96 →
    let count := fun (t : State) (y : Fld) => t.f y = min (s.f y + 1) (2 ^ 32 - 1)
    let replied := fun (ty : Nat) => s.fabIn = [k] ∧ k.ty = ty ∧ s.isFatal = false ∧ s.ftags = [g] ∧ g.tag = k.tag
    let freed := fun (t : State) => t.fabIn = [] ∧ t.ftags = [] ∧ t.f R.FAB_TAGS_INUSE = 0
    let rx := fun (t : State) (a : Option LineD) (st : Nat) => t.jobRx = s.jobRx ++ [(h, a, st)]
    let cons := s.f (R.SQ_CONS_CONS n)
    let size := 2 ^ min 12 (max 6 (s.f (R.FAB_SQ_CFG_LOG2N n)))
    let d := s.f (R.FAB_SQ_CFG_DOMAIN n)
    let at_ := s.f (R.FAB_SQ_BASE_BASE n) * 4096 + cons % size * 64
    let st := fun (t : State) => t.f (R.SQ_STAT_STATE n)
    let len := min 48 (leAt b 6 1)
    let src := s.f (R.FAB_SQ_CFG_SRCEP n)
    let body := BitVec.ofNat 512 ((leAt b 16 48) % 2 ^ (8 * len) + leAt b 8 8 * 2 ^ 384)
    let pk : Pkt := { ty := 5, ep := leAt b 4 2 % 2 ^ 12, ep2 := src, aux := len, data := body }
    let cfg := v.toNat
    -- a request enters
    (s.f R.FAB_DEVNUM_LOCK = 1 → dev = s.ownDev → (∀ m, origTile o = some m → s.linked m 281 = true) → s.freeFTag = some x → ∃ t q, s.fabSend o 0 dev loc 64 k = .inl t
        ∧ t.ftags = s.ftags ++ [⟨x, o, s.ns + s.rto, dev, loc / 64, 0⟩] ∧ t.fabIn = s.fabIn ++ [q] ∧ q.tag = x ∧ q.ty = k.ty
        ∧ q.srcDev = s.ownDev ∧ q.loc = loc ∧ q.d0 = true)
    -- replies
    ∧ (replied 8 → g.orig = .job h → Completes (.rdRsp 0) s (fun t => freed t ∧ rx t (some ⟨k.data, k.dl, BitVec.ofNat 8 k.aux⟩) 0))
    ∧ (replied 9 → g.orig = .post c → g.tag = p.tag → p.fab = true → k.op = 0 → (s.core c).posted = [p] →
        Completes (.ack 0) s (fun t => freed t ∧ t.core c = { s.core c with posted := [] }))
    ∧ (replied 10 → g.orig = .core c → k.op = 0 → (s.core c).wait = some w → w.net = 1 → w.acc = .atomic → w.dst = .g rd w.size sx →
        g.dom = 0 → Completes (.atomRsp 0) s (fun t => freed t ∧ t.core c
          = ({ s.core c with wait := none }.wg rd (extend w.size true (k.data.toNat % 2 ^ 64))).retire))
    ∧ (replied 11 → g.orig = .job h → k.op ≠ 0 → Completes (.err 0) s (fun t => freed t ∧ rx t none k.op))
    ∧ (replied 12 → g.orig = .job h → Completes (.routeUnavail 0) s (fun t => freed t ∧ rx t none 6 ∧ count t R.FAB_RUNAV_COUNT))
    ∧ (s.ftags = [g] → g.orig = .job h → g.till ≤ s.ns → Completes (.remoteTimeout g.tag) s (fun t => t.ftags = [] ∧ rx t none 16
        ∧ t.fquar = s.fquar ++ [(g.tag, s.ns + 2 * s.rto)] ∧ count t R.FAB_TMO_COUNT))
    ∧ (s.fquar = [(x, till)] → till ≤ s.ns → Completes (.remoteTagRelease x) s (fun t => t.fquar = [] ∧ t.ftags = s.ftags
        ∧ t.f R.FAB_TAGS_QUAR = 0))
    ∧ (s.fabIn = [k] → k.ty = 8 → s.isFatal = false → s.ftags = [] → (s.fquar.any (·.1 == k.tag)) = true → Completes (.rdRsp 0) s (fun t =>
        t.fabIn = [] ∧ count t R.FAB_LATE_COUNT))
    -- send rings
    ∧ Completes (.sqDb n v) s (fun t => OnlyRegs s t [R.SQ_DB_PROD n] ∧ t.f (R.SQ_DB_PROD n)
        = if (cfg + 2 ^ 32 - cons) % 2 ^ 32 ≤ size then cfg else s.f (R.SQ_DB_PROD n))
    ∧ Completes (.sqRestart n) s (fun t => OnlyRegs s t [R.SQ_STAT_STATE n] ∧ st t = if st s = rgHALT then rgRUN else st s)
    ∧ Completes (.fabSqCfgWrite n v) s (fun t => t = { s with csr := t.csr } ∧ t.f (R.FAB_SQ_CFG_EN n) = bits cfg 5 1
        ∧ (s.f (R.FAB_SQ_CFG_EN n) = 0 → t.f (R.FAB_SQ_CFG_LOG2N n) = bits cfg 0 5 ∧ t.f (R.FAB_SQ_CFG_DOMAIN n) = bits cfg 6 12
          ∧ t.f (R.FAB_SQ_CFG_SRCEP n) = bits cfg 18 12)
        ∧ (s.f (R.FAB_SQ_CFG_EN n) = 1 → t.f (R.FAB_SQ_CFG_LOG2N n) = s.f (R.FAB_SQ_CFG_LOG2N n) ∧ t.f (R.FAB_SQ_CFG_DOMAIN n) = d)
        ∧ st t = if bits cfg 5 1 = 0 then rgIDLE else if st s = rgIDLE then rgRUN else st s)
    ∧ (s.ftags = [] → s.f (R.FAB_SQ_CFG_EN n) = 1 → st s = rgRUN → s.f (R.SQ_DB_PROD n) ≠ cons → s.isFatal = false →
        s.dpaLoc d at_ false = some pa → s.memReady pa 64 d false 257 = true → s.memRead d pa 64 = (s1, b, false) →
        s.f (R.FAB_EP_OWNER src) = d → (∀ t, (s1.incWrap (R.SQ_CONS_CONS n)).fabSend (.ring n cons) d (leAt b 0 4 % 2 ^ 18) 0 len pk = .inl t →
          exec (.sendRingFetch n) s = .next t))

/-- R503 to R507, R509: the performance counters. A legal write of PMC_CTL selects the event and its mode; an illegal one only sets
BADEV. A cycle of a running counter adds its events, or its structure's occupancy, in event mode, and in threshold mode 1 where they are
more than THR; a wrap sets OVF and carries into a chained one; FREEZE is written; CLRALL clears every value and OVF. R506: a core
reads its counters as control registers: M always, S and U where the owner and UREAD let them, with code 0x02 elsewhere. -/
def Obligations.PerformanceCounters : Prop :=
  (∀ (set n k inc : Nat) (v : W32) (on : Bool) (s : State), s.pmcThere set n k = true →
    let u := v.toNat
    let legal := pmcCode set (bits u 1 10) = true ∧ ¬ (k = 0 ∧ u.testBit 20 = true)
    let val := s.f (pmcVALUE set n k)
    let runs := s.pmcRuns set n k = true ∧ (set = 0 → s.paired (n / 2) = false) ∧ inc < 2 ^ 48
    let supplied := (s.pmcOccupancy set n (s.f (pmcEVENT set n k))).getD inc
    let add := if s.f (pmcTHRMODE set n k) = 0 then supplied else if s.f (pmcTHR set n k) < supplied then 1 else 0
    let chained := k + 1 < pmcCount set ∧ s.f (pmcEN set n (k + 1)) = 1 ∧ s.f (pmcCHAIN set n (k + 1)) = 1
    (legal → Completes (.pmcCtlWrite set n k v) s (fun t => t = { s with csr := t.csr } ∧ t.f (pmcEN set n k) = bits u 0 1
      ∧ t.f (pmcEVENT set n k) = bits u 1 10 ∧ t.f (pmcTHRMODE set n k) = bits u 11 1 ∧ t.f (pmcTHR set n k) = bits u 12 8
      ∧ t.f (pmcCHAIN set n k) = (if k % 2 = 1 then bits u 20 1 else s.f (pmcCHAIN set n k))
      ∧ t.f (pmcUREAD set n k) = (if set = 0 then bits u 21 1 else s.f (pmcUREAD set n k))
      ∧ t.f (pmcOVF set n k) = (if u.testBit 22 then 0 else s.f (pmcOVF set n k)) ∧ t.f (pmcVALUE set n k) = val))
    ∧ (¬ legal → Completes (.pmcCtlWrite set n k v) s (fun t => OnlyRegs s t [R.PMC_GSTAT_BADEV] ∧ t.f R.PMC_GSTAT_BADEV = 1))
    ∧ (runs → val + add < 2 ^ 48 → Completes (.counterWrap set n k inc) s (fun t => OnlyRegs s t [pmcVALUE set n k]
        ∧ t.f (pmcVALUE set n k) = val + add))
    ∧ (runs → 2 ^ 48 ≤ val + add → s.f (pmcEVTEN set n k) = 0 →
        (¬ chained → Completes (.counterWrap set n k inc) s (fun t => OnlyRegs s t [pmcVALUE set n k, pmcOVF set n k]
          ∧ t.f (pmcVALUE set n k) = (val + add) % 2 ^ 48 ∧ t.f (pmcOVF set n k) = 1))
        ∧ (chained → s.f (pmcVALUE set n (k + 1)) < 2 ^ 48 - 1 → Completes (.counterWrap set n k inc) s (fun t =>
          t.f (pmcVALUE set n k) = (val + add) % 2 ^ 48 ∧ t.f (pmcOVF set n k) = 1
          ∧ t.f (pmcVALUE set n (k + 1)) = s.f (pmcVALUE set n (k + 1)) + 1)))
    ∧ s.pmcOccupancy 0 n 0x012 = some (s.core n).sb.length ∧ s.pmcOccupancy 3 n 0x304 = some (s.chan n).rdq.length
    ∧ Completes (.freeze on) s (fun t => OnlyRegs s t [R.PMC_GCTL_FREEZE] ∧ t.f R.PMC_GCTL_FREEZE = if on then 1 else 0)
    ∧ Completes .clrall s (fun t => t = { s with csr := t.csr } ∧ t.f (pmcVALUE set n k) = 0 ∧ t.f (pmcOVF set n k) = 0
        ∧ t.f (pmcEVENT set n k) = s.f (pmcEVENT set n k)))
  ∧ ∀ (c i : Nat) (pr : BitVec 4) (rd : BitVec 5) (s : State), ReadyP c pr s → i < 8 → rd ≠ 0 →
    let k := s.core c
    let own := s.f (pmcOWNER 0 (s.cix c) i) = s.domOf (c / 2)
    let may := k.priv = .M ∨ (own ∧ (k.priv = .S ∨ s.f (pmcUREAD 0 (s.cix c) i) = 1))
    let row := exec (.crset (.core c) pr rd 0 (BitVec.ofNat 12 (0x210 + i))) s
    (may → row = .next (s.updCore c (fun k => (k.wg rd.toNat (BitVec.ofNat 64 (s.f (pmcVALUE 0 (s.cix c) i)))).retire)))
    ∧ (¬ may → row = .next (s.trap c
        { code := 2, val := BitVec.ofNat 64 (pr.toNat * 2 ^ 28 + 0x35 * 2 ^ 22 + rd.toNat * 2 ^ 17 + 0x210 + i) }))

/-- R514, R515, R517 to R519: the event recorder. A staged record takes the next SEQ and its place in area 1, the oldest leaving
it when it is full; one to be kept is copied to area 0 or, that being full, refused and counted; a flush copies area 1 to area
2; the cursor shows a record in the window; a clear writes its own record, then empties the areas of its mask. -/
def Obligations.EventRecorder : Prop :=
  ∀ (r : Rec) (rest : List Rec) (v : W32) (w : W64) (s : State),
    let e := s.er
    let seq := s.f R.ER_SEQ_SEQ
    let into := fun (x : Rec) => (if e.area1.length < 1536 then e.area1 else e.area1.drop 1) ++ [x]
    let at0 := { r with flags := setBit r.flags 0 }
    let i := bits w.toNat 32 32
    let shown := fun (t : State) (x : Rec) => t.f R.ER_CSTAT_VALID = 1 ∧ ∀ j, j < 8 →
      t.f (R.ER_WINDOW_DATA j) = ofLe ((x.bytes.drop (4 * j)).take 4) % 2 ^ 32
    let next := (s.f R.ER_CURSOR_INDEX + 1) % 2 ^ 32
    let m := bits v.toNat 16 2
    let busy := fun (t : State) => t.f R.ER_STAT_BUSY
    let first := e.clrRec.getD 0
    (e.staged = r :: rest → Completes .recordAccept s (fun t => t.er.staged = rest ∧ t.f R.ER_SEQ_SEQ = (seq + 1) % 2 ^ 32
      ∧ t.er.area1 = into { r with seq := seq } ∧ t.er.area0 = e.area0
      ∧ t.er.copyQ = e.copyQ ++ (if 2 ≤ r.sev then [{ r with seq := seq }] else [])))
    ∧ (e.copyQ = r :: rest → s.clearing0 = false →
        (e.area0.length < 512 → Completes (.persistentCopy false) s (fun t => t.er.copyQ = rest ∧ t.er.area0 = e.area0 ++ [at0]
          ∧ t.f R.ER_PCOUNT_COUNT = e.area0.length + 1 ∧ t.f R.ER_STAT_PFULL = if e.area0.length = 511 then 1 else 0))
        ∧ (512 ≤ e.area0.length → Completes (.persistentCopy false) s (fun t => t.er.copyQ = rest ∧ t.er.area0 = e.area0
          ∧ t.f R.ER_PREFUSED_COUNT = min (s.f R.ER_PREFUSED_COUNT + 1) (2 ^ 32 - 1)))
        ∧ Completes (.persistentCopy true) s (fun t => t.er.copyQ = rest ∧ t.er.area0 = e.area0 ∧ t.f R.ER_STAT_FLASHERR = 1))
    ∧ (s.f R.ER_STAT_FLUSHING = 1 → e.staged = [] → e.area1.length ≤ 1536 → Completes .flushDone s (fun t =>
        t.f R.ER_STAT_FLUSHING = 0 ∧ t.er.area2 = e.area1.map (fun x => { x with flags := setBit x.flags 1 })
        ∧ t.f R.ER_FLUSHINFO_COUNT = e.area1.length ∧ t.er.flSeq = seq
        ∧ ∀ x, e.area1.getLast? = some x → t.f R.ER_FLUSHINFO_LASTSEQ = x.seq % 2 ^ 32))
    ∧ Completes .ophoursSave s (fun t => t = { s with er := t.er } ∧ t.er.flSeq = seq ∧ t.er.flHours = s.f R.ER_OPHOURS_HOURS
        ∧ t.er.flSec = s.f R.ER_OPSEC_SEC ∧ t.er.flCycle = s.f R.ER_PCYCLE_COUNT ∧ t.er.area0 = e.area0 ∧ t.er.area1 = e.area1)
    ∧ (bits w.toNat 0 2 = 0 → Completes (.erCursorWrite w) s (fun t => t = { s with csr := t.csr } ∧ t.f R.ER_CURSOR_INDEX = i
        ∧ t.f R.ER_CURSOR_AUTOINC = bits w.toNat 2 1 ∧ (∀ x, e.area0[i]? = some x → shown t x)
        ∧ (e.area0[i]? = none → t.f R.ER_CSTAT_VALID = 0 ∧ t.f R.ER_CSTAT_GONE = 0)))
    ∧ (bits w.toNat 0 2 = 1 → Completes (.erCursorWrite w) s (fun t =>
        (∀ x, e.area1.find? (·.seq == i) = some x → shown t x)
        ∧ (e.area1.find? (·.seq == i) = none → t.f R.ER_CSTAT_VALID = 0 ∧ t.f R.ER_CSTAT_GONE = if i < seq then 1 else 0)))
    ∧ (s.f R.ER_CURSOR_AUTOINC = 1 → s.f R.ER_CURSOR_AREA = 0 → Completes .erWindowAutoinc s (fun t => t.f R.ER_CURSOR_INDEX = next
        ∧ (∀ x, e.area0[next]? = some x → shown t x) ∧ (e.area0[next]? = none → t.f R.ER_CSTAT_VALID = 0)))
    ∧ (s.f R.ER_CURSOR_AUTOINC = 0 → exec .erWindowAutoinc s = .next s)
    ∧ (busy s = 0 → bits v.toNat 0 16 = 0x0C1E → s.isFatal = false → e.staged = [] → Completes (.erClr v) s (fun t => busy t = 1
        ∧ t.er.clrMask = m ∧ t.er.clrRec = some seq ∧ t.er.area0 = e.area0
        ∧ ∃ x, t.er.area1 = into x ∧ x.seq = seq ∧ x.code = 1 ∧ x.d0 = m ∧ x.src = 0xC000))
    ∧ ((busy s = 1 ∨ bits v.toNat 0 16 ≠ 0x0C1E ∨ s.isFatal = true) → exec (.erClr v) s = .next s)
    ∧ (busy s = 1 → e.area1.find? (·.seq == first) = some r → Completes .clearDone s (fun t => busy t = 0
        ∧ (e.clrMask.testBit 1 = true → t.er.area2 = [] ∧ t.f R.ER_FLUSHINFO_COUNT = 0)
        ∧ (e.clrMask.testBit 1 = false → t.er.area2 = e.area2) ∧ (e.clrMask.testBit 0 = false → t.er.area0 = e.area0)
        ∧ (e.clrMask.testBit 0 = true → t.er.area0 = [at0] ∧ t.f R.ER_PCOUNT_COUNT = 1)))

/-- R520 to R524, R528, R532, R536, R540, R545: resets. POR_N's release with every supply and the flash present starts boot with
DRAM undefined and a SEQ above every saved one; a device reset starts it with DRAM kept; each leaves every register but those
of fuses, flash, always-on logic and straps at its reset value. POR_N low, a rail lost or a junction at 115 °C hold the device
in power-on reset. -/
def Obligations.ResetsAndPower : Prop :=
  ∀ (rail : Nat) (a b d : Bool) (v : W32) (imgs : List (List Nat)) (s : State), rail < 4 →
    let p := s.pins
    let kept := fuseFlds ++ flashFlds ++ alwaysFlds ++ [R.BOOT_STRAP_PAIR_DEFAULT, R.BOOT_STRAP_SELFTEST, R.BOOT_STRAP_BIST_FULL,
      R.BOOT_STAT_SELFTEST, R.BOOT_RSTCAUSE_KIND, R.PWR_TEMP_TJ, R.PWR_TEMP_TMEM]
    let fresh := fun (t : State) => t.fuses = s.fuses ∧ t.cores = [] ∧ t.keepers = [] ∧ t.caches = [] ∧ t.llc = [] ∧ t.ksram = [] ∧ t.cmds = []
      ∧ (∀ x : Fld, (∀ y ∈ kept, y.key ≠ x.key) → t.f x = State.reset.f x) ∧ ∀ x ∈ fuseFlds, t.f x = s.f x
    let starts := fun (kind : Nat) (t : State) => fresh t ∧ t.pins.inPor = false ∧ t.f R.BOOT_RSTCAUSE_KIND = kind
      ∧ t.f R.BOOT_STRAP_PAIR_DEFAULT = b2n t.pins.pairDef ∧ t.f R.BOOT_STAT_SELFTEST = b2n t.pins.selftest
    let powerOn := fun (t : State) => starts 0 t ∧ t.dram = [] ∧ t.f R.ER_SEQ_SEQ = (s.er.flSeq + 1 + s.freeVal) % 2 ^ 32
      ∧ t.f R.ER_PCYCLE_COUNT = (s.er.flCycle + 1) % 2 ^ 32 ∧ t.f R.ER_OPHOURS_HOURS = s.er.flHours % 2 ^ 32 ∧ t.er.area0 = s.er.area0
    let device := fun (kind : Nat) (t : State) => starts kind t ∧ t.dram = s.dram ∧ (s.f R.ER_STAT_FLUSHING = 0 → t.er.area2 = s.er.area2
      ∧ t.f R.ER_SEQ_SEQ = s.f R.ER_SEQ_SEQ)
    let held := fun (t : State) => fresh t ∧ t.pins.inPor = true ∧ t.dram = []
    let magic := bits v.toNat 0 16 = 0xD5E7 ∧ v.getLsbD 16 = true
    (p.inPor = true → p.porN = false →
      (p.rails = 15 → p.flashN = true → p.trip = false → Completes .powerOnReset s (fun t => powerOn t ∧ t.pins.porN = true))
      ∧ (p.rails ≠ 15 ∨ p.flashN = false ∨ p.trip = true → exec .powerOnReset s = .next { s with pins := { p with porN := true } }))
    ∧ (p.inPor = false → Completes (.deviceReset a b d) s (fun t => device 1 t ∧ t.pins.pairDef = a ∧ t.pins.selftest = b ∧ t.pins.bistFull = d))
    ∧ (p.inPor = false → magic → Completes (.bootCtl v) s (device 2))
    ∧ (p.inPor = false → ¬ magic → exec (.bootCtl v) s = .next s)
    ∧ (p.porN = true → Completes .porNLow s (fun t => held t ∧ t.pins.porN = false))
    ∧ (p.rails.testBit rail = true → Completes (.railMonitorTrip rail) s (fun t => held t ∧ t.pins.rails = p.rails - 2 ^ rail))
    ∧ (p.rails.testBit rail = false →
      (p.inPor = true → p.porN = true → p.flashN = true → p.trip = false → p.rails + 2 ^ rail = 15 →
        Completes (.railInTolerance rail) s (fun t => powerOn t ∧ t.pins.rails = 15))
      ∧ (p.inPor = false → exec (.railInTolerance rail) s = .next { s with pins := { p with rails := p.rails + 2 ^ rail } }))
    ∧ (p.trip = false → (s.hiveTemp 0 ≥ 115 ∨ degC (s.f R.PWR_TEMP_TMEM) ≥ 115) → Completes .thermtrip s (fun t => held t ∧ t.pins.trip = true))
    ∧ (p.porN = false → imgs.length = 4 → Completes (.flashOwnN true imgs) s (fun t => t = { s with pins := t.pins, flash := t.flash }
        ∧ t.flash = imgs.map (fun x => x.map (· % 256)) ∧ t.pins.flashN = false))
    ∧ (p.porN = true → exec (.flashOwnN true imgs) s = .next { s with pins := { p with flashN := false } })
    ∧ (p.inPor = false → exec (.flashOwnN false imgs) s = .next { s with pins := { p with flashN := true } })
    ∧ (p.inPor = false → s.f R.ER_STAT_FLUSHING = 0 → s.er.staged = [] → Completes .pwrwarnN s (fun t => t = { s with er := t.er }
        ∧ t.er.flSeq = s.f R.ER_SEQ_SEQ ∧ t.er.flHours = s.f R.ER_OPHOURS_HOURS ∧ t.er.flCycle = s.f R.ER_PCYCLE_COUNT))

/-- R524 to R526, R528, R529, R532, R543, R544: boot, fuses and the test contacts. Boot with good images makes every slice ready
and starts every enabled core in the monitor; with refused ones the command processor stays off. A slot's digest, revocation
and rollback counter, and the next KEYGEN bit, are blown only as the keys and the fuses allow. A block read gives the status
bytes; the TAP offers its four instructions, two of them only while POR_N is low. -/
def Obligations.BootFusesAndTap : Prop :=
  ∀ (n c t0 ms code : Nat) (slot : BitVec 2) (key : BitVec 8) (v : W32) (x : List Bool) (s : State), n < 4 → c < 512 → t0 < 256 →
    let p := s.pins
    let u := s.fuses
    let sl := slot.toNat
    let kA := s.imgCheck (s.flash.getD 0 []) 0 0x40000
    let kB := s.imgCheck (s.flash.getD 1 []) 0 0x40000
    let mon := s.flash.getD 2 []
    let ends := fun (t : State) => t.f R.BOOT_STAT_DONE = 1 ∧ t.f R.BOOT_STAT_STEP = 9 ∧ t.f R.BOOT_MS_MS = ms % 2 ^ 32
      ∧ t.f (R.TIL_HOME_STAT_READY t0) = 1
    let boots := p.inPor = false ∧ s.f R.BOOT_STAT_DONE = 0
    let tap := fun (i : Instr) (ir out : Nat) (b : List Bool) => exec i s = .next { s with pins := { p with tapIr := ir, tapOut := out, bsr := b } }
    (boots → kA = 0 → s.imgCheck mon 2 monSize = 0 → Completes (.bootDone 0 [] ms) s (fun t => ends t ∧ t.f R.CMD_STAT_READY = 1
        ∧ t.f R.BOOT_STAT_FAIL = 0 ∧ t.f R.SEC_STAT_KFW = 0 ∧ t.f R.SEC_STAT_MON = 0 ∧ (∀ h, h < 32 → t.f (R.HIV_KSTAT_STATE h) = 1)
        ∧ (s.fused (c / 2) = false → (t.core c).run = true ∧ (t.core c).pc = BitVec.ofNat 64 (monBase + imgEntry mon) ∧ (t.core c).priv = .M)))
    ∧ (boots → kA ≠ 0 → kB ≠ 0 → Completes (.bootDone 0 [] ms) s (fun t => ends t ∧ t.f R.CMD_STAT_READY = 0 ∧ t.f R.BOOT_STAT_FAIL = 1
        ∧ t.f R.SEC_STAT_KFW = kB ∧ ∀ h, h < 32 → t.f (R.HIV_KSTAT_STATE h) = 3))
    -- fuses
    ∧ (key = 0x5E → slot ≠ 0 → (u.digest.any (fun e => e.1 == sl)) = false → Completes (.secEnroll slot key) s (fun t => t.fuses = { u with
        digest := u.digest ++ [(sl, (List.range 12).foldl (fun a i => a + Tbl.get 0 s.enroll i * 2 ^ (32 * i)) 0)] }
        ∧ OnlyRegs { s with fuses := t.fuses } t [R.SEC_SLOT_ENROLLED sl] ∧ t.f (R.SEC_SLOT_ENROLLED sl) = 1))
    ∧ ((key ≠ 0x5E ∨ slot = 0 ∨ (u.digest.any (fun e => e.1 == sl)) = true) → exec (.secEnroll slot key) s = .next s)
    ∧ (key = 0x5E → slot ≠ 0 → u.revoked.contains sl = false → Completes (.secRevoke slot key) s (fun t =>
        t.fuses = { u with revoked := u.revoked ++ [sl] } ∧ OnlyRegs { s with fuses := t.fuses } t [R.SEC_SLOT_REVOKED sl]
        ∧ t.f (R.SEC_SLOT_REVOKED sl) = 1))
    ∧ ((key ≠ 0x5E ∨ slot = 0 ∨ u.revoked.contains sl = true) → exec (.secRevoke slot key) s = .next s)
    ∧ (s.slotRoll n < v.toNat % 256 → Completes (.secRollWrite n v) s (fun t => OnlyRegs { s with fuses := t.fuses } t [R.SEC_ROLL_COUNT n]
        ∧ t.f (R.SEC_ROLL_COUNT n) = v.toNat % 256 ∧ t.slotRoll n = v.toNat % 256 ∧ ∀ m, m ≠ n → t.slotRoll m = s.slotRoll m))
    ∧ (v.toNat % 256 ≤ s.slotRoll n → exec (.secRollWrite n v) s = .next s)
    ∧ (bits v.toNat 0 16 = 0x4B52 → ∀ i, i < 8 → u.keygen.testBit i = false → (∀ j, j < i → u.keygen.testBit j = true) →
        exec (.secKeyroll v) s = .next { s with fuses := { u with keygen := u.keygen + 2 ^ i } })
    ∧ ((bits v.toNat 0 16 ≠ 0x4B52 ∨ ∀ i, i < 8 → u.keygen.testBit i = true) → exec (.secKeyroll v) s = .next s)
    -- contacts
    ∧ (p.rails.testBit 3 = true → Completes (.smbusBlockRead code) s (fun t => t = { s with pins := { p with smbus := t.pins.smbus } }
        ∧ (code ≠ 0x10 → t.pins.smbus = []) ∧ (code = 0x10 → t.pins.smbus.length = 12 ∧ t.pins.smbus[0]? = some (s.f R.PWR_TEMP_TJ)
          ∧ t.pins.smbus[1]? = some (s.f R.PWR_TEMP_TMEM) ∧ (p.inPor = false → t.pins.smbus[7]? = some (s.f R.ER_STAT_FATAL)))))
    ∧ tap .bypass 0 0 p.bsr
    ∧ (∃ rev, rev < 16 ∧ tap .idcode 1 (0x04512000 + 0x56F + rev * 2 ^ 28) p.bsr)
    ∧ (p.porN = true → tap (.samplePreload x) 0 0 p.bsr ∧ tap .extest 0 0 p.bsr)
    ∧ (p.porN = false → Completes (.samplePreload x) s (fun t => t.pins.tapIr = 2 ∧ t.pins.bsr = x ∧ t.csr = s.csr)
        ∧ Completes .extest s (fun t => t.pins.tapIr = 3 ∧ t.pins.bsr = p.bsr ∧ t.csr = s.csr))

/-- R15, R16, R38, R40, R43, R407, R424, R451: what a register block does with a write. A field changes by its type, a read-only
one not at all; a window entry is written whole or refused whole; a request of another domain than the page's changes nothing;
a tenant's write of its doorbell is that of R451. -/
def Obligations.RegisterWrites : Prop :=
  ∀ (w h t0 dom off size : Nat) (v : W64) (s : State), w < 256 → h < 32 → t0 < 64 → s.pins.inPor = false →
    let x := v.toNat
    let sz := bits x 46 6
    let legal := x.testBit 0 = true → 12 ≤ sz ∧ sz ≤ 32 ∧ bits x 3 2 ≠ 3
    let db := hiveBase h + 0x8_0000 + t0 * 4096
    let own := s.f (R.CMP_TR_CFG_DOMAIN h t0)
    Completes (.registerWrite 0x30_0008 4 v 0) s (fun t => OnlyRegs s t [R.CMD_MONTO_US] ∧ t.f R.CMD_MONTO_US = x % 2 ^ 16)
    ∧ exec (.registerWrite 0x30_0000 4 v 0) s = .next s
    ∧ (legal → Completes (.registerWrite (0x21_0000 + 8 * w) 8 v 0) s (fun t => t.dram = s.dram
        ∧ (∀ y ∈ iwinFlds w, t.f y = bits x y.lo y.w) ∧ t.f R.HEP_STAT_BADWIN = s.f R.HEP_STAT_BADWIN))
    ∧ (¬ legal → Completes (.registerWrite (0x21_0000 + 8 * w) 8 v 0) s (fun t => t.f R.HEP_STAT_BADWIN = 1
        ∧ ∀ y ∈ iwinFlds w, t.f y = s.f y))
    ∧ ((dom = 0 ∨ dom = own) → exec (.registerWrite db 4 v dom) s = exec (.trDb h t0 (v.truncate 32)) s)
    ∧ (dom ≠ 0 → dom ≠ own → exec (.registerWrite db 4 v dom) s = .next s)
    ∧ (ctlForm off size = true → dom ≠ 0 → s.pageOwner off = none → exec (.registerWrite off size v dom) s = .next s)

/-- A step takes the command at the front of the queue and is that command's effect on the state with the queue's rest. With no
command waiting one nanosecond passes: that clause is the model's choice (notes/assumptions/1.md), no rule of the spec. -/
def Obligations.StepRunsFrontCommand : Prop :=
  (∀ (i : Instr) (s : State), step { s with pending := i :: s.pending } = exec i s)
  ∧ (∀ s : State, s.pending = [] → step s = .next s.tick)
  ∧ ∀ s : State, s.pins.inPor = false → s.tick.time = (s.time + 1) % 2 ^ 64 ∧ s.tick.ns = s.ns + 1 ∧ s.tick.dram = s.dram ∧ s.tick.cores = s.cores

/-- No command stops the machine: each completes, is refused with the effects the spec gives a refusal, or is turned away and
changes nothing (the model's choice for commands that do not apply now, notes/assumptions/4.md). -/
def Obligations.EveryCommandAnswersNext : Prop :=
  ∀ (i : Instr) (s : State), ∃ t, exec i s = .next t

/-- R528, R529: no step whatever clears a blown fuse, lowers a rollback counter, or brings the fuses out of their form. -/
def Obligations.StepKeepsFuses : Prop :=
  ∀ s t : State, step s = .next t → FusesGrow s.fuses t.fuses ∧ (FusesLegal s.fuses → FusesLegal t.fuses)

/-- R15, R524: the state right after power-on reset: every register field holds the reset value of its map, no command waits, no
core runs, memory lists nothing and is in canonical form, the fuses are in their form and boot stands at step 1. (The fuses,
straps and flash of this state are the model's choice, notes/assumptions/3.md.) -/
def Obligations.ResetState : Prop :=
  FusesLegal State.reset.fuses ∧ Memory.wf State.reset = true ∧ (∀ x : Fld, State.reset.f x = x.reset % 2 ^ x.w)
  ∧ State.reset.pending = [] ∧ (∀ c, (State.reset.core c).run = false) ∧ State.reset.f R.BOOT_STAT_STEP = 1
  ∧ State.reset.f R.BOOT_STAT_DONE = 0 ∧ State.reset.f R.CMD_STAT_READY = 0 ∧ State.reset.time = 0 ∧ State.reset.tx = []
end

