-- ==== Sys2Proof/Laws/Dispatch.lean ====
section
/-! SUPPORT. Each command's arm of `exec`: the command runs its meaning. -/

namespace Sys2Proof.Laws
open Sys2Proof Sys2Proof.Machine

variable (s : State)

@[simp] theorem exec_add (a : Agent) (pr : BitVec 4) (rd : BitVec 5) (ra : BitVec 5) (rb : BitVec 5) : exec (.add a pr rd ra rb) s = execAdd a pr rd ra rb s := rfl
@[simp] theorem exec_sub (a : Agent) (pr : BitVec 4) (rd : BitVec 5) (ra : BitVec 5) (rb : BitVec 5) : exec (.sub a pr rd ra rb) s = execSub a pr rd ra rb s := rfl
@[simp] theorem exec_and (a : Agent) (pr : BitVec 4) (rd : BitVec 5) (ra : BitVec 5) (rb : BitVec 5) : exec (.and a pr rd ra rb) s = execAnd a pr rd ra rb s := rfl
@[simp] theorem exec_or (a : Agent) (pr : BitVec 4) (rd : BitVec 5) (ra : BitVec 5) (rb : BitVec 5) : exec (.or a pr rd ra rb) s = execOr a pr rd ra rb s := rfl
@[simp] theorem exec_xor (a : Agent) (pr : BitVec 4) (rd : BitVec 5) (ra : BitVec 5) (rb : BitVec 5) : exec (.xor a pr rd ra rb) s = execXor a pr rd ra rb s := rfl
@[simp] theorem exec_andn (a : Agent) (pr : BitVec 4) (rd : BitVec 5) (ra : BitVec 5) (rb : BitVec 5) : exec (.andn a pr rd ra rb) s = execAndn a pr rd ra rb s := rfl
@[simp] theorem exec_orn (a : Agent) (pr : BitVec 4) (rd : BitVec 5) (ra : BitVec 5) (rb : BitVec 5) : exec (.orn a pr rd ra rb) s = execOrn a pr rd ra rb s := rfl
@[simp] theorem exec_sll (a : Agent) (pr : BitVec 4) (rd : BitVec 5) (ra : BitVec 5) (rb : BitVec 5) : exec (.sll a pr rd ra rb) s = execSll a pr rd ra rb s := rfl
@[simp] theorem exec_srl (a : Agent) (pr : BitVec 4) (rd : BitVec 5) (ra : BitVec 5) (rb : BitVec 5) : exec (.srl a pr rd ra rb) s = execSrl a pr rd ra rb s := rfl
@[simp] theorem exec_sra (a : Agent) (pr : BitVec 4) (rd : BitVec 5) (ra : BitVec 5) (rb : BitVec 5) : exec (.sra a pr rd ra rb) s = execSra a pr rd ra rb s := rfl
@[simp] theorem exec_ror (a : Agent) (pr : BitVec 4) (rd : BitVec 5) (ra : BitVec 5) (rb : BitVec 5) : exec (.ror a pr rd ra rb) s = execRor a pr rd ra rb s := rfl
@[simp] theorem exec_addW (a : Agent) (pr : BitVec 4) (rd : BitVec 5) (ra : BitVec 5) (rb : BitVec 5) : exec (.addW a pr rd ra rb) s = execAddW a pr rd ra rb s := rfl
@[simp] theorem exec_subW (a : Agent) (pr : BitVec 4) (rd : BitVec 5) (ra : BitVec 5) (rb : BitVec 5) : exec (.subW a pr rd ra rb) s = execSubW a pr rd ra rb s := rfl
@[simp] theorem exec_sllW (a : Agent) (pr : BitVec 4) (rd : BitVec 5) (ra : BitVec 5) (rb : BitVec 5) : exec (.sllW a pr rd ra rb) s = execSllW a pr rd ra rb s := rfl
@[simp] theorem exec_srlW (a : Agent) (pr : BitVec 4) (rd : BitVec 5) (ra : BitVec 5) (rb : BitVec 5) : exec (.srlW a pr rd ra rb) s = execSrlW a pr rd ra rb s := rfl
@[simp] theorem exec_sraW (a : Agent) (pr : BitVec 4) (rd : BitVec 5) (ra : BitVec 5) (rb : BitVec 5) : exec (.sraW a pr rd ra rb) s = execSraW a pr rd ra rb s := rfl
@[simp] theorem exec_mul (a : Agent) (pr : BitVec 4) (rd : BitVec 5) (ra : BitVec 5) (rb : BitVec 5) : exec (.mul a pr rd ra rb) s = execMul a pr rd ra rb s := rfl
@[simp] theorem exec_mulh (a : Agent) (pr : BitVec 4) (rd : BitVec 5) (ra : BitVec 5) (rb : BitVec 5) : exec (.mulh a pr rd ra rb) s = execMulh a pr rd ra rb s := rfl
@[simp] theorem exec_mulhu (a : Agent) (pr : BitVec 4) (rd : BitVec 5) (ra : BitVec 5) (rb : BitVec 5) : exec (.mulhu a pr rd ra rb) s = execMulhu a pr rd ra rb s := rfl
@[simp] theorem exec_div (a : Agent) (pr : BitVec 4) (rd : BitVec 5) (ra : BitVec 5) (rb : BitVec 5) : exec (.div a pr rd ra rb) s = execDiv a pr rd ra rb s := rfl
@[simp] theorem exec_divu (a : Agent) (pr : BitVec 4) (rd : BitVec 5) (ra : BitVec 5) (rb : BitVec 5) : exec (.divu a pr rd ra rb) s = execDivu a pr rd ra rb s := rfl
@[simp] theorem exec_rem (a : Agent) (pr : BitVec 4) (rd : BitVec 5) (ra : BitVec 5) (rb : BitVec 5) : exec (.rem a pr rd ra rb) s = execRem a pr rd ra rb s := rfl
@[simp] theorem exec_remu (a : Agent) (pr : BitVec 4) (rd : BitVec 5) (ra : BitVec 5) (rb : BitVec 5) : exec (.remu a pr rd ra rb) s = execRemu a pr rd ra rb s := rfl
@[simp] theorem exec_min (a : Agent) (pr : BitVec 4) (rd : BitVec 5) (ra : BitVec 5) (rb : BitVec 5) : exec (.min a pr rd ra rb) s = execMin a pr rd ra rb s := rfl
@[simp] theorem exec_max (a : Agent) (pr : BitVec 4) (rd : BitVec 5) (ra : BitVec 5) (rb : BitVec 5) : exec (.max a pr rd ra rb) s = execMax a pr rd ra rb s := rfl
@[simp] theorem exec_minu (a : Agent) (pr : BitVec 4) (rd : BitVec 5) (ra : BitVec 5) (rb : BitVec 5) : exec (.minu a pr rd ra rb) s = execMinu a pr rd ra rb s := rfl
@[simp] theorem exec_maxu (a : Agent) (pr : BitVec 4) (rd : BitVec 5) (ra : BitVec 5) (rb : BitVec 5) : exec (.maxu a pr rd ra rb) s = execMaxu a pr rd ra rb s := rfl
@[simp] theorem exec_clz (a : Agent) (pr : BitVec 4) (rd : BitVec 5) (ra : BitVec 5) : exec (.clz a pr rd ra) s = execClz a pr rd ra s := rfl
@[simp] theorem exec_ctz (a : Agent) (pr : BitVec 4) (rd : BitVec 5) (ra : BitVec 5) : exec (.ctz a pr rd ra) s = execCtz a pr rd ra s := rfl
@[simp] theorem exec_popc (a : Agent) (pr : BitVec 4) (rd : BitVec 5) (ra : BitVec 5) : exec (.popc a pr rd ra) s = execPopc a pr rd ra s := rfl
@[simp] theorem exec_sextB (a : Agent) (pr : BitVec 4) (rd : BitVec 5) (ra : BitVec 5) : exec (.sextB a pr rd ra) s = execSextB a pr rd ra s := rfl
@[simp] theorem exec_sextH (a : Agent) (pr : BitVec 4) (rd : BitVec 5) (ra : BitVec 5) : exec (.sextH a pr rd ra) s = execSextH a pr rd ra s := rfl
@[simp] theorem exec_sextW (a : Agent) (pr : BitVec 4) (rd : BitVec 5) (ra : BitVec 5) : exec (.sextW a pr rd ra) s = execSextW a pr rd ra s := rfl
@[simp] theorem exec_zextW (a : Agent) (pr : BitVec 4) (rd : BitVec 5) (ra : BitVec 5) : exec (.zextW a pr rd ra) s = execZextW a pr rd ra s := rfl
@[simp] theorem exec_bswap (a : Agent) (pr : BitVec 4) (rd : BitVec 5) (ra : BitVec 5) : exec (.bswap a pr rd ra) s = execBswap a pr rd ra s := rfl
@[simp] theorem exec_addi (a : Agent) (pr : BitVec 4) (rd : BitVec 5) (ra : BitVec 5) (imm : BitVec 12) : exec (.addi a pr rd ra imm) s = execAddi a pr rd ra imm s := rfl
@[simp] theorem exec_andi (a : Agent) (pr : BitVec 4) (rd : BitVec 5) (ra : BitVec 5) (imm : BitVec 12) : exec (.andi a pr rd ra imm) s = execAndi a pr rd ra imm s := rfl
@[simp] theorem exec_ori (a : Agent) (pr : BitVec 4) (rd : BitVec 5) (ra : BitVec 5) (imm : BitVec 12) : exec (.ori a pr rd ra imm) s = execOri a pr rd ra imm s := rfl
@[simp] theorem exec_xori (a : Agent) (pr : BitVec 4) (rd : BitVec 5) (ra : BitVec 5) (imm : BitVec 12) : exec (.xori a pr rd ra imm) s = execXori a pr rd ra imm s := rfl
@[simp] theorem exec_addiW (a : Agent) (pr : BitVec 4) (rd : BitVec 5) (ra : BitVec 5) (imm : BitVec 12) : exec (.addiW a pr rd ra imm) s = execAddiW a pr rd ra imm s := rfl
@[simp] theorem exec_slli (a : Agent) (pr : BitVec 4) (rd : BitVec 5) (ra : BitVec 5) (sh : BitVec 6) : exec (.slli a pr rd ra sh) s = execSlli a pr rd ra sh s := rfl
@[simp] theorem exec_srli (a : Agent) (pr : BitVec 4) (rd : BitVec 5) (ra : BitVec 5) (sh : BitVec 6) : exec (.srli a pr rd ra sh) s = execSrli a pr rd ra sh s := rfl
@[simp] theorem exec_srai (a : Agent) (pr : BitVec 4) (rd : BitVec 5) (ra : BitVec 5) (sh : BitVec 6) : exec (.srai a pr rd ra sh) s = execSrai a pr rd ra sh s := rfl
@[simp] theorem exec_rori (a : Agent) (pr : BitVec 4) (rd : BitVec 5) (ra : BitVec 5) (sh : BitVec 6) : exec (.rori a pr rd ra sh) s = execRori a pr rd ra sh s := rfl
@[simp] theorem exec_slliW (a : Agent) (pr : BitVec 4) (rd : BitVec 5) (ra : BitVec 5) (sh : BitVec 5) : exec (.slliW a pr rd ra sh) s = execSlliW a pr rd ra sh s := rfl
@[simp] theorem exec_srliW (a : Agent) (pr : BitVec 4) (rd : BitVec 5) (ra : BitVec 5) (sh : BitVec 5) : exec (.srliW a pr rd ra sh) s = execSrliW a pr rd ra sh s := rfl
@[simp] theorem exec_sraiW (a : Agent) (pr : BitVec 4) (rd : BitVec 5) (ra : BitVec 5) (sh : BitVec 5) : exec (.sraiW a pr rd ra sh) s = execSraiW a pr rd ra sh s := rfl
@[simp] theorem exec_liz (a : Agent) (pr : BitVec 4) (rd : BitVec 5) (h : Bool) (imm : BitVec 16) : exec (.liz a pr rd h imm) s = execLiz a pr rd h imm s := rfl
@[simp] theorem exec_lin (a : Agent) (pr : BitVec 4) (rd : BitVec 5) (h : Bool) (imm : BitVec 16) : exec (.lin a pr rd h imm) s = execLin a pr rd h imm s := rfl
@[simp] theorem exec_lik (a : Agent) (pr : BitVec 4) (rd : BitVec 5) (h : Bool) (imm : BitVec 16) : exec (.lik a pr rd h imm) s = execLik a pr rd h imm s := rfl
@[simp] theorem exec_liku (a : Agent) (pr : BitVec 4) (rd : BitVec 5) (h : Bool) (imm : BitVec 16) : exec (.liku a pr rd h imm) s = execLiku a pr rd h imm s := rfl
@[simp] theorem exec_addpc (a : Agent) (pr : BitVec 4) (rd : BitVec 5) (imm : BitVec 17) : exec (.addpc a pr rd imm) s = execAddpc a pr rd imm s := rfl
@[simp] theorem exec_cmp (c : Nat) (pr : BitVec 4) (pd : BitVec 3) (cm : CMode) (ra : BitVec 5) (rb : BitVec 5) (w : Bool) (cond : Cond) : exec (.cmp c pr pd cm ra rb w cond) s = execCmp c pr pd cm ra rb w cond s := rfl
@[simp] theorem exec_cmpi (c : Nat) (pr : BitVec 4) (pd : BitVec 3) (cm : CMode) (ra : BitVec 5) (imm : BitVec 12) (cond : Cond) : exec (.cmpi c pr pd cm ra imm cond) s = execCmpi c pr pd cm ra imm cond s := rfl
@[simp] theorem exec_pand (c : Nat) (pr : BitVec 4) (pd : BitVec 3) (pa : BitVec 3) (na : Bool) (pb : BitVec 3) (nb : Bool) : exec (.pand c pr pd pa na pb nb) s = execPand c pr pd pa na pb nb s := rfl
@[simp] theorem exec_por (c : Nat) (pr : BitVec 4) (pd : BitVec 3) (pa : BitVec 3) (na : Bool) (pb : BitVec 3) (nb : Bool) : exec (.por c pr pd pa na pb nb) s = execPor c pr pd pa na pb nb s := rfl
@[simp] theorem exec_pxor (c : Nat) (pr : BitVec 4) (pd : BitVec 3) (pa : BitVec 3) (na : Bool) (pb : BitVec 3) (nb : Bool) : exec (.pxor c pr pd pa na pb nb) s = execPxor c pr pd pa na pb nb s := rfl
@[simp] theorem exec_ptog (c : Nat) (pr : BitVec 4) (rd : BitVec 5) : exec (.ptog c pr rd) s = execPtog c pr rd s := rfl
@[simp] theorem exec_gtop (c : Nat) (pr : BitVec 4) (ra : BitVec 5) : exec (.gtop c pr ra) s = execGtop c pr ra s := rfl
@[simp] theorem exec_ldB (a : Agent) (pr : BitVec 4) (rd : BitVec 5) (ra : BitVec 5) (imm : BitVec 12) : exec (.ldB a pr rd ra imm) s = execLdB a pr rd ra imm s := rfl
@[simp] theorem exec_ldBs (a : Agent) (pr : BitVec 4) (rd : BitVec 5) (ra : BitVec 5) (imm : BitVec 12) : exec (.ldBs a pr rd ra imm) s = execLdBs a pr rd ra imm s := rfl
@[simp] theorem exec_ldH (a : Agent) (pr : BitVec 4) (rd : BitVec 5) (ra : BitVec 5) (imm : BitVec 12) : exec (.ldH a pr rd ra imm) s = execLdH a pr rd ra imm s := rfl
@[simp] theorem exec_ldHs (a : Agent) (pr : BitVec 4) (rd : BitVec 5) (ra : BitVec 5) (imm : BitVec 12) : exec (.ldHs a pr rd ra imm) s = execLdHs a pr rd ra imm s := rfl
@[simp] theorem exec_ldW (a : Agent) (pr : BitVec 4) (rd : BitVec 5) (ra : BitVec 5) (imm : BitVec 12) : exec (.ldW a pr rd ra imm) s = execLdW a pr rd ra imm s := rfl
@[simp] theorem exec_ldWs (a : Agent) (pr : BitVec 4) (rd : BitVec 5) (ra : BitVec 5) (imm : BitVec 12) : exec (.ldWs a pr rd ra imm) s = execLdWs a pr rd ra imm s := rfl
@[simp] theorem exec_ldD (a : Agent) (pr : BitVec 4) (rd : BitVec 5) (ra : BitVec 5) (imm : BitVec 12) : exec (.ldD a pr rd ra imm) s = execLdD a pr rd ra imm s := rfl
@[simp] theorem exec_ldx (a : Agent) (pr : BitVec 4) (rd : BitVec 5) (ra : BitVec 5) (rb : BitVec 5) (size : BitVec 3) (sc : Bool) (aq : Bool) : exec (.ldx a pr rd ra rb size sc aq) s = execLdx a pr rd ra rb size sc aq s := rfl
@[simp] theorem exec_stB (a : Agent) (pr : BitVec 4) (rd : BitVec 5) (ra : BitVec 5) (imm : BitVec 12) : exec (.stB a pr rd ra imm) s = execStB a pr rd ra imm s := rfl
@[simp] theorem exec_stH (a : Agent) (pr : BitVec 4) (rd : BitVec 5) (ra : BitVec 5) (imm : BitVec 12) : exec (.stH a pr rd ra imm) s = execStH a pr rd ra imm s := rfl
@[simp] theorem exec_stW (a : Agent) (pr : BitVec 4) (rd : BitVec 5) (ra : BitVec 5) (imm : BitVec 12) : exec (.stW a pr rd ra imm) s = execStW a pr rd ra imm s := rfl
@[simp] theorem exec_stD (a : Agent) (pr : BitVec 4) (rd : BitVec 5) (ra : BitVec 5) (imm : BitVec 12) : exec (.stD a pr rd ra imm) s = execStD a pr rd ra imm s := rfl
@[simp] theorem exec_stx (a : Agent) (pr : BitVec 4) (rd : BitVec 5) (ra : BitVec 5) (rb : BitVec 5) (size : BitVec 2) (sc : Bool) (rl : Bool) : exec (.stx a pr rd ra rb size sc rl) s = execStx a pr rd ra rb size sc rl s := rfl
@[simp] theorem exec_stlkW (c : Nat) (pr : BitVec 4) (rd : BitVec 5) (ra : BitVec 5) : exec (.stlkW c pr rd ra) s = execStlkW c pr rd ra s := rfl
@[simp] theorem exec_stlkL (c : Nat) (pr : BitVec 4) (rd : BitVec 5) (ra : BitVec 5) : exec (.stlkL c pr rd ra) s = execStlkL c pr rd ra s := rfl
@[simp] theorem exec_ldlkW (c : Nat) (pr : BitVec 4) (rd : BitVec 5) (ra : BitVec 5) : exec (.ldlkW c pr rd ra) s = execLdlkW c pr rd ra s := rfl
@[simp] theorem exec_ldlkL (c : Nat) (pr : BitVec 4) (rd : BitVec 5) (ra : BitVec 5) : exec (.ldlkL c pr rd ra) s = execLdlkL c pr rd ra s := rfl
@[simp] theorem exec_key (c : Nat) (pr : BitVec 4) (rd : BitVec 5) (ra : BitVec 5) (rb : BitVec 5) : exec (.key c pr rd ra rb) s = execKey c pr rd ra rb s := rfl
@[simp] theorem exec_keyi (c : Nat) (pr : BitVec 4) (rd : BitVec 5) (ra : BitVec 5) (k : BitVec 4) : exec (.keyi c pr rd ra k) s = execKeyi c pr rd ra k s := rfl
@[simp] theorem exec_atmSwap (a : Agent) (pr : BitVec 4) (rd : BitVec 5) (ra : BitVec 5) (rb : BitVec 5) (ord : BitVec 2) (sz : Bool) : exec (.atmSwap a pr rd ra rb ord sz) s = execAtmSwap a pr rd ra rb ord sz s := rfl
@[simp] theorem exec_atmCas (a : Agent) (pr : BitVec 4) (rd : BitVec 5) (ra : BitVec 5) (rb : BitVec 5) (ord : BitVec 2) (sz : Bool) : exec (.atmCas a pr rd ra rb ord sz) s = execAtmCas a pr rd ra rb ord sz s := rfl
@[simp] theorem exec_atmAdd (a : Agent) (pr : BitVec 4) (rd : BitVec 5) (ra : BitVec 5) (rb : BitVec 5) (ord : BitVec 2) (sz : Bool) : exec (.atmAdd a pr rd ra rb ord sz) s = execAtmAdd a pr rd ra rb ord sz s := rfl
@[simp] theorem exec_atmAnd (a : Agent) (pr : BitVec 4) (rd : BitVec 5) (ra : BitVec 5) (rb : BitVec 5) (ord : BitVec 2) (sz : Bool) : exec (.atmAnd a pr rd ra rb ord sz) s = execAtmAnd a pr rd ra rb ord sz s := rfl
@[simp] theorem exec_atmOr (a : Agent) (pr : BitVec 4) (rd : BitVec 5) (ra : BitVec 5) (rb : BitVec 5) (ord : BitVec 2) (sz : Bool) : exec (.atmOr a pr rd ra rb ord sz) s = execAtmOr a pr rd ra rb ord sz s := rfl
@[simp] theorem exec_atmXor (a : Agent) (pr : BitVec 4) (rd : BitVec 5) (ra : BitVec 5) (rb : BitVec 5) (ord : BitVec 2) (sz : Bool) : exec (.atmXor a pr rd ra rb ord sz) s = execAtmXor a pr rd ra rb ord sz s := rfl
@[simp] theorem exec_atmMin (a : Agent) (pr : BitVec 4) (rd : BitVec 5) (ra : BitVec 5) (rb : BitVec 5) (ord : BitVec 2) (sz : Bool) : exec (.atmMin a pr rd ra rb ord sz) s = execAtmMin a pr rd ra rb ord sz s := rfl
@[simp] theorem exec_atmMax (a : Agent) (pr : BitVec 4) (rd : BitVec 5) (ra : BitVec 5) (rb : BitVec 5) (ord : BitVec 2) (sz : Bool) : exec (.atmMax a pr rd ra rb ord sz) s = execAtmMax a pr rd ra rb ord sz s := rfl
@[simp] theorem exec_atmMinu (a : Agent) (pr : BitVec 4) (rd : BitVec 5) (ra : BitVec 5) (rb : BitVec 5) (ord : BitVec 2) (sz : Bool) : exec (.atmMinu a pr rd ra rb ord sz) s = execAtmMinu a pr rd ra rb ord sz s := rfl
@[simp] theorem exec_atmMaxu (a : Agent) (pr : BitVec 4) (rd : BitVec 5) (ra : BitVec 5) (rb : BitVec 5) (ord : BitVec 2) (sz : Bool) : exec (.atmMaxu a pr rd ra rb ord sz) s = execAtmMaxu a pr rd ra rb ord sz s := rfl
@[simp] theorem exec_fenceLl (a : Agent) (pr : BitVec 4) : exec (.fenceLl a pr) s = execFenceLl a pr s := rfl
@[simp] theorem exec_fenceLs (a : Agent) (pr : BitVec 4) : exec (.fenceLs a pr) s = execFenceLs a pr s := rfl
@[simp] theorem exec_fenceSl (a : Agent) (pr : BitVec 4) : exec (.fenceSl a pr) s = execFenceSl a pr s := rfl
@[simp] theorem exec_fenceSs (a : Agent) (pr : BitVec 4) : exec (.fenceSs a pr) s = execFenceSs a pr s := rfl
@[simp] theorem exec_fence (a : Agent) (pr : BitVec 4) : exec (.fence a pr) s = execFence a pr s := rfl
@[simp] theorem exec_fenceIo (a : Agent) (pr : BitVec 4) : exec (.fenceIo a pr) s = execFenceIo a pr s := rfl
@[simp] theorem exec_sync (a : Agent) (pr : BitVec 4) : exec (.sync a pr) s = execSync a pr s := rfl
@[simp] theorem exec_syncI (a : Agent) (pr : BitVec 4) : exec (.syncI a pr) s = execSyncI a pr s := rfl
@[simp] theorem exec_clWb (c : Nat) (pr : BitVec 4) (ra : BitVec 5) : exec (.clWb c pr ra) s = execClWb c pr ra s := rfl
@[simp] theorem exec_clInv (c : Nat) (pr : BitVec 4) (ra : BitVec 5) : exec (.clInv c pr ra) s = execClInv c pr ra s := rfl
@[simp] theorem exec_clWbi (c : Nat) (pr : BitVec 4) (ra : BitVec 5) : exec (.clWbi c pr ra) s = execClWbi c pr ra s := rfl
@[simp] theorem exec_prefR (c : Nat) (pr : BitVec 4) (ra : BitVec 5) : exec (.prefR c pr ra) s = execPrefR c pr ra s := rfl
@[simp] theorem exec_prefW (c : Nat) (pr : BitVec 4) (ra : BitVec 5) : exec (.prefW c pr ra) s = execPrefW c pr ra s := rfl
@[simp] theorem exec_b (c : Nat) (pr : BitVec 4) (imm : BitVec 22) : exec (.b c pr imm) s = execB c pr imm s := rfl
@[simp] theorem exec_bl (c : Nat) (pr : BitVec 4) (imm : BitVec 22) : exec (.bl c pr imm) s = execBl c pr imm s := rfl
@[simp] theorem exec_jr (c : Nat) (pr : BitVec 4) (ra : BitVec 5) : exec (.jr c pr ra) s = execJr c pr ra s := rfl
@[simp] theorem exec_jalr (c : Nat) (pr : BitVec 4) (rd : BitVec 5) (ra : BitVec 5) : exec (.jalr c pr rd ra) s = execJalr c pr rd ra s := rfl
@[simp] theorem exec_ret (c : Nat) (pr : BitVec 4) : exec (.ret c pr) s = execRet c pr s := rfl
@[simp] theorem exec_calls (a : Agent) (pr : BitVec 4) (code : BitVec 10) : exec (.calls a pr code) s = execCalls a pr code s := rfl
@[simp] theorem exec_callm (c : Nat) (pr : BitVec 4) (code : BitVec 10) : exec (.callm c pr code) s = execCallm c pr code s := rfl
@[simp] theorem exec_brk (a : Agent) (pr : BitVec 4) (code : BitVec 10) : exec (.brk a pr code) s = execBrk a pr code s := rfl
@[simp] theorem exec_tret (a : Agent) (pr : BitVec 4) : exec (.tret a pr) s = execTret a pr s := rfl
@[simp] theorem exec_waitev (a : Agent) (pr : BitVec 4) : exec (.waitev a pr) s = execWaitev a pr s := rfl
@[simp] theorem exec_tlbiVa (c : Nat) (pr : BitVec 4) (ra : BitVec 5) : exec (.tlbiVa c pr ra) s = execTlbiVa c pr ra s := rfl
@[simp] theorem exec_tlbiAll (c : Nat) (pr : BitVec 4) : exec (.tlbiAll c pr) s = execTlbiAll c pr s := rfl
@[simp] theorem exec_tlbiAllg (c : Nat) (pr : BitVec 4) : exec (.tlbiAllg c pr) s = execTlbiAllg c pr s := rfl
@[simp] theorem exec_tlbiS2 (c : Nat) (pr : BitVec 4) (ra : BitVec 5) : exec (.tlbiS2 c pr ra) s = execTlbiS2 c pr ra s := rfl
@[simp] theorem exec_tlbiS2all (c : Nat) (pr : BitVec 4) : exec (.tlbiS2all c pr) s = execTlbiS2all c pr s := rfl
@[simp] theorem exec_crx (a : Agent) (pr : BitVec 4) (rd : BitVec 5) (ra : BitVec 5) (cr : BitVec 12) : exec (.crx a pr rd ra cr) s = execCrx a pr rd ra cr s := rfl
@[simp] theorem exec_crset (a : Agent) (pr : BitVec 4) (rd : BitVec 5) (ra : BitVec 5) (cr : BitVec 12) : exec (.crset a pr rd ra cr) s = execCrset a pr rd ra cr s := rfl
@[simp] theorem exec_crclr (a : Agent) (pr : BitVec 4) (rd : BitVec 5) (ra : BitVec 5) (cr : BitVec 12) : exec (.crclr a pr rd ra cr) s = execCrclr a pr rd ra cr s := rfl
@[simp] theorem exec_vint (c : Nat) (pr : BitVec 4) (vd : BitVec 5) (va : BitVec 5) (vb : BitVec 5) (ty : VTy) (op : BitVec 4) : exec (.vint c pr vd va vb ty op) s = execVint c pr vd va vb ty op s := rfl
@[simp] theorem exec_vfp (c : Nat) (pr : BitVec 4) (vd : BitVec 5) (va : BitVec 5) (vb : BitVec 5) (ty : VTy) (op : BitVec 4) : exec (.vfp c pr vd va vb ty op) s = execVfp c pr vd va vb ty op s := rfl
@[simp] theorem exec_fps (c : Nat) (pr : BitVec 4) (vd : BitVec 5) (va : BitVec 5) (vb : BitVec 5) (ty : VTy) (op : BitVec 4) : exec (.fps c pr vd va vb ty op) s = execFps c pr vd va vb ty op s := rfl
@[simp] theorem exec_vfma (c : Nat) (pr : BitVec 4) (vd : BitVec 5) (va : BitVec 5) (vb : BitVec 5) (vc : BitVec 5) (ft : BitVec 2) : exec (.vfma c pr vd va vb vc ft) s = execVfma c pr vd va vb vc ft s := rfl
@[simp] theorem exec_vfms (c : Nat) (pr : BitVec 4) (vd : BitVec 5) (va : BitVec 5) (vb : BitVec 5) (vc : BitVec 5) (ft : BitVec 2) : exec (.vfms c pr vd va vb vc ft) s = execVfms c pr vd va vb vc ft s := rfl
@[simp] theorem exec_vld (c : Nat) (pr : BitVec 4) (vd : BitVec 5) (ra : BitVec 5) (imm : BitVec 12) : exec (.vld c pr vd ra imm) s = execVld c pr vd ra imm s := rfl
@[simp] theorem exec_vst (c : Nat) (pr : BitVec 4) (vd : BitVec 5) (ra : BitVec 5) (imm : BitVec 12) : exec (.vst c pr vd ra imm) s = execVst c pr vd ra imm s := rfl
@[simp] theorem exec_vls (c : Nat) (pr : BitVec 4) (vd : BitVec 5) (ra : BitVec 5) (st : Bool) (sz : BitVec 2) (imm : BitVec 9) : exec (.vls c pr vd ra st sz imm) s = execVls c pr vd ra st sz imm s := rfl
@[simp] theorem exec_vsel (c : Nat) (pr : BitVec 4) (vd : BitVec 5) (va : BitVec 5) (vb : BitVec 5) (ty : VTy) : exec (.vsel c pr vd va vb ty) s = execVsel c pr vd va vb ty s := rfl
@[simp] theorem exec_vbcast (c : Nat) (pr : BitVec 4) (vd : BitVec 5) (ra : BitVec 5) (ty : VTy) : exec (.vbcast c pr vd ra ty) s = execVbcast c pr vd ra ty s := rfl
@[simp] theorem exec_vins (c : Nat) (pr : BitVec 4) (vd : BitVec 5) (ra : BitVec 5) (n : BitVec 5) (ty : VTy) : exec (.vins c pr vd ra n ty) s = execVins c pr vd ra n ty s := rfl
@[simp] theorem exec_vext (c : Nat) (pr : BitVec 4) (rd : BitVec 5) (va : BitVec 5) (n : BitVec 5) (ty : VTy) : exec (.vext c pr rd va n ty) s = execVext c pr rd va n ty s := rfl
@[simp] theorem exec_vperm (c : Nat) (pr : BitVec 4) (vd : BitVec 5) (va : BitVec 5) (vb : BitVec 5) (ty : VTy) : exec (.vperm c pr vd va vb ty) s = execVperm c pr vd va vb ty s := rfl
@[simp] theorem exec_vsum (c : Nat) (pr : BitVec 4) (vd : BitVec 5) (va : BitVec 5) (ty : VTy) : exec (.vsum c pr vd va ty) s = execVsum c pr vd va ty s := rfl
@[simp] theorem exec_vmaxr (c : Nat) (pr : BitVec 4) (vd : BitVec 5) (va : BitVec 5) (ty : VTy) : exec (.vmaxr c pr vd va ty) s = execVmaxr c pr vd va ty s := rfl
@[simp] theorem exec_vminr (c : Nat) (pr : BitVec 4) (vd : BitVec 5) (va : BitVec 5) (ty : VTy) : exec (.vminr c pr vd va ty) s = execVminr c pr vd va ty s := rfl
@[simp] theorem exec_vcvtIf (c : Nat) (pr : BitVec 4) (vd : BitVec 5) (va : BitVec 5) (ty : VTy) : exec (.vcvtIf c pr vd va ty) s = execVcvtIf c pr vd va ty s := rfl
@[simp] theorem exec_vcvtFi (c : Nat) (pr : BitVec 4) (vd : BitVec 5) (va : BitVec 5) (ty : VTy) : exec (.vcvtFi c pr vd va ty) s = execVcvtFi c pr vd va ty s := rfl
@[simp] theorem exec_vcvtW (c : Nat) (pr : BitVec 4) (vd : BitVec 5) (va : BitVec 5) (ty : VTy) : exec (.vcvtW c pr vd va ty) s = execVcvtW c pr vd va ty s := rfl
@[simp] theorem exec_vcvtN (c : Nat) (pr : BitVec 4) (vd : BitVec 5) (va : BitVec 5) (ty : VTy) : exec (.vcvtN c pr vd va ty) s = execVcvtN c pr vd va ty s := rfl
@[simp] theorem exec_vmov (c : Nat) (pr : BitVec 4) (vd : BitVec 5) (va : BitVec 5) (ty : VTy) : exec (.vmov c pr vd va ty) s = execVmov c pr vd va ty s := rfl
@[simp] theorem exec_vpred (c : Nat) (pr : BitVec 4) (pd : BitVec 3) (va : BitVec 5) (ty : VTy) : exec (.vpred c pr pd va ty) s = execVpred c pr pd va ty s := rfl
@[simp] theorem exec_bc (h : Nat) (sk : Bool) (cond : Cond) (ka : BitVec 5) (kb : BitVec 5) (off : BitVec 12) : exec (.bc h sk cond ka kb off) s = execBc h sk cond ka kb off s := rfl
@[simp] theorem exec_j (h : Nat) (sk : Bool) (off : BitVec 22) : exec (.j h sk off) s = execJ h sk off s := rfl
@[simp] theorem exec_jl (h : Nat) (sk : Bool) (off : BitVec 22) : exec (.jl h sk off) s = execJl h sk off s := rfl
@[simp] theorem exec_jx (h : Nat) (sk : Bool) (kd : BitVec 5) (ka : BitVec 5) : exec (.jx h sk kd ka) s = execJx h sk kd ka s := rfl
@[simp] theorem exec_instructionFetch (c : Nat) (va : W64) (f : FetchOp) : exec (.instructionFetch c va f) s = execInstructionFetch c va f s := rfl
@[simp] theorem exec_branchResolve (c : Nat) (b : Resolved) : exec (.branchResolve c b) s = execBranchResolve c b s := rfl
@[simp] theorem exec_loadReissue (c : Nat) : exec (.loadReissue c) s = execLoadReissue c s := rfl
@[simp] theorem exec_storeAddressResolve (c : Nat) (va : W64) (n : Nat) (acc : Acc) (older : Nat) : exec (.storeAddressResolve c va n acc older) s = execStoreAddressResolve c va n acc older s := rfl
@[simp] theorem exec_storeBufferWrite (c : Nat) : exec (.storeBufferWrite c) s = execStoreBufferWrite c s := rfl
@[simp] theorem exec_tableWalk (c : Nat) (x : SpecAt) (acc : Acc) : exec (.tableWalk c x acc) s = execTableWalk c x acc s := rfl
@[simp] theorem exec_markSwap (c : Nat) (va : W64) (acc : Acc) : exec (.markSwap c va acc) s = execMarkSwap c va acc s := rfl
@[simp] theorem exec_deviceStoreReply (c : Nat) (tag : Nat) : exec (.deviceStoreReply c tag) s = execDeviceStoreReply c tag s := rfl
@[simp] theorem exec_eventArrival (src : Nat) : exec (.eventArrival src) s = execEventArrival src s := rfl
@[simp] theorem exec_interruptRecognition (c : Nat) : exec (.interruptRecognition c) s = execInterruptRecognition c s := rfl
@[simp] theorem exec_interruptEntry (c : Nat) : exec (.interruptEntry c) s = execInterruptEntry c s := rfl
@[simp] theorem exec_timerMatch (c : Nat) (m : Bool) : exec (.timerMatch c m) s = execTimerMatch c m s := rfl
@[simp] theorem exec_keeperTimerMatch (h : Nat) : exec (.keeperTimerMatch h) s = execKeeperTimerMatch h s := rfl
@[simp] theorem exec_tilClkCtlWrite (n : Nat) (v : W32) : exec (.tilClkCtlWrite n v) s = execTilClkCtlWrite n v s := rfl
@[simp] theorem exec_pllLock (n : Nat) : exec (.pllLock n) s = execPllLock n s := rfl
@[simp] theorem exec_voltageReached (n : Nat) : exec (.voltageReached n) s = execVoltageReached n s := rfl
@[simp] theorem exec_sensorRead (h : Nat) (tj : Nat) (tmem : Nat) (da : Nat) : exec (.sensorRead h tj tmem da) s = execSensorRead h tj tmem da s := rfl
@[simp] theorem exec_capStep (h : Nat) : exec (.capStep h) s = execCapStep h s := rfl
@[simp] theorem exec_rdS (r : Nat) (x : ArrRead) : exec (.rdS r x) s = execRdS r x s := rfl
@[simp] theorem exec_rdO (r : Nat) (L : Nat) : exec (.rdO r L) s = execRdO r L s := rfl
@[simp] theorem exec_upg (r : Nat) (L : Nat) : exec (.upg r L) s = execUpg r L s := rfl
@[simp] theorem exec_rdSpec (c : Nat) (x : SpecAcc) : exec (.rdSpec c x) s = execRdSpec c x s := rfl
@[simp] theorem exec_promote (c : Nat) (L : Nat) : exec (.promote c L) s = execPromote c L s := rfl
@[simp] theorem exec_rdFetch (r : Nat) (L : Nat) : exec (.rdFetch r L) s = execRdFetch r L s := rfl
@[simp] theorem exec_rdNc (g : Nat) (L : Nat) (dom : Nat) : exec (.rdNc g L dom) s = execRdNc g L dom s := rfl
@[simp] theorem exec_wrNc (g : Nat) (L : Nat) (dom : Nat) (wr : WrReq) : exec (.wrNc g L dom wr) s = execWrNc g L dom wr s := rfl
@[simp] theorem exec_atomic (g : Nat) (dom : Nat) (at_ : AtomReq) : exec (.atomic g dom at_) s = execAtomic g dom at_ s := rfl
@[simp] theorem exec_flush (r : Nat) (L : Nat) : exec (.flush r L) s = execFlush r L s := rfl
@[simp] theorem exec_wb (r : Nat) (L : Nat) : exec (.wb r L) s = execWb r L s := rfl
@[simp] theorem exec_fwdS (t : Nat) (L : Nat) : exec (.fwdS t L) s = execFwdS t L s := rfl
@[simp] theorem exec_fwdO (t : Nat) (L : Nat) : exec (.fwdO t L) s = execFwdO t L s := rfl
@[simp] theorem exec_fwdPeek (t : Nat) (L : Nat) : exec (.fwdPeek t L) s = execFwdPeek t L s := rfl
@[simp] theorem exec_inv (t : Nat) (L : Nat) : exec (.inv t L) s = execInv t L s := rfl
@[simp] theorem exec_data (t : Nat) (L : Nat) : exec (.data t L) s = execData t L s := rfl
@[simp] theorem exec_grant (t : Nat) (L : Nat) : exec (.grant t L) s = execGrant t L s := rfl
@[simp] theorem exec_notServed (c : Nat) (L : Nat) : exec (.notServed c L) s = execNotServed c L s := rfl
@[simp] theorem exec_replay (c : Nat) (L : Nat) : exec (.replay c L) s = execReplay c L s := rfl
@[simp] theorem exec_ownerAck (t : Nat) (L : Nat) : exec (.ownerAck t L) s = execOwnerAck t L s := rfl
@[simp] theorem exec_invAck (t : Nat) (L : Nat) : exec (.invAck t L) s = execInvAck t L s := rfl
@[simp] theorem exec_notPresent (t : Nat) (L : Nat) : exec (.notPresent t L) s = execNotPresent t L s := rfl
@[simp] theorem exec_wbInflight (t : Nat) (L : Nat) : exec (.wbInflight t L) s = execWbInflight t L s := rfl
@[simp] theorem exec_wbAck (t : Nat) (L : Nat) : exec (.wbAck t L) s = execWbAck t L s := rfl
@[simp] theorem exec_flushAck (t : Nat) (L : Nat) : exec (.flushAck t L) s = execFlushAck t L s := rfl
@[simp] theorem exec_wrDone (g : Nat) (L : Nat) : exec (.wrDone g L) s = execWrDone g L s := rfl
@[simp] theorem exec_complete (t : Nat) (L : Nat) : exec (.complete t L) s = execComplete t L s := rfl
@[simp] theorem exec_l2Eviction (t : Nat) (x : ArrRead) : exec (.l2Eviction t x) s = execL2Eviction t x s := rfl
@[simp] theorem exec_pendingRestart (L : Nat) : exec (.pendingRestart L) s = execPendingRestart L s := rfl
@[simp] theorem exec_retryRestart (n : Nat) : exec (.retryRestart n) s = execRetryRestart n s := rfl
@[simp] theorem exec_epochAdvance (n : Nat) : exec (.epochAdvance n) s = execEpochAdvance n s := rfl
@[simp] theorem exec_silenceTimeout (L : Nat) : exec (.silenceTimeout L) s = execSilenceTimeout L s := rfl
@[simp] theorem exec_flitArrival (n : Nat) (p : Nat) (f : FlitOp) : exec (.flitArrival n p f) s = execFlitArrival n p f s := rfl
@[simp] theorem exec_routeEntryWrite (ni : Nat) (idx : Nat) (o : Nat) (size : Nat) (v : W64) : exec (.routeEntryWrite ni idx o size v) s = execRouteEntryWrite ni idx o size v s := rfl
@[simp] theorem exec_tilNiCtlDefault (ni : Nat) : exec (.tilNiCtlDefault ni) s = execTilNiCtlDefault ni s := rfl
@[simp] theorem exec_tilRtrPortEnWrite (n : Nat) (v : Nat) : exec (.tilRtrPortEnWrite n v) s = execTilRtrPortEnWrite n v s := rfl
@[simp] theorem exec_tilRtrClr (n : Nat) : exec (.tilRtrClr n) s = execTilRtrClr n s := rfl
@[simp] theorem exec_tilHomeClr (n : Nat) : exec (.tilHomeClr n) s = execTilHomeClr n s := rfl
@[simp] theorem exec_meshQuiesce (r : Nat) : exec (.meshQuiesce r) s = execMeshQuiesce r s := rfl
@[simp] theorem exec_quiesceDrained : exec (.quiesceDrained) s = execQuiesceDrained s := rfl
@[simp] theorem exec_meshRelease (r : Nat) : exec (.meshRelease r) s = execMeshRelease r s := rfl
@[simp] theorem exec_releaseCheckDone : exec (.releaseCheckDone) s = execReleaseCheckDone s := rfl
@[simp] theorem exec_modeLlcClass (r : Nat) : exec (.modeLlcClass r) s = execModeLlcClass r s := rfl
@[simp] theorem exec_modeTrainCtl (r : Nat) : exec (.modeTrainCtl r) s = execModeTrainCtl r s := rfl
@[simp] theorem exec_modeRdistCtl (r : Nat) : exec (.modeRdistCtl r) s = execModeRdistCtl r s := rfl
@[simp] theorem exec_modeForageStep (r : Nat) : exec (.modeForageStep r) s = execModeForageStep r s := rfl
@[simp] theorem exec_modeLockctl (r : Nat) : exec (.modeLockctl r) s = execModeLockctl r s := rfl
@[simp] theorem exec_prepare (h : Nat) : exec (.prepare h) s = execPrepare h s := rfl
@[simp] theorem exec_modeTimeout : exec (.modeTimeout) s = execModeTimeout s := rfl
@[simp] theorem exec_commit (h : Nat) : exec (.commit h) s = execCommit h s := rfl
@[simp] theorem exec_abort (h : Nat) : exec (.abort h) s = execAbort h s := rfl
@[simp] theorem exec_channelRequestAccept (ch : Nat) : exec (.channelRequestAccept ch) s = execChannelRequestAccept ch s := rfl
@[simp] theorem exec_bankOperation (ch : Nat) (L : Nat) (rd : Bool) : exec (.bankOperation ch L rd) s = execBankOperation ch L rd s := rfl
@[simp] theorem exec_targetedRefreshDone (ch : Nat) (bank : Nat) : exec (.targetedRefreshDone ch bank) s = execTargetedRefreshDone ch bank s := rfl
@[simp] theorem exec_throttleExpiry (ch : Nat) (bank : Nat) (dom : Nat) : exec (.throttleExpiry ch bank dom) s = execThrottleExpiry ch bank dom s := rfl
@[simp] theorem exec_groupCounterReset (ch : Nat) : exec (.groupCounterReset ch) s = execGroupCounterReset ch s := rfl
@[simp] theorem exec_refresh (ch : Nat) (bank : Nat) (busy : Bool) : exec (.refresh ch bank busy) s = execRefresh ch bank busy s := rfl
@[simp] theorem exec_retraining (ch : Nat) : exec (.retraining ch) s = execRetraining ch s := rfl
@[simp] theorem exec_retrainingDone (ch : Nat) (conv : Bool) (len : Nat) : exec (.retrainingDone ch conv len) s = execRetrainingDone ch conv len s := rfl
@[simp] theorem exec_memTrainDeferWrite (ch : Nat) (v : W32) : exec (.memTrainDeferWrite ch v) s = execMemTrainDeferWrite ch v s := rfl
@[simp] theorem exec_deferralEnd (ch : Nat) : exec (.deferralEnd ch) s = execDeferralEnd ch s := rfl
@[simp] theorem exec_memTrainCtlWrite (ch : Nat) (v : W32) : exec (.memTrainCtlWrite ch v) s = execMemTrainCtlWrite ch v s := rfl
@[simp] theorem exec_memPasrCtlWrite (ch : Nat) (v : W32) : exec (.memPasrCtlWrite ch v) s = execMemPasrCtlWrite ch v s := rfl
@[simp] theorem exec_selfRefreshWake (ch : Nat) : exec (.selfRefreshWake ch) s = execSelfRefreshWake ch s := rfl
@[simp] theorem exec_selfRefreshExitDone (ch : Nat) (conv : Bool) (len : Nat) : exec (.selfRefreshExitDone ch conv len) s = execSelfRefreshExitDone ch conv len s := rfl
@[simp] theorem exec_foragerRead (ch : Nat) : exec (.foragerRead ch) s = execForagerRead ch s := rfl
@[simp] theorem exec_memScrubRangeWrite (ch : Nat) (k : Nat) (v : W64) : exec (.memScrubRangeWrite ch k v) s = execMemScrubRangeWrite ch k v s := rfl
@[simp] theorem exec_ceLeak (ch : Nat) : exec (.ceLeak ch) s = execCeLeak ch s := rfl
@[simp] theorem exec_memClrCounters (ch : Nat) : exec (.memClrCounters ch) s = execMemClrCounters ch s := rfl
@[simp] theorem exec_memClrBucket (ch : Nat) : exec (.memClrBucket ch) s = execMemClrBucket ch s := rfl
@[simp] theorem exec_keeperWindowAccess (h : Nat) (off : Nat) (size : Nat) (wr : Bool) (v : W64) : exec (.keeperWindowAccess h off size wr v) s = execKeeperWindowAccess h off size wr v s := rfl
@[simp] theorem exec_keeperMeshReply (h : Nat) : exec (.keeperMeshReply h) s = execKeeperMeshReply h s := rfl
@[simp] theorem exec_keeperAccessTimeout (h : Nat) : exec (.keeperAccessTimeout h) s = execKeeperAccessTimeout h s := rfl
@[simp] theorem exec_keeperTagRelease (h : Nat) : exec (.keeperTagRelease h) s = execKeeperTagRelease h s := rfl
@[simp] theorem exec_keeperInterrupt (h : Nat) : exec (.keeperInterrupt h) s = execKeeperInterrupt h s := rfl
@[simp] theorem exec_keeperRestart (h : Nat) : exec (.keeperRestart h) s = execKeeperRestart h s := rfl
@[simp] theorem exec_keeperRestartDone (h : Nat) : exec (.keeperRestartDone h) s = execKeeperRestartDone h s := rfl
@[simp] theorem exec_moduleLoad (h : Nat) : exec (.moduleLoad h) s = execModuleLoad h s := rfl
@[simp] theorem exec_moduleLoadDone (h : Nat) : exec (.moduleLoadDone h) s = execModuleLoadDone h s := rfl
@[simp] theorem exec_moduleUnload (h : Nat) : exec (.moduleUnload h) s = execModuleUnload h s := rfl
@[simp] theorem exec_cuffMismatch (t : Nat) (group : Nat) (syn : W64) (fault : Bool) (diff : List (Nat × BitVec 8)) : exec (.cuffMismatch t group syn fault diff) s = execCuffMismatch t group syn fault diff s := rfl
@[simp] theorem exec_agreementExchange (t : Nat) (tries : Nat) : exec (.agreementExchange t tries) s = execAgreementExchange t tries s := rfl
@[simp] theorem exec_rearm (t : Nat) : exec (.rearm t) s = execRearm t s := rfl
@[simp] theorem exec_rearmDone (t : Nat) : exec (.rearmDone t) s = execRearmDone t s := rfl
@[simp] theorem exec_pairJoin (r : Nat) : exec (.pairJoin r) s = execPairJoin r s := rfl
@[simp] theorem exec_pairSplit (r : Nat) : exec (.pairSplit r) s = execPairSplit r s := rfl
@[simp] theorem exec_handoverSync (n : Nat) : exec (.handoverSync n) s = execHandoverSync n s := rfl
@[simp] theorem exec_cufHtoExpiry (n : Nat) : exec (.cufHtoExpiry n) s = execCufHtoExpiry n s := rfl
@[simp] theorem exec_create (r : Nat) : exec (.create r) s = execCreate r s := rfl
@[simp] theorem exec_map (r : Nat) : exec (.map r) s = execMap r s := rfl
@[simp] theorem exec_assignTiles (r : Nat) : exec (.assignTiles r) s = execAssignTiles r s := rfl
@[simp] theorem exec_assignEvents (r : Nat) : exec (.assignEvents r) s = execAssignEvents r s := rfl
@[simp] theorem exec_assignEp (r : Nat) : exec (.assignEp r) s = execAssignEp r s := rfl
@[simp] theorem exec_start (r : Nat) : exec (.start r) s = execStart r s := rfl
@[simp] theorem exec_park (r : Nat) : exec (.park r) s = execPark r s := rfl
@[simp] theorem exec_resume (r : Nat) : exec (.resume r) s = execResume r s := rfl
@[simp] theorem exec_stop (r : Nat) : exec (.stop r) s = execStop r s := rfl
@[simp] theorem exec_switch (r : Nat) : exec (.switch r) s = execSwitch r s := rfl
@[simp] theorem exec_migrateOut (r : Nat) : exec (.migrateOut r) s = execMigrateOut r s := rfl
@[simp] theorem exec_migrateIn (r : Nat) : exec (.migrateIn r) s = execMigrateIn r s := rfl
@[simp] theorem exec_copy (h : Nat) (n : Nat) : exec (.copy h n) s = execCopy h n s := rfl
@[simp] theorem exec_fill (h : Nat) (n : Nat) : exec (.fill h n) s = execFill h n s := rfl
@[simp] theorem exec_compress (h : Nat) (n : Nat) : exec (.compress h n) s = execCompress h n s := rfl
@[simp] theorem exec_decompress (h : Nat) (n : Nat) : exec (.decompress h n) s = execDecompress h n s := rfl
@[simp] theorem exec_powerClockTarget (r : Nat) : exec (.powerClockTarget r) s = execPowerClockTarget r s := rfl
@[simp] theorem exec_powerSegmentKeep (r : Nat) : exec (.powerSegmentKeep r) s = execPowerSegmentKeep r s := rfl
@[simp] theorem exec_powerSelfRefreshEntry (r : Nat) : exec (.powerSelfRefreshEntry r) s = execPowerSelfRefreshEntry r s := rfl
@[simp] theorem exec_powerSelfRefreshExit (r : Nat) : exec (.powerSelfRefreshExit r) s = execPowerSelfRefreshExit r s := rfl
@[simp] theorem exec_powerLinkState (r : Nat) (part : Nat) (leave : Nat) : exec (.powerLinkState r part leave) s = execPowerLinkState r part leave s := rfl
@[simp] theorem exec_powerTileEntry (r : Nat) : exec (.powerTileEntry r) s = execPowerTileEntry r s := rfl
@[simp] theorem exec_powerTileWake (r : Nat) : exec (.powerTileWake r) s = execPowerTileWake r s := rfl
@[simp] theorem exec_meterCfg (r : Nat) : exec (.meterCfg r) s = execMeterCfg r s := rfl
@[simp] theorem exec_routeSet (r : Nat) : exec (.routeSet r) s = execRouteSet r s := rfl
@[simp] theorem exec_scrubRange (r : Nat) : exec (.scrubRange r) s = execScrubRange r s := rfl
@[simp] theorem exec_timeSet (r : Nat) : exec (.timeSet r) s = execTimeSet r s := rfl
@[simp] theorem exec_arrayBist (r : Nat) : exec (.arrayBist r) s = execArrayBist r s := rfl
@[simp] theorem exec_cuffInjectionTest (r : Nat) : exec (.cuffInjectionTest r) s = execCuffInjectionTest r s := rfl
@[simp] theorem exec_sliceBist (r : Nat) : exec (.sliceBist r) s = execSliceBist r s := rfl
@[simp] theorem exec_marchTest (r : Nat) : exec (.marchTest r) s = execMarchTest r s := rfl
@[simp] theorem exec_keeperSramBist (r : Nat) : exec (.keeperSramBist r) s = execKeeperSramBist r s := rfl
@[simp] theorem exec_enginePatternTest (r : Nat) : exec (.enginePatternTest r) s = execEnginePatternTest r s := rfl
@[simp] theorem exec_portLoopback (r : Nat) : exec (.portLoopback r) s = execPortLoopback r s := rfl
@[simp] theorem exec_retrainNow (r : Nat) : exec (.retrainNow r) s = execRetrainNow r s := rfl
@[simp] theorem exec_sensorCalibration (r : Nat) : exec (.sensorCalibration r) s = execSensorCalibration r s := rfl
@[simp] theorem exec_selfTestDone (r : Nat) (pass : Bool) (st : BitVec 4) (cnt : BitVec 32) (gp : BitVec 7) : exec (.selfTestDone r pass st cnt gp) s = execSelfTestDone r pass st cnt gp s := rfl
@[simp] theorem exec_periodBoundary : exec (.periodBoundary) s = execPeriodBoundary s := rfl
@[simp] theorem exec_recordWrite : exec (.recordWrite) s = execRecordWrite s := rfl
@[simp] theorem exec_mtrCtlWrite (v : W32) : exec (.mtrCtlWrite v) s = execMtrCtlWrite v s := rfl
@[simp] theorem exec_mtrRingBaseWrite (v : W64) : exec (.mtrRingBaseWrite v) s = execMtrRingBaseWrite v s := rfl
@[simp] theorem exec_mtrRingTailWrite (v : W32) : exec (.mtrRingTailWrite v) s = execMtrRingTailWrite v s := rfl
@[simp] theorem exec_hosterrClear : exec (.hosterrClear) s = execHosterrClear s := rfl
@[simp] theorem exec_domLockclr (d : Nat) : exec (.domLockclr d) s = execDomLockclr d s := rfl
@[simp] theorem exec_domCtxbaseWrite (d : Nat) (v : W64) : exec (.domCtxbaseWrite d v) s = execDomCtxbaseWrite d v s := rfl
@[simp] theorem exec_evtTrig (src : Nat) : exec (.evtTrig src) s = execEvtTrig src s := rfl
@[simp] theorem exec_trig (n : Nat) (dom : Nat) (v : Nat) : exec (.trig n dom v) s = execTrig n dom v s := rfl
@[simp] theorem exec_pendSet (src : Nat) : exec (.pendSet src) s = execPendSet src s := rfl
@[simp] theorem exec_clrp (src : Nat) : exec (.clrp src) s = execClrp src s := rfl
@[simp] theorem exec_causeClear (src : Nat) (mask : Nat) : exec (.causeClear src mask) s = execCauseClear src mask s := rfl
@[simp] theorem exec_evtCfgWrite (src : Nat) (v : Nat) : exec (.evtCfgWrite src v) s = execEvtCfgWrite src v s := rfl
@[simp] theorem exec_evtDesigWrite (d : Nat) (v : Nat) : exec (.evtDesigWrite d v) s = execEvtDesigWrite d v s := rfl
@[simp] theorem exec_evtTpgWrite (n : Nat) (v : Nat) : exec (.evtTpgWrite n v) s = execEvtTpgWrite n v s := rfl
@[simp] theorem exec_presentation (src : Nat) : exec (.presentation src) s = execPresentation src s := rfl
@[simp] theorem exec_msixMessage (src : Nat) : exec (.msixMessage src) s = execMsixMessage src s := rfl
@[simp] theorem exec_configurationRequest (off : Nat) (wr : Bool) (be : BitVec 4) (v : W32) : exec (.configurationRequest off wr be v) s = execConfigurationRequest off wr be v s := rfl
@[simp] theorem exec_bar0Read (off : Nat) (len : Nat) : exec (.bar0Read off len) s = execBar0Read off len s := rfl
@[simp] theorem exec_bar0Write (off : Nat) (len : Nat) (v : W64) : exec (.bar0Write off len v) s = execBar0Write off len v s := rfl
@[simp] theorem exec_bar2Read (off : Nat) (len : Nat) : exec (.bar2Read off len) s = execBar2Read off len s := rfl
@[simp] theorem exec_bar2Write (off : Nat) (data : List (BitVec 8)) (be : List Bool) : exec (.bar2Write off data be) s = execBar2Write off data be s := rfl
@[simp] theorem exec_hostCompletion (tag : Nat) (status : Nat) (data : List (BitVec 8)) : exec (.hostCompletion tag status data) s = execHostCompletion tag status data s := rfl
@[simp] theorem exec_completionTimeout (tag : Nat) : exec (.completionTimeout tag) s = execCompletionTimeout tag s := rfl
@[simp] theorem exec_tagQuarantineEnd (tag : Nat) : exec (.tagQuarantineEnd tag) s = execTagQuarantineEnd tag s := rfl
@[simp] theorem exec_dlActiveLoss (kind : Nat) : exec (.dlActiveLoss kind) s = execDlActiveLoss kind s := rfl
@[simp] theorem exec_dataLinkProtocolError : exec (.dataLinkProtocolError) s = execDataLinkProtocolError s := rfl
@[simp] theorem exec_flowControlProtocolError : exec (.flowControlProtocolError) s = execFlowControlProtocolError s := rfl
@[simp] theorem exec_receiverOverflow : exec (.receiverOverflow) s = execReceiverOverflow s := rfl
@[simp] theorem exec_malformedTlp : exec (.malformedTlp) s = execMalformedTlp s := rfl
@[simp] theorem exec_uncorrectableInternalError : exec (.uncorrectableInternalError) s = execUncorrectableInternalError s := rfl
@[simp] theorem exec_release : exec (.release) s = execRelease s := rfl
@[simp] theorem exec_releaseDone : exec (.releaseDone) s = execReleaseDone s := rfl
@[simp] theorem exec_busMasterEnableClear : exec (.busMasterEnableClear) s = execBusMasterEnableClear s := rfl
@[simp] theorem exec_busMasterEnableSet : exec (.busMasterEnableSet) s = execBusMasterEnableSet s := rfl
@[simp] theorem exec_d3hotEntry : exec (.d3hotEntry) s = execD3hotEntry s := rfl
@[simp] theorem exec_functionLevelReset : exec (.functionLevelReset) s = execFunctionLevelReset s := rfl
@[simp] theorem exec_flrDone : exec (.flrDone) s = execFlrDone s := rfl
@[simp] theorem exec_hepIwinWrite (w : Nat) (o : Nat) (size : Nat) (v : W64) : exec (.hepIwinWrite w o size v) s = execHepIwinWrite w o size v s := rfl
@[simp] theorem exec_hepOwinWrite (w : Nat) (o : Nat) (size : Nat) (v : W64) : exec (.hepOwinWrite w o size v) s = execHepOwinWrite w o size v s := rfl
@[simp] theorem exec_hepClr : exec (.hepClr) s = execHepClr s := rfl
@[simp] theorem exec_cmdRingDb (r : Nat) (v : W32) : exec (.cmdRingDb r v) s = execCmdRingDb r v s := rfl
@[simp] theorem exec_cmdCqTail (r : Nat) (v : W32) : exec (.cmdCqTail r v) s = execCmdCqTail r v s := rfl
@[simp] theorem exec_cmdRingRestart (r : Nat) : exec (.cmdRingRestart r) s = execCmdRingRestart r s := rfl
@[simp] theorem exec_cmdRingEnWrite (r : Nat) (v : W32) : exec (.cmdRingEnWrite r v) s = execCmdRingEnWrite r v s := rfl
@[simp] theorem exec_descriptorFetch (r : Nat) : exec (.descriptorFetch r) s = execDescriptorFetch r s := rfl
@[simp] theorem exec_cmdClr : exec (.cmdClr) s = execCmdClr s := rfl
@[simp] theorem exec_cmdMonack (c : Nat) (v : W32) : exec (.cmdMonack c v) s = execCmdMonack c v s := rfl
@[simp] theorem exec_monitorTimeout (r : Nat) : exec (.monitorTimeout r) s = execMonitorTimeout r s := rfl
@[simp] theorem exec_trDb (h : Nat) (t : Nat) (v : W32) : exec (.trDb h t v) s = execTrDb h t v s := rfl
@[simp] theorem exec_trTail (h : Nat) (t : Nat) (v : W32) : exec (.trTail h t v) s = execTrTail h t v s := rfl
@[simp] theorem exec_trRestart (h : Nat) (t : Nat) : exec (.trRestart h t) s = execTrRestart h t s := rfl
@[simp] theorem exec_engineJobStart (h : Nat) : exec (.engineJobStart h) s = execEngineJobStart h s := rfl
@[simp] theorem exec_cmpClr (h : Nat) : exec (.cmpClr h) s = execCmpClr h s := rfl
@[simp] theorem exec_frameReceive (p : Nat) (frame : BitVec 336) : exec (.frameReceive p frame) s = execFrameReceive p frame s := rfl
@[simp] theorem exec_nak (p : Nat) : exec (.nak p) s = execNak p s := rfl
@[simp] theorem exec_replayTimeout (p : Nat) : exec (.replayTimeout p) s = execReplayTimeout p s := rfl
@[simp] theorem exec_linkLoss (p : Nat) : exec (.linkLoss p) s = execLinkLoss p s := rfl
@[simp] theorem exec_linkUp (p : Nat) : exec (.linkUp p) s = execLinkUp p s := rfl
@[simp] theorem exec_rdLine (k : Nat) : exec (.rdLine k) s = execRdLine k s := rfl
@[simp] theorem exec_wrLine (k : Nat) : exec (.wrLine k) s = execWrLine k s := rfl
@[simp] theorem exec_wrPart (k : Nat) : exec (.wrPart k) s = execWrPart k s := rfl
@[simp] theorem exec_fabAtomic (k : Nat) : exec (.fabAtomic k) s = execFabAtomic k s := rfl
@[simp] theorem exec_msg (k : Nat) : exec (.msg k) s = execMsg k s := rfl
@[simp] theorem exec_rdRsp (k : Nat) : exec (.rdRsp k) s = execRdRsp k s := rfl
@[simp] theorem exec_ack (k : Nat) : exec (.ack k) s = execAck k s := rfl
@[simp] theorem exec_atomRsp (k : Nat) : exec (.atomRsp k) s = execAtomRsp k s := rfl
@[simp] theorem exec_err (k : Nat) : exec (.err k) s = execErr k s := rfl
@[simp] theorem exec_routeUnavail (k : Nat) : exec (.routeUnavail k) s = execRouteUnavail k s := rfl
@[simp] theorem exec_transitForward : exec (.transitForward) s = execTransitForward s := rfl
@[simp] theorem exec_remoteTimeout (tag : Nat) : exec (.remoteTimeout tag) s = execRemoteTimeout tag s := rfl
@[simp] theorem exec_remoteTagRelease (tag : Nat) : exec (.remoteTagRelease tag) s = execRemoteTagRelease tag s := rfl
@[simp] theorem exec_drain (p : Nat) : exec (.drain p) s = execDrain p s := rfl
@[simp] theorem exec_drainDone (p : Nat) : exec (.drainDone p) s = execDrainDone p s := rfl
@[simp] theorem exec_undrain (p : Nat) : exec (.undrain p) s = execUndrain p s := rfl
@[simp] theorem exec_retrain (p : Nat) : exec (.retrain p) s = execRetrain p s := rfl
@[simp] theorem exec_holdExpiry (p : Nat) : exec (.holdExpiry p) s = execHoldExpiry p s := rfl
@[simp] theorem exec_fabDevnumWrite (v : W32) : exec (.fabDevnumWrite v) s = execFabDevnumWrite v s := rfl
@[simp] theorem exec_fabRtIdxWrite (v : W32) : exec (.fabRtIdxWrite v) s = execFabRtIdxWrite v s := rfl
@[simp] theorem exec_fabRwinWrite (n : Nat) (o : Nat) (size : Nat) (v : W64) : exec (.fabRwinWrite n o size v) s = execFabRwinWrite n o size v s := rfl
@[simp] theorem exec_sqDb (n : Nat) (v : W32) : exec (.sqDb n v) s = execSqDb n v s := rfl
@[simp] theorem exec_sqRestart (n : Nat) : exec (.sqRestart n) s = execSqRestart n s := rfl
@[simp] theorem exec_sendRingFetch (n : Nat) : exec (.sendRingFetch n) s = execSendRingFetch n s := rfl
@[simp] theorem exec_fabClr : exec (.fabClr) s = execFabClr s := rfl
@[simp] theorem exec_fabPortClr (p : Nat) : exec (.fabPortClr p) s = execFabPortClr p s := rfl
@[simp] theorem exec_preparationEnd (t : Nat) : exec (.preparationEnd t) s = execPreparationEnd t s := rfl
@[simp] theorem exec_preparationTimeout (t : Nat) : exec (.preparationTimeout t) s = execPreparationTimeout t s := rfl
@[simp] theorem exec_stateReached (t : Nat) : exec (.stateReached t) s = execStateReached t s := rfl
@[simp] theorem exec_wake (t : Nat) : exec (.wake t) s = execWake t s := rfl
@[simp] theorem exec_serviceWake (t : Nat) : exec (.serviceWake t) s = execServiceWake t s := rfl
@[simp] theorem exec_serviceReturnDone (t : Nat) : exec (.serviceReturnDone t) s = execServiceReturnDone t s := rfl
@[simp] theorem exec_exitDone (t : Nat) : exec (.exitDone t) s = execExitDone t s := rfl
@[simp] theorem exec_pwrHclr (h : Nat) : exec (.pwrHclr h) s = execPwrHclr h s := rfl
@[simp] theorem exec_pwrClr : exec (.pwrClr) s = execPwrClr s := rfl
@[simp] theorem exec_pmcCtlWrite (set : Nat) (n : Nat) (k : Nat) (v : W32) : exec (.pmcCtlWrite set n k v) s = execPmcCtlWrite set n k v s := rfl
@[simp] theorem exec_counterWrap (set : Nat) (n : Nat) (k : Nat) (inc : Nat) : exec (.counterWrap set n k inc) s = execCounterWrap set n k inc s := rfl
@[simp] theorem exec_freeze (on : Bool) : exec (.freeze on) s = execFreeze on s := rfl
@[simp] theorem exec_clrall : exec (.clrall) s = execClrall s := rfl
@[simp] theorem exec_recordAccept : exec (.recordAccept) s = execRecordAccept s := rfl
@[simp] theorem exec_persistentCopy (err : Bool) : exec (.persistentCopy err) s = execPersistentCopy err s := rfl
@[simp] theorem exec_flushDone : exec (.flushDone) s = execFlushDone s := rfl
@[simp] theorem exec_erCursorWrite (v : W64) : exec (.erCursorWrite v) s = execErCursorWrite v s := rfl
@[simp] theorem exec_erWindowAutoinc : exec (.erWindowAutoinc) s = execErWindowAutoinc s := rfl
@[simp] theorem exec_erClr (v : W32) : exec (.erClr v) s = execErClr v s := rfl
@[simp] theorem exec_clearDone : exec (.clearDone) s = execClearDone s := rfl
@[simp] theorem exec_ophoursSave : exec (.ophoursSave) s = execOphoursSave s := rfl
@[simp] theorem exec_powerOnReset : exec (.powerOnReset) s = execPowerOnReset s := rfl
@[simp] theorem exec_deviceReset (pairDef : Bool) (selftest : Bool) (bistFull : Bool) : exec (.deviceReset pairDef selftest bistFull) s = execDeviceReset pairDef selftest bistFull s := rfl
@[simp] theorem exec_bootCtl (v : W32) : exec (.bootCtl v) s = execBootCtl v s := rfl
@[simp] theorem exec_bootDone (chFail : Nat) (tests : List (Nat × BitVec 7)) (ms : Nat) : exec (.bootDone chFail tests ms) s = execBootDone chFail tests ms s := rfl
@[simp] theorem exec_secEnroll (slot : BitVec 2) (key : BitVec 8) : exec (.secEnroll slot key) s = execSecEnroll slot key s := rfl
@[simp] theorem exec_secRevoke (slot : BitVec 2) (key : BitVec 8) : exec (.secRevoke slot key) s = execSecRevoke slot key s := rfl
@[simp] theorem exec_secRollWrite (n : Nat) (v : W32) : exec (.secRollWrite n v) s = execSecRollWrite n v s := rfl
@[simp] theorem exec_secKeyroll (v : W32) : exec (.secKeyroll v) s = execSecKeyroll v s := rfl
@[simp] theorem exec_railMonitorTrip (rail : Nat) : exec (.railMonitorTrip rail) s = execRailMonitorTrip rail s := rfl
@[simp] theorem exec_thermtrip : exec (.thermtrip) s = execThermtrip s := rfl
@[simp] theorem exec_pwrlimN (low : Bool) : exec (.pwrlimN low) s = execPwrlimN low s := rfl
@[simp] theorem exec_pwrwarnN : exec (.pwrwarnN) s = execPwrwarnN s := rfl
@[simp] theorem exec_flashOwnN (low : Bool) (imgs : List (List Nat)) : exec (.flashOwnN low imgs) s = execFlashOwnN low imgs s := rfl
@[simp] theorem exec_smbusBlockRead (code : Nat) : exec (.smbusBlockRead code) s = execSmbusBlockRead code s := rfl
@[simp] theorem exec_bypass : exec (.bypass) s = execBypass s := rfl
@[simp] theorem exec_idcode : exec (.idcode) s = execIdcode s := rfl
@[simp] theorem exec_samplePreload (v : List Bool) : exec (.samplePreload v) s = execSamplePreload v s := rfl
@[simp] theorem exec_extest : exec (.extest) s = execExtest s := rfl
@[simp] theorem exec_registerWrite (off : Nat) (size : Nat) (v : W64) (dom : Nat) : exec (.registerWrite off size v dom) s = execRegisterWrite off size v dom s := rfl
@[simp] theorem exec_illegalInstruction (a : Agent) (word : W32) : exec (.illegalInstruction a word) s = execIllegalInstruction a word s := rfl
@[simp] theorem exec_dlActive (speed : Nat) (width : Nat) : exec (.dlActive speed width) s = execDlActive speed width s := rfl
@[simp] theorem exec_porNLow : exec (.porNLow) s = execPorNLow s := rfl
@[simp] theorem exec_railInTolerance (rail : Nat) : exec (.railInTolerance rail) s = execRailInTolerance rail s := rfl
@[simp] theorem exec_fabPortCtlEn (p : Nat) (en : Bool) : exec (.fabPortCtlEn p en) s = execFabPortCtlEn p en s := rfl
@[simp] theorem exec_cmpTrCfgWrite (h : Nat) (t : Nat) (v : W32) : exec (.cmpTrCfgWrite h t v) s = execCmpTrCfgWrite h t v s := rfl
@[simp] theorem exec_fabSqCfgWrite (n : Nat) (v : W32) : exec (.fabSqCfgWrite n v) s = execFabSqCfgWrite n v s := rfl

end Sys2Proof.Laws
end

