-- ==== Sys2Proof/Laws/State.lean ====
section
/-! SUPPORT. For each update of one part of the state, and each other part: the update leaves that part as it was. -/

namespace Sys2Proof.Laws
open Sys2Proof Sys2Proof.Machine

variable (s : State)

@[simp] theorem setF_time (x : Fld) (v : Nat) : (s.setF x v).time = s.time := rfl
@[simp] theorem setF_ns (x : Fld) (v : Nat) : (s.setF x v).ns = s.ns := rfl
@[simp] theorem setF_free (x : Fld) (v : Nat) : (s.setF x v).free = s.free := rfl
@[simp] theorem setF_cores (x : Fld) (v : Nat) : (s.setF x v).cores = s.cores := rfl
@[simp] theorem setF_keepers (x : Fld) (v : Nat) : (s.setF x v).keepers = s.keepers := rfl
@[simp] theorem setF_ksram (x : Fld) (v : Nat) : (s.setF x v).ksram = s.ksram := rfl
@[simp] theorem setF_ksramBad (x : Fld) (v : Nat) : (s.setF x v).ksramBad = s.ksramBad := rfl
@[simp] theorem setF_tileDom (x : Fld) (v : Nat) : (s.setF x v).tileDom = s.tileDom := rfl
@[simp] theorem setF_caches (x : Fld) (v : Nat) : (s.setF x v).caches = s.caches := rfl
@[simp] theorem setF_l2plru (x : Fld) (v : Nat) : (s.setF x v).l2plru = s.l2plru := rfl
@[simp] theorem setF_dir (x : Fld) (v : Nat) : (s.setF x v).dir = s.dir := rfl
@[simp] theorem setF_dirPlru (x : Fld) (v : Nat) : (s.setF x v).dirPlru = s.dirPlru := rfl
@[simp] theorem setF_llc (x : Fld) (v : Nat) : (s.setF x v).llc = s.llc := rfl
@[simp] theorem setF_llcPlru (x : Fld) (v : Nat) : (s.setF x v).llcPlru = s.llcPlru := rfl
@[simp] theorem setF_setCnt (x : Fld) (v : Nat) : (s.setF x v).setCnt = s.setCnt := rfl
@[simp] theorem setF_txns (x : Fld) (v : Nat) : (s.setF x v).txns = s.txns := rfl
@[simp] theorem setF_pendQ (x : Fld) (v : Nat) : (s.setF x v).pendQ = s.pendQ := rfl
@[simp] theorem setF_retryQ (x : Fld) (v : Nat) : (s.setF x v).retryQ = s.retryQ := rfl
@[simp] theorem setF_msgs (x : Fld) (v : Nat) : (s.setF x v).msgs = s.msgs := rfl
@[simp] theorem setF_chans (x : Fld) (v : Nat) : (s.setF x v).chans = s.chans := rfl
@[simp] theorem setF_dram (x : Fld) (v : Nat) : (s.setF x v).dram = s.dram := rfl
@[simp] theorem setF_dramEp (x : Fld) (v : Nat) : (s.setF x v).dramEp = s.dramEp := rfl
@[simp] theorem setF_devRep (x : Fld) (v : Nat) : (s.setF x v).devRep = s.devRep := rfl
@[simp] theorem setF_arrivals (x : Fld) (v : Nat) : (s.setF x v).arrivals = s.arrivals := rfl
@[simp] theorem setF_mtr (x : Fld) (v : Nat) : (s.setF x v).mtr = s.mtr := rfl
@[simp] theorem setF_er (x : Fld) (v : Nat) : (s.setF x v).er = s.er := rfl
@[simp] theorem setF_tileSvc (x : Fld) (v : Nat) : (s.setF x v).tileSvc = s.tileSvc := rfl
@[simp] theorem setF_tileClk (x : Fld) (v : Nat) : (s.setF x v).tileClk = s.tileClk := rfl
@[simp] theorem setF_routes (x : Fld) (v : Nat) : (s.setF x v).routes = s.routes := rfl
@[simp] theorem setF_ftags (x : Fld) (v : Nat) : (s.setF x v).ftags = s.ftags := rfl
@[simp] theorem setF_fquar (x : Fld) (v : Nat) : (s.setF x v).fquar = s.fquar := rfl
@[simp] theorem setF_ports (x : Fld) (v : Nat) : (s.setF x v).ports = s.ports := rfl
@[simp] theorem setF_transit (x : Fld) (v : Nat) : (s.setF x v).transit = s.transit := rfl
@[simp] theorem setF_fabIn (x : Fld) (v : Nat) : (s.setF x v).fabIn = s.fabIn := rfl
@[simp] theorem setF_jobRx (x : Fld) (v : Nat) : (s.setF x v).jobRx = s.jobRx := rfl
@[simp] theorem setF_outq (x : Fld) (v : Nat) : (s.setF x v).outq = s.outq := rfl
@[simp] theorem setF_htags (x : Fld) (v : Nat) : (s.setF x v).htags = s.htags := rfl
@[simp] theorem setF_hquar (x : Fld) (v : Nat) : (s.setF x v).hquar = s.hquar := rfl
@[simp] theorem setF_tx (x : Fld) (v : Nat) : (s.setF x v).tx = s.tx := rfl
@[simp] theorem setF_msix (x : Fld) (v : Nat) : (s.setF x v).msix = s.msix := rfl
@[simp] theorem setF_cfg (x : Fld) (v : Nat) : (s.setF x v).cfg = s.cfg := rfl
@[simp] theorem setF_staged (x : Fld) (v : Nat) : (s.setF x v).staged = s.staged := rfl
@[simp] theorem setF_hepAt (x : Fld) (v : Nat) : (s.setF x v).hepAt = s.hepAt := rfl
@[simp] theorem setF_hepWas (x : Fld) (v : Nat) : (s.setF x v).hepWas = s.hepWas := rfl
@[simp] theorem setF_cmds (x : Fld) (v : Nat) : (s.setF x v).cmds = s.cmds := rfl
@[simp] theorem setF_heldC (x : Fld) (v : Nat) : (s.setF x v).heldC = s.heldC := rfl
@[simp] theorem setF_engines (x : Fld) (v : Nat) : (s.setF x v).engines = s.engines := rfl
@[simp] theorem setF_tjobs (x : Fld) (v : Nat) : (s.setF x v).tjobs = s.tjobs := rfl
@[simp] theorem setF_tilePark (x : Fld) (v : Nat) : (s.setF x v).tilePark = s.tilePark := rfl
@[simp] theorem setF_stopDom (x : Fld) (v : Nat) : (s.setF x v).stopDom = s.stopDom := rfl
@[simp] theorem setF_tilePwr (x : Fld) (v : Nat) : (s.setF x v).tilePwr = s.tilePwr := rfl
@[simp] theorem setF_mode (x : Fld) (v : Nat) : (s.setF x v).mode = s.mode := rfl
@[simp] theorem setF_meshIn (x : Fld) (v : Nat) : (s.setF x v).meshIn = s.meshIn := rfl
@[simp] theorem setF_meshRr (x : Fld) (v : Nat) : (s.setF x v).meshRr = s.meshRr := rfl
@[simp] theorem setF_meshQat (x : Fld) (v : Nat) : (s.setF x v).meshQat = s.meshQat := rfl
@[simp] theorem setF_meshIdle (x : Fld) (v : Nat) : (s.setF x v).meshIdle = s.meshIdle := rfl
@[simp] theorem setF_meshHeld (x : Fld) (v : Nat) : (s.setF x v).meshHeld = s.meshHeld := rfl
@[simp] theorem setF_lockQ (x : Fld) (v : Nat) : (s.setF x v).lockQ = s.lockQ := rfl
@[simp] theorem setF_outReq (x : Fld) (v : Nat) : (s.setF x v).outReq = s.outReq := rfl
@[simp] theorem setF_fillQ (x : Fld) (v : Nat) : (s.setF x v).fillQ = s.fillQ := rfl
@[simp] theorem setF_meshAt (x : Fld) (v : Nat) : (s.setF x v).meshAt = s.meshAt := rfl
@[simp] theorem setF_mper (x : Fld) (v : Nat) : (s.setF x v).mper = s.mper := rfl
@[simp] theorem setF_backlog (x : Fld) (v : Nat) : (s.setF x v).backlog = s.backlog := rfl
@[simp] theorem setF_mstall (x : Fld) (v : Nat) : (s.setF x v).mstall = s.mstall := rfl
@[simp] theorem setF_mbands (x : Fld) (v : Nat) : (s.setF x v).mbands = s.mbands := rfl
@[simp] theorem setF_msec (x : Fld) (v : Nat) : (s.setF x v).msec = s.msec := rfl
@[simp] theorem setF_mbound (x : Fld) (v : Nat) : (s.setF x v).mbound = s.mbound := rfl
@[simp] theorem setF_mkey (x : Fld) (v : Nat) : (s.setF x v).mkey = s.mkey := rfl
@[simp] theorem setF_pins (x : Fld) (v : Nat) : (s.setF x v).pins = s.pins := rfl
@[simp] theorem setF_fuses (x : Fld) (v : Nat) : (s.setF x v).fuses = s.fuses := rfl
@[simp] theorem setF_flash (x : Fld) (v : Nat) : (s.setF x v).flash = s.flash := rfl
@[simp] theorem setF_enroll (x : Fld) (v : Nat) : (s.setF x v).enroll = s.enroll := rfl
@[simp] theorem setF_rearm (x : Fld) (v : Nat) : (s.setF x v).rearm = s.rearm := rfl
@[simp] theorem setF_aborts (x : Fld) (v : Nat) : (s.setF x v).aborts = s.aborts := rfl
@[simp] theorem setF_temps (x : Fld) (v : Nat) : (s.setF x v).temps = s.temps := rfl
@[simp] theorem setF_clearAt (x : Fld) (v : Nat) : (s.setF x v).clearAt = s.clearAt := rfl
@[simp] theorem setF_capAt (x : Fld) (v : Nat) : (s.setF x v).capAt = s.capAt := rfl
@[simp] theorem setF_pending (x : Fld) (v : Nat) : (s.setF x v).pending = s.pending := rfl

@[simp] theorem setCore_csr (c : Nat) (k : Core) : (s.setCore c k).csr = s.csr := rfl
@[simp] theorem setCore_time (c : Nat) (k : Core) : (s.setCore c k).time = s.time := rfl
@[simp] theorem setCore_ns (c : Nat) (k : Core) : (s.setCore c k).ns = s.ns := rfl
@[simp] theorem setCore_free (c : Nat) (k : Core) : (s.setCore c k).free = s.free := rfl
@[simp] theorem setCore_keepers (c : Nat) (k : Core) : (s.setCore c k).keepers = s.keepers := rfl
@[simp] theorem setCore_ksram (c : Nat) (k : Core) : (s.setCore c k).ksram = s.ksram := rfl
@[simp] theorem setCore_ksramBad (c : Nat) (k : Core) : (s.setCore c k).ksramBad = s.ksramBad := rfl
@[simp] theorem setCore_tileDom (c : Nat) (k : Core) : (s.setCore c k).tileDom = s.tileDom := rfl
@[simp] theorem setCore_caches (c : Nat) (k : Core) : (s.setCore c k).caches = s.caches := rfl
@[simp] theorem setCore_l2plru (c : Nat) (k : Core) : (s.setCore c k).l2plru = s.l2plru := rfl
@[simp] theorem setCore_dir (c : Nat) (k : Core) : (s.setCore c k).dir = s.dir := rfl
@[simp] theorem setCore_dirPlru (c : Nat) (k : Core) : (s.setCore c k).dirPlru = s.dirPlru := rfl
@[simp] theorem setCore_llc (c : Nat) (k : Core) : (s.setCore c k).llc = s.llc := rfl
@[simp] theorem setCore_llcPlru (c : Nat) (k : Core) : (s.setCore c k).llcPlru = s.llcPlru := rfl
@[simp] theorem setCore_setCnt (c : Nat) (k : Core) : (s.setCore c k).setCnt = s.setCnt := rfl
@[simp] theorem setCore_txns (c : Nat) (k : Core) : (s.setCore c k).txns = s.txns := rfl
@[simp] theorem setCore_pendQ (c : Nat) (k : Core) : (s.setCore c k).pendQ = s.pendQ := rfl
@[simp] theorem setCore_retryQ (c : Nat) (k : Core) : (s.setCore c k).retryQ = s.retryQ := rfl
@[simp] theorem setCore_msgs (c : Nat) (k : Core) : (s.setCore c k).msgs = s.msgs := rfl
@[simp] theorem setCore_chans (c : Nat) (k : Core) : (s.setCore c k).chans = s.chans := rfl
@[simp] theorem setCore_dram (c : Nat) (k : Core) : (s.setCore c k).dram = s.dram := rfl
@[simp] theorem setCore_dramEp (c : Nat) (k : Core) : (s.setCore c k).dramEp = s.dramEp := rfl
@[simp] theorem setCore_devRep (c : Nat) (k : Core) : (s.setCore c k).devRep = s.devRep := rfl
@[simp] theorem setCore_arrivals (c : Nat) (k : Core) : (s.setCore c k).arrivals = s.arrivals := rfl
@[simp] theorem setCore_mtr (c : Nat) (k : Core) : (s.setCore c k).mtr = s.mtr := rfl
@[simp] theorem setCore_er (c : Nat) (k : Core) : (s.setCore c k).er = s.er := rfl
@[simp] theorem setCore_tileSvc (c : Nat) (k : Core) : (s.setCore c k).tileSvc = s.tileSvc := rfl
@[simp] theorem setCore_tileClk (c : Nat) (k : Core) : (s.setCore c k).tileClk = s.tileClk := rfl
@[simp] theorem setCore_routes (c : Nat) (k : Core) : (s.setCore c k).routes = s.routes := rfl
@[simp] theorem setCore_ftags (c : Nat) (k : Core) : (s.setCore c k).ftags = s.ftags := rfl
@[simp] theorem setCore_fquar (c : Nat) (k : Core) : (s.setCore c k).fquar = s.fquar := rfl
@[simp] theorem setCore_ports (c : Nat) (k : Core) : (s.setCore c k).ports = s.ports := rfl
@[simp] theorem setCore_transit (c : Nat) (k : Core) : (s.setCore c k).transit = s.transit := rfl
@[simp] theorem setCore_fabIn (c : Nat) (k : Core) : (s.setCore c k).fabIn = s.fabIn := rfl
@[simp] theorem setCore_jobRx (c : Nat) (k : Core) : (s.setCore c k).jobRx = s.jobRx := rfl
@[simp] theorem setCore_outq (c : Nat) (k : Core) : (s.setCore c k).outq = s.outq := rfl
@[simp] theorem setCore_htags (c : Nat) (k : Core) : (s.setCore c k).htags = s.htags := rfl
@[simp] theorem setCore_hquar (c : Nat) (k : Core) : (s.setCore c k).hquar = s.hquar := rfl
@[simp] theorem setCore_tx (c : Nat) (k : Core) : (s.setCore c k).tx = s.tx := rfl
@[simp] theorem setCore_msix (c : Nat) (k : Core) : (s.setCore c k).msix = s.msix := rfl
@[simp] theorem setCore_cfg (c : Nat) (k : Core) : (s.setCore c k).cfg = s.cfg := rfl
@[simp] theorem setCore_staged (c : Nat) (k : Core) : (s.setCore c k).staged = s.staged := rfl
@[simp] theorem setCore_hepAt (c : Nat) (k : Core) : (s.setCore c k).hepAt = s.hepAt := rfl
@[simp] theorem setCore_hepWas (c : Nat) (k : Core) : (s.setCore c k).hepWas = s.hepWas := rfl
@[simp] theorem setCore_cmds (c : Nat) (k : Core) : (s.setCore c k).cmds = s.cmds := rfl
@[simp] theorem setCore_heldC (c : Nat) (k : Core) : (s.setCore c k).heldC = s.heldC := rfl
@[simp] theorem setCore_engines (c : Nat) (k : Core) : (s.setCore c k).engines = s.engines := rfl
@[simp] theorem setCore_tjobs (c : Nat) (k : Core) : (s.setCore c k).tjobs = s.tjobs := rfl
@[simp] theorem setCore_tilePark (c : Nat) (k : Core) : (s.setCore c k).tilePark = s.tilePark := rfl
@[simp] theorem setCore_stopDom (c : Nat) (k : Core) : (s.setCore c k).stopDom = s.stopDom := rfl
@[simp] theorem setCore_tilePwr (c : Nat) (k : Core) : (s.setCore c k).tilePwr = s.tilePwr := rfl
@[simp] theorem setCore_mode (c : Nat) (k : Core) : (s.setCore c k).mode = s.mode := rfl
@[simp] theorem setCore_meshIn (c : Nat) (k : Core) : (s.setCore c k).meshIn = s.meshIn := rfl
@[simp] theorem setCore_meshRr (c : Nat) (k : Core) : (s.setCore c k).meshRr = s.meshRr := rfl
@[simp] theorem setCore_meshQat (c : Nat) (k : Core) : (s.setCore c k).meshQat = s.meshQat := rfl
@[simp] theorem setCore_meshIdle (c : Nat) (k : Core) : (s.setCore c k).meshIdle = s.meshIdle := rfl
@[simp] theorem setCore_meshHeld (c : Nat) (k : Core) : (s.setCore c k).meshHeld = s.meshHeld := rfl
@[simp] theorem setCore_lockQ (c : Nat) (k : Core) : (s.setCore c k).lockQ = s.lockQ := rfl
@[simp] theorem setCore_outReq (c : Nat) (k : Core) : (s.setCore c k).outReq = s.outReq := rfl
@[simp] theorem setCore_fillQ (c : Nat) (k : Core) : (s.setCore c k).fillQ = s.fillQ := rfl
@[simp] theorem setCore_meshAt (c : Nat) (k : Core) : (s.setCore c k).meshAt = s.meshAt := rfl
@[simp] theorem setCore_mper (c : Nat) (k : Core) : (s.setCore c k).mper = s.mper := rfl
@[simp] theorem setCore_backlog (c : Nat) (k : Core) : (s.setCore c k).backlog = s.backlog := rfl
@[simp] theorem setCore_mstall (c : Nat) (k : Core) : (s.setCore c k).mstall = s.mstall := rfl
@[simp] theorem setCore_mbands (c : Nat) (k : Core) : (s.setCore c k).mbands = s.mbands := rfl
@[simp] theorem setCore_msec (c : Nat) (k : Core) : (s.setCore c k).msec = s.msec := rfl
@[simp] theorem setCore_mbound (c : Nat) (k : Core) : (s.setCore c k).mbound = s.mbound := rfl
@[simp] theorem setCore_mkey (c : Nat) (k : Core) : (s.setCore c k).mkey = s.mkey := rfl
@[simp] theorem setCore_pins (c : Nat) (k : Core) : (s.setCore c k).pins = s.pins := rfl
@[simp] theorem setCore_fuses (c : Nat) (k : Core) : (s.setCore c k).fuses = s.fuses := rfl
@[simp] theorem setCore_flash (c : Nat) (k : Core) : (s.setCore c k).flash = s.flash := rfl
@[simp] theorem setCore_enroll (c : Nat) (k : Core) : (s.setCore c k).enroll = s.enroll := rfl
@[simp] theorem setCore_rearm (c : Nat) (k : Core) : (s.setCore c k).rearm = s.rearm := rfl
@[simp] theorem setCore_aborts (c : Nat) (k : Core) : (s.setCore c k).aborts = s.aborts := rfl
@[simp] theorem setCore_temps (c : Nat) (k : Core) : (s.setCore c k).temps = s.temps := rfl
@[simp] theorem setCore_clearAt (c : Nat) (k : Core) : (s.setCore c k).clearAt = s.clearAt := rfl
@[simp] theorem setCore_capAt (c : Nat) (k : Core) : (s.setCore c k).capAt = s.capAt := rfl
@[simp] theorem setCore_pending (c : Nat) (k : Core) : (s.setCore c k).pending = s.pending := rfl

@[simp] theorem updCore_csr (c : Nat) (f : Core → Core) : (s.updCore c f).csr = s.csr := rfl
@[simp] theorem updCore_time (c : Nat) (f : Core → Core) : (s.updCore c f).time = s.time := rfl
@[simp] theorem updCore_ns (c : Nat) (f : Core → Core) : (s.updCore c f).ns = s.ns := rfl
@[simp] theorem updCore_free (c : Nat) (f : Core → Core) : (s.updCore c f).free = s.free := rfl
@[simp] theorem updCore_keepers (c : Nat) (f : Core → Core) : (s.updCore c f).keepers = s.keepers := rfl
@[simp] theorem updCore_ksram (c : Nat) (f : Core → Core) : (s.updCore c f).ksram = s.ksram := rfl
@[simp] theorem updCore_ksramBad (c : Nat) (f : Core → Core) : (s.updCore c f).ksramBad = s.ksramBad := rfl
@[simp] theorem updCore_tileDom (c : Nat) (f : Core → Core) : (s.updCore c f).tileDom = s.tileDom := rfl
@[simp] theorem updCore_caches (c : Nat) (f : Core → Core) : (s.updCore c f).caches = s.caches := rfl
@[simp] theorem updCore_l2plru (c : Nat) (f : Core → Core) : (s.updCore c f).l2plru = s.l2plru := rfl
@[simp] theorem updCore_dir (c : Nat) (f : Core → Core) : (s.updCore c f).dir = s.dir := rfl
@[simp] theorem updCore_dirPlru (c : Nat) (f : Core → Core) : (s.updCore c f).dirPlru = s.dirPlru := rfl
@[simp] theorem updCore_llc (c : Nat) (f : Core → Core) : (s.updCore c f).llc = s.llc := rfl
@[simp] theorem updCore_llcPlru (c : Nat) (f : Core → Core) : (s.updCore c f).llcPlru = s.llcPlru := rfl
@[simp] theorem updCore_setCnt (c : Nat) (f : Core → Core) : (s.updCore c f).setCnt = s.setCnt := rfl
@[simp] theorem updCore_txns (c : Nat) (f : Core → Core) : (s.updCore c f).txns = s.txns := rfl
@[simp] theorem updCore_pendQ (c : Nat) (f : Core → Core) : (s.updCore c f).pendQ = s.pendQ := rfl
@[simp] theorem updCore_retryQ (c : Nat) (f : Core → Core) : (s.updCore c f).retryQ = s.retryQ := rfl
@[simp] theorem updCore_msgs (c : Nat) (f : Core → Core) : (s.updCore c f).msgs = s.msgs := rfl
@[simp] theorem updCore_chans (c : Nat) (f : Core → Core) : (s.updCore c f).chans = s.chans := rfl
@[simp] theorem updCore_dram (c : Nat) (f : Core → Core) : (s.updCore c f).dram = s.dram := rfl
@[simp] theorem updCore_dramEp (c : Nat) (f : Core → Core) : (s.updCore c f).dramEp = s.dramEp := rfl
@[simp] theorem updCore_devRep (c : Nat) (f : Core → Core) : (s.updCore c f).devRep = s.devRep := rfl
@[simp] theorem updCore_arrivals (c : Nat) (f : Core → Core) : (s.updCore c f).arrivals = s.arrivals := rfl
@[simp] theorem updCore_mtr (c : Nat) (f : Core → Core) : (s.updCore c f).mtr = s.mtr := rfl
@[simp] theorem updCore_er (c : Nat) (f : Core → Core) : (s.updCore c f).er = s.er := rfl
@[simp] theorem updCore_tileSvc (c : Nat) (f : Core → Core) : (s.updCore c f).tileSvc = s.tileSvc := rfl
@[simp] theorem updCore_tileClk (c : Nat) (f : Core → Core) : (s.updCore c f).tileClk = s.tileClk := rfl
@[simp] theorem updCore_routes (c : Nat) (f : Core → Core) : (s.updCore c f).routes = s.routes := rfl
@[simp] theorem updCore_ftags (c : Nat) (f : Core → Core) : (s.updCore c f).ftags = s.ftags := rfl
@[simp] theorem updCore_fquar (c : Nat) (f : Core → Core) : (s.updCore c f).fquar = s.fquar := rfl
@[simp] theorem updCore_ports (c : Nat) (f : Core → Core) : (s.updCore c f).ports = s.ports := rfl
@[simp] theorem updCore_transit (c : Nat) (f : Core → Core) : (s.updCore c f).transit = s.transit := rfl
@[simp] theorem updCore_fabIn (c : Nat) (f : Core → Core) : (s.updCore c f).fabIn = s.fabIn := rfl
@[simp] theorem updCore_jobRx (c : Nat) (f : Core → Core) : (s.updCore c f).jobRx = s.jobRx := rfl
@[simp] theorem updCore_outq (c : Nat) (f : Core → Core) : (s.updCore c f).outq = s.outq := rfl
@[simp] theorem updCore_htags (c : Nat) (f : Core → Core) : (s.updCore c f).htags = s.htags := rfl
@[simp] theorem updCore_hquar (c : Nat) (f : Core → Core) : (s.updCore c f).hquar = s.hquar := rfl
@[simp] theorem updCore_tx (c : Nat) (f : Core → Core) : (s.updCore c f).tx = s.tx := rfl
@[simp] theorem updCore_msix (c : Nat) (f : Core → Core) : (s.updCore c f).msix = s.msix := rfl
@[simp] theorem updCore_cfg (c : Nat) (f : Core → Core) : (s.updCore c f).cfg = s.cfg := rfl
@[simp] theorem updCore_staged (c : Nat) (f : Core → Core) : (s.updCore c f).staged = s.staged := rfl
@[simp] theorem updCore_hepAt (c : Nat) (f : Core → Core) : (s.updCore c f).hepAt = s.hepAt := rfl
@[simp] theorem updCore_hepWas (c : Nat) (f : Core → Core) : (s.updCore c f).hepWas = s.hepWas := rfl
@[simp] theorem updCore_cmds (c : Nat) (f : Core → Core) : (s.updCore c f).cmds = s.cmds := rfl
@[simp] theorem updCore_heldC (c : Nat) (f : Core → Core) : (s.updCore c f).heldC = s.heldC := rfl
@[simp] theorem updCore_engines (c : Nat) (f : Core → Core) : (s.updCore c f).engines = s.engines := rfl
@[simp] theorem updCore_tjobs (c : Nat) (f : Core → Core) : (s.updCore c f).tjobs = s.tjobs := rfl
@[simp] theorem updCore_tilePark (c : Nat) (f : Core → Core) : (s.updCore c f).tilePark = s.tilePark := rfl
@[simp] theorem updCore_stopDom (c : Nat) (f : Core → Core) : (s.updCore c f).stopDom = s.stopDom := rfl
@[simp] theorem updCore_tilePwr (c : Nat) (f : Core → Core) : (s.updCore c f).tilePwr = s.tilePwr := rfl
@[simp] theorem updCore_mode (c : Nat) (f : Core → Core) : (s.updCore c f).mode = s.mode := rfl
@[simp] theorem updCore_meshIn (c : Nat) (f : Core → Core) : (s.updCore c f).meshIn = s.meshIn := rfl
@[simp] theorem updCore_meshRr (c : Nat) (f : Core → Core) : (s.updCore c f).meshRr = s.meshRr := rfl
@[simp] theorem updCore_meshQat (c : Nat) (f : Core → Core) : (s.updCore c f).meshQat = s.meshQat := rfl
@[simp] theorem updCore_meshIdle (c : Nat) (f : Core → Core) : (s.updCore c f).meshIdle = s.meshIdle := rfl
@[simp] theorem updCore_meshHeld (c : Nat) (f : Core → Core) : (s.updCore c f).meshHeld = s.meshHeld := rfl
@[simp] theorem updCore_lockQ (c : Nat) (f : Core → Core) : (s.updCore c f).lockQ = s.lockQ := rfl
@[simp] theorem updCore_outReq (c : Nat) (f : Core → Core) : (s.updCore c f).outReq = s.outReq := rfl
@[simp] theorem updCore_fillQ (c : Nat) (f : Core → Core) : (s.updCore c f).fillQ = s.fillQ := rfl
@[simp] theorem updCore_meshAt (c : Nat) (f : Core → Core) : (s.updCore c f).meshAt = s.meshAt := rfl
@[simp] theorem updCore_mper (c : Nat) (f : Core → Core) : (s.updCore c f).mper = s.mper := rfl
@[simp] theorem updCore_backlog (c : Nat) (f : Core → Core) : (s.updCore c f).backlog = s.backlog := rfl
@[simp] theorem updCore_mstall (c : Nat) (f : Core → Core) : (s.updCore c f).mstall = s.mstall := rfl
@[simp] theorem updCore_mbands (c : Nat) (f : Core → Core) : (s.updCore c f).mbands = s.mbands := rfl
@[simp] theorem updCore_msec (c : Nat) (f : Core → Core) : (s.updCore c f).msec = s.msec := rfl
@[simp] theorem updCore_mbound (c : Nat) (f : Core → Core) : (s.updCore c f).mbound = s.mbound := rfl
@[simp] theorem updCore_mkey (c : Nat) (f : Core → Core) : (s.updCore c f).mkey = s.mkey := rfl
@[simp] theorem updCore_pins (c : Nat) (f : Core → Core) : (s.updCore c f).pins = s.pins := rfl
@[simp] theorem updCore_fuses (c : Nat) (f : Core → Core) : (s.updCore c f).fuses = s.fuses := rfl
@[simp] theorem updCore_flash (c : Nat) (f : Core → Core) : (s.updCore c f).flash = s.flash := rfl
@[simp] theorem updCore_enroll (c : Nat) (f : Core → Core) : (s.updCore c f).enroll = s.enroll := rfl
@[simp] theorem updCore_rearm (c : Nat) (f : Core → Core) : (s.updCore c f).rearm = s.rearm := rfl
@[simp] theorem updCore_aborts (c : Nat) (f : Core → Core) : (s.updCore c f).aborts = s.aborts := rfl
@[simp] theorem updCore_temps (c : Nat) (f : Core → Core) : (s.updCore c f).temps = s.temps := rfl
@[simp] theorem updCore_clearAt (c : Nat) (f : Core → Core) : (s.updCore c f).clearAt = s.clearAt := rfl
@[simp] theorem updCore_capAt (c : Nat) (f : Core → Core) : (s.updCore c f).capAt = s.capAt := rfl
@[simp] theorem updCore_pending (c : Nat) (f : Core → Core) : (s.updCore c f).pending = s.pending := rfl

@[simp] theorem setKeeper_csr (h : Nat) (k : Keeper) : (s.setKeeper h k).csr = s.csr := rfl
@[simp] theorem setKeeper_time (h : Nat) (k : Keeper) : (s.setKeeper h k).time = s.time := rfl
@[simp] theorem setKeeper_ns (h : Nat) (k : Keeper) : (s.setKeeper h k).ns = s.ns := rfl
@[simp] theorem setKeeper_free (h : Nat) (k : Keeper) : (s.setKeeper h k).free = s.free := rfl
@[simp] theorem setKeeper_cores (h : Nat) (k : Keeper) : (s.setKeeper h k).cores = s.cores := rfl
@[simp] theorem setKeeper_ksram (h : Nat) (k : Keeper) : (s.setKeeper h k).ksram = s.ksram := rfl
@[simp] theorem setKeeper_ksramBad (h : Nat) (k : Keeper) : (s.setKeeper h k).ksramBad = s.ksramBad := rfl
@[simp] theorem setKeeper_tileDom (h : Nat) (k : Keeper) : (s.setKeeper h k).tileDom = s.tileDom := rfl
@[simp] theorem setKeeper_caches (h : Nat) (k : Keeper) : (s.setKeeper h k).caches = s.caches := rfl
@[simp] theorem setKeeper_l2plru (h : Nat) (k : Keeper) : (s.setKeeper h k).l2plru = s.l2plru := rfl
@[simp] theorem setKeeper_dir (h : Nat) (k : Keeper) : (s.setKeeper h k).dir = s.dir := rfl
@[simp] theorem setKeeper_dirPlru (h : Nat) (k : Keeper) : (s.setKeeper h k).dirPlru = s.dirPlru := rfl
@[simp] theorem setKeeper_llc (h : Nat) (k : Keeper) : (s.setKeeper h k).llc = s.llc := rfl
@[simp] theorem setKeeper_llcPlru (h : Nat) (k : Keeper) : (s.setKeeper h k).llcPlru = s.llcPlru := rfl
@[simp] theorem setKeeper_setCnt (h : Nat) (k : Keeper) : (s.setKeeper h k).setCnt = s.setCnt := rfl
@[simp] theorem setKeeper_txns (h : Nat) (k : Keeper) : (s.setKeeper h k).txns = s.txns := rfl
@[simp] theorem setKeeper_pendQ (h : Nat) (k : Keeper) : (s.setKeeper h k).pendQ = s.pendQ := rfl
@[simp] theorem setKeeper_retryQ (h : Nat) (k : Keeper) : (s.setKeeper h k).retryQ = s.retryQ := rfl
@[simp] theorem setKeeper_msgs (h : Nat) (k : Keeper) : (s.setKeeper h k).msgs = s.msgs := rfl
@[simp] theorem setKeeper_chans (h : Nat) (k : Keeper) : (s.setKeeper h k).chans = s.chans := rfl
@[simp] theorem setKeeper_dram (h : Nat) (k : Keeper) : (s.setKeeper h k).dram = s.dram := rfl
@[simp] theorem setKeeper_dramEp (h : Nat) (k : Keeper) : (s.setKeeper h k).dramEp = s.dramEp := rfl
@[simp] theorem setKeeper_devRep (h : Nat) (k : Keeper) : (s.setKeeper h k).devRep = s.devRep := rfl
@[simp] theorem setKeeper_arrivals (h : Nat) (k : Keeper) : (s.setKeeper h k).arrivals = s.arrivals := rfl
@[simp] theorem setKeeper_mtr (h : Nat) (k : Keeper) : (s.setKeeper h k).mtr = s.mtr := rfl
@[simp] theorem setKeeper_er (h : Nat) (k : Keeper) : (s.setKeeper h k).er = s.er := rfl
@[simp] theorem setKeeper_tileSvc (h : Nat) (k : Keeper) : (s.setKeeper h k).tileSvc = s.tileSvc := rfl
@[simp] theorem setKeeper_tileClk (h : Nat) (k : Keeper) : (s.setKeeper h k).tileClk = s.tileClk := rfl
@[simp] theorem setKeeper_routes (h : Nat) (k : Keeper) : (s.setKeeper h k).routes = s.routes := rfl
@[simp] theorem setKeeper_ftags (h : Nat) (k : Keeper) : (s.setKeeper h k).ftags = s.ftags := rfl
@[simp] theorem setKeeper_fquar (h : Nat) (k : Keeper) : (s.setKeeper h k).fquar = s.fquar := rfl
@[simp] theorem setKeeper_ports (h : Nat) (k : Keeper) : (s.setKeeper h k).ports = s.ports := rfl
@[simp] theorem setKeeper_transit (h : Nat) (k : Keeper) : (s.setKeeper h k).transit = s.transit := rfl
@[simp] theorem setKeeper_fabIn (h : Nat) (k : Keeper) : (s.setKeeper h k).fabIn = s.fabIn := rfl
@[simp] theorem setKeeper_jobRx (h : Nat) (k : Keeper) : (s.setKeeper h k).jobRx = s.jobRx := rfl
@[simp] theorem setKeeper_outq (h : Nat) (k : Keeper) : (s.setKeeper h k).outq = s.outq := rfl
@[simp] theorem setKeeper_htags (h : Nat) (k : Keeper) : (s.setKeeper h k).htags = s.htags := rfl
@[simp] theorem setKeeper_hquar (h : Nat) (k : Keeper) : (s.setKeeper h k).hquar = s.hquar := rfl
@[simp] theorem setKeeper_tx (h : Nat) (k : Keeper) : (s.setKeeper h k).tx = s.tx := rfl
@[simp] theorem setKeeper_msix (h : Nat) (k : Keeper) : (s.setKeeper h k).msix = s.msix := rfl
@[simp] theorem setKeeper_cfg (h : Nat) (k : Keeper) : (s.setKeeper h k).cfg = s.cfg := rfl
@[simp] theorem setKeeper_staged (h : Nat) (k : Keeper) : (s.setKeeper h k).staged = s.staged := rfl
@[simp] theorem setKeeper_hepAt (h : Nat) (k : Keeper) : (s.setKeeper h k).hepAt = s.hepAt := rfl
@[simp] theorem setKeeper_hepWas (h : Nat) (k : Keeper) : (s.setKeeper h k).hepWas = s.hepWas := rfl
@[simp] theorem setKeeper_cmds (h : Nat) (k : Keeper) : (s.setKeeper h k).cmds = s.cmds := rfl
@[simp] theorem setKeeper_heldC (h : Nat) (k : Keeper) : (s.setKeeper h k).heldC = s.heldC := rfl
@[simp] theorem setKeeper_engines (h : Nat) (k : Keeper) : (s.setKeeper h k).engines = s.engines := rfl
@[simp] theorem setKeeper_tjobs (h : Nat) (k : Keeper) : (s.setKeeper h k).tjobs = s.tjobs := rfl
@[simp] theorem setKeeper_tilePark (h : Nat) (k : Keeper) : (s.setKeeper h k).tilePark = s.tilePark := rfl
@[simp] theorem setKeeper_stopDom (h : Nat) (k : Keeper) : (s.setKeeper h k).stopDom = s.stopDom := rfl
@[simp] theorem setKeeper_tilePwr (h : Nat) (k : Keeper) : (s.setKeeper h k).tilePwr = s.tilePwr := rfl
@[simp] theorem setKeeper_mode (h : Nat) (k : Keeper) : (s.setKeeper h k).mode = s.mode := rfl
@[simp] theorem setKeeper_meshIn (h : Nat) (k : Keeper) : (s.setKeeper h k).meshIn = s.meshIn := rfl
@[simp] theorem setKeeper_meshRr (h : Nat) (k : Keeper) : (s.setKeeper h k).meshRr = s.meshRr := rfl
@[simp] theorem setKeeper_meshQat (h : Nat) (k : Keeper) : (s.setKeeper h k).meshQat = s.meshQat := rfl
@[simp] theorem setKeeper_meshIdle (h : Nat) (k : Keeper) : (s.setKeeper h k).meshIdle = s.meshIdle := rfl
@[simp] theorem setKeeper_meshHeld (h : Nat) (k : Keeper) : (s.setKeeper h k).meshHeld = s.meshHeld := rfl
@[simp] theorem setKeeper_lockQ (h : Nat) (k : Keeper) : (s.setKeeper h k).lockQ = s.lockQ := rfl
@[simp] theorem setKeeper_outReq (h : Nat) (k : Keeper) : (s.setKeeper h k).outReq = s.outReq := rfl
@[simp] theorem setKeeper_fillQ (h : Nat) (k : Keeper) : (s.setKeeper h k).fillQ = s.fillQ := rfl
@[simp] theorem setKeeper_meshAt (h : Nat) (k : Keeper) : (s.setKeeper h k).meshAt = s.meshAt := rfl
@[simp] theorem setKeeper_mper (h : Nat) (k : Keeper) : (s.setKeeper h k).mper = s.mper := rfl
@[simp] theorem setKeeper_backlog (h : Nat) (k : Keeper) : (s.setKeeper h k).backlog = s.backlog := rfl
@[simp] theorem setKeeper_mstall (h : Nat) (k : Keeper) : (s.setKeeper h k).mstall = s.mstall := rfl
@[simp] theorem setKeeper_mbands (h : Nat) (k : Keeper) : (s.setKeeper h k).mbands = s.mbands := rfl
@[simp] theorem setKeeper_msec (h : Nat) (k : Keeper) : (s.setKeeper h k).msec = s.msec := rfl
@[simp] theorem setKeeper_mbound (h : Nat) (k : Keeper) : (s.setKeeper h k).mbound = s.mbound := rfl
@[simp] theorem setKeeper_mkey (h : Nat) (k : Keeper) : (s.setKeeper h k).mkey = s.mkey := rfl
@[simp] theorem setKeeper_pins (h : Nat) (k : Keeper) : (s.setKeeper h k).pins = s.pins := rfl
@[simp] theorem setKeeper_fuses (h : Nat) (k : Keeper) : (s.setKeeper h k).fuses = s.fuses := rfl
@[simp] theorem setKeeper_flash (h : Nat) (k : Keeper) : (s.setKeeper h k).flash = s.flash := rfl
@[simp] theorem setKeeper_enroll (h : Nat) (k : Keeper) : (s.setKeeper h k).enroll = s.enroll := rfl
@[simp] theorem setKeeper_rearm (h : Nat) (k : Keeper) : (s.setKeeper h k).rearm = s.rearm := rfl
@[simp] theorem setKeeper_aborts (h : Nat) (k : Keeper) : (s.setKeeper h k).aborts = s.aborts := rfl
@[simp] theorem setKeeper_temps (h : Nat) (k : Keeper) : (s.setKeeper h k).temps = s.temps := rfl
@[simp] theorem setKeeper_clearAt (h : Nat) (k : Keeper) : (s.setKeeper h k).clearAt = s.clearAt := rfl
@[simp] theorem setKeeper_capAt (h : Nat) (k : Keeper) : (s.setKeeper h k).capAt = s.capAt := rfl
@[simp] theorem setKeeper_pending (h : Nat) (k : Keeper) : (s.setKeeper h k).pending = s.pending := rfl

@[simp] theorem setChan_csr (ch : Nat) (k : Chan) : (s.setChan ch k).csr = s.csr := rfl
@[simp] theorem setChan_time (ch : Nat) (k : Chan) : (s.setChan ch k).time = s.time := rfl
@[simp] theorem setChan_ns (ch : Nat) (k : Chan) : (s.setChan ch k).ns = s.ns := rfl
@[simp] theorem setChan_free (ch : Nat) (k : Chan) : (s.setChan ch k).free = s.free := rfl
@[simp] theorem setChan_cores (ch : Nat) (k : Chan) : (s.setChan ch k).cores = s.cores := rfl
@[simp] theorem setChan_keepers (ch : Nat) (k : Chan) : (s.setChan ch k).keepers = s.keepers := rfl
@[simp] theorem setChan_ksram (ch : Nat) (k : Chan) : (s.setChan ch k).ksram = s.ksram := rfl
@[simp] theorem setChan_ksramBad (ch : Nat) (k : Chan) : (s.setChan ch k).ksramBad = s.ksramBad := rfl
@[simp] theorem setChan_tileDom (ch : Nat) (k : Chan) : (s.setChan ch k).tileDom = s.tileDom := rfl
@[simp] theorem setChan_caches (ch : Nat) (k : Chan) : (s.setChan ch k).caches = s.caches := rfl
@[simp] theorem setChan_l2plru (ch : Nat) (k : Chan) : (s.setChan ch k).l2plru = s.l2plru := rfl
@[simp] theorem setChan_dir (ch : Nat) (k : Chan) : (s.setChan ch k).dir = s.dir := rfl
@[simp] theorem setChan_dirPlru (ch : Nat) (k : Chan) : (s.setChan ch k).dirPlru = s.dirPlru := rfl
@[simp] theorem setChan_llc (ch : Nat) (k : Chan) : (s.setChan ch k).llc = s.llc := rfl
@[simp] theorem setChan_llcPlru (ch : Nat) (k : Chan) : (s.setChan ch k).llcPlru = s.llcPlru := rfl
@[simp] theorem setChan_setCnt (ch : Nat) (k : Chan) : (s.setChan ch k).setCnt = s.setCnt := rfl
@[simp] theorem setChan_txns (ch : Nat) (k : Chan) : (s.setChan ch k).txns = s.txns := rfl
@[simp] theorem setChan_pendQ (ch : Nat) (k : Chan) : (s.setChan ch k).pendQ = s.pendQ := rfl
@[simp] theorem setChan_retryQ (ch : Nat) (k : Chan) : (s.setChan ch k).retryQ = s.retryQ := rfl
@[simp] theorem setChan_msgs (ch : Nat) (k : Chan) : (s.setChan ch k).msgs = s.msgs := rfl
@[simp] theorem setChan_dram (ch : Nat) (k : Chan) : (s.setChan ch k).dram = s.dram := rfl
@[simp] theorem setChan_dramEp (ch : Nat) (k : Chan) : (s.setChan ch k).dramEp = s.dramEp := rfl
@[simp] theorem setChan_devRep (ch : Nat) (k : Chan) : (s.setChan ch k).devRep = s.devRep := rfl
@[simp] theorem setChan_arrivals (ch : Nat) (k : Chan) : (s.setChan ch k).arrivals = s.arrivals := rfl
@[simp] theorem setChan_mtr (ch : Nat) (k : Chan) : (s.setChan ch k).mtr = s.mtr := rfl
@[simp] theorem setChan_er (ch : Nat) (k : Chan) : (s.setChan ch k).er = s.er := rfl
@[simp] theorem setChan_tileSvc (ch : Nat) (k : Chan) : (s.setChan ch k).tileSvc = s.tileSvc := rfl
@[simp] theorem setChan_tileClk (ch : Nat) (k : Chan) : (s.setChan ch k).tileClk = s.tileClk := rfl
@[simp] theorem setChan_routes (ch : Nat) (k : Chan) : (s.setChan ch k).routes = s.routes := rfl
@[simp] theorem setChan_ftags (ch : Nat) (k : Chan) : (s.setChan ch k).ftags = s.ftags := rfl
@[simp] theorem setChan_fquar (ch : Nat) (k : Chan) : (s.setChan ch k).fquar = s.fquar := rfl
@[simp] theorem setChan_ports (ch : Nat) (k : Chan) : (s.setChan ch k).ports = s.ports := rfl
@[simp] theorem setChan_transit (ch : Nat) (k : Chan) : (s.setChan ch k).transit = s.transit := rfl
@[simp] theorem setChan_fabIn (ch : Nat) (k : Chan) : (s.setChan ch k).fabIn = s.fabIn := rfl
@[simp] theorem setChan_jobRx (ch : Nat) (k : Chan) : (s.setChan ch k).jobRx = s.jobRx := rfl
@[simp] theorem setChan_outq (ch : Nat) (k : Chan) : (s.setChan ch k).outq = s.outq := rfl
@[simp] theorem setChan_htags (ch : Nat) (k : Chan) : (s.setChan ch k).htags = s.htags := rfl
@[simp] theorem setChan_hquar (ch : Nat) (k : Chan) : (s.setChan ch k).hquar = s.hquar := rfl
@[simp] theorem setChan_tx (ch : Nat) (k : Chan) : (s.setChan ch k).tx = s.tx := rfl
@[simp] theorem setChan_msix (ch : Nat) (k : Chan) : (s.setChan ch k).msix = s.msix := rfl
@[simp] theorem setChan_cfg (ch : Nat) (k : Chan) : (s.setChan ch k).cfg = s.cfg := rfl
@[simp] theorem setChan_staged (ch : Nat) (k : Chan) : (s.setChan ch k).staged = s.staged := rfl
@[simp] theorem setChan_hepAt (ch : Nat) (k : Chan) : (s.setChan ch k).hepAt = s.hepAt := rfl
@[simp] theorem setChan_hepWas (ch : Nat) (k : Chan) : (s.setChan ch k).hepWas = s.hepWas := rfl
@[simp] theorem setChan_cmds (ch : Nat) (k : Chan) : (s.setChan ch k).cmds = s.cmds := rfl
@[simp] theorem setChan_heldC (ch : Nat) (k : Chan) : (s.setChan ch k).heldC = s.heldC := rfl
@[simp] theorem setChan_engines (ch : Nat) (k : Chan) : (s.setChan ch k).engines = s.engines := rfl
@[simp] theorem setChan_tjobs (ch : Nat) (k : Chan) : (s.setChan ch k).tjobs = s.tjobs := rfl
@[simp] theorem setChan_tilePark (ch : Nat) (k : Chan) : (s.setChan ch k).tilePark = s.tilePark := rfl
@[simp] theorem setChan_stopDom (ch : Nat) (k : Chan) : (s.setChan ch k).stopDom = s.stopDom := rfl
@[simp] theorem setChan_tilePwr (ch : Nat) (k : Chan) : (s.setChan ch k).tilePwr = s.tilePwr := rfl
@[simp] theorem setChan_mode (ch : Nat) (k : Chan) : (s.setChan ch k).mode = s.mode := rfl
@[simp] theorem setChan_meshIn (ch : Nat) (k : Chan) : (s.setChan ch k).meshIn = s.meshIn := rfl
@[simp] theorem setChan_meshRr (ch : Nat) (k : Chan) : (s.setChan ch k).meshRr = s.meshRr := rfl
@[simp] theorem setChan_meshQat (ch : Nat) (k : Chan) : (s.setChan ch k).meshQat = s.meshQat := rfl
@[simp] theorem setChan_meshIdle (ch : Nat) (k : Chan) : (s.setChan ch k).meshIdle = s.meshIdle := rfl
@[simp] theorem setChan_meshHeld (ch : Nat) (k : Chan) : (s.setChan ch k).meshHeld = s.meshHeld := rfl
@[simp] theorem setChan_lockQ (ch : Nat) (k : Chan) : (s.setChan ch k).lockQ = s.lockQ := rfl
@[simp] theorem setChan_outReq (ch : Nat) (k : Chan) : (s.setChan ch k).outReq = s.outReq := rfl
@[simp] theorem setChan_fillQ (ch : Nat) (k : Chan) : (s.setChan ch k).fillQ = s.fillQ := rfl
@[simp] theorem setChan_meshAt (ch : Nat) (k : Chan) : (s.setChan ch k).meshAt = s.meshAt := rfl
@[simp] theorem setChan_mper (ch : Nat) (k : Chan) : (s.setChan ch k).mper = s.mper := rfl
@[simp] theorem setChan_backlog (ch : Nat) (k : Chan) : (s.setChan ch k).backlog = s.backlog := rfl
@[simp] theorem setChan_mstall (ch : Nat) (k : Chan) : (s.setChan ch k).mstall = s.mstall := rfl
@[simp] theorem setChan_mbands (ch : Nat) (k : Chan) : (s.setChan ch k).mbands = s.mbands := rfl
@[simp] theorem setChan_msec (ch : Nat) (k : Chan) : (s.setChan ch k).msec = s.msec := rfl
@[simp] theorem setChan_mbound (ch : Nat) (k : Chan) : (s.setChan ch k).mbound = s.mbound := rfl
@[simp] theorem setChan_mkey (ch : Nat) (k : Chan) : (s.setChan ch k).mkey = s.mkey := rfl
@[simp] theorem setChan_pins (ch : Nat) (k : Chan) : (s.setChan ch k).pins = s.pins := rfl
@[simp] theorem setChan_fuses (ch : Nat) (k : Chan) : (s.setChan ch k).fuses = s.fuses := rfl
@[simp] theorem setChan_flash (ch : Nat) (k : Chan) : (s.setChan ch k).flash = s.flash := rfl
@[simp] theorem setChan_enroll (ch : Nat) (k : Chan) : (s.setChan ch k).enroll = s.enroll := rfl
@[simp] theorem setChan_rearm (ch : Nat) (k : Chan) : (s.setChan ch k).rearm = s.rearm := rfl
@[simp] theorem setChan_aborts (ch : Nat) (k : Chan) : (s.setChan ch k).aborts = s.aborts := rfl
@[simp] theorem setChan_temps (ch : Nat) (k : Chan) : (s.setChan ch k).temps = s.temps := rfl
@[simp] theorem setChan_clearAt (ch : Nat) (k : Chan) : (s.setChan ch k).clearAt = s.clearAt := rfl
@[simp] theorem setChan_capAt (ch : Nat) (k : Chan) : (s.setChan ch k).capAt = s.capAt := rfl
@[simp] theorem setChan_pending (ch : Nat) (k : Chan) : (s.setChan ch k).pending = s.pending := rfl

@[simp] theorem setCw_csr (a w : Nat) : (s.setCw a w).csr = s.csr := rfl
@[simp] theorem setCw_time (a w : Nat) : (s.setCw a w).time = s.time := rfl
@[simp] theorem setCw_ns (a w : Nat) : (s.setCw a w).ns = s.ns := rfl
@[simp] theorem setCw_free (a w : Nat) : (s.setCw a w).free = s.free := rfl
@[simp] theorem setCw_cores (a w : Nat) : (s.setCw a w).cores = s.cores := rfl
@[simp] theorem setCw_keepers (a w : Nat) : (s.setCw a w).keepers = s.keepers := rfl
@[simp] theorem setCw_ksram (a w : Nat) : (s.setCw a w).ksram = s.ksram := rfl
@[simp] theorem setCw_ksramBad (a w : Nat) : (s.setCw a w).ksramBad = s.ksramBad := rfl
@[simp] theorem setCw_tileDom (a w : Nat) : (s.setCw a w).tileDom = s.tileDom := rfl
@[simp] theorem setCw_caches (a w : Nat) : (s.setCw a w).caches = s.caches := rfl
@[simp] theorem setCw_l2plru (a w : Nat) : (s.setCw a w).l2plru = s.l2plru := rfl
@[simp] theorem setCw_dir (a w : Nat) : (s.setCw a w).dir = s.dir := rfl
@[simp] theorem setCw_dirPlru (a w : Nat) : (s.setCw a w).dirPlru = s.dirPlru := rfl
@[simp] theorem setCw_llc (a w : Nat) : (s.setCw a w).llc = s.llc := rfl
@[simp] theorem setCw_llcPlru (a w : Nat) : (s.setCw a w).llcPlru = s.llcPlru := rfl
@[simp] theorem setCw_setCnt (a w : Nat) : (s.setCw a w).setCnt = s.setCnt := rfl
@[simp] theorem setCw_txns (a w : Nat) : (s.setCw a w).txns = s.txns := rfl
@[simp] theorem setCw_pendQ (a w : Nat) : (s.setCw a w).pendQ = s.pendQ := rfl
@[simp] theorem setCw_retryQ (a w : Nat) : (s.setCw a w).retryQ = s.retryQ := rfl
@[simp] theorem setCw_msgs (a w : Nat) : (s.setCw a w).msgs = s.msgs := rfl
@[simp] theorem setCw_chans (a w : Nat) : (s.setCw a w).chans = s.chans := rfl
@[simp] theorem setCw_dramEp (a w : Nat) : (s.setCw a w).dramEp = s.dramEp := rfl
@[simp] theorem setCw_devRep (a w : Nat) : (s.setCw a w).devRep = s.devRep := rfl
@[simp] theorem setCw_arrivals (a w : Nat) : (s.setCw a w).arrivals = s.arrivals := rfl
@[simp] theorem setCw_mtr (a w : Nat) : (s.setCw a w).mtr = s.mtr := rfl
@[simp] theorem setCw_er (a w : Nat) : (s.setCw a w).er = s.er := rfl
@[simp] theorem setCw_tileSvc (a w : Nat) : (s.setCw a w).tileSvc = s.tileSvc := rfl
@[simp] theorem setCw_tileClk (a w : Nat) : (s.setCw a w).tileClk = s.tileClk := rfl
@[simp] theorem setCw_routes (a w : Nat) : (s.setCw a w).routes = s.routes := rfl
@[simp] theorem setCw_ftags (a w : Nat) : (s.setCw a w).ftags = s.ftags := rfl
@[simp] theorem setCw_fquar (a w : Nat) : (s.setCw a w).fquar = s.fquar := rfl
@[simp] theorem setCw_ports (a w : Nat) : (s.setCw a w).ports = s.ports := rfl
@[simp] theorem setCw_transit (a w : Nat) : (s.setCw a w).transit = s.transit := rfl
@[simp] theorem setCw_fabIn (a w : Nat) : (s.setCw a w).fabIn = s.fabIn := rfl
@[simp] theorem setCw_jobRx (a w : Nat) : (s.setCw a w).jobRx = s.jobRx := rfl
@[simp] theorem setCw_outq (a w : Nat) : (s.setCw a w).outq = s.outq := rfl
@[simp] theorem setCw_htags (a w : Nat) : (s.setCw a w).htags = s.htags := rfl
@[simp] theorem setCw_hquar (a w : Nat) : (s.setCw a w).hquar = s.hquar := rfl
@[simp] theorem setCw_tx (a w : Nat) : (s.setCw a w).tx = s.tx := rfl
@[simp] theorem setCw_msix (a w : Nat) : (s.setCw a w).msix = s.msix := rfl
@[simp] theorem setCw_cfg (a w : Nat) : (s.setCw a w).cfg = s.cfg := rfl
@[simp] theorem setCw_staged (a w : Nat) : (s.setCw a w).staged = s.staged := rfl
@[simp] theorem setCw_hepAt (a w : Nat) : (s.setCw a w).hepAt = s.hepAt := rfl
@[simp] theorem setCw_hepWas (a w : Nat) : (s.setCw a w).hepWas = s.hepWas := rfl
@[simp] theorem setCw_cmds (a w : Nat) : (s.setCw a w).cmds = s.cmds := rfl
@[simp] theorem setCw_heldC (a w : Nat) : (s.setCw a w).heldC = s.heldC := rfl
@[simp] theorem setCw_engines (a w : Nat) : (s.setCw a w).engines = s.engines := rfl
@[simp] theorem setCw_tjobs (a w : Nat) : (s.setCw a w).tjobs = s.tjobs := rfl
@[simp] theorem setCw_tilePark (a w : Nat) : (s.setCw a w).tilePark = s.tilePark := rfl
@[simp] theorem setCw_stopDom (a w : Nat) : (s.setCw a w).stopDom = s.stopDom := rfl
@[simp] theorem setCw_tilePwr (a w : Nat) : (s.setCw a w).tilePwr = s.tilePwr := rfl
@[simp] theorem setCw_mode (a w : Nat) : (s.setCw a w).mode = s.mode := rfl
@[simp] theorem setCw_meshIn (a w : Nat) : (s.setCw a w).meshIn = s.meshIn := rfl
@[simp] theorem setCw_meshRr (a w : Nat) : (s.setCw a w).meshRr = s.meshRr := rfl
@[simp] theorem setCw_meshQat (a w : Nat) : (s.setCw a w).meshQat = s.meshQat := rfl
@[simp] theorem setCw_meshIdle (a w : Nat) : (s.setCw a w).meshIdle = s.meshIdle := rfl
@[simp] theorem setCw_meshHeld (a w : Nat) : (s.setCw a w).meshHeld = s.meshHeld := rfl
@[simp] theorem setCw_lockQ (a w : Nat) : (s.setCw a w).lockQ = s.lockQ := rfl
@[simp] theorem setCw_outReq (a w : Nat) : (s.setCw a w).outReq = s.outReq := rfl
@[simp] theorem setCw_fillQ (a w : Nat) : (s.setCw a w).fillQ = s.fillQ := rfl
@[simp] theorem setCw_meshAt (a w : Nat) : (s.setCw a w).meshAt = s.meshAt := rfl
@[simp] theorem setCw_mper (a w : Nat) : (s.setCw a w).mper = s.mper := rfl
@[simp] theorem setCw_backlog (a w : Nat) : (s.setCw a w).backlog = s.backlog := rfl
@[simp] theorem setCw_mstall (a w : Nat) : (s.setCw a w).mstall = s.mstall := rfl
@[simp] theorem setCw_mbands (a w : Nat) : (s.setCw a w).mbands = s.mbands := rfl
@[simp] theorem setCw_msec (a w : Nat) : (s.setCw a w).msec = s.msec := rfl
@[simp] theorem setCw_mbound (a w : Nat) : (s.setCw a w).mbound = s.mbound := rfl
@[simp] theorem setCw_mkey (a w : Nat) : (s.setCw a w).mkey = s.mkey := rfl
@[simp] theorem setCw_pins (a w : Nat) : (s.setCw a w).pins = s.pins := rfl
@[simp] theorem setCw_fuses (a w : Nat) : (s.setCw a w).fuses = s.fuses := rfl
@[simp] theorem setCw_flash (a w : Nat) : (s.setCw a w).flash = s.flash := rfl
@[simp] theorem setCw_enroll (a w : Nat) : (s.setCw a w).enroll = s.enroll := rfl
@[simp] theorem setCw_rearm (a w : Nat) : (s.setCw a w).rearm = s.rearm := rfl
@[simp] theorem setCw_aborts (a w : Nat) : (s.setCw a w).aborts = s.aborts := rfl
@[simp] theorem setCw_temps (a w : Nat) : (s.setCw a w).temps = s.temps := rfl
@[simp] theorem setCw_clearAt (a w : Nat) : (s.setCw a w).clearAt = s.clearAt := rfl
@[simp] theorem setCw_capAt (a w : Nat) : (s.setCw a w).capAt = s.capAt := rfl
@[simp] theorem setCw_pending (a w : Nat) : (s.setCw a w).pending = s.pending := rfl

@[simp] theorem setPort_csr (p : Nat) (x : Port) : (s.setPort p x).csr = s.csr := rfl
@[simp] theorem setPort_time (p : Nat) (x : Port) : (s.setPort p x).time = s.time := rfl
@[simp] theorem setPort_ns (p : Nat) (x : Port) : (s.setPort p x).ns = s.ns := rfl
@[simp] theorem setPort_free (p : Nat) (x : Port) : (s.setPort p x).free = s.free := rfl
@[simp] theorem setPort_cores (p : Nat) (x : Port) : (s.setPort p x).cores = s.cores := rfl
@[simp] theorem setPort_keepers (p : Nat) (x : Port) : (s.setPort p x).keepers = s.keepers := rfl
@[simp] theorem setPort_ksram (p : Nat) (x : Port) : (s.setPort p x).ksram = s.ksram := rfl
@[simp] theorem setPort_ksramBad (p : Nat) (x : Port) : (s.setPort p x).ksramBad = s.ksramBad := rfl
@[simp] theorem setPort_tileDom (p : Nat) (x : Port) : (s.setPort p x).tileDom = s.tileDom := rfl
@[simp] theorem setPort_caches (p : Nat) (x : Port) : (s.setPort p x).caches = s.caches := rfl
@[simp] theorem setPort_l2plru (p : Nat) (x : Port) : (s.setPort p x).l2plru = s.l2plru := rfl
@[simp] theorem setPort_dir (p : Nat) (x : Port) : (s.setPort p x).dir = s.dir := rfl
@[simp] theorem setPort_dirPlru (p : Nat) (x : Port) : (s.setPort p x).dirPlru = s.dirPlru := rfl
@[simp] theorem setPort_llc (p : Nat) (x : Port) : (s.setPort p x).llc = s.llc := rfl
@[simp] theorem setPort_llcPlru (p : Nat) (x : Port) : (s.setPort p x).llcPlru = s.llcPlru := rfl
@[simp] theorem setPort_setCnt (p : Nat) (x : Port) : (s.setPort p x).setCnt = s.setCnt := rfl
@[simp] theorem setPort_txns (p : Nat) (x : Port) : (s.setPort p x).txns = s.txns := rfl
@[simp] theorem setPort_pendQ (p : Nat) (x : Port) : (s.setPort p x).pendQ = s.pendQ := rfl
@[simp] theorem setPort_retryQ (p : Nat) (x : Port) : (s.setPort p x).retryQ = s.retryQ := rfl
@[simp] theorem setPort_msgs (p : Nat) (x : Port) : (s.setPort p x).msgs = s.msgs := rfl
@[simp] theorem setPort_chans (p : Nat) (x : Port) : (s.setPort p x).chans = s.chans := rfl
@[simp] theorem setPort_dram (p : Nat) (x : Port) : (s.setPort p x).dram = s.dram := rfl
@[simp] theorem setPort_dramEp (p : Nat) (x : Port) : (s.setPort p x).dramEp = s.dramEp := rfl
@[simp] theorem setPort_devRep (p : Nat) (x : Port) : (s.setPort p x).devRep = s.devRep := rfl
@[simp] theorem setPort_arrivals (p : Nat) (x : Port) : (s.setPort p x).arrivals = s.arrivals := rfl
@[simp] theorem setPort_mtr (p : Nat) (x : Port) : (s.setPort p x).mtr = s.mtr := rfl
@[simp] theorem setPort_er (p : Nat) (x : Port) : (s.setPort p x).er = s.er := rfl
@[simp] theorem setPort_tileSvc (p : Nat) (x : Port) : (s.setPort p x).tileSvc = s.tileSvc := rfl
@[simp] theorem setPort_tileClk (p : Nat) (x : Port) : (s.setPort p x).tileClk = s.tileClk := rfl
@[simp] theorem setPort_routes (p : Nat) (x : Port) : (s.setPort p x).routes = s.routes := rfl
@[simp] theorem setPort_ftags (p : Nat) (x : Port) : (s.setPort p x).ftags = s.ftags := rfl
@[simp] theorem setPort_fquar (p : Nat) (x : Port) : (s.setPort p x).fquar = s.fquar := rfl
@[simp] theorem setPort_transit (p : Nat) (x : Port) : (s.setPort p x).transit = s.transit := rfl
@[simp] theorem setPort_fabIn (p : Nat) (x : Port) : (s.setPort p x).fabIn = s.fabIn := rfl
@[simp] theorem setPort_jobRx (p : Nat) (x : Port) : (s.setPort p x).jobRx = s.jobRx := rfl
@[simp] theorem setPort_outq (p : Nat) (x : Port) : (s.setPort p x).outq = s.outq := rfl
@[simp] theorem setPort_htags (p : Nat) (x : Port) : (s.setPort p x).htags = s.htags := rfl
@[simp] theorem setPort_hquar (p : Nat) (x : Port) : (s.setPort p x).hquar = s.hquar := rfl
@[simp] theorem setPort_tx (p : Nat) (x : Port) : (s.setPort p x).tx = s.tx := rfl
@[simp] theorem setPort_msix (p : Nat) (x : Port) : (s.setPort p x).msix = s.msix := rfl
@[simp] theorem setPort_cfg (p : Nat) (x : Port) : (s.setPort p x).cfg = s.cfg := rfl
@[simp] theorem setPort_staged (p : Nat) (x : Port) : (s.setPort p x).staged = s.staged := rfl
@[simp] theorem setPort_hepAt (p : Nat) (x : Port) : (s.setPort p x).hepAt = s.hepAt := rfl
@[simp] theorem setPort_hepWas (p : Nat) (x : Port) : (s.setPort p x).hepWas = s.hepWas := rfl
@[simp] theorem setPort_cmds (p : Nat) (x : Port) : (s.setPort p x).cmds = s.cmds := rfl
@[simp] theorem setPort_heldC (p : Nat) (x : Port) : (s.setPort p x).heldC = s.heldC := rfl
@[simp] theorem setPort_engines (p : Nat) (x : Port) : (s.setPort p x).engines = s.engines := rfl
@[simp] theorem setPort_tjobs (p : Nat) (x : Port) : (s.setPort p x).tjobs = s.tjobs := rfl
@[simp] theorem setPort_tilePark (p : Nat) (x : Port) : (s.setPort p x).tilePark = s.tilePark := rfl
@[simp] theorem setPort_stopDom (p : Nat) (x : Port) : (s.setPort p x).stopDom = s.stopDom := rfl
@[simp] theorem setPort_tilePwr (p : Nat) (x : Port) : (s.setPort p x).tilePwr = s.tilePwr := rfl
@[simp] theorem setPort_mode (p : Nat) (x : Port) : (s.setPort p x).mode = s.mode := rfl
@[simp] theorem setPort_meshIn (p : Nat) (x : Port) : (s.setPort p x).meshIn = s.meshIn := rfl
@[simp] theorem setPort_meshRr (p : Nat) (x : Port) : (s.setPort p x).meshRr = s.meshRr := rfl
@[simp] theorem setPort_meshQat (p : Nat) (x : Port) : (s.setPort p x).meshQat = s.meshQat := rfl
@[simp] theorem setPort_meshIdle (p : Nat) (x : Port) : (s.setPort p x).meshIdle = s.meshIdle := rfl
@[simp] theorem setPort_meshHeld (p : Nat) (x : Port) : (s.setPort p x).meshHeld = s.meshHeld := rfl
@[simp] theorem setPort_lockQ (p : Nat) (x : Port) : (s.setPort p x).lockQ = s.lockQ := rfl
@[simp] theorem setPort_outReq (p : Nat) (x : Port) : (s.setPort p x).outReq = s.outReq := rfl
@[simp] theorem setPort_fillQ (p : Nat) (x : Port) : (s.setPort p x).fillQ = s.fillQ := rfl
@[simp] theorem setPort_meshAt (p : Nat) (x : Port) : (s.setPort p x).meshAt = s.meshAt := rfl
@[simp] theorem setPort_mper (p : Nat) (x : Port) : (s.setPort p x).mper = s.mper := rfl
@[simp] theorem setPort_backlog (p : Nat) (x : Port) : (s.setPort p x).backlog = s.backlog := rfl
@[simp] theorem setPort_mstall (p : Nat) (x : Port) : (s.setPort p x).mstall = s.mstall := rfl
@[simp] theorem setPort_mbands (p : Nat) (x : Port) : (s.setPort p x).mbands = s.mbands := rfl
@[simp] theorem setPort_msec (p : Nat) (x : Port) : (s.setPort p x).msec = s.msec := rfl
@[simp] theorem setPort_mbound (p : Nat) (x : Port) : (s.setPort p x).mbound = s.mbound := rfl
@[simp] theorem setPort_mkey (p : Nat) (x : Port) : (s.setPort p x).mkey = s.mkey := rfl
@[simp] theorem setPort_pins (p : Nat) (x : Port) : (s.setPort p x).pins = s.pins := rfl
@[simp] theorem setPort_fuses (p : Nat) (x : Port) : (s.setPort p x).fuses = s.fuses := rfl
@[simp] theorem setPort_flash (p : Nat) (x : Port) : (s.setPort p x).flash = s.flash := rfl
@[simp] theorem setPort_enroll (p : Nat) (x : Port) : (s.setPort p x).enroll = s.enroll := rfl
@[simp] theorem setPort_rearm (p : Nat) (x : Port) : (s.setPort p x).rearm = s.rearm := rfl
@[simp] theorem setPort_aborts (p : Nat) (x : Port) : (s.setPort p x).aborts = s.aborts := rfl
@[simp] theorem setPort_temps (p : Nat) (x : Port) : (s.setPort p x).temps = s.temps := rfl
@[simp] theorem setPort_clearAt (p : Nat) (x : Port) : (s.setPort p x).clearAt = s.clearAt := rfl
@[simp] theorem setPort_capAt (p : Nat) (x : Port) : (s.setPort p x).capAt = s.capAt := rfl
@[simp] theorem setPort_pending (p : Nat) (x : Port) : (s.setPort p x).pending = s.pending := rfl

@[simp] theorem stage_csr (o : Nat) (v : Option Nat) : (s.stage o v).csr = s.csr := rfl
@[simp] theorem stage_time (o : Nat) (v : Option Nat) : (s.stage o v).time = s.time := rfl
@[simp] theorem stage_ns (o : Nat) (v : Option Nat) : (s.stage o v).ns = s.ns := rfl
@[simp] theorem stage_free (o : Nat) (v : Option Nat) : (s.stage o v).free = s.free := rfl
@[simp] theorem stage_cores (o : Nat) (v : Option Nat) : (s.stage o v).cores = s.cores := rfl
@[simp] theorem stage_keepers (o : Nat) (v : Option Nat) : (s.stage o v).keepers = s.keepers := rfl
@[simp] theorem stage_ksram (o : Nat) (v : Option Nat) : (s.stage o v).ksram = s.ksram := rfl
@[simp] theorem stage_ksramBad (o : Nat) (v : Option Nat) : (s.stage o v).ksramBad = s.ksramBad := rfl
@[simp] theorem stage_tileDom (o : Nat) (v : Option Nat) : (s.stage o v).tileDom = s.tileDom := rfl
@[simp] theorem stage_caches (o : Nat) (v : Option Nat) : (s.stage o v).caches = s.caches := rfl
@[simp] theorem stage_l2plru (o : Nat) (v : Option Nat) : (s.stage o v).l2plru = s.l2plru := rfl
@[simp] theorem stage_dir (o : Nat) (v : Option Nat) : (s.stage o v).dir = s.dir := rfl
@[simp] theorem stage_dirPlru (o : Nat) (v : Option Nat) : (s.stage o v).dirPlru = s.dirPlru := rfl
@[simp] theorem stage_llc (o : Nat) (v : Option Nat) : (s.stage o v).llc = s.llc := rfl
@[simp] theorem stage_llcPlru (o : Nat) (v : Option Nat) : (s.stage o v).llcPlru = s.llcPlru := rfl
@[simp] theorem stage_setCnt (o : Nat) (v : Option Nat) : (s.stage o v).setCnt = s.setCnt := rfl
@[simp] theorem stage_txns (o : Nat) (v : Option Nat) : (s.stage o v).txns = s.txns := rfl
@[simp] theorem stage_pendQ (o : Nat) (v : Option Nat) : (s.stage o v).pendQ = s.pendQ := rfl
@[simp] theorem stage_retryQ (o : Nat) (v : Option Nat) : (s.stage o v).retryQ = s.retryQ := rfl
@[simp] theorem stage_msgs (o : Nat) (v : Option Nat) : (s.stage o v).msgs = s.msgs := rfl
@[simp] theorem stage_chans (o : Nat) (v : Option Nat) : (s.stage o v).chans = s.chans := rfl
@[simp] theorem stage_dram (o : Nat) (v : Option Nat) : (s.stage o v).dram = s.dram := rfl
@[simp] theorem stage_dramEp (o : Nat) (v : Option Nat) : (s.stage o v).dramEp = s.dramEp := rfl
@[simp] theorem stage_devRep (o : Nat) (v : Option Nat) : (s.stage o v).devRep = s.devRep := rfl
@[simp] theorem stage_arrivals (o : Nat) (v : Option Nat) : (s.stage o v).arrivals = s.arrivals := rfl
@[simp] theorem stage_mtr (o : Nat) (v : Option Nat) : (s.stage o v).mtr = s.mtr := rfl
@[simp] theorem stage_er (o : Nat) (v : Option Nat) : (s.stage o v).er = s.er := rfl
@[simp] theorem stage_tileSvc (o : Nat) (v : Option Nat) : (s.stage o v).tileSvc = s.tileSvc := rfl
@[simp] theorem stage_tileClk (o : Nat) (v : Option Nat) : (s.stage o v).tileClk = s.tileClk := rfl
@[simp] theorem stage_routes (o : Nat) (v : Option Nat) : (s.stage o v).routes = s.routes := rfl
@[simp] theorem stage_ftags (o : Nat) (v : Option Nat) : (s.stage o v).ftags = s.ftags := rfl
@[simp] theorem stage_fquar (o : Nat) (v : Option Nat) : (s.stage o v).fquar = s.fquar := rfl
@[simp] theorem stage_ports (o : Nat) (v : Option Nat) : (s.stage o v).ports = s.ports := rfl
@[simp] theorem stage_transit (o : Nat) (v : Option Nat) : (s.stage o v).transit = s.transit := rfl
@[simp] theorem stage_fabIn (o : Nat) (v : Option Nat) : (s.stage o v).fabIn = s.fabIn := rfl
@[simp] theorem stage_jobRx (o : Nat) (v : Option Nat) : (s.stage o v).jobRx = s.jobRx := rfl
@[simp] theorem stage_outq (o : Nat) (v : Option Nat) : (s.stage o v).outq = s.outq := rfl
@[simp] theorem stage_htags (o : Nat) (v : Option Nat) : (s.stage o v).htags = s.htags := rfl
@[simp] theorem stage_hquar (o : Nat) (v : Option Nat) : (s.stage o v).hquar = s.hquar := rfl
@[simp] theorem stage_tx (o : Nat) (v : Option Nat) : (s.stage o v).tx = s.tx := rfl
@[simp] theorem stage_msix (o : Nat) (v : Option Nat) : (s.stage o v).msix = s.msix := rfl
@[simp] theorem stage_cfg (o : Nat) (v : Option Nat) : (s.stage o v).cfg = s.cfg := rfl
@[simp] theorem stage_hepAt (o : Nat) (v : Option Nat) : (s.stage o v).hepAt = s.hepAt := rfl
@[simp] theorem stage_hepWas (o : Nat) (v : Option Nat) : (s.stage o v).hepWas = s.hepWas := rfl
@[simp] theorem stage_cmds (o : Nat) (v : Option Nat) : (s.stage o v).cmds = s.cmds := rfl
@[simp] theorem stage_heldC (o : Nat) (v : Option Nat) : (s.stage o v).heldC = s.heldC := rfl
@[simp] theorem stage_engines (o : Nat) (v : Option Nat) : (s.stage o v).engines = s.engines := rfl
@[simp] theorem stage_tjobs (o : Nat) (v : Option Nat) : (s.stage o v).tjobs = s.tjobs := rfl
@[simp] theorem stage_tilePark (o : Nat) (v : Option Nat) : (s.stage o v).tilePark = s.tilePark := rfl
@[simp] theorem stage_stopDom (o : Nat) (v : Option Nat) : (s.stage o v).stopDom = s.stopDom := rfl
@[simp] theorem stage_tilePwr (o : Nat) (v : Option Nat) : (s.stage o v).tilePwr = s.tilePwr := rfl
@[simp] theorem stage_mode (o : Nat) (v : Option Nat) : (s.stage o v).mode = s.mode := rfl
@[simp] theorem stage_meshIn (o : Nat) (v : Option Nat) : (s.stage o v).meshIn = s.meshIn := rfl
@[simp] theorem stage_meshRr (o : Nat) (v : Option Nat) : (s.stage o v).meshRr = s.meshRr := rfl
@[simp] theorem stage_meshQat (o : Nat) (v : Option Nat) : (s.stage o v).meshQat = s.meshQat := rfl
@[simp] theorem stage_meshIdle (o : Nat) (v : Option Nat) : (s.stage o v).meshIdle = s.meshIdle := rfl
@[simp] theorem stage_meshHeld (o : Nat) (v : Option Nat) : (s.stage o v).meshHeld = s.meshHeld := rfl
@[simp] theorem stage_lockQ (o : Nat) (v : Option Nat) : (s.stage o v).lockQ = s.lockQ := rfl
@[simp] theorem stage_outReq (o : Nat) (v : Option Nat) : (s.stage o v).outReq = s.outReq := rfl
@[simp] theorem stage_fillQ (o : Nat) (v : Option Nat) : (s.stage o v).fillQ = s.fillQ := rfl
@[simp] theorem stage_meshAt (o : Nat) (v : Option Nat) : (s.stage o v).meshAt = s.meshAt := rfl
@[simp] theorem stage_mper (o : Nat) (v : Option Nat) : (s.stage o v).mper = s.mper := rfl
@[simp] theorem stage_backlog (o : Nat) (v : Option Nat) : (s.stage o v).backlog = s.backlog := rfl
@[simp] theorem stage_mstall (o : Nat) (v : Option Nat) : (s.stage o v).mstall = s.mstall := rfl
@[simp] theorem stage_mbands (o : Nat) (v : Option Nat) : (s.stage o v).mbands = s.mbands := rfl
@[simp] theorem stage_msec (o : Nat) (v : Option Nat) : (s.stage o v).msec = s.msec := rfl
@[simp] theorem stage_mbound (o : Nat) (v : Option Nat) : (s.stage o v).mbound = s.mbound := rfl
@[simp] theorem stage_mkey (o : Nat) (v : Option Nat) : (s.stage o v).mkey = s.mkey := rfl
@[simp] theorem stage_pins (o : Nat) (v : Option Nat) : (s.stage o v).pins = s.pins := rfl
@[simp] theorem stage_fuses (o : Nat) (v : Option Nat) : (s.stage o v).fuses = s.fuses := rfl
@[simp] theorem stage_flash (o : Nat) (v : Option Nat) : (s.stage o v).flash = s.flash := rfl
@[simp] theorem stage_enroll (o : Nat) (v : Option Nat) : (s.stage o v).enroll = s.enroll := rfl
@[simp] theorem stage_rearm (o : Nat) (v : Option Nat) : (s.stage o v).rearm = s.rearm := rfl
@[simp] theorem stage_aborts (o : Nat) (v : Option Nat) : (s.stage o v).aborts = s.aborts := rfl
@[simp] theorem stage_temps (o : Nat) (v : Option Nat) : (s.stage o v).temps = s.temps := rfl
@[simp] theorem stage_clearAt (o : Nat) (v : Option Nat) : (s.stage o v).clearAt = s.clearAt := rfl
@[simp] theorem stage_capAt (o : Nat) (v : Option Nat) : (s.stage o v).capAt = s.capAt := rfl
@[simp] theorem stage_pending (o : Nat) (v : Option Nat) : (s.stage o v).pending = s.pending := rfl

@[simp] theorem setL2_csr (t L : Nat) (x : L2Line) : (s.setL2 t L x).csr = s.csr := rfl
@[simp] theorem setL2_time (t L : Nat) (x : L2Line) : (s.setL2 t L x).time = s.time := rfl
@[simp] theorem setL2_ns (t L : Nat) (x : L2Line) : (s.setL2 t L x).ns = s.ns := rfl
@[simp] theorem setL2_free (t L : Nat) (x : L2Line) : (s.setL2 t L x).free = s.free := rfl
@[simp] theorem setL2_cores (t L : Nat) (x : L2Line) : (s.setL2 t L x).cores = s.cores := rfl
@[simp] theorem setL2_keepers (t L : Nat) (x : L2Line) : (s.setL2 t L x).keepers = s.keepers := rfl
@[simp] theorem setL2_ksram (t L : Nat) (x : L2Line) : (s.setL2 t L x).ksram = s.ksram := rfl
@[simp] theorem setL2_ksramBad (t L : Nat) (x : L2Line) : (s.setL2 t L x).ksramBad = s.ksramBad := rfl
@[simp] theorem setL2_tileDom (t L : Nat) (x : L2Line) : (s.setL2 t L x).tileDom = s.tileDom := rfl
@[simp] theorem setL2_l2plru (t L : Nat) (x : L2Line) : (s.setL2 t L x).l2plru = s.l2plru := rfl
@[simp] theorem setL2_dir (t L : Nat) (x : L2Line) : (s.setL2 t L x).dir = s.dir := rfl
@[simp] theorem setL2_dirPlru (t L : Nat) (x : L2Line) : (s.setL2 t L x).dirPlru = s.dirPlru := rfl
@[simp] theorem setL2_llc (t L : Nat) (x : L2Line) : (s.setL2 t L x).llc = s.llc := rfl
@[simp] theorem setL2_llcPlru (t L : Nat) (x : L2Line) : (s.setL2 t L x).llcPlru = s.llcPlru := rfl
@[simp] theorem setL2_setCnt (t L : Nat) (x : L2Line) : (s.setL2 t L x).setCnt = s.setCnt := rfl
@[simp] theorem setL2_txns (t L : Nat) (x : L2Line) : (s.setL2 t L x).txns = s.txns := rfl
@[simp] theorem setL2_pendQ (t L : Nat) (x : L2Line) : (s.setL2 t L x).pendQ = s.pendQ := rfl
@[simp] theorem setL2_retryQ (t L : Nat) (x : L2Line) : (s.setL2 t L x).retryQ = s.retryQ := rfl
@[simp] theorem setL2_msgs (t L : Nat) (x : L2Line) : (s.setL2 t L x).msgs = s.msgs := rfl
@[simp] theorem setL2_chans (t L : Nat) (x : L2Line) : (s.setL2 t L x).chans = s.chans := rfl
@[simp] theorem setL2_dram (t L : Nat) (x : L2Line) : (s.setL2 t L x).dram = s.dram := rfl
@[simp] theorem setL2_dramEp (t L : Nat) (x : L2Line) : (s.setL2 t L x).dramEp = s.dramEp := rfl
@[simp] theorem setL2_devRep (t L : Nat) (x : L2Line) : (s.setL2 t L x).devRep = s.devRep := rfl
@[simp] theorem setL2_arrivals (t L : Nat) (x : L2Line) : (s.setL2 t L x).arrivals = s.arrivals := rfl
@[simp] theorem setL2_mtr (t L : Nat) (x : L2Line) : (s.setL2 t L x).mtr = s.mtr := rfl
@[simp] theorem setL2_er (t L : Nat) (x : L2Line) : (s.setL2 t L x).er = s.er := rfl
@[simp] theorem setL2_tileSvc (t L : Nat) (x : L2Line) : (s.setL2 t L x).tileSvc = s.tileSvc := rfl
@[simp] theorem setL2_tileClk (t L : Nat) (x : L2Line) : (s.setL2 t L x).tileClk = s.tileClk := rfl
@[simp] theorem setL2_routes (t L : Nat) (x : L2Line) : (s.setL2 t L x).routes = s.routes := rfl
@[simp] theorem setL2_ftags (t L : Nat) (x : L2Line) : (s.setL2 t L x).ftags = s.ftags := rfl
@[simp] theorem setL2_fquar (t L : Nat) (x : L2Line) : (s.setL2 t L x).fquar = s.fquar := rfl
@[simp] theorem setL2_ports (t L : Nat) (x : L2Line) : (s.setL2 t L x).ports = s.ports := rfl
@[simp] theorem setL2_transit (t L : Nat) (x : L2Line) : (s.setL2 t L x).transit = s.transit := rfl
@[simp] theorem setL2_fabIn (t L : Nat) (x : L2Line) : (s.setL2 t L x).fabIn = s.fabIn := rfl
@[simp] theorem setL2_jobRx (t L : Nat) (x : L2Line) : (s.setL2 t L x).jobRx = s.jobRx := rfl
@[simp] theorem setL2_outq (t L : Nat) (x : L2Line) : (s.setL2 t L x).outq = s.outq := rfl
@[simp] theorem setL2_htags (t L : Nat) (x : L2Line) : (s.setL2 t L x).htags = s.htags := rfl
@[simp] theorem setL2_hquar (t L : Nat) (x : L2Line) : (s.setL2 t L x).hquar = s.hquar := rfl
@[simp] theorem setL2_tx (t L : Nat) (x : L2Line) : (s.setL2 t L x).tx = s.tx := rfl
@[simp] theorem setL2_msix (t L : Nat) (x : L2Line) : (s.setL2 t L x).msix = s.msix := rfl
@[simp] theorem setL2_cfg (t L : Nat) (x : L2Line) : (s.setL2 t L x).cfg = s.cfg := rfl
@[simp] theorem setL2_staged (t L : Nat) (x : L2Line) : (s.setL2 t L x).staged = s.staged := rfl
@[simp] theorem setL2_hepAt (t L : Nat) (x : L2Line) : (s.setL2 t L x).hepAt = s.hepAt := rfl
@[simp] theorem setL2_hepWas (t L : Nat) (x : L2Line) : (s.setL2 t L x).hepWas = s.hepWas := rfl
@[simp] theorem setL2_cmds (t L : Nat) (x : L2Line) : (s.setL2 t L x).cmds = s.cmds := rfl
@[simp] theorem setL2_heldC (t L : Nat) (x : L2Line) : (s.setL2 t L x).heldC = s.heldC := rfl
@[simp] theorem setL2_engines (t L : Nat) (x : L2Line) : (s.setL2 t L x).engines = s.engines := rfl
@[simp] theorem setL2_tjobs (t L : Nat) (x : L2Line) : (s.setL2 t L x).tjobs = s.tjobs := rfl
@[simp] theorem setL2_tilePark (t L : Nat) (x : L2Line) : (s.setL2 t L x).tilePark = s.tilePark := rfl
@[simp] theorem setL2_stopDom (t L : Nat) (x : L2Line) : (s.setL2 t L x).stopDom = s.stopDom := rfl
@[simp] theorem setL2_tilePwr (t L : Nat) (x : L2Line) : (s.setL2 t L x).tilePwr = s.tilePwr := rfl
@[simp] theorem setL2_mode (t L : Nat) (x : L2Line) : (s.setL2 t L x).mode = s.mode := rfl
@[simp] theorem setL2_meshIn (t L : Nat) (x : L2Line) : (s.setL2 t L x).meshIn = s.meshIn := rfl
@[simp] theorem setL2_meshRr (t L : Nat) (x : L2Line) : (s.setL2 t L x).meshRr = s.meshRr := rfl
@[simp] theorem setL2_meshQat (t L : Nat) (x : L2Line) : (s.setL2 t L x).meshQat = s.meshQat := rfl
@[simp] theorem setL2_meshIdle (t L : Nat) (x : L2Line) : (s.setL2 t L x).meshIdle = s.meshIdle := rfl
@[simp] theorem setL2_meshHeld (t L : Nat) (x : L2Line) : (s.setL2 t L x).meshHeld = s.meshHeld := rfl
@[simp] theorem setL2_lockQ (t L : Nat) (x : L2Line) : (s.setL2 t L x).lockQ = s.lockQ := rfl
@[simp] theorem setL2_outReq (t L : Nat) (x : L2Line) : (s.setL2 t L x).outReq = s.outReq := rfl
@[simp] theorem setL2_fillQ (t L : Nat) (x : L2Line) : (s.setL2 t L x).fillQ = s.fillQ := rfl
@[simp] theorem setL2_meshAt (t L : Nat) (x : L2Line) : (s.setL2 t L x).meshAt = s.meshAt := rfl
@[simp] theorem setL2_mper (t L : Nat) (x : L2Line) : (s.setL2 t L x).mper = s.mper := rfl
@[simp] theorem setL2_backlog (t L : Nat) (x : L2Line) : (s.setL2 t L x).backlog = s.backlog := rfl
@[simp] theorem setL2_mstall (t L : Nat) (x : L2Line) : (s.setL2 t L x).mstall = s.mstall := rfl
@[simp] theorem setL2_mbands (t L : Nat) (x : L2Line) : (s.setL2 t L x).mbands = s.mbands := rfl
@[simp] theorem setL2_msec (t L : Nat) (x : L2Line) : (s.setL2 t L x).msec = s.msec := rfl
@[simp] theorem setL2_mbound (t L : Nat) (x : L2Line) : (s.setL2 t L x).mbound = s.mbound := rfl
@[simp] theorem setL2_mkey (t L : Nat) (x : L2Line) : (s.setL2 t L x).mkey = s.mkey := rfl
@[simp] theorem setL2_pins (t L : Nat) (x : L2Line) : (s.setL2 t L x).pins = s.pins := rfl
@[simp] theorem setL2_fuses (t L : Nat) (x : L2Line) : (s.setL2 t L x).fuses = s.fuses := rfl
@[simp] theorem setL2_flash (t L : Nat) (x : L2Line) : (s.setL2 t L x).flash = s.flash := rfl
@[simp] theorem setL2_enroll (t L : Nat) (x : L2Line) : (s.setL2 t L x).enroll = s.enroll := rfl
@[simp] theorem setL2_rearm (t L : Nat) (x : L2Line) : (s.setL2 t L x).rearm = s.rearm := rfl
@[simp] theorem setL2_aborts (t L : Nat) (x : L2Line) : (s.setL2 t L x).aborts = s.aborts := rfl
@[simp] theorem setL2_temps (t L : Nat) (x : L2Line) : (s.setL2 t L x).temps = s.temps := rfl
@[simp] theorem setL2_clearAt (t L : Nat) (x : L2Line) : (s.setL2 t L x).clearAt = s.clearAt := rfl
@[simp] theorem setL2_capAt (t L : Nat) (x : L2Line) : (s.setL2 t L x).capAt = s.capAt := rfl
@[simp] theorem setL2_pending (t L : Nat) (x : L2Line) : (s.setL2 t L x).pending = s.pending := rfl

@[simp] theorem send_csr (m : Msg) : (s.send m).csr = s.csr := rfl
@[simp] theorem send_time (m : Msg) : (s.send m).time = s.time := rfl
@[simp] theorem send_ns (m : Msg) : (s.send m).ns = s.ns := rfl
@[simp] theorem send_free (m : Msg) : (s.send m).free = s.free := rfl
@[simp] theorem send_cores (m : Msg) : (s.send m).cores = s.cores := rfl
@[simp] theorem send_keepers (m : Msg) : (s.send m).keepers = s.keepers := rfl
@[simp] theorem send_ksram (m : Msg) : (s.send m).ksram = s.ksram := rfl
@[simp] theorem send_ksramBad (m : Msg) : (s.send m).ksramBad = s.ksramBad := rfl
@[simp] theorem send_tileDom (m : Msg) : (s.send m).tileDom = s.tileDom := rfl
@[simp] theorem send_caches (m : Msg) : (s.send m).caches = s.caches := rfl
@[simp] theorem send_l2plru (m : Msg) : (s.send m).l2plru = s.l2plru := rfl
@[simp] theorem send_dir (m : Msg) : (s.send m).dir = s.dir := rfl
@[simp] theorem send_dirPlru (m : Msg) : (s.send m).dirPlru = s.dirPlru := rfl
@[simp] theorem send_llc (m : Msg) : (s.send m).llc = s.llc := rfl
@[simp] theorem send_llcPlru (m : Msg) : (s.send m).llcPlru = s.llcPlru := rfl
@[simp] theorem send_setCnt (m : Msg) : (s.send m).setCnt = s.setCnt := rfl
@[simp] theorem send_txns (m : Msg) : (s.send m).txns = s.txns := rfl
@[simp] theorem send_pendQ (m : Msg) : (s.send m).pendQ = s.pendQ := rfl
@[simp] theorem send_retryQ (m : Msg) : (s.send m).retryQ = s.retryQ := rfl
@[simp] theorem send_chans (m : Msg) : (s.send m).chans = s.chans := rfl
@[simp] theorem send_dram (m : Msg) : (s.send m).dram = s.dram := rfl
@[simp] theorem send_dramEp (m : Msg) : (s.send m).dramEp = s.dramEp := rfl
@[simp] theorem send_devRep (m : Msg) : (s.send m).devRep = s.devRep := rfl
@[simp] theorem send_arrivals (m : Msg) : (s.send m).arrivals = s.arrivals := rfl
@[simp] theorem send_mtr (m : Msg) : (s.send m).mtr = s.mtr := rfl
@[simp] theorem send_er (m : Msg) : (s.send m).er = s.er := rfl
@[simp] theorem send_tileSvc (m : Msg) : (s.send m).tileSvc = s.tileSvc := rfl
@[simp] theorem send_tileClk (m : Msg) : (s.send m).tileClk = s.tileClk := rfl
@[simp] theorem send_routes (m : Msg) : (s.send m).routes = s.routes := rfl
@[simp] theorem send_ftags (m : Msg) : (s.send m).ftags = s.ftags := rfl
@[simp] theorem send_fquar (m : Msg) : (s.send m).fquar = s.fquar := rfl
@[simp] theorem send_ports (m : Msg) : (s.send m).ports = s.ports := rfl
@[simp] theorem send_transit (m : Msg) : (s.send m).transit = s.transit := rfl
@[simp] theorem send_fabIn (m : Msg) : (s.send m).fabIn = s.fabIn := rfl
@[simp] theorem send_jobRx (m : Msg) : (s.send m).jobRx = s.jobRx := rfl
@[simp] theorem send_outq (m : Msg) : (s.send m).outq = s.outq := rfl
@[simp] theorem send_htags (m : Msg) : (s.send m).htags = s.htags := rfl
@[simp] theorem send_hquar (m : Msg) : (s.send m).hquar = s.hquar := rfl
@[simp] theorem send_tx (m : Msg) : (s.send m).tx = s.tx := rfl
@[simp] theorem send_msix (m : Msg) : (s.send m).msix = s.msix := rfl
@[simp] theorem send_cfg (m : Msg) : (s.send m).cfg = s.cfg := rfl
@[simp] theorem send_staged (m : Msg) : (s.send m).staged = s.staged := rfl
@[simp] theorem send_hepAt (m : Msg) : (s.send m).hepAt = s.hepAt := rfl
@[simp] theorem send_hepWas (m : Msg) : (s.send m).hepWas = s.hepWas := rfl
@[simp] theorem send_cmds (m : Msg) : (s.send m).cmds = s.cmds := rfl
@[simp] theorem send_heldC (m : Msg) : (s.send m).heldC = s.heldC := rfl
@[simp] theorem send_engines (m : Msg) : (s.send m).engines = s.engines := rfl
@[simp] theorem send_tjobs (m : Msg) : (s.send m).tjobs = s.tjobs := rfl
@[simp] theorem send_tilePark (m : Msg) : (s.send m).tilePark = s.tilePark := rfl
@[simp] theorem send_stopDom (m : Msg) : (s.send m).stopDom = s.stopDom := rfl
@[simp] theorem send_tilePwr (m : Msg) : (s.send m).tilePwr = s.tilePwr := rfl
@[simp] theorem send_mode (m : Msg) : (s.send m).mode = s.mode := rfl
@[simp] theorem send_meshIn (m : Msg) : (s.send m).meshIn = s.meshIn := rfl
@[simp] theorem send_meshRr (m : Msg) : (s.send m).meshRr = s.meshRr := rfl
@[simp] theorem send_meshQat (m : Msg) : (s.send m).meshQat = s.meshQat := rfl
@[simp] theorem send_meshIdle (m : Msg) : (s.send m).meshIdle = s.meshIdle := rfl
@[simp] theorem send_meshHeld (m : Msg) : (s.send m).meshHeld = s.meshHeld := rfl
@[simp] theorem send_lockQ (m : Msg) : (s.send m).lockQ = s.lockQ := rfl
@[simp] theorem send_outReq (m : Msg) : (s.send m).outReq = s.outReq := rfl
@[simp] theorem send_fillQ (m : Msg) : (s.send m).fillQ = s.fillQ := rfl
@[simp] theorem send_meshAt (m : Msg) : (s.send m).meshAt = s.meshAt := rfl
@[simp] theorem send_mper (m : Msg) : (s.send m).mper = s.mper := rfl
@[simp] theorem send_backlog (m : Msg) : (s.send m).backlog = s.backlog := rfl
@[simp] theorem send_mstall (m : Msg) : (s.send m).mstall = s.mstall := rfl
@[simp] theorem send_mbands (m : Msg) : (s.send m).mbands = s.mbands := rfl
@[simp] theorem send_msec (m : Msg) : (s.send m).msec = s.msec := rfl
@[simp] theorem send_mbound (m : Msg) : (s.send m).mbound = s.mbound := rfl
@[simp] theorem send_mkey (m : Msg) : (s.send m).mkey = s.mkey := rfl
@[simp] theorem send_pins (m : Msg) : (s.send m).pins = s.pins := rfl
@[simp] theorem send_fuses (m : Msg) : (s.send m).fuses = s.fuses := rfl
@[simp] theorem send_flash (m : Msg) : (s.send m).flash = s.flash := rfl
@[simp] theorem send_enroll (m : Msg) : (s.send m).enroll = s.enroll := rfl
@[simp] theorem send_rearm (m : Msg) : (s.send m).rearm = s.rearm := rfl
@[simp] theorem send_aborts (m : Msg) : (s.send m).aborts = s.aborts := rfl
@[simp] theorem send_temps (m : Msg) : (s.send m).temps = s.temps := rfl
@[simp] theorem send_clearAt (m : Msg) : (s.send m).clearAt = s.clearAt := rfl
@[simp] theorem send_capAt (m : Msg) : (s.send m).capAt = s.capAt := rfl
@[simp] theorem send_pending (m : Msg) : (s.send m).pending = s.pending := rfl

@[simp] theorem setDir_csr (L : Nat) (e : Option DirE) : (s.setDir L e).csr = s.csr := rfl
@[simp] theorem setDir_time (L : Nat) (e : Option DirE) : (s.setDir L e).time = s.time := rfl
@[simp] theorem setDir_ns (L : Nat) (e : Option DirE) : (s.setDir L e).ns = s.ns := rfl
@[simp] theorem setDir_free (L : Nat) (e : Option DirE) : (s.setDir L e).free = s.free := rfl
@[simp] theorem setDir_cores (L : Nat) (e : Option DirE) : (s.setDir L e).cores = s.cores := rfl
@[simp] theorem setDir_keepers (L : Nat) (e : Option DirE) : (s.setDir L e).keepers = s.keepers := rfl
@[simp] theorem setDir_ksram (L : Nat) (e : Option DirE) : (s.setDir L e).ksram = s.ksram := rfl
@[simp] theorem setDir_ksramBad (L : Nat) (e : Option DirE) : (s.setDir L e).ksramBad = s.ksramBad := rfl
@[simp] theorem setDir_tileDom (L : Nat) (e : Option DirE) : (s.setDir L e).tileDom = s.tileDom := rfl
@[simp] theorem setDir_caches (L : Nat) (e : Option DirE) : (s.setDir L e).caches = s.caches := rfl
@[simp] theorem setDir_l2plru (L : Nat) (e : Option DirE) : (s.setDir L e).l2plru = s.l2plru := rfl
@[simp] theorem setDir_dirPlru (L : Nat) (e : Option DirE) : (s.setDir L e).dirPlru = s.dirPlru := rfl
@[simp] theorem setDir_llc (L : Nat) (e : Option DirE) : (s.setDir L e).llc = s.llc := rfl
@[simp] theorem setDir_llcPlru (L : Nat) (e : Option DirE) : (s.setDir L e).llcPlru = s.llcPlru := rfl
@[simp] theorem setDir_setCnt (L : Nat) (e : Option DirE) : (s.setDir L e).setCnt = s.setCnt := rfl
@[simp] theorem setDir_txns (L : Nat) (e : Option DirE) : (s.setDir L e).txns = s.txns := rfl
@[simp] theorem setDir_pendQ (L : Nat) (e : Option DirE) : (s.setDir L e).pendQ = s.pendQ := rfl
@[simp] theorem setDir_retryQ (L : Nat) (e : Option DirE) : (s.setDir L e).retryQ = s.retryQ := rfl
@[simp] theorem setDir_msgs (L : Nat) (e : Option DirE) : (s.setDir L e).msgs = s.msgs := rfl
@[simp] theorem setDir_chans (L : Nat) (e : Option DirE) : (s.setDir L e).chans = s.chans := rfl
@[simp] theorem setDir_dram (L : Nat) (e : Option DirE) : (s.setDir L e).dram = s.dram := rfl
@[simp] theorem setDir_dramEp (L : Nat) (e : Option DirE) : (s.setDir L e).dramEp = s.dramEp := rfl
@[simp] theorem setDir_devRep (L : Nat) (e : Option DirE) : (s.setDir L e).devRep = s.devRep := rfl
@[simp] theorem setDir_arrivals (L : Nat) (e : Option DirE) : (s.setDir L e).arrivals = s.arrivals := rfl
@[simp] theorem setDir_mtr (L : Nat) (e : Option DirE) : (s.setDir L e).mtr = s.mtr := rfl
@[simp] theorem setDir_er (L : Nat) (e : Option DirE) : (s.setDir L e).er = s.er := rfl
@[simp] theorem setDir_tileSvc (L : Nat) (e : Option DirE) : (s.setDir L e).tileSvc = s.tileSvc := rfl
@[simp] theorem setDir_tileClk (L : Nat) (e : Option DirE) : (s.setDir L e).tileClk = s.tileClk := rfl
@[simp] theorem setDir_routes (L : Nat) (e : Option DirE) : (s.setDir L e).routes = s.routes := rfl
@[simp] theorem setDir_ftags (L : Nat) (e : Option DirE) : (s.setDir L e).ftags = s.ftags := rfl
@[simp] theorem setDir_fquar (L : Nat) (e : Option DirE) : (s.setDir L e).fquar = s.fquar := rfl
@[simp] theorem setDir_ports (L : Nat) (e : Option DirE) : (s.setDir L e).ports = s.ports := rfl
@[simp] theorem setDir_transit (L : Nat) (e : Option DirE) : (s.setDir L e).transit = s.transit := rfl
@[simp] theorem setDir_fabIn (L : Nat) (e : Option DirE) : (s.setDir L e).fabIn = s.fabIn := rfl
@[simp] theorem setDir_jobRx (L : Nat) (e : Option DirE) : (s.setDir L e).jobRx = s.jobRx := rfl
@[simp] theorem setDir_outq (L : Nat) (e : Option DirE) : (s.setDir L e).outq = s.outq := rfl
@[simp] theorem setDir_htags (L : Nat) (e : Option DirE) : (s.setDir L e).htags = s.htags := rfl
@[simp] theorem setDir_hquar (L : Nat) (e : Option DirE) : (s.setDir L e).hquar = s.hquar := rfl
@[simp] theorem setDir_tx (L : Nat) (e : Option DirE) : (s.setDir L e).tx = s.tx := rfl
@[simp] theorem setDir_msix (L : Nat) (e : Option DirE) : (s.setDir L e).msix = s.msix := rfl
@[simp] theorem setDir_cfg (L : Nat) (e : Option DirE) : (s.setDir L e).cfg = s.cfg := rfl
@[simp] theorem setDir_staged (L : Nat) (e : Option DirE) : (s.setDir L e).staged = s.staged := rfl
@[simp] theorem setDir_hepAt (L : Nat) (e : Option DirE) : (s.setDir L e).hepAt = s.hepAt := rfl
@[simp] theorem setDir_hepWas (L : Nat) (e : Option DirE) : (s.setDir L e).hepWas = s.hepWas := rfl
@[simp] theorem setDir_cmds (L : Nat) (e : Option DirE) : (s.setDir L e).cmds = s.cmds := rfl
@[simp] theorem setDir_heldC (L : Nat) (e : Option DirE) : (s.setDir L e).heldC = s.heldC := rfl
@[simp] theorem setDir_engines (L : Nat) (e : Option DirE) : (s.setDir L e).engines = s.engines := rfl
@[simp] theorem setDir_tjobs (L : Nat) (e : Option DirE) : (s.setDir L e).tjobs = s.tjobs := rfl
@[simp] theorem setDir_tilePark (L : Nat) (e : Option DirE) : (s.setDir L e).tilePark = s.tilePark := rfl
@[simp] theorem setDir_stopDom (L : Nat) (e : Option DirE) : (s.setDir L e).stopDom = s.stopDom := rfl
@[simp] theorem setDir_tilePwr (L : Nat) (e : Option DirE) : (s.setDir L e).tilePwr = s.tilePwr := rfl
@[simp] theorem setDir_mode (L : Nat) (e : Option DirE) : (s.setDir L e).mode = s.mode := rfl
@[simp] theorem setDir_meshIn (L : Nat) (e : Option DirE) : (s.setDir L e).meshIn = s.meshIn := rfl
@[simp] theorem setDir_meshRr (L : Nat) (e : Option DirE) : (s.setDir L e).meshRr = s.meshRr := rfl
@[simp] theorem setDir_meshQat (L : Nat) (e : Option DirE) : (s.setDir L e).meshQat = s.meshQat := rfl
@[simp] theorem setDir_meshIdle (L : Nat) (e : Option DirE) : (s.setDir L e).meshIdle = s.meshIdle := rfl
@[simp] theorem setDir_meshHeld (L : Nat) (e : Option DirE) : (s.setDir L e).meshHeld = s.meshHeld := rfl
@[simp] theorem setDir_lockQ (L : Nat) (e : Option DirE) : (s.setDir L e).lockQ = s.lockQ := rfl
@[simp] theorem setDir_outReq (L : Nat) (e : Option DirE) : (s.setDir L e).outReq = s.outReq := rfl
@[simp] theorem setDir_fillQ (L : Nat) (e : Option DirE) : (s.setDir L e).fillQ = s.fillQ := rfl
@[simp] theorem setDir_meshAt (L : Nat) (e : Option DirE) : (s.setDir L e).meshAt = s.meshAt := rfl
@[simp] theorem setDir_mper (L : Nat) (e : Option DirE) : (s.setDir L e).mper = s.mper := rfl
@[simp] theorem setDir_backlog (L : Nat) (e : Option DirE) : (s.setDir L e).backlog = s.backlog := rfl
@[simp] theorem setDir_mstall (L : Nat) (e : Option DirE) : (s.setDir L e).mstall = s.mstall := rfl
@[simp] theorem setDir_mbands (L : Nat) (e : Option DirE) : (s.setDir L e).mbands = s.mbands := rfl
@[simp] theorem setDir_msec (L : Nat) (e : Option DirE) : (s.setDir L e).msec = s.msec := rfl
@[simp] theorem setDir_mbound (L : Nat) (e : Option DirE) : (s.setDir L e).mbound = s.mbound := rfl
@[simp] theorem setDir_mkey (L : Nat) (e : Option DirE) : (s.setDir L e).mkey = s.mkey := rfl
@[simp] theorem setDir_pins (L : Nat) (e : Option DirE) : (s.setDir L e).pins = s.pins := rfl
@[simp] theorem setDir_fuses (L : Nat) (e : Option DirE) : (s.setDir L e).fuses = s.fuses := rfl
@[simp] theorem setDir_flash (L : Nat) (e : Option DirE) : (s.setDir L e).flash = s.flash := rfl
@[simp] theorem setDir_enroll (L : Nat) (e : Option DirE) : (s.setDir L e).enroll = s.enroll := rfl
@[simp] theorem setDir_rearm (L : Nat) (e : Option DirE) : (s.setDir L e).rearm = s.rearm := rfl
@[simp] theorem setDir_aborts (L : Nat) (e : Option DirE) : (s.setDir L e).aborts = s.aborts := rfl
@[simp] theorem setDir_temps (L : Nat) (e : Option DirE) : (s.setDir L e).temps = s.temps := rfl
@[simp] theorem setDir_clearAt (L : Nat) (e : Option DirE) : (s.setDir L e).clearAt = s.clearAt := rfl
@[simp] theorem setDir_capAt (L : Nat) (e : Option DirE) : (s.setDir L e).capAt = s.capAt := rfl
@[simp] theorem setDir_pending (L : Nat) (e : Option DirE) : (s.setDir L e).pending = s.pending := rfl

@[simp] theorem setLlc_csr (L : Nat) (e : Option LlcE) : (s.setLlc L e).csr = s.csr := rfl
@[simp] theorem setLlc_time (L : Nat) (e : Option LlcE) : (s.setLlc L e).time = s.time := rfl
@[simp] theorem setLlc_ns (L : Nat) (e : Option LlcE) : (s.setLlc L e).ns = s.ns := rfl
@[simp] theorem setLlc_free (L : Nat) (e : Option LlcE) : (s.setLlc L e).free = s.free := rfl
@[simp] theorem setLlc_cores (L : Nat) (e : Option LlcE) : (s.setLlc L e).cores = s.cores := rfl
@[simp] theorem setLlc_keepers (L : Nat) (e : Option LlcE) : (s.setLlc L e).keepers = s.keepers := rfl
@[simp] theorem setLlc_ksram (L : Nat) (e : Option LlcE) : (s.setLlc L e).ksram = s.ksram := rfl
@[simp] theorem setLlc_ksramBad (L : Nat) (e : Option LlcE) : (s.setLlc L e).ksramBad = s.ksramBad := rfl
@[simp] theorem setLlc_tileDom (L : Nat) (e : Option LlcE) : (s.setLlc L e).tileDom = s.tileDom := rfl
@[simp] theorem setLlc_caches (L : Nat) (e : Option LlcE) : (s.setLlc L e).caches = s.caches := rfl
@[simp] theorem setLlc_l2plru (L : Nat) (e : Option LlcE) : (s.setLlc L e).l2plru = s.l2plru := rfl
@[simp] theorem setLlc_dir (L : Nat) (e : Option LlcE) : (s.setLlc L e).dir = s.dir := rfl
@[simp] theorem setLlc_dirPlru (L : Nat) (e : Option LlcE) : (s.setLlc L e).dirPlru = s.dirPlru := rfl
@[simp] theorem setLlc_llcPlru (L : Nat) (e : Option LlcE) : (s.setLlc L e).llcPlru = s.llcPlru := rfl
@[simp] theorem setLlc_setCnt (L : Nat) (e : Option LlcE) : (s.setLlc L e).setCnt = s.setCnt := rfl
@[simp] theorem setLlc_txns (L : Nat) (e : Option LlcE) : (s.setLlc L e).txns = s.txns := rfl
@[simp] theorem setLlc_pendQ (L : Nat) (e : Option LlcE) : (s.setLlc L e).pendQ = s.pendQ := rfl
@[simp] theorem setLlc_retryQ (L : Nat) (e : Option LlcE) : (s.setLlc L e).retryQ = s.retryQ := rfl
@[simp] theorem setLlc_msgs (L : Nat) (e : Option LlcE) : (s.setLlc L e).msgs = s.msgs := rfl
@[simp] theorem setLlc_chans (L : Nat) (e : Option LlcE) : (s.setLlc L e).chans = s.chans := rfl
@[simp] theorem setLlc_dram (L : Nat) (e : Option LlcE) : (s.setLlc L e).dram = s.dram := rfl
@[simp] theorem setLlc_dramEp (L : Nat) (e : Option LlcE) : (s.setLlc L e).dramEp = s.dramEp := rfl
@[simp] theorem setLlc_devRep (L : Nat) (e : Option LlcE) : (s.setLlc L e).devRep = s.devRep := rfl
@[simp] theorem setLlc_arrivals (L : Nat) (e : Option LlcE) : (s.setLlc L e).arrivals = s.arrivals := rfl
@[simp] theorem setLlc_mtr (L : Nat) (e : Option LlcE) : (s.setLlc L e).mtr = s.mtr := rfl
@[simp] theorem setLlc_er (L : Nat) (e : Option LlcE) : (s.setLlc L e).er = s.er := rfl
@[simp] theorem setLlc_tileSvc (L : Nat) (e : Option LlcE) : (s.setLlc L e).tileSvc = s.tileSvc := rfl
@[simp] theorem setLlc_tileClk (L : Nat) (e : Option LlcE) : (s.setLlc L e).tileClk = s.tileClk := rfl
@[simp] theorem setLlc_routes (L : Nat) (e : Option LlcE) : (s.setLlc L e).routes = s.routes := rfl
@[simp] theorem setLlc_ftags (L : Nat) (e : Option LlcE) : (s.setLlc L e).ftags = s.ftags := rfl
@[simp] theorem setLlc_fquar (L : Nat) (e : Option LlcE) : (s.setLlc L e).fquar = s.fquar := rfl
@[simp] theorem setLlc_ports (L : Nat) (e : Option LlcE) : (s.setLlc L e).ports = s.ports := rfl
@[simp] theorem setLlc_transit (L : Nat) (e : Option LlcE) : (s.setLlc L e).transit = s.transit := rfl
@[simp] theorem setLlc_fabIn (L : Nat) (e : Option LlcE) : (s.setLlc L e).fabIn = s.fabIn := rfl
@[simp] theorem setLlc_jobRx (L : Nat) (e : Option LlcE) : (s.setLlc L e).jobRx = s.jobRx := rfl
@[simp] theorem setLlc_outq (L : Nat) (e : Option LlcE) : (s.setLlc L e).outq = s.outq := rfl
@[simp] theorem setLlc_htags (L : Nat) (e : Option LlcE) : (s.setLlc L e).htags = s.htags := rfl
@[simp] theorem setLlc_hquar (L : Nat) (e : Option LlcE) : (s.setLlc L e).hquar = s.hquar := rfl
@[simp] theorem setLlc_tx (L : Nat) (e : Option LlcE) : (s.setLlc L e).tx = s.tx := rfl
@[simp] theorem setLlc_msix (L : Nat) (e : Option LlcE) : (s.setLlc L e).msix = s.msix := rfl
@[simp] theorem setLlc_cfg (L : Nat) (e : Option LlcE) : (s.setLlc L e).cfg = s.cfg := rfl
@[simp] theorem setLlc_staged (L : Nat) (e : Option LlcE) : (s.setLlc L e).staged = s.staged := rfl
@[simp] theorem setLlc_hepAt (L : Nat) (e : Option LlcE) : (s.setLlc L e).hepAt = s.hepAt := rfl
@[simp] theorem setLlc_hepWas (L : Nat) (e : Option LlcE) : (s.setLlc L e).hepWas = s.hepWas := rfl
@[simp] theorem setLlc_cmds (L : Nat) (e : Option LlcE) : (s.setLlc L e).cmds = s.cmds := rfl
@[simp] theorem setLlc_heldC (L : Nat) (e : Option LlcE) : (s.setLlc L e).heldC = s.heldC := rfl
@[simp] theorem setLlc_engines (L : Nat) (e : Option LlcE) : (s.setLlc L e).engines = s.engines := rfl
@[simp] theorem setLlc_tjobs (L : Nat) (e : Option LlcE) : (s.setLlc L e).tjobs = s.tjobs := rfl
@[simp] theorem setLlc_tilePark (L : Nat) (e : Option LlcE) : (s.setLlc L e).tilePark = s.tilePark := rfl
@[simp] theorem setLlc_stopDom (L : Nat) (e : Option LlcE) : (s.setLlc L e).stopDom = s.stopDom := rfl
@[simp] theorem setLlc_tilePwr (L : Nat) (e : Option LlcE) : (s.setLlc L e).tilePwr = s.tilePwr := rfl
@[simp] theorem setLlc_mode (L : Nat) (e : Option LlcE) : (s.setLlc L e).mode = s.mode := rfl
@[simp] theorem setLlc_meshIn (L : Nat) (e : Option LlcE) : (s.setLlc L e).meshIn = s.meshIn := rfl
@[simp] theorem setLlc_meshRr (L : Nat) (e : Option LlcE) : (s.setLlc L e).meshRr = s.meshRr := rfl
@[simp] theorem setLlc_meshQat (L : Nat) (e : Option LlcE) : (s.setLlc L e).meshQat = s.meshQat := rfl
@[simp] theorem setLlc_meshIdle (L : Nat) (e : Option LlcE) : (s.setLlc L e).meshIdle = s.meshIdle := rfl
@[simp] theorem setLlc_meshHeld (L : Nat) (e : Option LlcE) : (s.setLlc L e).meshHeld = s.meshHeld := rfl
@[simp] theorem setLlc_lockQ (L : Nat) (e : Option LlcE) : (s.setLlc L e).lockQ = s.lockQ := rfl
@[simp] theorem setLlc_outReq (L : Nat) (e : Option LlcE) : (s.setLlc L e).outReq = s.outReq := rfl
@[simp] theorem setLlc_fillQ (L : Nat) (e : Option LlcE) : (s.setLlc L e).fillQ = s.fillQ := rfl
@[simp] theorem setLlc_meshAt (L : Nat) (e : Option LlcE) : (s.setLlc L e).meshAt = s.meshAt := rfl
@[simp] theorem setLlc_mper (L : Nat) (e : Option LlcE) : (s.setLlc L e).mper = s.mper := rfl
@[simp] theorem setLlc_backlog (L : Nat) (e : Option LlcE) : (s.setLlc L e).backlog = s.backlog := rfl
@[simp] theorem setLlc_mstall (L : Nat) (e : Option LlcE) : (s.setLlc L e).mstall = s.mstall := rfl
@[simp] theorem setLlc_mbands (L : Nat) (e : Option LlcE) : (s.setLlc L e).mbands = s.mbands := rfl
@[simp] theorem setLlc_msec (L : Nat) (e : Option LlcE) : (s.setLlc L e).msec = s.msec := rfl
@[simp] theorem setLlc_mbound (L : Nat) (e : Option LlcE) : (s.setLlc L e).mbound = s.mbound := rfl
@[simp] theorem setLlc_mkey (L : Nat) (e : Option LlcE) : (s.setLlc L e).mkey = s.mkey := rfl
@[simp] theorem setLlc_pins (L : Nat) (e : Option LlcE) : (s.setLlc L e).pins = s.pins := rfl
@[simp] theorem setLlc_fuses (L : Nat) (e : Option LlcE) : (s.setLlc L e).fuses = s.fuses := rfl
@[simp] theorem setLlc_flash (L : Nat) (e : Option LlcE) : (s.setLlc L e).flash = s.flash := rfl
@[simp] theorem setLlc_enroll (L : Nat) (e : Option LlcE) : (s.setLlc L e).enroll = s.enroll := rfl
@[simp] theorem setLlc_rearm (L : Nat) (e : Option LlcE) : (s.setLlc L e).rearm = s.rearm := rfl
@[simp] theorem setLlc_aborts (L : Nat) (e : Option LlcE) : (s.setLlc L e).aborts = s.aborts := rfl
@[simp] theorem setLlc_temps (L : Nat) (e : Option LlcE) : (s.setLlc L e).temps = s.temps := rfl
@[simp] theorem setLlc_clearAt (L : Nat) (e : Option LlcE) : (s.setLlc L e).clearAt = s.clearAt := rfl
@[simp] theorem setLlc_capAt (L : Nat) (e : Option LlcE) : (s.setLlc L e).capAt = s.capAt := rfl
@[simp] theorem setLlc_pending (L : Nat) (e : Option LlcE) : (s.setLlc L e).pending = s.pending := rfl

@[simp] theorem openTxn_csr (x : Txn) : (s.openTxn x).csr = s.csr := rfl
@[simp] theorem openTxn_time (x : Txn) : (s.openTxn x).time = s.time := rfl
@[simp] theorem openTxn_ns (x : Txn) : (s.openTxn x).ns = s.ns := rfl
@[simp] theorem openTxn_free (x : Txn) : (s.openTxn x).free = s.free := rfl
@[simp] theorem openTxn_cores (x : Txn) : (s.openTxn x).cores = s.cores := rfl
@[simp] theorem openTxn_keepers (x : Txn) : (s.openTxn x).keepers = s.keepers := rfl
@[simp] theorem openTxn_ksram (x : Txn) : (s.openTxn x).ksram = s.ksram := rfl
@[simp] theorem openTxn_ksramBad (x : Txn) : (s.openTxn x).ksramBad = s.ksramBad := rfl
@[simp] theorem openTxn_tileDom (x : Txn) : (s.openTxn x).tileDom = s.tileDom := rfl
@[simp] theorem openTxn_caches (x : Txn) : (s.openTxn x).caches = s.caches := rfl
@[simp] theorem openTxn_l2plru (x : Txn) : (s.openTxn x).l2plru = s.l2plru := rfl
@[simp] theorem openTxn_dir (x : Txn) : (s.openTxn x).dir = s.dir := rfl
@[simp] theorem openTxn_dirPlru (x : Txn) : (s.openTxn x).dirPlru = s.dirPlru := rfl
@[simp] theorem openTxn_llc (x : Txn) : (s.openTxn x).llc = s.llc := rfl
@[simp] theorem openTxn_llcPlru (x : Txn) : (s.openTxn x).llcPlru = s.llcPlru := rfl
@[simp] theorem openTxn_setCnt (x : Txn) : (s.openTxn x).setCnt = s.setCnt := rfl
@[simp] theorem openTxn_pendQ (x : Txn) : (s.openTxn x).pendQ = s.pendQ := rfl
@[simp] theorem openTxn_retryQ (x : Txn) : (s.openTxn x).retryQ = s.retryQ := rfl
@[simp] theorem openTxn_msgs (x : Txn) : (s.openTxn x).msgs = s.msgs := rfl
@[simp] theorem openTxn_chans (x : Txn) : (s.openTxn x).chans = s.chans := rfl
@[simp] theorem openTxn_dram (x : Txn) : (s.openTxn x).dram = s.dram := rfl
@[simp] theorem openTxn_dramEp (x : Txn) : (s.openTxn x).dramEp = s.dramEp := rfl
@[simp] theorem openTxn_devRep (x : Txn) : (s.openTxn x).devRep = s.devRep := rfl
@[simp] theorem openTxn_arrivals (x : Txn) : (s.openTxn x).arrivals = s.arrivals := rfl
@[simp] theorem openTxn_mtr (x : Txn) : (s.openTxn x).mtr = s.mtr := rfl
@[simp] theorem openTxn_er (x : Txn) : (s.openTxn x).er = s.er := rfl
@[simp] theorem openTxn_tileSvc (x : Txn) : (s.openTxn x).tileSvc = s.tileSvc := rfl
@[simp] theorem openTxn_tileClk (x : Txn) : (s.openTxn x).tileClk = s.tileClk := rfl
@[simp] theorem openTxn_routes (x : Txn) : (s.openTxn x).routes = s.routes := rfl
@[simp] theorem openTxn_ftags (x : Txn) : (s.openTxn x).ftags = s.ftags := rfl
@[simp] theorem openTxn_fquar (x : Txn) : (s.openTxn x).fquar = s.fquar := rfl
@[simp] theorem openTxn_ports (x : Txn) : (s.openTxn x).ports = s.ports := rfl
@[simp] theorem openTxn_transit (x : Txn) : (s.openTxn x).transit = s.transit := rfl
@[simp] theorem openTxn_fabIn (x : Txn) : (s.openTxn x).fabIn = s.fabIn := rfl
@[simp] theorem openTxn_jobRx (x : Txn) : (s.openTxn x).jobRx = s.jobRx := rfl
@[simp] theorem openTxn_outq (x : Txn) : (s.openTxn x).outq = s.outq := rfl
@[simp] theorem openTxn_htags (x : Txn) : (s.openTxn x).htags = s.htags := rfl
@[simp] theorem openTxn_hquar (x : Txn) : (s.openTxn x).hquar = s.hquar := rfl
@[simp] theorem openTxn_tx (x : Txn) : (s.openTxn x).tx = s.tx := rfl
@[simp] theorem openTxn_msix (x : Txn) : (s.openTxn x).msix = s.msix := rfl
@[simp] theorem openTxn_cfg (x : Txn) : (s.openTxn x).cfg = s.cfg := rfl
@[simp] theorem openTxn_staged (x : Txn) : (s.openTxn x).staged = s.staged := rfl
@[simp] theorem openTxn_hepAt (x : Txn) : (s.openTxn x).hepAt = s.hepAt := rfl
@[simp] theorem openTxn_hepWas (x : Txn) : (s.openTxn x).hepWas = s.hepWas := rfl
@[simp] theorem openTxn_cmds (x : Txn) : (s.openTxn x).cmds = s.cmds := rfl
@[simp] theorem openTxn_heldC (x : Txn) : (s.openTxn x).heldC = s.heldC := rfl
@[simp] theorem openTxn_engines (x : Txn) : (s.openTxn x).engines = s.engines := rfl
@[simp] theorem openTxn_tjobs (x : Txn) : (s.openTxn x).tjobs = s.tjobs := rfl
@[simp] theorem openTxn_tilePark (x : Txn) : (s.openTxn x).tilePark = s.tilePark := rfl
@[simp] theorem openTxn_stopDom (x : Txn) : (s.openTxn x).stopDom = s.stopDom := rfl
@[simp] theorem openTxn_tilePwr (x : Txn) : (s.openTxn x).tilePwr = s.tilePwr := rfl
@[simp] theorem openTxn_mode (x : Txn) : (s.openTxn x).mode = s.mode := rfl
@[simp] theorem openTxn_meshIn (x : Txn) : (s.openTxn x).meshIn = s.meshIn := rfl
@[simp] theorem openTxn_meshRr (x : Txn) : (s.openTxn x).meshRr = s.meshRr := rfl
@[simp] theorem openTxn_meshQat (x : Txn) : (s.openTxn x).meshQat = s.meshQat := rfl
@[simp] theorem openTxn_meshIdle (x : Txn) : (s.openTxn x).meshIdle = s.meshIdle := rfl
@[simp] theorem openTxn_meshHeld (x : Txn) : (s.openTxn x).meshHeld = s.meshHeld := rfl
@[simp] theorem openTxn_lockQ (x : Txn) : (s.openTxn x).lockQ = s.lockQ := rfl
@[simp] theorem openTxn_outReq (x : Txn) : (s.openTxn x).outReq = s.outReq := rfl
@[simp] theorem openTxn_fillQ (x : Txn) : (s.openTxn x).fillQ = s.fillQ := rfl
@[simp] theorem openTxn_meshAt (x : Txn) : (s.openTxn x).meshAt = s.meshAt := rfl
@[simp] theorem openTxn_mper (x : Txn) : (s.openTxn x).mper = s.mper := rfl
@[simp] theorem openTxn_backlog (x : Txn) : (s.openTxn x).backlog = s.backlog := rfl
@[simp] theorem openTxn_mstall (x : Txn) : (s.openTxn x).mstall = s.mstall := rfl
@[simp] theorem openTxn_mbands (x : Txn) : (s.openTxn x).mbands = s.mbands := rfl
@[simp] theorem openTxn_msec (x : Txn) : (s.openTxn x).msec = s.msec := rfl
@[simp] theorem openTxn_mbound (x : Txn) : (s.openTxn x).mbound = s.mbound := rfl
@[simp] theorem openTxn_mkey (x : Txn) : (s.openTxn x).mkey = s.mkey := rfl
@[simp] theorem openTxn_pins (x : Txn) : (s.openTxn x).pins = s.pins := rfl
@[simp] theorem openTxn_fuses (x : Txn) : (s.openTxn x).fuses = s.fuses := rfl
@[simp] theorem openTxn_flash (x : Txn) : (s.openTxn x).flash = s.flash := rfl
@[simp] theorem openTxn_enroll (x : Txn) : (s.openTxn x).enroll = s.enroll := rfl
@[simp] theorem openTxn_rearm (x : Txn) : (s.openTxn x).rearm = s.rearm := rfl
@[simp] theorem openTxn_aborts (x : Txn) : (s.openTxn x).aborts = s.aborts := rfl
@[simp] theorem openTxn_temps (x : Txn) : (s.openTxn x).temps = s.temps := rfl
@[simp] theorem openTxn_clearAt (x : Txn) : (s.openTxn x).clearAt = s.clearAt := rfl
@[simp] theorem openTxn_capAt (x : Txn) : (s.openTxn x).capAt = s.capAt := rfl
@[simp] theorem openTxn_pending (x : Txn) : (s.openTxn x).pending = s.pending := rfl

@[simp] theorem setTxn_csr (x : Txn) : (s.setTxn x).csr = s.csr := rfl
@[simp] theorem setTxn_time (x : Txn) : (s.setTxn x).time = s.time := rfl
@[simp] theorem setTxn_ns (x : Txn) : (s.setTxn x).ns = s.ns := rfl
@[simp] theorem setTxn_free (x : Txn) : (s.setTxn x).free = s.free := rfl
@[simp] theorem setTxn_cores (x : Txn) : (s.setTxn x).cores = s.cores := rfl
@[simp] theorem setTxn_keepers (x : Txn) : (s.setTxn x).keepers = s.keepers := rfl
@[simp] theorem setTxn_ksram (x : Txn) : (s.setTxn x).ksram = s.ksram := rfl
@[simp] theorem setTxn_ksramBad (x : Txn) : (s.setTxn x).ksramBad = s.ksramBad := rfl
@[simp] theorem setTxn_tileDom (x : Txn) : (s.setTxn x).tileDom = s.tileDom := rfl
@[simp] theorem setTxn_caches (x : Txn) : (s.setTxn x).caches = s.caches := rfl
@[simp] theorem setTxn_l2plru (x : Txn) : (s.setTxn x).l2plru = s.l2plru := rfl
@[simp] theorem setTxn_dir (x : Txn) : (s.setTxn x).dir = s.dir := rfl
@[simp] theorem setTxn_dirPlru (x : Txn) : (s.setTxn x).dirPlru = s.dirPlru := rfl
@[simp] theorem setTxn_llc (x : Txn) : (s.setTxn x).llc = s.llc := rfl
@[simp] theorem setTxn_llcPlru (x : Txn) : (s.setTxn x).llcPlru = s.llcPlru := rfl
@[simp] theorem setTxn_setCnt (x : Txn) : (s.setTxn x).setCnt = s.setCnt := rfl
@[simp] theorem setTxn_pendQ (x : Txn) : (s.setTxn x).pendQ = s.pendQ := rfl
@[simp] theorem setTxn_retryQ (x : Txn) : (s.setTxn x).retryQ = s.retryQ := rfl
@[simp] theorem setTxn_msgs (x : Txn) : (s.setTxn x).msgs = s.msgs := rfl
@[simp] theorem setTxn_chans (x : Txn) : (s.setTxn x).chans = s.chans := rfl
@[simp] theorem setTxn_dram (x : Txn) : (s.setTxn x).dram = s.dram := rfl
@[simp] theorem setTxn_dramEp (x : Txn) : (s.setTxn x).dramEp = s.dramEp := rfl
@[simp] theorem setTxn_devRep (x : Txn) : (s.setTxn x).devRep = s.devRep := rfl
@[simp] theorem setTxn_arrivals (x : Txn) : (s.setTxn x).arrivals = s.arrivals := rfl
@[simp] theorem setTxn_mtr (x : Txn) : (s.setTxn x).mtr = s.mtr := rfl
@[simp] theorem setTxn_er (x : Txn) : (s.setTxn x).er = s.er := rfl
@[simp] theorem setTxn_tileSvc (x : Txn) : (s.setTxn x).tileSvc = s.tileSvc := rfl
@[simp] theorem setTxn_tileClk (x : Txn) : (s.setTxn x).tileClk = s.tileClk := rfl
@[simp] theorem setTxn_routes (x : Txn) : (s.setTxn x).routes = s.routes := rfl
@[simp] theorem setTxn_ftags (x : Txn) : (s.setTxn x).ftags = s.ftags := rfl
@[simp] theorem setTxn_fquar (x : Txn) : (s.setTxn x).fquar = s.fquar := rfl
@[simp] theorem setTxn_ports (x : Txn) : (s.setTxn x).ports = s.ports := rfl
@[simp] theorem setTxn_transit (x : Txn) : (s.setTxn x).transit = s.transit := rfl
@[simp] theorem setTxn_fabIn (x : Txn) : (s.setTxn x).fabIn = s.fabIn := rfl
@[simp] theorem setTxn_jobRx (x : Txn) : (s.setTxn x).jobRx = s.jobRx := rfl
@[simp] theorem setTxn_outq (x : Txn) : (s.setTxn x).outq = s.outq := rfl
@[simp] theorem setTxn_htags (x : Txn) : (s.setTxn x).htags = s.htags := rfl
@[simp] theorem setTxn_hquar (x : Txn) : (s.setTxn x).hquar = s.hquar := rfl
@[simp] theorem setTxn_tx (x : Txn) : (s.setTxn x).tx = s.tx := rfl
@[simp] theorem setTxn_msix (x : Txn) : (s.setTxn x).msix = s.msix := rfl
@[simp] theorem setTxn_cfg (x : Txn) : (s.setTxn x).cfg = s.cfg := rfl
@[simp] theorem setTxn_staged (x : Txn) : (s.setTxn x).staged = s.staged := rfl
@[simp] theorem setTxn_hepAt (x : Txn) : (s.setTxn x).hepAt = s.hepAt := rfl
@[simp] theorem setTxn_hepWas (x : Txn) : (s.setTxn x).hepWas = s.hepWas := rfl
@[simp] theorem setTxn_cmds (x : Txn) : (s.setTxn x).cmds = s.cmds := rfl
@[simp] theorem setTxn_heldC (x : Txn) : (s.setTxn x).heldC = s.heldC := rfl
@[simp] theorem setTxn_engines (x : Txn) : (s.setTxn x).engines = s.engines := rfl
@[simp] theorem setTxn_tjobs (x : Txn) : (s.setTxn x).tjobs = s.tjobs := rfl
@[simp] theorem setTxn_tilePark (x : Txn) : (s.setTxn x).tilePark = s.tilePark := rfl
@[simp] theorem setTxn_stopDom (x : Txn) : (s.setTxn x).stopDom = s.stopDom := rfl
@[simp] theorem setTxn_tilePwr (x : Txn) : (s.setTxn x).tilePwr = s.tilePwr := rfl
@[simp] theorem setTxn_mode (x : Txn) : (s.setTxn x).mode = s.mode := rfl
@[simp] theorem setTxn_meshIn (x : Txn) : (s.setTxn x).meshIn = s.meshIn := rfl
@[simp] theorem setTxn_meshRr (x : Txn) : (s.setTxn x).meshRr = s.meshRr := rfl
@[simp] theorem setTxn_meshQat (x : Txn) : (s.setTxn x).meshQat = s.meshQat := rfl
@[simp] theorem setTxn_meshIdle (x : Txn) : (s.setTxn x).meshIdle = s.meshIdle := rfl
@[simp] theorem setTxn_meshHeld (x : Txn) : (s.setTxn x).meshHeld = s.meshHeld := rfl
@[simp] theorem setTxn_lockQ (x : Txn) : (s.setTxn x).lockQ = s.lockQ := rfl
@[simp] theorem setTxn_outReq (x : Txn) : (s.setTxn x).outReq = s.outReq := rfl
@[simp] theorem setTxn_fillQ (x : Txn) : (s.setTxn x).fillQ = s.fillQ := rfl
@[simp] theorem setTxn_meshAt (x : Txn) : (s.setTxn x).meshAt = s.meshAt := rfl
@[simp] theorem setTxn_mper (x : Txn) : (s.setTxn x).mper = s.mper := rfl
@[simp] theorem setTxn_backlog (x : Txn) : (s.setTxn x).backlog = s.backlog := rfl
@[simp] theorem setTxn_mstall (x : Txn) : (s.setTxn x).mstall = s.mstall := rfl
@[simp] theorem setTxn_mbands (x : Txn) : (s.setTxn x).mbands = s.mbands := rfl
@[simp] theorem setTxn_msec (x : Txn) : (s.setTxn x).msec = s.msec := rfl
@[simp] theorem setTxn_mbound (x : Txn) : (s.setTxn x).mbound = s.mbound := rfl
@[simp] theorem setTxn_mkey (x : Txn) : (s.setTxn x).mkey = s.mkey := rfl
@[simp] theorem setTxn_pins (x : Txn) : (s.setTxn x).pins = s.pins := rfl
@[simp] theorem setTxn_fuses (x : Txn) : (s.setTxn x).fuses = s.fuses := rfl
@[simp] theorem setTxn_flash (x : Txn) : (s.setTxn x).flash = s.flash := rfl
@[simp] theorem setTxn_enroll (x : Txn) : (s.setTxn x).enroll = s.enroll := rfl
@[simp] theorem setTxn_rearm (x : Txn) : (s.setTxn x).rearm = s.rearm := rfl
@[simp] theorem setTxn_aborts (x : Txn) : (s.setTxn x).aborts = s.aborts := rfl
@[simp] theorem setTxn_temps (x : Txn) : (s.setTxn x).temps = s.temps := rfl
@[simp] theorem setTxn_clearAt (x : Txn) : (s.setTxn x).clearAt = s.clearAt := rfl
@[simp] theorem setTxn_capAt (x : Txn) : (s.setTxn x).capAt = s.capAt := rfl
@[simp] theorem setTxn_pending (x : Txn) : (s.setTxn x).pending = s.pending := rfl

@[simp] theorem cfgSet_csr (o v : Nat) : (s.cfgSet o v).csr = s.csr := rfl
@[simp] theorem cfgSet_time (o v : Nat) : (s.cfgSet o v).time = s.time := rfl
@[simp] theorem cfgSet_ns (o v : Nat) : (s.cfgSet o v).ns = s.ns := rfl
@[simp] theorem cfgSet_free (o v : Nat) : (s.cfgSet o v).free = s.free := rfl
@[simp] theorem cfgSet_cores (o v : Nat) : (s.cfgSet o v).cores = s.cores := rfl
@[simp] theorem cfgSet_keepers (o v : Nat) : (s.cfgSet o v).keepers = s.keepers := rfl
@[simp] theorem cfgSet_ksram (o v : Nat) : (s.cfgSet o v).ksram = s.ksram := rfl
@[simp] theorem cfgSet_ksramBad (o v : Nat) : (s.cfgSet o v).ksramBad = s.ksramBad := rfl
@[simp] theorem cfgSet_tileDom (o v : Nat) : (s.cfgSet o v).tileDom = s.tileDom := rfl
@[simp] theorem cfgSet_caches (o v : Nat) : (s.cfgSet o v).caches = s.caches := rfl
@[simp] theorem cfgSet_l2plru (o v : Nat) : (s.cfgSet o v).l2plru = s.l2plru := rfl
@[simp] theorem cfgSet_dir (o v : Nat) : (s.cfgSet o v).dir = s.dir := rfl
@[simp] theorem cfgSet_dirPlru (o v : Nat) : (s.cfgSet o v).dirPlru = s.dirPlru := rfl
@[simp] theorem cfgSet_llc (o v : Nat) : (s.cfgSet o v).llc = s.llc := rfl
@[simp] theorem cfgSet_llcPlru (o v : Nat) : (s.cfgSet o v).llcPlru = s.llcPlru := rfl
@[simp] theorem cfgSet_setCnt (o v : Nat) : (s.cfgSet o v).setCnt = s.setCnt := rfl
@[simp] theorem cfgSet_txns (o v : Nat) : (s.cfgSet o v).txns = s.txns := rfl
@[simp] theorem cfgSet_pendQ (o v : Nat) : (s.cfgSet o v).pendQ = s.pendQ := rfl
@[simp] theorem cfgSet_retryQ (o v : Nat) : (s.cfgSet o v).retryQ = s.retryQ := rfl
@[simp] theorem cfgSet_msgs (o v : Nat) : (s.cfgSet o v).msgs = s.msgs := rfl
@[simp] theorem cfgSet_chans (o v : Nat) : (s.cfgSet o v).chans = s.chans := rfl
@[simp] theorem cfgSet_dram (o v : Nat) : (s.cfgSet o v).dram = s.dram := rfl
@[simp] theorem cfgSet_dramEp (o v : Nat) : (s.cfgSet o v).dramEp = s.dramEp := rfl
@[simp] theorem cfgSet_devRep (o v : Nat) : (s.cfgSet o v).devRep = s.devRep := rfl
@[simp] theorem cfgSet_arrivals (o v : Nat) : (s.cfgSet o v).arrivals = s.arrivals := rfl
@[simp] theorem cfgSet_mtr (o v : Nat) : (s.cfgSet o v).mtr = s.mtr := rfl
@[simp] theorem cfgSet_er (o v : Nat) : (s.cfgSet o v).er = s.er := rfl
@[simp] theorem cfgSet_tileSvc (o v : Nat) : (s.cfgSet o v).tileSvc = s.tileSvc := rfl
@[simp] theorem cfgSet_tileClk (o v : Nat) : (s.cfgSet o v).tileClk = s.tileClk := rfl
@[simp] theorem cfgSet_routes (o v : Nat) : (s.cfgSet o v).routes = s.routes := rfl
@[simp] theorem cfgSet_ftags (o v : Nat) : (s.cfgSet o v).ftags = s.ftags := rfl
@[simp] theorem cfgSet_fquar (o v : Nat) : (s.cfgSet o v).fquar = s.fquar := rfl
@[simp] theorem cfgSet_ports (o v : Nat) : (s.cfgSet o v).ports = s.ports := rfl
@[simp] theorem cfgSet_transit (o v : Nat) : (s.cfgSet o v).transit = s.transit := rfl
@[simp] theorem cfgSet_fabIn (o v : Nat) : (s.cfgSet o v).fabIn = s.fabIn := rfl
@[simp] theorem cfgSet_jobRx (o v : Nat) : (s.cfgSet o v).jobRx = s.jobRx := rfl
@[simp] theorem cfgSet_outq (o v : Nat) : (s.cfgSet o v).outq = s.outq := rfl
@[simp] theorem cfgSet_htags (o v : Nat) : (s.cfgSet o v).htags = s.htags := rfl
@[simp] theorem cfgSet_hquar (o v : Nat) : (s.cfgSet o v).hquar = s.hquar := rfl
@[simp] theorem cfgSet_tx (o v : Nat) : (s.cfgSet o v).tx = s.tx := rfl
@[simp] theorem cfgSet_msix (o v : Nat) : (s.cfgSet o v).msix = s.msix := rfl
@[simp] theorem cfgSet_staged (o v : Nat) : (s.cfgSet o v).staged = s.staged := rfl
@[simp] theorem cfgSet_hepAt (o v : Nat) : (s.cfgSet o v).hepAt = s.hepAt := rfl
@[simp] theorem cfgSet_hepWas (o v : Nat) : (s.cfgSet o v).hepWas = s.hepWas := rfl
@[simp] theorem cfgSet_cmds (o v : Nat) : (s.cfgSet o v).cmds = s.cmds := rfl
@[simp] theorem cfgSet_heldC (o v : Nat) : (s.cfgSet o v).heldC = s.heldC := rfl
@[simp] theorem cfgSet_engines (o v : Nat) : (s.cfgSet o v).engines = s.engines := rfl
@[simp] theorem cfgSet_tjobs (o v : Nat) : (s.cfgSet o v).tjobs = s.tjobs := rfl
@[simp] theorem cfgSet_tilePark (o v : Nat) : (s.cfgSet o v).tilePark = s.tilePark := rfl
@[simp] theorem cfgSet_stopDom (o v : Nat) : (s.cfgSet o v).stopDom = s.stopDom := rfl
@[simp] theorem cfgSet_tilePwr (o v : Nat) : (s.cfgSet o v).tilePwr = s.tilePwr := rfl
@[simp] theorem cfgSet_mode (o v : Nat) : (s.cfgSet o v).mode = s.mode := rfl
@[simp] theorem cfgSet_meshIn (o v : Nat) : (s.cfgSet o v).meshIn = s.meshIn := rfl
@[simp] theorem cfgSet_meshRr (o v : Nat) : (s.cfgSet o v).meshRr = s.meshRr := rfl
@[simp] theorem cfgSet_meshQat (o v : Nat) : (s.cfgSet o v).meshQat = s.meshQat := rfl
@[simp] theorem cfgSet_meshIdle (o v : Nat) : (s.cfgSet o v).meshIdle = s.meshIdle := rfl
@[simp] theorem cfgSet_meshHeld (o v : Nat) : (s.cfgSet o v).meshHeld = s.meshHeld := rfl
@[simp] theorem cfgSet_lockQ (o v : Nat) : (s.cfgSet o v).lockQ = s.lockQ := rfl
@[simp] theorem cfgSet_outReq (o v : Nat) : (s.cfgSet o v).outReq = s.outReq := rfl
@[simp] theorem cfgSet_fillQ (o v : Nat) : (s.cfgSet o v).fillQ = s.fillQ := rfl
@[simp] theorem cfgSet_meshAt (o v : Nat) : (s.cfgSet o v).meshAt = s.meshAt := rfl
@[simp] theorem cfgSet_mper (o v : Nat) : (s.cfgSet o v).mper = s.mper := rfl
@[simp] theorem cfgSet_backlog (o v : Nat) : (s.cfgSet o v).backlog = s.backlog := rfl
@[simp] theorem cfgSet_mstall (o v : Nat) : (s.cfgSet o v).mstall = s.mstall := rfl
@[simp] theorem cfgSet_mbands (o v : Nat) : (s.cfgSet o v).mbands = s.mbands := rfl
@[simp] theorem cfgSet_msec (o v : Nat) : (s.cfgSet o v).msec = s.msec := rfl
@[simp] theorem cfgSet_mbound (o v : Nat) : (s.cfgSet o v).mbound = s.mbound := rfl
@[simp] theorem cfgSet_mkey (o v : Nat) : (s.cfgSet o v).mkey = s.mkey := rfl
@[simp] theorem cfgSet_pins (o v : Nat) : (s.cfgSet o v).pins = s.pins := rfl
@[simp] theorem cfgSet_fuses (o v : Nat) : (s.cfgSet o v).fuses = s.fuses := rfl
@[simp] theorem cfgSet_flash (o v : Nat) : (s.cfgSet o v).flash = s.flash := rfl
@[simp] theorem cfgSet_enroll (o v : Nat) : (s.cfgSet o v).enroll = s.enroll := rfl
@[simp] theorem cfgSet_rearm (o v : Nat) : (s.cfgSet o v).rearm = s.rearm := rfl
@[simp] theorem cfgSet_aborts (o v : Nat) : (s.cfgSet o v).aborts = s.aborts := rfl
@[simp] theorem cfgSet_temps (o v : Nat) : (s.cfgSet o v).temps = s.temps := rfl
@[simp] theorem cfgSet_clearAt (o v : Nat) : (s.cfgSet o v).clearAt = s.clearAt := rfl
@[simp] theorem cfgSet_capAt (o v : Nat) : (s.cfgSet o v).capAt = s.capAt := rfl
@[simp] theorem cfgSet_pending (o v : Nat) : (s.cfgSet o v).pending = s.pending := rfl

@[simp] theorem setMper_csr (d : Nat) (p : MPer) : (s.setMper d p).csr = s.csr := rfl
@[simp] theorem setMper_time (d : Nat) (p : MPer) : (s.setMper d p).time = s.time := rfl
@[simp] theorem setMper_ns (d : Nat) (p : MPer) : (s.setMper d p).ns = s.ns := rfl
@[simp] theorem setMper_free (d : Nat) (p : MPer) : (s.setMper d p).free = s.free := rfl
@[simp] theorem setMper_cores (d : Nat) (p : MPer) : (s.setMper d p).cores = s.cores := rfl
@[simp] theorem setMper_keepers (d : Nat) (p : MPer) : (s.setMper d p).keepers = s.keepers := rfl
@[simp] theorem setMper_ksram (d : Nat) (p : MPer) : (s.setMper d p).ksram = s.ksram := rfl
@[simp] theorem setMper_ksramBad (d : Nat) (p : MPer) : (s.setMper d p).ksramBad = s.ksramBad := rfl
@[simp] theorem setMper_tileDom (d : Nat) (p : MPer) : (s.setMper d p).tileDom = s.tileDom := rfl
@[simp] theorem setMper_caches (d : Nat) (p : MPer) : (s.setMper d p).caches = s.caches := rfl
@[simp] theorem setMper_l2plru (d : Nat) (p : MPer) : (s.setMper d p).l2plru = s.l2plru := rfl
@[simp] theorem setMper_dir (d : Nat) (p : MPer) : (s.setMper d p).dir = s.dir := rfl
@[simp] theorem setMper_dirPlru (d : Nat) (p : MPer) : (s.setMper d p).dirPlru = s.dirPlru := rfl
@[simp] theorem setMper_llc (d : Nat) (p : MPer) : (s.setMper d p).llc = s.llc := rfl
@[simp] theorem setMper_llcPlru (d : Nat) (p : MPer) : (s.setMper d p).llcPlru = s.llcPlru := rfl
@[simp] theorem setMper_setCnt (d : Nat) (p : MPer) : (s.setMper d p).setCnt = s.setCnt := rfl
@[simp] theorem setMper_txns (d : Nat) (p : MPer) : (s.setMper d p).txns = s.txns := rfl
@[simp] theorem setMper_pendQ (d : Nat) (p : MPer) : (s.setMper d p).pendQ = s.pendQ := rfl
@[simp] theorem setMper_retryQ (d : Nat) (p : MPer) : (s.setMper d p).retryQ = s.retryQ := rfl
@[simp] theorem setMper_msgs (d : Nat) (p : MPer) : (s.setMper d p).msgs = s.msgs := rfl
@[simp] theorem setMper_chans (d : Nat) (p : MPer) : (s.setMper d p).chans = s.chans := rfl
@[simp] theorem setMper_dram (d : Nat) (p : MPer) : (s.setMper d p).dram = s.dram := rfl
@[simp] theorem setMper_dramEp (d : Nat) (p : MPer) : (s.setMper d p).dramEp = s.dramEp := rfl
@[simp] theorem setMper_devRep (d : Nat) (p : MPer) : (s.setMper d p).devRep = s.devRep := rfl
@[simp] theorem setMper_arrivals (d : Nat) (p : MPer) : (s.setMper d p).arrivals = s.arrivals := rfl
@[simp] theorem setMper_mtr (d : Nat) (p : MPer) : (s.setMper d p).mtr = s.mtr := rfl
@[simp] theorem setMper_er (d : Nat) (p : MPer) : (s.setMper d p).er = s.er := rfl
@[simp] theorem setMper_tileSvc (d : Nat) (p : MPer) : (s.setMper d p).tileSvc = s.tileSvc := rfl
@[simp] theorem setMper_tileClk (d : Nat) (p : MPer) : (s.setMper d p).tileClk = s.tileClk := rfl
@[simp] theorem setMper_routes (d : Nat) (p : MPer) : (s.setMper d p).routes = s.routes := rfl
@[simp] theorem setMper_ftags (d : Nat) (p : MPer) : (s.setMper d p).ftags = s.ftags := rfl
@[simp] theorem setMper_fquar (d : Nat) (p : MPer) : (s.setMper d p).fquar = s.fquar := rfl
@[simp] theorem setMper_ports (d : Nat) (p : MPer) : (s.setMper d p).ports = s.ports := rfl
@[simp] theorem setMper_transit (d : Nat) (p : MPer) : (s.setMper d p).transit = s.transit := rfl
@[simp] theorem setMper_fabIn (d : Nat) (p : MPer) : (s.setMper d p).fabIn = s.fabIn := rfl
@[simp] theorem setMper_jobRx (d : Nat) (p : MPer) : (s.setMper d p).jobRx = s.jobRx := rfl
@[simp] theorem setMper_outq (d : Nat) (p : MPer) : (s.setMper d p).outq = s.outq := rfl
@[simp] theorem setMper_htags (d : Nat) (p : MPer) : (s.setMper d p).htags = s.htags := rfl
@[simp] theorem setMper_hquar (d : Nat) (p : MPer) : (s.setMper d p).hquar = s.hquar := rfl
@[simp] theorem setMper_tx (d : Nat) (p : MPer) : (s.setMper d p).tx = s.tx := rfl
@[simp] theorem setMper_msix (d : Nat) (p : MPer) : (s.setMper d p).msix = s.msix := rfl
@[simp] theorem setMper_cfg (d : Nat) (p : MPer) : (s.setMper d p).cfg = s.cfg := rfl
@[simp] theorem setMper_staged (d : Nat) (p : MPer) : (s.setMper d p).staged = s.staged := rfl
@[simp] theorem setMper_hepAt (d : Nat) (p : MPer) : (s.setMper d p).hepAt = s.hepAt := rfl
@[simp] theorem setMper_hepWas (d : Nat) (p : MPer) : (s.setMper d p).hepWas = s.hepWas := rfl
@[simp] theorem setMper_cmds (d : Nat) (p : MPer) : (s.setMper d p).cmds = s.cmds := rfl
@[simp] theorem setMper_heldC (d : Nat) (p : MPer) : (s.setMper d p).heldC = s.heldC := rfl
@[simp] theorem setMper_engines (d : Nat) (p : MPer) : (s.setMper d p).engines = s.engines := rfl
@[simp] theorem setMper_tjobs (d : Nat) (p : MPer) : (s.setMper d p).tjobs = s.tjobs := rfl
@[simp] theorem setMper_tilePark (d : Nat) (p : MPer) : (s.setMper d p).tilePark = s.tilePark := rfl
@[simp] theorem setMper_stopDom (d : Nat) (p : MPer) : (s.setMper d p).stopDom = s.stopDom := rfl
@[simp] theorem setMper_tilePwr (d : Nat) (p : MPer) : (s.setMper d p).tilePwr = s.tilePwr := rfl
@[simp] theorem setMper_mode (d : Nat) (p : MPer) : (s.setMper d p).mode = s.mode := rfl
@[simp] theorem setMper_meshIn (d : Nat) (p : MPer) : (s.setMper d p).meshIn = s.meshIn := rfl
@[simp] theorem setMper_meshRr (d : Nat) (p : MPer) : (s.setMper d p).meshRr = s.meshRr := rfl
@[simp] theorem setMper_meshQat (d : Nat) (p : MPer) : (s.setMper d p).meshQat = s.meshQat := rfl
@[simp] theorem setMper_meshIdle (d : Nat) (p : MPer) : (s.setMper d p).meshIdle = s.meshIdle := rfl
@[simp] theorem setMper_meshHeld (d : Nat) (p : MPer) : (s.setMper d p).meshHeld = s.meshHeld := rfl
@[simp] theorem setMper_lockQ (d : Nat) (p : MPer) : (s.setMper d p).lockQ = s.lockQ := rfl
@[simp] theorem setMper_outReq (d : Nat) (p : MPer) : (s.setMper d p).outReq = s.outReq := rfl
@[simp] theorem setMper_fillQ (d : Nat) (p : MPer) : (s.setMper d p).fillQ = s.fillQ := rfl
@[simp] theorem setMper_meshAt (d : Nat) (p : MPer) : (s.setMper d p).meshAt = s.meshAt := rfl
@[simp] theorem setMper_backlog (d : Nat) (p : MPer) : (s.setMper d p).backlog = s.backlog := rfl
@[simp] theorem setMper_mstall (d : Nat) (p : MPer) : (s.setMper d p).mstall = s.mstall := rfl
@[simp] theorem setMper_mbands (d : Nat) (p : MPer) : (s.setMper d p).mbands = s.mbands := rfl
@[simp] theorem setMper_msec (d : Nat) (p : MPer) : (s.setMper d p).msec = s.msec := rfl
@[simp] theorem setMper_mbound (d : Nat) (p : MPer) : (s.setMper d p).mbound = s.mbound := rfl
@[simp] theorem setMper_mkey (d : Nat) (p : MPer) : (s.setMper d p).mkey = s.mkey := rfl
@[simp] theorem setMper_pins (d : Nat) (p : MPer) : (s.setMper d p).pins = s.pins := rfl
@[simp] theorem setMper_fuses (d : Nat) (p : MPer) : (s.setMper d p).fuses = s.fuses := rfl
@[simp] theorem setMper_flash (d : Nat) (p : MPer) : (s.setMper d p).flash = s.flash := rfl
@[simp] theorem setMper_enroll (d : Nat) (p : MPer) : (s.setMper d p).enroll = s.enroll := rfl
@[simp] theorem setMper_rearm (d : Nat) (p : MPer) : (s.setMper d p).rearm = s.rearm := rfl
@[simp] theorem setMper_aborts (d : Nat) (p : MPer) : (s.setMper d p).aborts = s.aborts := rfl
@[simp] theorem setMper_temps (d : Nat) (p : MPer) : (s.setMper d p).temps = s.temps := rfl
@[simp] theorem setMper_clearAt (d : Nat) (p : MPer) : (s.setMper d p).clearAt = s.clearAt := rfl
@[simp] theorem setMper_capAt (d : Nat) (p : MPer) : (s.setMper d p).capAt = s.capAt := rfl
@[simp] theorem setMper_pending (d : Nat) (p : MPer) : (s.setMper d p).pending = s.pending := rfl

@[simp] theorem mtrGo_csr : (s.mtrGo).csr = s.csr := rfl
@[simp] theorem mtrGo_time : (s.mtrGo).time = s.time := rfl
@[simp] theorem mtrGo_ns : (s.mtrGo).ns = s.ns := rfl
@[simp] theorem mtrGo_free : (s.mtrGo).free = s.free := rfl
@[simp] theorem mtrGo_cores : (s.mtrGo).cores = s.cores := rfl
@[simp] theorem mtrGo_keepers : (s.mtrGo).keepers = s.keepers := rfl
@[simp] theorem mtrGo_ksram : (s.mtrGo).ksram = s.ksram := rfl
@[simp] theorem mtrGo_ksramBad : (s.mtrGo).ksramBad = s.ksramBad := rfl
@[simp] theorem mtrGo_tileDom : (s.mtrGo).tileDom = s.tileDom := rfl
@[simp] theorem mtrGo_caches : (s.mtrGo).caches = s.caches := rfl
@[simp] theorem mtrGo_l2plru : (s.mtrGo).l2plru = s.l2plru := rfl
@[simp] theorem mtrGo_dir : (s.mtrGo).dir = s.dir := rfl
@[simp] theorem mtrGo_dirPlru : (s.mtrGo).dirPlru = s.dirPlru := rfl
@[simp] theorem mtrGo_llc : (s.mtrGo).llc = s.llc := rfl
@[simp] theorem mtrGo_llcPlru : (s.mtrGo).llcPlru = s.llcPlru := rfl
@[simp] theorem mtrGo_setCnt : (s.mtrGo).setCnt = s.setCnt := rfl
@[simp] theorem mtrGo_txns : (s.mtrGo).txns = s.txns := rfl
@[simp] theorem mtrGo_pendQ : (s.mtrGo).pendQ = s.pendQ := rfl
@[simp] theorem mtrGo_retryQ : (s.mtrGo).retryQ = s.retryQ := rfl
@[simp] theorem mtrGo_msgs : (s.mtrGo).msgs = s.msgs := rfl
@[simp] theorem mtrGo_chans : (s.mtrGo).chans = s.chans := rfl
@[simp] theorem mtrGo_dram : (s.mtrGo).dram = s.dram := rfl
@[simp] theorem mtrGo_dramEp : (s.mtrGo).dramEp = s.dramEp := rfl
@[simp] theorem mtrGo_devRep : (s.mtrGo).devRep = s.devRep := rfl
@[simp] theorem mtrGo_arrivals : (s.mtrGo).arrivals = s.arrivals := rfl
@[simp] theorem mtrGo_mtr : (s.mtrGo).mtr = s.mtr := rfl
@[simp] theorem mtrGo_er : (s.mtrGo).er = s.er := rfl
@[simp] theorem mtrGo_tileSvc : (s.mtrGo).tileSvc = s.tileSvc := rfl
@[simp] theorem mtrGo_tileClk : (s.mtrGo).tileClk = s.tileClk := rfl
@[simp] theorem mtrGo_routes : (s.mtrGo).routes = s.routes := rfl
@[simp] theorem mtrGo_ftags : (s.mtrGo).ftags = s.ftags := rfl
@[simp] theorem mtrGo_fquar : (s.mtrGo).fquar = s.fquar := rfl
@[simp] theorem mtrGo_ports : (s.mtrGo).ports = s.ports := rfl
@[simp] theorem mtrGo_transit : (s.mtrGo).transit = s.transit := rfl
@[simp] theorem mtrGo_fabIn : (s.mtrGo).fabIn = s.fabIn := rfl
@[simp] theorem mtrGo_jobRx : (s.mtrGo).jobRx = s.jobRx := rfl
@[simp] theorem mtrGo_outq : (s.mtrGo).outq = s.outq := rfl
@[simp] theorem mtrGo_htags : (s.mtrGo).htags = s.htags := rfl
@[simp] theorem mtrGo_hquar : (s.mtrGo).hquar = s.hquar := rfl
@[simp] theorem mtrGo_tx : (s.mtrGo).tx = s.tx := rfl
@[simp] theorem mtrGo_msix : (s.mtrGo).msix = s.msix := rfl
@[simp] theorem mtrGo_cfg : (s.mtrGo).cfg = s.cfg := rfl
@[simp] theorem mtrGo_staged : (s.mtrGo).staged = s.staged := rfl
@[simp] theorem mtrGo_hepAt : (s.mtrGo).hepAt = s.hepAt := rfl
@[simp] theorem mtrGo_hepWas : (s.mtrGo).hepWas = s.hepWas := rfl
@[simp] theorem mtrGo_cmds : (s.mtrGo).cmds = s.cmds := rfl
@[simp] theorem mtrGo_heldC : (s.mtrGo).heldC = s.heldC := rfl
@[simp] theorem mtrGo_engines : (s.mtrGo).engines = s.engines := rfl
@[simp] theorem mtrGo_tjobs : (s.mtrGo).tjobs = s.tjobs := rfl
@[simp] theorem mtrGo_tilePark : (s.mtrGo).tilePark = s.tilePark := rfl
@[simp] theorem mtrGo_stopDom : (s.mtrGo).stopDom = s.stopDom := rfl
@[simp] theorem mtrGo_tilePwr : (s.mtrGo).tilePwr = s.tilePwr := rfl
@[simp] theorem mtrGo_mode : (s.mtrGo).mode = s.mode := rfl
@[simp] theorem mtrGo_meshIn : (s.mtrGo).meshIn = s.meshIn := rfl
@[simp] theorem mtrGo_meshRr : (s.mtrGo).meshRr = s.meshRr := rfl
@[simp] theorem mtrGo_meshQat : (s.mtrGo).meshQat = s.meshQat := rfl
@[simp] theorem mtrGo_meshIdle : (s.mtrGo).meshIdle = s.meshIdle := rfl
@[simp] theorem mtrGo_meshHeld : (s.mtrGo).meshHeld = s.meshHeld := rfl
@[simp] theorem mtrGo_lockQ : (s.mtrGo).lockQ = s.lockQ := rfl
@[simp] theorem mtrGo_outReq : (s.mtrGo).outReq = s.outReq := rfl
@[simp] theorem mtrGo_fillQ : (s.mtrGo).fillQ = s.fillQ := rfl
@[simp] theorem mtrGo_meshAt : (s.mtrGo).meshAt = s.meshAt := rfl
@[simp] theorem mtrGo_mper : (s.mtrGo).mper = s.mper := rfl
@[simp] theorem mtrGo_backlog : (s.mtrGo).backlog = s.backlog := rfl
@[simp] theorem mtrGo_mbands : (s.mtrGo).mbands = s.mbands := rfl
@[simp] theorem mtrGo_msec : (s.mtrGo).msec = s.msec := rfl
@[simp] theorem mtrGo_mbound : (s.mtrGo).mbound = s.mbound := rfl
@[simp] theorem mtrGo_mkey : (s.mtrGo).mkey = s.mkey := rfl
@[simp] theorem mtrGo_pins : (s.mtrGo).pins = s.pins := rfl
@[simp] theorem mtrGo_fuses : (s.mtrGo).fuses = s.fuses := rfl
@[simp] theorem mtrGo_flash : (s.mtrGo).flash = s.flash := rfl
@[simp] theorem mtrGo_enroll : (s.mtrGo).enroll = s.enroll := rfl
@[simp] theorem mtrGo_rearm : (s.mtrGo).rearm = s.rearm := rfl
@[simp] theorem mtrGo_aborts : (s.mtrGo).aborts = s.aborts := rfl
@[simp] theorem mtrGo_temps : (s.mtrGo).temps = s.temps := rfl
@[simp] theorem mtrGo_clearAt : (s.mtrGo).clearAt = s.clearAt := rfl
@[simp] theorem mtrGo_capAt : (s.mtrGo).capAt = s.capAt := rfl
@[simp] theorem mtrGo_pending : (s.mtrGo).pending = s.pending := rfl

@[simp] theorem tickFree_csr : (s.tickFree).csr = s.csr := rfl
@[simp] theorem tickFree_time : (s.tickFree).time = s.time := rfl
@[simp] theorem tickFree_ns : (s.tickFree).ns = s.ns := rfl
@[simp] theorem tickFree_cores : (s.tickFree).cores = s.cores := rfl
@[simp] theorem tickFree_keepers : (s.tickFree).keepers = s.keepers := rfl
@[simp] theorem tickFree_ksram : (s.tickFree).ksram = s.ksram := rfl
@[simp] theorem tickFree_ksramBad : (s.tickFree).ksramBad = s.ksramBad := rfl
@[simp] theorem tickFree_tileDom : (s.tickFree).tileDom = s.tileDom := rfl
@[simp] theorem tickFree_caches : (s.tickFree).caches = s.caches := rfl
@[simp] theorem tickFree_l2plru : (s.tickFree).l2plru = s.l2plru := rfl
@[simp] theorem tickFree_dir : (s.tickFree).dir = s.dir := rfl
@[simp] theorem tickFree_dirPlru : (s.tickFree).dirPlru = s.dirPlru := rfl
@[simp] theorem tickFree_llc : (s.tickFree).llc = s.llc := rfl
@[simp] theorem tickFree_llcPlru : (s.tickFree).llcPlru = s.llcPlru := rfl
@[simp] theorem tickFree_setCnt : (s.tickFree).setCnt = s.setCnt := rfl
@[simp] theorem tickFree_txns : (s.tickFree).txns = s.txns := rfl
@[simp] theorem tickFree_pendQ : (s.tickFree).pendQ = s.pendQ := rfl
@[simp] theorem tickFree_retryQ : (s.tickFree).retryQ = s.retryQ := rfl
@[simp] theorem tickFree_msgs : (s.tickFree).msgs = s.msgs := rfl
@[simp] theorem tickFree_chans : (s.tickFree).chans = s.chans := rfl
@[simp] theorem tickFree_dram : (s.tickFree).dram = s.dram := rfl
@[simp] theorem tickFree_dramEp : (s.tickFree).dramEp = s.dramEp := rfl
@[simp] theorem tickFree_devRep : (s.tickFree).devRep = s.devRep := rfl
@[simp] theorem tickFree_arrivals : (s.tickFree).arrivals = s.arrivals := rfl
@[simp] theorem tickFree_mtr : (s.tickFree).mtr = s.mtr := rfl
@[simp] theorem tickFree_er : (s.tickFree).er = s.er := rfl
@[simp] theorem tickFree_tileSvc : (s.tickFree).tileSvc = s.tileSvc := rfl
@[simp] theorem tickFree_tileClk : (s.tickFree).tileClk = s.tileClk := rfl
@[simp] theorem tickFree_routes : (s.tickFree).routes = s.routes := rfl
@[simp] theorem tickFree_ftags : (s.tickFree).ftags = s.ftags := rfl
@[simp] theorem tickFree_fquar : (s.tickFree).fquar = s.fquar := rfl
@[simp] theorem tickFree_ports : (s.tickFree).ports = s.ports := rfl
@[simp] theorem tickFree_transit : (s.tickFree).transit = s.transit := rfl
@[simp] theorem tickFree_fabIn : (s.tickFree).fabIn = s.fabIn := rfl
@[simp] theorem tickFree_jobRx : (s.tickFree).jobRx = s.jobRx := rfl
@[simp] theorem tickFree_outq : (s.tickFree).outq = s.outq := rfl
@[simp] theorem tickFree_htags : (s.tickFree).htags = s.htags := rfl
@[simp] theorem tickFree_hquar : (s.tickFree).hquar = s.hquar := rfl
@[simp] theorem tickFree_tx : (s.tickFree).tx = s.tx := rfl
@[simp] theorem tickFree_msix : (s.tickFree).msix = s.msix := rfl
@[simp] theorem tickFree_cfg : (s.tickFree).cfg = s.cfg := rfl
@[simp] theorem tickFree_staged : (s.tickFree).staged = s.staged := rfl
@[simp] theorem tickFree_hepAt : (s.tickFree).hepAt = s.hepAt := rfl
@[simp] theorem tickFree_hepWas : (s.tickFree).hepWas = s.hepWas := rfl
@[simp] theorem tickFree_cmds : (s.tickFree).cmds = s.cmds := rfl
@[simp] theorem tickFree_heldC : (s.tickFree).heldC = s.heldC := rfl
@[simp] theorem tickFree_engines : (s.tickFree).engines = s.engines := rfl
@[simp] theorem tickFree_tjobs : (s.tickFree).tjobs = s.tjobs := rfl
@[simp] theorem tickFree_tilePark : (s.tickFree).tilePark = s.tilePark := rfl
@[simp] theorem tickFree_stopDom : (s.tickFree).stopDom = s.stopDom := rfl
@[simp] theorem tickFree_tilePwr : (s.tickFree).tilePwr = s.tilePwr := rfl
@[simp] theorem tickFree_mode : (s.tickFree).mode = s.mode := rfl
@[simp] theorem tickFree_meshIn : (s.tickFree).meshIn = s.meshIn := rfl
@[simp] theorem tickFree_meshRr : (s.tickFree).meshRr = s.meshRr := rfl
@[simp] theorem tickFree_meshQat : (s.tickFree).meshQat = s.meshQat := rfl
@[simp] theorem tickFree_meshIdle : (s.tickFree).meshIdle = s.meshIdle := rfl
@[simp] theorem tickFree_meshHeld : (s.tickFree).meshHeld = s.meshHeld := rfl
@[simp] theorem tickFree_lockQ : (s.tickFree).lockQ = s.lockQ := rfl
@[simp] theorem tickFree_outReq : (s.tickFree).outReq = s.outReq := rfl
@[simp] theorem tickFree_fillQ : (s.tickFree).fillQ = s.fillQ := rfl
@[simp] theorem tickFree_meshAt : (s.tickFree).meshAt = s.meshAt := rfl
@[simp] theorem tickFree_mper : (s.tickFree).mper = s.mper := rfl
@[simp] theorem tickFree_backlog : (s.tickFree).backlog = s.backlog := rfl
@[simp] theorem tickFree_mstall : (s.tickFree).mstall = s.mstall := rfl
@[simp] theorem tickFree_mbands : (s.tickFree).mbands = s.mbands := rfl
@[simp] theorem tickFree_msec : (s.tickFree).msec = s.msec := rfl
@[simp] theorem tickFree_mbound : (s.tickFree).mbound = s.mbound := rfl
@[simp] theorem tickFree_mkey : (s.tickFree).mkey = s.mkey := rfl
@[simp] theorem tickFree_pins : (s.tickFree).pins = s.pins := rfl
@[simp] theorem tickFree_fuses : (s.tickFree).fuses = s.fuses := rfl
@[simp] theorem tickFree_flash : (s.tickFree).flash = s.flash := rfl
@[simp] theorem tickFree_enroll : (s.tickFree).enroll = s.enroll := rfl
@[simp] theorem tickFree_rearm : (s.tickFree).rearm = s.rearm := rfl
@[simp] theorem tickFree_aborts : (s.tickFree).aborts = s.aborts := rfl
@[simp] theorem tickFree_temps : (s.tickFree).temps = s.temps := rfl
@[simp] theorem tickFree_clearAt : (s.tickFree).clearAt = s.clearAt := rfl
@[simp] theorem tickFree_capAt : (s.tickFree).capAt = s.capAt := rfl
@[simp] theorem tickFree_pending : (s.tickFree).pending = s.pending := rfl

@[simp] theorem setTpw_csr (t : Nat) (x : TilePwr) : (s.setTpw t x).csr = s.csr := rfl
@[simp] theorem setTpw_time (t : Nat) (x : TilePwr) : (s.setTpw t x).time = s.time := rfl
@[simp] theorem setTpw_ns (t : Nat) (x : TilePwr) : (s.setTpw t x).ns = s.ns := rfl
@[simp] theorem setTpw_free (t : Nat) (x : TilePwr) : (s.setTpw t x).free = s.free := rfl
@[simp] theorem setTpw_cores (t : Nat) (x : TilePwr) : (s.setTpw t x).cores = s.cores := rfl
@[simp] theorem setTpw_keepers (t : Nat) (x : TilePwr) : (s.setTpw t x).keepers = s.keepers := rfl
@[simp] theorem setTpw_ksram (t : Nat) (x : TilePwr) : (s.setTpw t x).ksram = s.ksram := rfl
@[simp] theorem setTpw_ksramBad (t : Nat) (x : TilePwr) : (s.setTpw t x).ksramBad = s.ksramBad := rfl
@[simp] theorem setTpw_tileDom (t : Nat) (x : TilePwr) : (s.setTpw t x).tileDom = s.tileDom := rfl
@[simp] theorem setTpw_caches (t : Nat) (x : TilePwr) : (s.setTpw t x).caches = s.caches := rfl
@[simp] theorem setTpw_l2plru (t : Nat) (x : TilePwr) : (s.setTpw t x).l2plru = s.l2plru := rfl
@[simp] theorem setTpw_dir (t : Nat) (x : TilePwr) : (s.setTpw t x).dir = s.dir := rfl
@[simp] theorem setTpw_dirPlru (t : Nat) (x : TilePwr) : (s.setTpw t x).dirPlru = s.dirPlru := rfl
@[simp] theorem setTpw_llc (t : Nat) (x : TilePwr) : (s.setTpw t x).llc = s.llc := rfl
@[simp] theorem setTpw_llcPlru (t : Nat) (x : TilePwr) : (s.setTpw t x).llcPlru = s.llcPlru := rfl
@[simp] theorem setTpw_setCnt (t : Nat) (x : TilePwr) : (s.setTpw t x).setCnt = s.setCnt := rfl
@[simp] theorem setTpw_txns (t : Nat) (x : TilePwr) : (s.setTpw t x).txns = s.txns := rfl
@[simp] theorem setTpw_pendQ (t : Nat) (x : TilePwr) : (s.setTpw t x).pendQ = s.pendQ := rfl
@[simp] theorem setTpw_retryQ (t : Nat) (x : TilePwr) : (s.setTpw t x).retryQ = s.retryQ := rfl
@[simp] theorem setTpw_msgs (t : Nat) (x : TilePwr) : (s.setTpw t x).msgs = s.msgs := rfl
@[simp] theorem setTpw_chans (t : Nat) (x : TilePwr) : (s.setTpw t x).chans = s.chans := rfl
@[simp] theorem setTpw_dram (t : Nat) (x : TilePwr) : (s.setTpw t x).dram = s.dram := rfl
@[simp] theorem setTpw_dramEp (t : Nat) (x : TilePwr) : (s.setTpw t x).dramEp = s.dramEp := rfl
@[simp] theorem setTpw_devRep (t : Nat) (x : TilePwr) : (s.setTpw t x).devRep = s.devRep := rfl
@[simp] theorem setTpw_arrivals (t : Nat) (x : TilePwr) : (s.setTpw t x).arrivals = s.arrivals := rfl
@[simp] theorem setTpw_mtr (t : Nat) (x : TilePwr) : (s.setTpw t x).mtr = s.mtr := rfl
@[simp] theorem setTpw_er (t : Nat) (x : TilePwr) : (s.setTpw t x).er = s.er := rfl
@[simp] theorem setTpw_tileSvc (t : Nat) (x : TilePwr) : (s.setTpw t x).tileSvc = s.tileSvc := rfl
@[simp] theorem setTpw_tileClk (t : Nat) (x : TilePwr) : (s.setTpw t x).tileClk = s.tileClk := rfl
@[simp] theorem setTpw_routes (t : Nat) (x : TilePwr) : (s.setTpw t x).routes = s.routes := rfl
@[simp] theorem setTpw_ftags (t : Nat) (x : TilePwr) : (s.setTpw t x).ftags = s.ftags := rfl
@[simp] theorem setTpw_fquar (t : Nat) (x : TilePwr) : (s.setTpw t x).fquar = s.fquar := rfl
@[simp] theorem setTpw_ports (t : Nat) (x : TilePwr) : (s.setTpw t x).ports = s.ports := rfl
@[simp] theorem setTpw_transit (t : Nat) (x : TilePwr) : (s.setTpw t x).transit = s.transit := rfl
@[simp] theorem setTpw_fabIn (t : Nat) (x : TilePwr) : (s.setTpw t x).fabIn = s.fabIn := rfl
@[simp] theorem setTpw_jobRx (t : Nat) (x : TilePwr) : (s.setTpw t x).jobRx = s.jobRx := rfl
@[simp] theorem setTpw_outq (t : Nat) (x : TilePwr) : (s.setTpw t x).outq = s.outq := rfl
@[simp] theorem setTpw_htags (t : Nat) (x : TilePwr) : (s.setTpw t x).htags = s.htags := rfl
@[simp] theorem setTpw_hquar (t : Nat) (x : TilePwr) : (s.setTpw t x).hquar = s.hquar := rfl
@[simp] theorem setTpw_tx (t : Nat) (x : TilePwr) : (s.setTpw t x).tx = s.tx := rfl
@[simp] theorem setTpw_msix (t : Nat) (x : TilePwr) : (s.setTpw t x).msix = s.msix := rfl
@[simp] theorem setTpw_cfg (t : Nat) (x : TilePwr) : (s.setTpw t x).cfg = s.cfg := rfl
@[simp] theorem setTpw_staged (t : Nat) (x : TilePwr) : (s.setTpw t x).staged = s.staged := rfl
@[simp] theorem setTpw_hepAt (t : Nat) (x : TilePwr) : (s.setTpw t x).hepAt = s.hepAt := rfl
@[simp] theorem setTpw_hepWas (t : Nat) (x : TilePwr) : (s.setTpw t x).hepWas = s.hepWas := rfl
@[simp] theorem setTpw_cmds (t : Nat) (x : TilePwr) : (s.setTpw t x).cmds = s.cmds := rfl
@[simp] theorem setTpw_heldC (t : Nat) (x : TilePwr) : (s.setTpw t x).heldC = s.heldC := rfl
@[simp] theorem setTpw_engines (t : Nat) (x : TilePwr) : (s.setTpw t x).engines = s.engines := rfl
@[simp] theorem setTpw_tjobs (t : Nat) (x : TilePwr) : (s.setTpw t x).tjobs = s.tjobs := rfl
@[simp] theorem setTpw_tilePark (t : Nat) (x : TilePwr) : (s.setTpw t x).tilePark = s.tilePark := rfl
@[simp] theorem setTpw_stopDom (t : Nat) (x : TilePwr) : (s.setTpw t x).stopDom = s.stopDom := rfl
@[simp] theorem setTpw_mode (t : Nat) (x : TilePwr) : (s.setTpw t x).mode = s.mode := rfl
@[simp] theorem setTpw_meshIn (t : Nat) (x : TilePwr) : (s.setTpw t x).meshIn = s.meshIn := rfl
@[simp] theorem setTpw_meshRr (t : Nat) (x : TilePwr) : (s.setTpw t x).meshRr = s.meshRr := rfl
@[simp] theorem setTpw_meshQat (t : Nat) (x : TilePwr) : (s.setTpw t x).meshQat = s.meshQat := rfl
@[simp] theorem setTpw_meshIdle (t : Nat) (x : TilePwr) : (s.setTpw t x).meshIdle = s.meshIdle := rfl
@[simp] theorem setTpw_meshHeld (t : Nat) (x : TilePwr) : (s.setTpw t x).meshHeld = s.meshHeld := rfl
@[simp] theorem setTpw_lockQ (t : Nat) (x : TilePwr) : (s.setTpw t x).lockQ = s.lockQ := rfl
@[simp] theorem setTpw_outReq (t : Nat) (x : TilePwr) : (s.setTpw t x).outReq = s.outReq := rfl
@[simp] theorem setTpw_fillQ (t : Nat) (x : TilePwr) : (s.setTpw t x).fillQ = s.fillQ := rfl
@[simp] theorem setTpw_meshAt (t : Nat) (x : TilePwr) : (s.setTpw t x).meshAt = s.meshAt := rfl
@[simp] theorem setTpw_mper (t : Nat) (x : TilePwr) : (s.setTpw t x).mper = s.mper := rfl
@[simp] theorem setTpw_backlog (t : Nat) (x : TilePwr) : (s.setTpw t x).backlog = s.backlog := rfl
@[simp] theorem setTpw_mstall (t : Nat) (x : TilePwr) : (s.setTpw t x).mstall = s.mstall := rfl
@[simp] theorem setTpw_mbands (t : Nat) (x : TilePwr) : (s.setTpw t x).mbands = s.mbands := rfl
@[simp] theorem setTpw_msec (t : Nat) (x : TilePwr) : (s.setTpw t x).msec = s.msec := rfl
@[simp] theorem setTpw_mbound (t : Nat) (x : TilePwr) : (s.setTpw t x).mbound = s.mbound := rfl
@[simp] theorem setTpw_mkey (t : Nat) (x : TilePwr) : (s.setTpw t x).mkey = s.mkey := rfl
@[simp] theorem setTpw_pins (t : Nat) (x : TilePwr) : (s.setTpw t x).pins = s.pins := rfl
@[simp] theorem setTpw_fuses (t : Nat) (x : TilePwr) : (s.setTpw t x).fuses = s.fuses := rfl
@[simp] theorem setTpw_flash (t : Nat) (x : TilePwr) : (s.setTpw t x).flash = s.flash := rfl
@[simp] theorem setTpw_enroll (t : Nat) (x : TilePwr) : (s.setTpw t x).enroll = s.enroll := rfl
@[simp] theorem setTpw_rearm (t : Nat) (x : TilePwr) : (s.setTpw t x).rearm = s.rearm := rfl
@[simp] theorem setTpw_aborts (t : Nat) (x : TilePwr) : (s.setTpw t x).aborts = s.aborts := rfl
@[simp] theorem setTpw_temps (t : Nat) (x : TilePwr) : (s.setTpw t x).temps = s.temps := rfl
@[simp] theorem setTpw_clearAt (t : Nat) (x : TilePwr) : (s.setTpw t x).clearAt = s.clearAt := rfl
@[simp] theorem setTpw_capAt (t : Nat) (x : TilePwr) : (s.setTpw t x).capAt = s.capAt := rfl
@[simp] theorem setTpw_pending (t : Nat) (x : TilePwr) : (s.setTpw t x).pending = s.pending := rfl

@[simp] theorem setTclk_csr (t v : Nat) : (s.setTclk t v).csr = s.csr := rfl
@[simp] theorem setTclk_time (t v : Nat) : (s.setTclk t v).time = s.time := rfl
@[simp] theorem setTclk_ns (t v : Nat) : (s.setTclk t v).ns = s.ns := rfl
@[simp] theorem setTclk_free (t v : Nat) : (s.setTclk t v).free = s.free := rfl
@[simp] theorem setTclk_cores (t v : Nat) : (s.setTclk t v).cores = s.cores := rfl
@[simp] theorem setTclk_keepers (t v : Nat) : (s.setTclk t v).keepers = s.keepers := rfl
@[simp] theorem setTclk_ksram (t v : Nat) : (s.setTclk t v).ksram = s.ksram := rfl
@[simp] theorem setTclk_ksramBad (t v : Nat) : (s.setTclk t v).ksramBad = s.ksramBad := rfl
@[simp] theorem setTclk_tileDom (t v : Nat) : (s.setTclk t v).tileDom = s.tileDom := rfl
@[simp] theorem setTclk_caches (t v : Nat) : (s.setTclk t v).caches = s.caches := rfl
@[simp] theorem setTclk_l2plru (t v : Nat) : (s.setTclk t v).l2plru = s.l2plru := rfl
@[simp] theorem setTclk_dir (t v : Nat) : (s.setTclk t v).dir = s.dir := rfl
@[simp] theorem setTclk_dirPlru (t v : Nat) : (s.setTclk t v).dirPlru = s.dirPlru := rfl
@[simp] theorem setTclk_llc (t v : Nat) : (s.setTclk t v).llc = s.llc := rfl
@[simp] theorem setTclk_llcPlru (t v : Nat) : (s.setTclk t v).llcPlru = s.llcPlru := rfl
@[simp] theorem setTclk_setCnt (t v : Nat) : (s.setTclk t v).setCnt = s.setCnt := rfl
@[simp] theorem setTclk_txns (t v : Nat) : (s.setTclk t v).txns = s.txns := rfl
@[simp] theorem setTclk_pendQ (t v : Nat) : (s.setTclk t v).pendQ = s.pendQ := rfl
@[simp] theorem setTclk_retryQ (t v : Nat) : (s.setTclk t v).retryQ = s.retryQ := rfl
@[simp] theorem setTclk_msgs (t v : Nat) : (s.setTclk t v).msgs = s.msgs := rfl
@[simp] theorem setTclk_chans (t v : Nat) : (s.setTclk t v).chans = s.chans := rfl
@[simp] theorem setTclk_dram (t v : Nat) : (s.setTclk t v).dram = s.dram := rfl
@[simp] theorem setTclk_dramEp (t v : Nat) : (s.setTclk t v).dramEp = s.dramEp := rfl
@[simp] theorem setTclk_devRep (t v : Nat) : (s.setTclk t v).devRep = s.devRep := rfl
@[simp] theorem setTclk_arrivals (t v : Nat) : (s.setTclk t v).arrivals = s.arrivals := rfl
@[simp] theorem setTclk_mtr (t v : Nat) : (s.setTclk t v).mtr = s.mtr := rfl
@[simp] theorem setTclk_er (t v : Nat) : (s.setTclk t v).er = s.er := rfl
@[simp] theorem setTclk_tileSvc (t v : Nat) : (s.setTclk t v).tileSvc = s.tileSvc := rfl
@[simp] theorem setTclk_routes (t v : Nat) : (s.setTclk t v).routes = s.routes := rfl
@[simp] theorem setTclk_ftags (t v : Nat) : (s.setTclk t v).ftags = s.ftags := rfl
@[simp] theorem setTclk_fquar (t v : Nat) : (s.setTclk t v).fquar = s.fquar := rfl
@[simp] theorem setTclk_ports (t v : Nat) : (s.setTclk t v).ports = s.ports := rfl
@[simp] theorem setTclk_transit (t v : Nat) : (s.setTclk t v).transit = s.transit := rfl
@[simp] theorem setTclk_fabIn (t v : Nat) : (s.setTclk t v).fabIn = s.fabIn := rfl
@[simp] theorem setTclk_jobRx (t v : Nat) : (s.setTclk t v).jobRx = s.jobRx := rfl
@[simp] theorem setTclk_outq (t v : Nat) : (s.setTclk t v).outq = s.outq := rfl
@[simp] theorem setTclk_htags (t v : Nat) : (s.setTclk t v).htags = s.htags := rfl
@[simp] theorem setTclk_hquar (t v : Nat) : (s.setTclk t v).hquar = s.hquar := rfl
@[simp] theorem setTclk_tx (t v : Nat) : (s.setTclk t v).tx = s.tx := rfl
@[simp] theorem setTclk_msix (t v : Nat) : (s.setTclk t v).msix = s.msix := rfl
@[simp] theorem setTclk_cfg (t v : Nat) : (s.setTclk t v).cfg = s.cfg := rfl
@[simp] theorem setTclk_staged (t v : Nat) : (s.setTclk t v).staged = s.staged := rfl
@[simp] theorem setTclk_hepAt (t v : Nat) : (s.setTclk t v).hepAt = s.hepAt := rfl
@[simp] theorem setTclk_hepWas (t v : Nat) : (s.setTclk t v).hepWas = s.hepWas := rfl
@[simp] theorem setTclk_cmds (t v : Nat) : (s.setTclk t v).cmds = s.cmds := rfl
@[simp] theorem setTclk_heldC (t v : Nat) : (s.setTclk t v).heldC = s.heldC := rfl
@[simp] theorem setTclk_engines (t v : Nat) : (s.setTclk t v).engines = s.engines := rfl
@[simp] theorem setTclk_tjobs (t v : Nat) : (s.setTclk t v).tjobs = s.tjobs := rfl
@[simp] theorem setTclk_tilePark (t v : Nat) : (s.setTclk t v).tilePark = s.tilePark := rfl
@[simp] theorem setTclk_stopDom (t v : Nat) : (s.setTclk t v).stopDom = s.stopDom := rfl
@[simp] theorem setTclk_tilePwr (t v : Nat) : (s.setTclk t v).tilePwr = s.tilePwr := rfl
@[simp] theorem setTclk_mode (t v : Nat) : (s.setTclk t v).mode = s.mode := rfl
@[simp] theorem setTclk_meshIn (t v : Nat) : (s.setTclk t v).meshIn = s.meshIn := rfl
@[simp] theorem setTclk_meshRr (t v : Nat) : (s.setTclk t v).meshRr = s.meshRr := rfl
@[simp] theorem setTclk_meshQat (t v : Nat) : (s.setTclk t v).meshQat = s.meshQat := rfl
@[simp] theorem setTclk_meshIdle (t v : Nat) : (s.setTclk t v).meshIdle = s.meshIdle := rfl
@[simp] theorem setTclk_meshHeld (t v : Nat) : (s.setTclk t v).meshHeld = s.meshHeld := rfl
@[simp] theorem setTclk_lockQ (t v : Nat) : (s.setTclk t v).lockQ = s.lockQ := rfl
@[simp] theorem setTclk_outReq (t v : Nat) : (s.setTclk t v).outReq = s.outReq := rfl
@[simp] theorem setTclk_fillQ (t v : Nat) : (s.setTclk t v).fillQ = s.fillQ := rfl
@[simp] theorem setTclk_meshAt (t v : Nat) : (s.setTclk t v).meshAt = s.meshAt := rfl
@[simp] theorem setTclk_mper (t v : Nat) : (s.setTclk t v).mper = s.mper := rfl
@[simp] theorem setTclk_backlog (t v : Nat) : (s.setTclk t v).backlog = s.backlog := rfl
@[simp] theorem setTclk_mstall (t v : Nat) : (s.setTclk t v).mstall = s.mstall := rfl
@[simp] theorem setTclk_mbands (t v : Nat) : (s.setTclk t v).mbands = s.mbands := rfl
@[simp] theorem setTclk_msec (t v : Nat) : (s.setTclk t v).msec = s.msec := rfl
@[simp] theorem setTclk_mbound (t v : Nat) : (s.setTclk t v).mbound = s.mbound := rfl
@[simp] theorem setTclk_mkey (t v : Nat) : (s.setTclk t v).mkey = s.mkey := rfl
@[simp] theorem setTclk_pins (t v : Nat) : (s.setTclk t v).pins = s.pins := rfl
@[simp] theorem setTclk_fuses (t v : Nat) : (s.setTclk t v).fuses = s.fuses := rfl
@[simp] theorem setTclk_flash (t v : Nat) : (s.setTclk t v).flash = s.flash := rfl
@[simp] theorem setTclk_enroll (t v : Nat) : (s.setTclk t v).enroll = s.enroll := rfl
@[simp] theorem setTclk_rearm (t v : Nat) : (s.setTclk t v).rearm = s.rearm := rfl
@[simp] theorem setTclk_aborts (t v : Nat) : (s.setTclk t v).aborts = s.aborts := rfl
@[simp] theorem setTclk_temps (t v : Nat) : (s.setTclk t v).temps = s.temps := rfl
@[simp] theorem setTclk_clearAt (t v : Nat) : (s.setTclk t v).clearAt = s.clearAt := rfl
@[simp] theorem setTclk_capAt (t v : Nat) : (s.setTclk t v).capAt = s.capAt := rfl
@[simp] theorem setTclk_pending (t v : Nat) : (s.setTclk t v).pending = s.pending := rfl

@[simp] theorem setDom_csr (t d : Nat) : (s.setDom t d).csr = s.csr := rfl
@[simp] theorem setDom_time (t d : Nat) : (s.setDom t d).time = s.time := rfl
@[simp] theorem setDom_ns (t d : Nat) : (s.setDom t d).ns = s.ns := rfl
@[simp] theorem setDom_free (t d : Nat) : (s.setDom t d).free = s.free := rfl
@[simp] theorem setDom_cores (t d : Nat) : (s.setDom t d).cores = s.cores := rfl
@[simp] theorem setDom_keepers (t d : Nat) : (s.setDom t d).keepers = s.keepers := rfl
@[simp] theorem setDom_ksram (t d : Nat) : (s.setDom t d).ksram = s.ksram := rfl
@[simp] theorem setDom_ksramBad (t d : Nat) : (s.setDom t d).ksramBad = s.ksramBad := rfl
@[simp] theorem setDom_caches (t d : Nat) : (s.setDom t d).caches = s.caches := rfl
@[simp] theorem setDom_l2plru (t d : Nat) : (s.setDom t d).l2plru = s.l2plru := rfl
@[simp] theorem setDom_dir (t d : Nat) : (s.setDom t d).dir = s.dir := rfl
@[simp] theorem setDom_dirPlru (t d : Nat) : (s.setDom t d).dirPlru = s.dirPlru := rfl
@[simp] theorem setDom_llc (t d : Nat) : (s.setDom t d).llc = s.llc := rfl
@[simp] theorem setDom_llcPlru (t d : Nat) : (s.setDom t d).llcPlru = s.llcPlru := rfl
@[simp] theorem setDom_setCnt (t d : Nat) : (s.setDom t d).setCnt = s.setCnt := rfl
@[simp] theorem setDom_txns (t d : Nat) : (s.setDom t d).txns = s.txns := rfl
@[simp] theorem setDom_pendQ (t d : Nat) : (s.setDom t d).pendQ = s.pendQ := rfl
@[simp] theorem setDom_retryQ (t d : Nat) : (s.setDom t d).retryQ = s.retryQ := rfl
@[simp] theorem setDom_msgs (t d : Nat) : (s.setDom t d).msgs = s.msgs := rfl
@[simp] theorem setDom_chans (t d : Nat) : (s.setDom t d).chans = s.chans := rfl
@[simp] theorem setDom_dram (t d : Nat) : (s.setDom t d).dram = s.dram := rfl
@[simp] theorem setDom_dramEp (t d : Nat) : (s.setDom t d).dramEp = s.dramEp := rfl
@[simp] theorem setDom_devRep (t d : Nat) : (s.setDom t d).devRep = s.devRep := rfl
@[simp] theorem setDom_arrivals (t d : Nat) : (s.setDom t d).arrivals = s.arrivals := rfl
@[simp] theorem setDom_mtr (t d : Nat) : (s.setDom t d).mtr = s.mtr := rfl
@[simp] theorem setDom_er (t d : Nat) : (s.setDom t d).er = s.er := rfl
@[simp] theorem setDom_tileSvc (t d : Nat) : (s.setDom t d).tileSvc = s.tileSvc := rfl
@[simp] theorem setDom_tileClk (t d : Nat) : (s.setDom t d).tileClk = s.tileClk := rfl
@[simp] theorem setDom_routes (t d : Nat) : (s.setDom t d).routes = s.routes := rfl
@[simp] theorem setDom_ftags (t d : Nat) : (s.setDom t d).ftags = s.ftags := rfl
@[simp] theorem setDom_fquar (t d : Nat) : (s.setDom t d).fquar = s.fquar := rfl
@[simp] theorem setDom_ports (t d : Nat) : (s.setDom t d).ports = s.ports := rfl
@[simp] theorem setDom_transit (t d : Nat) : (s.setDom t d).transit = s.transit := rfl
@[simp] theorem setDom_fabIn (t d : Nat) : (s.setDom t d).fabIn = s.fabIn := rfl
@[simp] theorem setDom_jobRx (t d : Nat) : (s.setDom t d).jobRx = s.jobRx := rfl
@[simp] theorem setDom_outq (t d : Nat) : (s.setDom t d).outq = s.outq := rfl
@[simp] theorem setDom_htags (t d : Nat) : (s.setDom t d).htags = s.htags := rfl
@[simp] theorem setDom_hquar (t d : Nat) : (s.setDom t d).hquar = s.hquar := rfl
@[simp] theorem setDom_tx (t d : Nat) : (s.setDom t d).tx = s.tx := rfl
@[simp] theorem setDom_msix (t d : Nat) : (s.setDom t d).msix = s.msix := rfl
@[simp] theorem setDom_cfg (t d : Nat) : (s.setDom t d).cfg = s.cfg := rfl
@[simp] theorem setDom_staged (t d : Nat) : (s.setDom t d).staged = s.staged := rfl
@[simp] theorem setDom_hepAt (t d : Nat) : (s.setDom t d).hepAt = s.hepAt := rfl
@[simp] theorem setDom_hepWas (t d : Nat) : (s.setDom t d).hepWas = s.hepWas := rfl
@[simp] theorem setDom_cmds (t d : Nat) : (s.setDom t d).cmds = s.cmds := rfl
@[simp] theorem setDom_heldC (t d : Nat) : (s.setDom t d).heldC = s.heldC := rfl
@[simp] theorem setDom_engines (t d : Nat) : (s.setDom t d).engines = s.engines := rfl
@[simp] theorem setDom_tjobs (t d : Nat) : (s.setDom t d).tjobs = s.tjobs := rfl
@[simp] theorem setDom_tilePark (t d : Nat) : (s.setDom t d).tilePark = s.tilePark := rfl
@[simp] theorem setDom_stopDom (t d : Nat) : (s.setDom t d).stopDom = s.stopDom := rfl
@[simp] theorem setDom_tilePwr (t d : Nat) : (s.setDom t d).tilePwr = s.tilePwr := rfl
@[simp] theorem setDom_mode (t d : Nat) : (s.setDom t d).mode = s.mode := rfl
@[simp] theorem setDom_meshIn (t d : Nat) : (s.setDom t d).meshIn = s.meshIn := rfl
@[simp] theorem setDom_meshRr (t d : Nat) : (s.setDom t d).meshRr = s.meshRr := rfl
@[simp] theorem setDom_meshQat (t d : Nat) : (s.setDom t d).meshQat = s.meshQat := rfl
@[simp] theorem setDom_meshIdle (t d : Nat) : (s.setDom t d).meshIdle = s.meshIdle := rfl
@[simp] theorem setDom_meshHeld (t d : Nat) : (s.setDom t d).meshHeld = s.meshHeld := rfl
@[simp] theorem setDom_lockQ (t d : Nat) : (s.setDom t d).lockQ = s.lockQ := rfl
@[simp] theorem setDom_outReq (t d : Nat) : (s.setDom t d).outReq = s.outReq := rfl
@[simp] theorem setDom_fillQ (t d : Nat) : (s.setDom t d).fillQ = s.fillQ := rfl
@[simp] theorem setDom_meshAt (t d : Nat) : (s.setDom t d).meshAt = s.meshAt := rfl
@[simp] theorem setDom_mper (t d : Nat) : (s.setDom t d).mper = s.mper := rfl
@[simp] theorem setDom_backlog (t d : Nat) : (s.setDom t d).backlog = s.backlog := rfl
@[simp] theorem setDom_mstall (t d : Nat) : (s.setDom t d).mstall = s.mstall := rfl
@[simp] theorem setDom_mbands (t d : Nat) : (s.setDom t d).mbands = s.mbands := rfl
@[simp] theorem setDom_msec (t d : Nat) : (s.setDom t d).msec = s.msec := rfl
@[simp] theorem setDom_mbound (t d : Nat) : (s.setDom t d).mbound = s.mbound := rfl
@[simp] theorem setDom_mkey (t d : Nat) : (s.setDom t d).mkey = s.mkey := rfl
@[simp] theorem setDom_pins (t d : Nat) : (s.setDom t d).pins = s.pins := rfl
@[simp] theorem setDom_fuses (t d : Nat) : (s.setDom t d).fuses = s.fuses := rfl
@[simp] theorem setDom_flash (t d : Nat) : (s.setDom t d).flash = s.flash := rfl
@[simp] theorem setDom_enroll (t d : Nat) : (s.setDom t d).enroll = s.enroll := rfl
@[simp] theorem setDom_rearm (t d : Nat) : (s.setDom t d).rearm = s.rearm := rfl
@[simp] theorem setDom_aborts (t d : Nat) : (s.setDom t d).aborts = s.aborts := rfl
@[simp] theorem setDom_temps (t d : Nat) : (s.setDom t d).temps = s.temps := rfl
@[simp] theorem setDom_clearAt (t d : Nat) : (s.setDom t d).clearAt = s.clearAt := rfl
@[simp] theorem setDom_capAt (t d : Nat) : (s.setDom t d).capAt = s.capAt := rfl
@[simp] theorem setDom_pending (t d : Nat) : (s.setDom t d).pending = s.pending := rfl

@[simp] theorem setEr_csr (f : Recorder → Recorder) : (s.setEr f).csr = s.csr := rfl
@[simp] theorem setEr_time (f : Recorder → Recorder) : (s.setEr f).time = s.time := rfl
@[simp] theorem setEr_ns (f : Recorder → Recorder) : (s.setEr f).ns = s.ns := rfl
@[simp] theorem setEr_free (f : Recorder → Recorder) : (s.setEr f).free = s.free := rfl
@[simp] theorem setEr_cores (f : Recorder → Recorder) : (s.setEr f).cores = s.cores := rfl
@[simp] theorem setEr_keepers (f : Recorder → Recorder) : (s.setEr f).keepers = s.keepers := rfl
@[simp] theorem setEr_ksram (f : Recorder → Recorder) : (s.setEr f).ksram = s.ksram := rfl
@[simp] theorem setEr_ksramBad (f : Recorder → Recorder) : (s.setEr f).ksramBad = s.ksramBad := rfl
@[simp] theorem setEr_tileDom (f : Recorder → Recorder) : (s.setEr f).tileDom = s.tileDom := rfl
@[simp] theorem setEr_caches (f : Recorder → Recorder) : (s.setEr f).caches = s.caches := rfl
@[simp] theorem setEr_l2plru (f : Recorder → Recorder) : (s.setEr f).l2plru = s.l2plru := rfl
@[simp] theorem setEr_dir (f : Recorder → Recorder) : (s.setEr f).dir = s.dir := rfl
@[simp] theorem setEr_dirPlru (f : Recorder → Recorder) : (s.setEr f).dirPlru = s.dirPlru := rfl
@[simp] theorem setEr_llc (f : Recorder → Recorder) : (s.setEr f).llc = s.llc := rfl
@[simp] theorem setEr_llcPlru (f : Recorder → Recorder) : (s.setEr f).llcPlru = s.llcPlru := rfl
@[simp] theorem setEr_setCnt (f : Recorder → Recorder) : (s.setEr f).setCnt = s.setCnt := rfl
@[simp] theorem setEr_txns (f : Recorder → Recorder) : (s.setEr f).txns = s.txns := rfl
@[simp] theorem setEr_pendQ (f : Recorder → Recorder) : (s.setEr f).pendQ = s.pendQ := rfl
@[simp] theorem setEr_retryQ (f : Recorder → Recorder) : (s.setEr f).retryQ = s.retryQ := rfl
@[simp] theorem setEr_msgs (f : Recorder → Recorder) : (s.setEr f).msgs = s.msgs := rfl
@[simp] theorem setEr_chans (f : Recorder → Recorder) : (s.setEr f).chans = s.chans := rfl
@[simp] theorem setEr_dram (f : Recorder → Recorder) : (s.setEr f).dram = s.dram := rfl
@[simp] theorem setEr_dramEp (f : Recorder → Recorder) : (s.setEr f).dramEp = s.dramEp := rfl
@[simp] theorem setEr_devRep (f : Recorder → Recorder) : (s.setEr f).devRep = s.devRep := rfl
@[simp] theorem setEr_arrivals (f : Recorder → Recorder) : (s.setEr f).arrivals = s.arrivals := rfl
@[simp] theorem setEr_mtr (f : Recorder → Recorder) : (s.setEr f).mtr = s.mtr := rfl
@[simp] theorem setEr_tileSvc (f : Recorder → Recorder) : (s.setEr f).tileSvc = s.tileSvc := rfl
@[simp] theorem setEr_tileClk (f : Recorder → Recorder) : (s.setEr f).tileClk = s.tileClk := rfl
@[simp] theorem setEr_routes (f : Recorder → Recorder) : (s.setEr f).routes = s.routes := rfl
@[simp] theorem setEr_ftags (f : Recorder → Recorder) : (s.setEr f).ftags = s.ftags := rfl
@[simp] theorem setEr_fquar (f : Recorder → Recorder) : (s.setEr f).fquar = s.fquar := rfl
@[simp] theorem setEr_ports (f : Recorder → Recorder) : (s.setEr f).ports = s.ports := rfl
@[simp] theorem setEr_transit (f : Recorder → Recorder) : (s.setEr f).transit = s.transit := rfl
@[simp] theorem setEr_fabIn (f : Recorder → Recorder) : (s.setEr f).fabIn = s.fabIn := rfl
@[simp] theorem setEr_jobRx (f : Recorder → Recorder) : (s.setEr f).jobRx = s.jobRx := rfl
@[simp] theorem setEr_outq (f : Recorder → Recorder) : (s.setEr f).outq = s.outq := rfl
@[simp] theorem setEr_htags (f : Recorder → Recorder) : (s.setEr f).htags = s.htags := rfl
@[simp] theorem setEr_hquar (f : Recorder → Recorder) : (s.setEr f).hquar = s.hquar := rfl
@[simp] theorem setEr_tx (f : Recorder → Recorder) : (s.setEr f).tx = s.tx := rfl
@[simp] theorem setEr_msix (f : Recorder → Recorder) : (s.setEr f).msix = s.msix := rfl
@[simp] theorem setEr_cfg (f : Recorder → Recorder) : (s.setEr f).cfg = s.cfg := rfl
@[simp] theorem setEr_staged (f : Recorder → Recorder) : (s.setEr f).staged = s.staged := rfl
@[simp] theorem setEr_hepAt (f : Recorder → Recorder) : (s.setEr f).hepAt = s.hepAt := rfl
@[simp] theorem setEr_hepWas (f : Recorder → Recorder) : (s.setEr f).hepWas = s.hepWas := rfl
@[simp] theorem setEr_cmds (f : Recorder → Recorder) : (s.setEr f).cmds = s.cmds := rfl
@[simp] theorem setEr_heldC (f : Recorder → Recorder) : (s.setEr f).heldC = s.heldC := rfl
@[simp] theorem setEr_engines (f : Recorder → Recorder) : (s.setEr f).engines = s.engines := rfl
@[simp] theorem setEr_tjobs (f : Recorder → Recorder) : (s.setEr f).tjobs = s.tjobs := rfl
@[simp] theorem setEr_tilePark (f : Recorder → Recorder) : (s.setEr f).tilePark = s.tilePark := rfl
@[simp] theorem setEr_stopDom (f : Recorder → Recorder) : (s.setEr f).stopDom = s.stopDom := rfl
@[simp] theorem setEr_tilePwr (f : Recorder → Recorder) : (s.setEr f).tilePwr = s.tilePwr := rfl
@[simp] theorem setEr_mode (f : Recorder → Recorder) : (s.setEr f).mode = s.mode := rfl
@[simp] theorem setEr_meshIn (f : Recorder → Recorder) : (s.setEr f).meshIn = s.meshIn := rfl
@[simp] theorem setEr_meshRr (f : Recorder → Recorder) : (s.setEr f).meshRr = s.meshRr := rfl
@[simp] theorem setEr_meshQat (f : Recorder → Recorder) : (s.setEr f).meshQat = s.meshQat := rfl
@[simp] theorem setEr_meshIdle (f : Recorder → Recorder) : (s.setEr f).meshIdle = s.meshIdle := rfl
@[simp] theorem setEr_meshHeld (f : Recorder → Recorder) : (s.setEr f).meshHeld = s.meshHeld := rfl
@[simp] theorem setEr_lockQ (f : Recorder → Recorder) : (s.setEr f).lockQ = s.lockQ := rfl
@[simp] theorem setEr_outReq (f : Recorder → Recorder) : (s.setEr f).outReq = s.outReq := rfl
@[simp] theorem setEr_fillQ (f : Recorder → Recorder) : (s.setEr f).fillQ = s.fillQ := rfl
@[simp] theorem setEr_meshAt (f : Recorder → Recorder) : (s.setEr f).meshAt = s.meshAt := rfl
@[simp] theorem setEr_mper (f : Recorder → Recorder) : (s.setEr f).mper = s.mper := rfl
@[simp] theorem setEr_backlog (f : Recorder → Recorder) : (s.setEr f).backlog = s.backlog := rfl
@[simp] theorem setEr_mstall (f : Recorder → Recorder) : (s.setEr f).mstall = s.mstall := rfl
@[simp] theorem setEr_mbands (f : Recorder → Recorder) : (s.setEr f).mbands = s.mbands := rfl
@[simp] theorem setEr_msec (f : Recorder → Recorder) : (s.setEr f).msec = s.msec := rfl
@[simp] theorem setEr_mbound (f : Recorder → Recorder) : (s.setEr f).mbound = s.mbound := rfl
@[simp] theorem setEr_mkey (f : Recorder → Recorder) : (s.setEr f).mkey = s.mkey := rfl
@[simp] theorem setEr_pins (f : Recorder → Recorder) : (s.setEr f).pins = s.pins := rfl
@[simp] theorem setEr_fuses (f : Recorder → Recorder) : (s.setEr f).fuses = s.fuses := rfl
@[simp] theorem setEr_flash (f : Recorder → Recorder) : (s.setEr f).flash = s.flash := rfl
@[simp] theorem setEr_enroll (f : Recorder → Recorder) : (s.setEr f).enroll = s.enroll := rfl
@[simp] theorem setEr_rearm (f : Recorder → Recorder) : (s.setEr f).rearm = s.rearm := rfl
@[simp] theorem setEr_aborts (f : Recorder → Recorder) : (s.setEr f).aborts = s.aborts := rfl
@[simp] theorem setEr_temps (f : Recorder → Recorder) : (s.setEr f).temps = s.temps := rfl
@[simp] theorem setEr_clearAt (f : Recorder → Recorder) : (s.setEr f).clearAt = s.clearAt := rfl
@[simp] theorem setEr_capAt (f : Recorder → Recorder) : (s.setEr f).capAt = s.capAt := rfl
@[simp] theorem setEr_pending (f : Recorder → Recorder) : (s.setEr f).pending = s.pending := rfl

@[simp] theorem passNs_csr : (s.passNs).csr = s.csr := rfl
@[simp] theorem passNs_free : (s.passNs).free = s.free := rfl
@[simp] theorem passNs_cores : (s.passNs).cores = s.cores := rfl
@[simp] theorem passNs_keepers : (s.passNs).keepers = s.keepers := rfl
@[simp] theorem passNs_ksram : (s.passNs).ksram = s.ksram := rfl
@[simp] theorem passNs_ksramBad : (s.passNs).ksramBad = s.ksramBad := rfl
@[simp] theorem passNs_tileDom : (s.passNs).tileDom = s.tileDom := rfl
@[simp] theorem passNs_caches : (s.passNs).caches = s.caches := rfl
@[simp] theorem passNs_l2plru : (s.passNs).l2plru = s.l2plru := rfl
@[simp] theorem passNs_dir : (s.passNs).dir = s.dir := rfl
@[simp] theorem passNs_dirPlru : (s.passNs).dirPlru = s.dirPlru := rfl
@[simp] theorem passNs_llc : (s.passNs).llc = s.llc := rfl
@[simp] theorem passNs_llcPlru : (s.passNs).llcPlru = s.llcPlru := rfl
@[simp] theorem passNs_setCnt : (s.passNs).setCnt = s.setCnt := rfl
@[simp] theorem passNs_txns : (s.passNs).txns = s.txns := rfl
@[simp] theorem passNs_pendQ : (s.passNs).pendQ = s.pendQ := rfl
@[simp] theorem passNs_retryQ : (s.passNs).retryQ = s.retryQ := rfl
@[simp] theorem passNs_msgs : (s.passNs).msgs = s.msgs := rfl
@[simp] theorem passNs_chans : (s.passNs).chans = s.chans := rfl
@[simp] theorem passNs_dram : (s.passNs).dram = s.dram := rfl
@[simp] theorem passNs_dramEp : (s.passNs).dramEp = s.dramEp := rfl
@[simp] theorem passNs_devRep : (s.passNs).devRep = s.devRep := rfl
@[simp] theorem passNs_arrivals : (s.passNs).arrivals = s.arrivals := rfl
@[simp] theorem passNs_mtr : (s.passNs).mtr = s.mtr := rfl
@[simp] theorem passNs_er : (s.passNs).er = s.er := rfl
@[simp] theorem passNs_tileSvc : (s.passNs).tileSvc = s.tileSvc := rfl
@[simp] theorem passNs_tileClk : (s.passNs).tileClk = s.tileClk := rfl
@[simp] theorem passNs_routes : (s.passNs).routes = s.routes := rfl
@[simp] theorem passNs_ftags : (s.passNs).ftags = s.ftags := rfl
@[simp] theorem passNs_fquar : (s.passNs).fquar = s.fquar := rfl
@[simp] theorem passNs_ports : (s.passNs).ports = s.ports := rfl
@[simp] theorem passNs_transit : (s.passNs).transit = s.transit := rfl
@[simp] theorem passNs_fabIn : (s.passNs).fabIn = s.fabIn := rfl
@[simp] theorem passNs_jobRx : (s.passNs).jobRx = s.jobRx := rfl
@[simp] theorem passNs_outq : (s.passNs).outq = s.outq := rfl
@[simp] theorem passNs_htags : (s.passNs).htags = s.htags := rfl
@[simp] theorem passNs_hquar : (s.passNs).hquar = s.hquar := rfl
@[simp] theorem passNs_tx : (s.passNs).tx = s.tx := rfl
@[simp] theorem passNs_msix : (s.passNs).msix = s.msix := rfl
@[simp] theorem passNs_cfg : (s.passNs).cfg = s.cfg := rfl
@[simp] theorem passNs_staged : (s.passNs).staged = s.staged := rfl
@[simp] theorem passNs_hepAt : (s.passNs).hepAt = s.hepAt := rfl
@[simp] theorem passNs_hepWas : (s.passNs).hepWas = s.hepWas := rfl
@[simp] theorem passNs_cmds : (s.passNs).cmds = s.cmds := rfl
@[simp] theorem passNs_heldC : (s.passNs).heldC = s.heldC := rfl
@[simp] theorem passNs_engines : (s.passNs).engines = s.engines := rfl
@[simp] theorem passNs_tjobs : (s.passNs).tjobs = s.tjobs := rfl
@[simp] theorem passNs_tilePark : (s.passNs).tilePark = s.tilePark := rfl
@[simp] theorem passNs_stopDom : (s.passNs).stopDom = s.stopDom := rfl
@[simp] theorem passNs_tilePwr : (s.passNs).tilePwr = s.tilePwr := rfl
@[simp] theorem passNs_mode : (s.passNs).mode = s.mode := rfl
@[simp] theorem passNs_meshIn : (s.passNs).meshIn = s.meshIn := rfl
@[simp] theorem passNs_meshRr : (s.passNs).meshRr = s.meshRr := rfl
@[simp] theorem passNs_meshQat : (s.passNs).meshQat = s.meshQat := rfl
@[simp] theorem passNs_meshIdle : (s.passNs).meshIdle = s.meshIdle := rfl
@[simp] theorem passNs_meshHeld : (s.passNs).meshHeld = s.meshHeld := rfl
@[simp] theorem passNs_lockQ : (s.passNs).lockQ = s.lockQ := rfl
@[simp] theorem passNs_outReq : (s.passNs).outReq = s.outReq := rfl
@[simp] theorem passNs_fillQ : (s.passNs).fillQ = s.fillQ := rfl
@[simp] theorem passNs_meshAt : (s.passNs).meshAt = s.meshAt := rfl
@[simp] theorem passNs_mper : (s.passNs).mper = s.mper := rfl
@[simp] theorem passNs_backlog : (s.passNs).backlog = s.backlog := rfl
@[simp] theorem passNs_mstall : (s.passNs).mstall = s.mstall := rfl
@[simp] theorem passNs_mbands : (s.passNs).mbands = s.mbands := rfl
@[simp] theorem passNs_msec : (s.passNs).msec = s.msec := rfl
@[simp] theorem passNs_mbound : (s.passNs).mbound = s.mbound := rfl
@[simp] theorem passNs_mkey : (s.passNs).mkey = s.mkey := rfl
@[simp] theorem passNs_pins : (s.passNs).pins = s.pins := rfl
@[simp] theorem passNs_fuses : (s.passNs).fuses = s.fuses := rfl
@[simp] theorem passNs_flash : (s.passNs).flash = s.flash := rfl
@[simp] theorem passNs_enroll : (s.passNs).enroll = s.enroll := rfl
@[simp] theorem passNs_rearm : (s.passNs).rearm = s.rearm := rfl
@[simp] theorem passNs_aborts : (s.passNs).aborts = s.aborts := rfl
@[simp] theorem passNs_temps : (s.passNs).temps = s.temps := rfl
@[simp] theorem passNs_clearAt : (s.passNs).clearAt = s.clearAt := rfl
@[simp] theorem passNs_capAt : (s.passNs).capAt = s.capAt := rfl
@[simp] theorem passNs_pending : (s.passNs).pending = s.pending := rfl

@[simp] theorem cpl_csr (t : TlpBody) : (s.cpl t).csr = s.csr := rfl
@[simp] theorem cpl_time (t : TlpBody) : (s.cpl t).time = s.time := rfl
@[simp] theorem cpl_ns (t : TlpBody) : (s.cpl t).ns = s.ns := rfl
@[simp] theorem cpl_free (t : TlpBody) : (s.cpl t).free = s.free := rfl
@[simp] theorem cpl_cores (t : TlpBody) : (s.cpl t).cores = s.cores := rfl
@[simp] theorem cpl_keepers (t : TlpBody) : (s.cpl t).keepers = s.keepers := rfl
@[simp] theorem cpl_ksram (t : TlpBody) : (s.cpl t).ksram = s.ksram := rfl
@[simp] theorem cpl_ksramBad (t : TlpBody) : (s.cpl t).ksramBad = s.ksramBad := rfl
@[simp] theorem cpl_tileDom (t : TlpBody) : (s.cpl t).tileDom = s.tileDom := rfl
@[simp] theorem cpl_caches (t : TlpBody) : (s.cpl t).caches = s.caches := rfl
@[simp] theorem cpl_l2plru (t : TlpBody) : (s.cpl t).l2plru = s.l2plru := rfl
@[simp] theorem cpl_dir (t : TlpBody) : (s.cpl t).dir = s.dir := rfl
@[simp] theorem cpl_dirPlru (t : TlpBody) : (s.cpl t).dirPlru = s.dirPlru := rfl
@[simp] theorem cpl_llc (t : TlpBody) : (s.cpl t).llc = s.llc := rfl
@[simp] theorem cpl_llcPlru (t : TlpBody) : (s.cpl t).llcPlru = s.llcPlru := rfl
@[simp] theorem cpl_setCnt (t : TlpBody) : (s.cpl t).setCnt = s.setCnt := rfl
@[simp] theorem cpl_txns (t : TlpBody) : (s.cpl t).txns = s.txns := rfl
@[simp] theorem cpl_pendQ (t : TlpBody) : (s.cpl t).pendQ = s.pendQ := rfl
@[simp] theorem cpl_retryQ (t : TlpBody) : (s.cpl t).retryQ = s.retryQ := rfl
@[simp] theorem cpl_msgs (t : TlpBody) : (s.cpl t).msgs = s.msgs := rfl
@[simp] theorem cpl_chans (t : TlpBody) : (s.cpl t).chans = s.chans := rfl
@[simp] theorem cpl_dram (t : TlpBody) : (s.cpl t).dram = s.dram := rfl
@[simp] theorem cpl_dramEp (t : TlpBody) : (s.cpl t).dramEp = s.dramEp := rfl
@[simp] theorem cpl_devRep (t : TlpBody) : (s.cpl t).devRep = s.devRep := rfl
@[simp] theorem cpl_arrivals (t : TlpBody) : (s.cpl t).arrivals = s.arrivals := rfl
@[simp] theorem cpl_mtr (t : TlpBody) : (s.cpl t).mtr = s.mtr := rfl
@[simp] theorem cpl_er (t : TlpBody) : (s.cpl t).er = s.er := rfl
@[simp] theorem cpl_tileSvc (t : TlpBody) : (s.cpl t).tileSvc = s.tileSvc := rfl
@[simp] theorem cpl_tileClk (t : TlpBody) : (s.cpl t).tileClk = s.tileClk := rfl
@[simp] theorem cpl_routes (t : TlpBody) : (s.cpl t).routes = s.routes := rfl
@[simp] theorem cpl_ftags (t : TlpBody) : (s.cpl t).ftags = s.ftags := rfl
@[simp] theorem cpl_fquar (t : TlpBody) : (s.cpl t).fquar = s.fquar := rfl
@[simp] theorem cpl_ports (t : TlpBody) : (s.cpl t).ports = s.ports := rfl
@[simp] theorem cpl_transit (t : TlpBody) : (s.cpl t).transit = s.transit := rfl
@[simp] theorem cpl_fabIn (t : TlpBody) : (s.cpl t).fabIn = s.fabIn := rfl
@[simp] theorem cpl_jobRx (t : TlpBody) : (s.cpl t).jobRx = s.jobRx := rfl
@[simp] theorem cpl_outq (t : TlpBody) : (s.cpl t).outq = s.outq := rfl
@[simp] theorem cpl_htags (t : TlpBody) : (s.cpl t).htags = s.htags := rfl
@[simp] theorem cpl_hquar (t : TlpBody) : (s.cpl t).hquar = s.hquar := rfl
@[simp] theorem cpl_msix (t : TlpBody) : (s.cpl t).msix = s.msix := rfl
@[simp] theorem cpl_cfg (t : TlpBody) : (s.cpl t).cfg = s.cfg := rfl
@[simp] theorem cpl_staged (t : TlpBody) : (s.cpl t).staged = s.staged := rfl
@[simp] theorem cpl_hepAt (t : TlpBody) : (s.cpl t).hepAt = s.hepAt := rfl
@[simp] theorem cpl_hepWas (t : TlpBody) : (s.cpl t).hepWas = s.hepWas := rfl
@[simp] theorem cpl_cmds (t : TlpBody) : (s.cpl t).cmds = s.cmds := rfl
@[simp] theorem cpl_heldC (t : TlpBody) : (s.cpl t).heldC = s.heldC := rfl
@[simp] theorem cpl_engines (t : TlpBody) : (s.cpl t).engines = s.engines := rfl
@[simp] theorem cpl_tjobs (t : TlpBody) : (s.cpl t).tjobs = s.tjobs := rfl
@[simp] theorem cpl_tilePark (t : TlpBody) : (s.cpl t).tilePark = s.tilePark := rfl
@[simp] theorem cpl_stopDom (t : TlpBody) : (s.cpl t).stopDom = s.stopDom := rfl
@[simp] theorem cpl_tilePwr (t : TlpBody) : (s.cpl t).tilePwr = s.tilePwr := rfl
@[simp] theorem cpl_mode (t : TlpBody) : (s.cpl t).mode = s.mode := rfl
@[simp] theorem cpl_meshIn (t : TlpBody) : (s.cpl t).meshIn = s.meshIn := rfl
@[simp] theorem cpl_meshRr (t : TlpBody) : (s.cpl t).meshRr = s.meshRr := rfl
@[simp] theorem cpl_meshQat (t : TlpBody) : (s.cpl t).meshQat = s.meshQat := rfl
@[simp] theorem cpl_meshIdle (t : TlpBody) : (s.cpl t).meshIdle = s.meshIdle := rfl
@[simp] theorem cpl_meshHeld (t : TlpBody) : (s.cpl t).meshHeld = s.meshHeld := rfl
@[simp] theorem cpl_lockQ (t : TlpBody) : (s.cpl t).lockQ = s.lockQ := rfl
@[simp] theorem cpl_outReq (t : TlpBody) : (s.cpl t).outReq = s.outReq := rfl
@[simp] theorem cpl_fillQ (t : TlpBody) : (s.cpl t).fillQ = s.fillQ := rfl
@[simp] theorem cpl_meshAt (t : TlpBody) : (s.cpl t).meshAt = s.meshAt := rfl
@[simp] theorem cpl_mper (t : TlpBody) : (s.cpl t).mper = s.mper := rfl
@[simp] theorem cpl_backlog (t : TlpBody) : (s.cpl t).backlog = s.backlog := rfl
@[simp] theorem cpl_mstall (t : TlpBody) : (s.cpl t).mstall = s.mstall := rfl
@[simp] theorem cpl_mbands (t : TlpBody) : (s.cpl t).mbands = s.mbands := rfl
@[simp] theorem cpl_msec (t : TlpBody) : (s.cpl t).msec = s.msec := rfl
@[simp] theorem cpl_mbound (t : TlpBody) : (s.cpl t).mbound = s.mbound := rfl
@[simp] theorem cpl_mkey (t : TlpBody) : (s.cpl t).mkey = s.mkey := rfl
@[simp] theorem cpl_pins (t : TlpBody) : (s.cpl t).pins = s.pins := rfl
@[simp] theorem cpl_fuses (t : TlpBody) : (s.cpl t).fuses = s.fuses := rfl
@[simp] theorem cpl_flash (t : TlpBody) : (s.cpl t).flash = s.flash := rfl
@[simp] theorem cpl_enroll (t : TlpBody) : (s.cpl t).enroll = s.enroll := rfl
@[simp] theorem cpl_rearm (t : TlpBody) : (s.cpl t).rearm = s.rearm := rfl
@[simp] theorem cpl_aborts (t : TlpBody) : (s.cpl t).aborts = s.aborts := rfl
@[simp] theorem cpl_temps (t : TlpBody) : (s.cpl t).temps = s.temps := rfl
@[simp] theorem cpl_clearAt (t : TlpBody) : (s.cpl t).clearAt = s.clearAt := rfl
@[simp] theorem cpl_capAt (t : TlpBody) : (s.cpl t).capAt = s.capAt := rfl
@[simp] theorem cpl_pending (t : TlpBody) : (s.cpl t).pending = s.pending := rfl

end Sys2Proof.Laws
end

