-- ==== Sys2Proof/Laws/Tbl.lean ====
section
/-! SUPPORT. Laws of the sparse tables: read after write, and the canonical form is kept. -/

namespace Sys2Proof.Laws
open Sys2Proof.Machine

variable {α : Type}

theorem Tbl_get_put_same (d : α) (t : Tbl α) (k : Nat) (v : α) : Tbl.get d (Tbl.put t k v) k = v := by
  induction t with
  | nil => simp [Tbl.put, Tbl.get]
  | cons e t ih =>
    obtain ⟨j, w⟩ := e
    simp only [Tbl.put]
    split
    · simp [Tbl.get]
    · split
      · simp [Tbl.get]
      · rename_i h _; simp [Tbl.get, h, ih]

theorem Tbl_get_put_ne (d : α) (t : Tbl α) {k j : Nat} (v : α) (h : j ≠ k) :
    Tbl.get d (Tbl.put t k v) j = Tbl.get d t j := by
  induction t with
  | nil => simp [Tbl.put, Tbl.get, Ne.symm h]
  | cons e t ih =>
    obtain ⟨i, w⟩ := e
    simp only [Tbl.put]
    split
    · rename_i hi; subst hi; simp [Tbl.get, Ne.symm h]
    · split
      · simp [Tbl.get, Ne.symm h]
      · simp [Tbl.get, ih]

theorem Tbl_get_del_same (d : α) (t : Tbl α) (k : Nat) : Tbl.get d (Tbl.del t k) k = d := by
  induction t with
  | nil => simp [Tbl.del, Tbl.get]
  | cons e t ih =>
    obtain ⟨i, w⟩ := e
    by_cases hi : i = k
    · simpa [Tbl.del, hi] using ih
    · have : Tbl.del ((i, w) :: t) k = (i, w) :: Tbl.del t k := by simp [Tbl.del, hi]
      rw [this]; simp [Tbl.get, hi, ih]

theorem Tbl_get_del_ne (d : α) (t : Tbl α) {k j : Nat} (h : j ≠ k) :
    Tbl.get d (Tbl.del t k) j = Tbl.get d t j := by
  induction t with
  | nil => simp [Tbl.del]
  | cons e t ih =>
    obtain ⟨i, w⟩ := e
    by_cases hi : i = k
    · have : Tbl.del ((i, w) :: t) k = Tbl.del t k := by simp [Tbl.del, hi]
      rw [this, ih]; simp [Tbl.get, hi, Ne.symm h]
    · have : Tbl.del ((i, w) :: t) k = (i, w) :: Tbl.del t k := by simp [Tbl.del, hi]
      rw [this]; simp [Tbl.get, ih]

variable [DecidableEq α]

/-- A read after a write of the same key gives the value written. -/
@[simp] theorem Tbl_get_set_same (d : α) (t : Tbl α) (k : Nat) (v : α) :
    Tbl.get d (Tbl.set d t k v) k = v := by
  unfold Tbl.set
  split
  · rename_i h; rw [Tbl_get_del_same, h]
  · exact Tbl_get_put_same d t k v

/-- A write leaves every other key alone. -/
theorem Tbl_get_set_ne (d d' : α) (t : Tbl α) {k j : Nat} (v : α) (h : j ≠ k) :
    Tbl.get d (Tbl.set d' t k v) j = Tbl.get d t j := by
  unfold Tbl.set
  split
  · exact Tbl_get_del_ne d t h
  · exact Tbl_get_put_ne d t v h

theorem Tbl_wfFrom_mono (d : Nat → α) (t : Tbl α) {a b : Nat} (h : a ≤ b) (hw : Tbl.wfFrom d b t = true) :
    Tbl.wfFrom d a t = true := by
  cases t with
  | nil => rfl
  | cons e t =>
    obtain ⟨j, v⟩ := e
    simp only [Tbl.wfFrom, Bool.and_eq_true, decide_eq_true_eq] at hw ⊢
    exact ⟨⟨le_trans h hw.1.1, hw.1.2⟩, hw.2⟩

theorem Tbl_wfFrom_put (d : Nat → α) (t : Tbl α) (a k : Nat) (v : α) (hv : v ≠ d k) (hk : a ≤ k)
    (hw : Tbl.wfFrom d a t = true) : Tbl.wfFrom d a (Tbl.put t k v) = true := by
  induction t generalizing a with
  | nil => simp [Tbl.put, Tbl.wfFrom, hk, hv]
  | cons e t ih =>
    obtain ⟨j, w⟩ := e
    simp only [Tbl.wfFrom, Bool.and_eq_true, decide_eq_true_eq] at hw
    obtain ⟨⟨h1, h2⟩, h3⟩ := hw
    simp only [Tbl.put]
    split
    · rename_i hj; subst hj
      simp [Tbl.wfFrom, h1, hv, h3]
    · split
      · rename_i hj hlt
        simp [Tbl.wfFrom, hk, hv, h2, h3]; omega
      · rename_i hj hlt
        simp only [Tbl.wfFrom, Bool.and_eq_true, decide_eq_true_eq]
        exact ⟨⟨h1, h2⟩, ih (j + 1) (by omega) h3⟩

theorem Tbl_wfFrom_del (d : Nat → α) (t : Tbl α) (a k : Nat) (hw : Tbl.wfFrom d a t = true) :
    Tbl.wfFrom d a (Tbl.del t k) = true := by
  induction t generalizing a with
  | nil => simp [Tbl.del, Tbl.wfFrom]
  | cons e t ih =>
    obtain ⟨j, w⟩ := e
    simp only [Tbl.wfFrom, Bool.and_eq_true, decide_eq_true_eq] at hw
    obtain ⟨⟨h1, h2⟩, h3⟩ := hw
    by_cases hj : j = k
    · have : Tbl.del ((j, w) :: t) k = Tbl.del t k := by simp [Tbl.del, hj]
      rw [this]; exact Tbl_wfFrom_mono d _ (by omega) (ih (j + 1) h3)
    · have : Tbl.del ((j, w) :: t) k = (j, w) :: Tbl.del t k := by simp [Tbl.del, hj]
      rw [this]
      simp only [Tbl.wfFrom, Bool.and_eq_true, decide_eq_true_eq]
      exact ⟨⟨h1, h2⟩, ih (j + 1) h3⟩

/-- Every write keeps the canonical form. -/
theorem Tbl_wf_set (d : Nat → α) (t : Tbl α) (k : Nat) (v : α) (hw : Tbl.wf d t = true) :
    Tbl.wf d (Tbl.set (d k) t k v) = true := by
  unfold Tbl.set
  split
  · exact Tbl_wfFrom_del d t 0 k hw
  · rename_i h; exact Tbl_wfFrom_put d t 0 k v h (Nat.zero_le _) hw

end Sys2Proof.Laws
end

