-- ==== Sys2Proof/Laws/Ops.lean ====
section
/-! SUPPORT. What the shared operations do: register fields, cores, keepers, the guards of commands and instructions, fetches of
messages, events. -/

namespace Sys2Proof.Laws
open Sys2Proof Sys2Proof.Machine Sys2Proof.Safety

variable (s : State)

/-! ### Register fields -/

/-- A field reads what was written, cut to its width. -/
@[simp] theorem f_setF_same (x : Fld) (v : Nat) : (s.setF x v).f x = v % 2 ^ x.w := by
  simp [State.setF, State.f]

/-- Writing a field leaves every field of another place alone. -/
theorem f_setF_ne (x y : Fld) (v : Nat) (h : y.key ≠ x.key) : (s.setF x v).f y = s.f y := by
  simp [State.setF, State.f, Tbl_get_set_ne _ _ _ _ h]

@[simp] theorem setFs_nil : s.setFs [] = s := rfl
@[simp] theorem setFs_cons (p : Fld × Nat) (l : List (Fld × Nat)) : s.setFs (p :: l) = (s.setF p.1 p.2).setFs l := rfl

/-- A list of field writes changes registers only. -/
theorem setFs_csr (l : List (Fld × Nat)) : s.setFs l = { s with csr := (s.setFs l).csr } := by
  induction l generalizing s with
  | nil => rfl
  | cons p l ih => rw [setFs_cons, ih]; rfl

theorem f_setFs_ne (l : List (Fld × Nat)) (y : Fld) (h : ∀ p ∈ l, y.key ≠ p.1.key) : (s.setFs l).f y = s.f y := by
  induction l generalizing s with
  | nil => rfl
  | cons p l ih =>
    rw [setFs_cons, ih _ (fun q hq => h q (List.mem_cons_of_mem _ hq)), f_setF_ne _ _ _ _ (h p List.mem_cons_self)]

/-- A list of field writes is confined to its fields. -/
theorem setFs_only (l : List (Fld × Nat)) : OnlyRegs s (s.setFs l) (l.map (·.1)) := by
  refine ⟨setFs_csr s l, fun x hx => f_setFs_ne s l x (fun p hp => ?_)⟩
  exact fun e => hx p.1 (List.mem_map_of_mem hp) e.symm

theorem setF_only (x : Fld) (v : Nat) : OnlyRegs s (s.setF x v) [x] := setFs_only s [(x, v)]

/-- A saturating counter after `n` more. -/
theorem f_addSat_same (x : Fld) (n : Nat) : (s.addSat x n).f x = min (s.f x + n) (2 ^ x.w - 1) := by
  have h : min (s.f x + n) (2 ^ x.w - 1) < 2 ^ x.w := by
    have := Nat.two_pow_pos x.w; omega
  simp [State.addSat, Nat.mod_eq_of_lt h]
theorem f_addSat_ne (x y : Fld) (n : Nat) (h : y.key ≠ x.key) : (s.addSat x n).f y = s.f y := f_setF_ne s x y _ h
theorem f_incSat_same (x : Fld) : (s.incSat x).f x = min (s.f x + 1) (2 ^ x.w - 1) := f_addSat_same s x 1
theorem f_incSat_ne (x y : Fld) (h : y.key ≠ x.key) : (s.incSat x).f y = s.f y := f_setF_ne s x y _ h
theorem incSat_only (x : Fld) : OnlyRegs s (s.incSat x) [x] := setF_only s x _

theorem f_tickFree (x : Fld) : s.tickFree.f x = s.f x := rfl
theorem f_setCore (c : Nat) (k : Core) (x : Fld) : (s.setCore c k).f x = s.f x := rfl
theorem f_setKeeper (h : Nat) (k : Keeper) (x : Fld) : (s.setKeeper h k).f x = s.f x := rfl
theorem f_setChan (ch : Nat) (k : Chan) (x : Fld) : (s.setChan ch k).f x = s.f x := rfl

/-! ### Cores -/

@[simp] theorem cix_setCore (c d : Nat) (k : Core) : (s.setCore c k).cix d = s.cix d := rfl
@[simp] theorem core_setCore_same (c : Nat) (k : Core) : (s.setCore c k).core c = k := by
  simp [State.core, State.setCore, State.cix, State.paired, State.f]
theorem core_setCore_ne (c d : Nat) (k : Core) (h : s.cix d ≠ s.cix c) : (s.setCore c k).core d = s.core d := by
  show Tbl.get {} (Tbl.set {} s.cores (s.cix c) k) (s.cix d) = _
  rw [Tbl_get_set_ne _ _ _ _ h]; rfl

/-- An update of a core is confined to it. -/
theorem updCore_only (c : Nat) (f : Core → Core) : OnlyCore s (s.updCore c f) c f :=
  ⟨rfl, core_setCore_same s c _, fun d h => core_setCore_ne s c d _ h⟩

theorem rg_zero (k : Core) : k.rg 0 = 0 := rfl
theorem wg_zero (k : Core) (v : W64) : k.wg 0 v = k := rfl
theorem rg_wg_same (k : Core) (r : Nat) (v : W64) (h : r ≠ 0) : (k.wg r v).rg r = v := by
  simp [Core.wg, Core.rg, h]
theorem rg_wg_ne (k : Core) (r q : Nat) (v : W64) (h : q ≠ r) : (k.wg r v).rg q = k.rg q := by
  unfold Core.wg; split
  · rfl
  · unfold Core.rg; split
    · rfl
    · exact Tbl_get_set_ne _ _ _ _ h
theorem rp_zero (k : Core) : k.rp 0 = true := rfl
theorem cr0_setCr_same (k : Core) (n : Nat) (v : W64) : (k.setCr n v).cr0 n = v := by simp [Core.setCr, Core.cr0]
theorem cr0_setCr_ne (k : Core) (n m : Nat) (v : W64) (h : m ≠ n) : (k.setCr n v).cr0 m = k.cr0 m :=
  Tbl_get_set_ne _ _ _ _ h

/-! ### Keepers -/

@[simp] theorem keeper_setKeeper_same (h : Nat) (k : Keeper) : (s.setKeeper h k).keeper h = k := by
  simp [State.keeper, State.setKeeper]
theorem keeper_setKeeper_ne (h g : Nat) (k : Keeper) (e : g ≠ h) : (s.setKeeper h k).keeper g = s.keeper g :=
  Tbl_get_set_ne _ _ _ _ e
theorem krg_kwg_same (k : Keeper) (r : Nat) (v : W64) (h : r ≠ 0) : (k.wg r v).rg r = v := by
  simp [Keeper.wg, Keeper.rg, h]
theorem krg_kwg_ne (k : Keeper) (r q : Nat) (v : W64) (h : q ≠ r) : (k.wg r v).rg q = k.rg q := by
  unfold Keeper.wg; split
  · rfl
  · unfold Keeper.rg; split
    · rfl
    · exact Tbl_get_set_ne _ _ _ _ h

/-! ### Guards -/

theorem whenOk_true (c : Bool) (t : State) (h : c = true) : whenOk c s t = .next t := by simp [whenOk, h]
theorem whenOk_false (c : Bool) (t : State) (h : c = false) : whenOk c s t = .next s := by simp [whenOk, h, turnedAway]

/-- A ready core's instruction has its effect. -/
theorem pRun_ready (c : Nat) (pr : BitVec 4) (legal : Bool) (f : State → Out) (h : ReadyP c pr s) (hl : legal = true) :
    pRun c pr legal s f = f s := by
  obtain ⟨h1, h2, h3⟩ := h
  simp [pRun, h1, h3, hl]
  exact fun e => absurd e h2

/-- Under a false predicate it retires and does nothing else (R56). -/
theorem pRun_false (c : Nat) (pr : BitVec 4) (f : State → Out) (h1 : s.canIssue c = true) (h2 : pr ≠ 8)
    (h3 : (s.core c).predOk pr = false) : pRun c pr true s f = .next (s.retireP c) := by
  simp [pRun, h1, h3]
  exact fun e => absurd e h2

/-- A fetch fills the keeper's prefetch queue and changes nothing else. -/
theorem kFill_keeper (h : Nat) : ∃ q, (s.kFill h).keeper h = { s.keeper h with pq := q } := by
  unfold State.kFill; dsimp only; split
  · exact ⟨_, rfl⟩
  · exact ⟨_, keeper_setKeeper_same s h _⟩
@[simp] theorem kFill_slot (h : Nat) : ((s.kFill h).keeper h).slot = (s.keeper h).slot := by
  obtain ⟨q, e⟩ := kFill_keeper s h; rw [e]
@[simp] theorem kFill_rg (h r : Nat) : ((s.kFill h).keeper h).rg r = (s.keeper h).rg r := by
  obtain ⟨q, e⟩ := kFill_keeper s h; rw [e]; rfl
@[simp] theorem kFill_pc (h : Nat) : ((s.kFill h).keeper h).pc = (s.keeper h).pc := by
  obtain ⟨q, e⟩ := kFill_keeper s h; rw [e]
/-- A fetch ahead changes the prefetch queue and the count of issues only. -/
theorem kAhead_eq (h : Nat) (k : Keeper) : ∃ q, s.kAhead h k = { k with pq := q, issued := k.issued + 1 } := by
  have f1 : ∀ k : Keeper, ∃ q, s.kFetch1 h k = { k with pq := q } := by
    intro k; unfold State.kFetch1; split
    · exact ⟨_, rfl⟩
    · exact ⟨_, rfl⟩
  unfold State.kAhead; dsimp only
  split
  · exact ⟨_, rfl⟩
  · split
    · obtain ⟨q, e⟩ := f1 k; exact ⟨q, by rw [e]⟩
    · obtain ⟨q, e⟩ := f1 k
      obtain ⟨q2, e2⟩ := f1 (s.kFetch1 h k)
      exact ⟨q2, by rw [e2, e]⟩
@[simp] theorem rgA_fillA (a : Agent) (r : BitVec 5) : (s.fillA a).rgA a r = s.rgA a r := by
  cases a with
  | core _ => rfl
  | keeper h => exact kFill_rg s h r.toNat
@[simp] theorem pcA_fillA (a : Agent) : (s.fillA a).pcA a = s.pcA a := by
  cases a with
  | core _ => rfl
  | keeper h => exact kFill_pc s h

theorem kRun_ready (h : Nat) (legal : Bool) (w : Option Nat) (f : State → Out) (hk : ReadyK h s) (hl : legal = true)
    (hw : w = none ∨ (s.keeper h).slot = none) : kRun h legal w s f = f (s.kFill h) := by
  obtain ⟨h1, h2⟩ := hk
  unfold kRun
  rcases hw with hw | hw
  · simp [h1, h2, hl, hw]
  · cases w <;> simp [h1, h2, hl, hw]

theorem agRun_ready (a : Agent) (pr : BitVec 4) (regs : List (BitVec 5)) (f : State → Out) (h : Ready a pr regs s) :
    agRun a pr regs s f = f (s.fillA a) := by
  cases a with
  | core c => exact pRun_ready s c pr true f h rfl
  | keeper g =>
    obtain ⟨h1, h2, h3⟩ := h
    refine kRun_ready s g _ none f h1 ?_ (.inl rfl)
    simpa [h2] using h3

/-- A ready register operation writes its result and goes on. -/
theorem regOp_ready (a : Agent) (pr : BitVec 4) (rd : BitVec 5) (srcs : List (BitVec 5)) (v : State → W64)
    (h : Ready a pr (rd :: srcs) s) :
    regOp a pr rd srcs v s = .next (((s.fillA a).wgA a rd (v (s.fillA a))).retireA a) :=
  agRun_ready s a pr _ _ h

/-! ### Messages -/

theorem onMsg_some (k : MsgK) (g L : Nat) (f : Msg → State → Out) (m : Msg) (t : State) (h : s.take k g L = some (m, t)) :
    onMsg s k g L f = f m t := by simp [onMsg, h]

end Sys2Proof.Laws
end

