-- ==== Sys2Proof/Laws/Memory.lean ====
section
/-! SUPPORT. Memory: each operation keeps the canonical form of DRAM and of keeper SRAM, and a read of a line that the LLC
holds changes nothing. -/

namespace Sys2Proof.Laws
open Sys2Proof Sys2Proof.Machine Sys2Proof.Safety

variable (s : State)

/-- The words of both memories are the same. -/
def SameMem (s t : State) : Prop := t.dram = s.dram ∧ t.ksram = s.ksram

theorem SameMem.rfl' : SameMem s s := ⟨rfl, rfl⟩
theorem SameMem.trans {s t u : State} (h : SameMem s t) (g : SameMem t u) : SameMem s u :=
  ⟨g.1.trans h.1, g.2.trans h.2⟩
theorem SameMem.wf {s t : State} (h : SameMem s t) : Memory.wf t = Memory.wf s := by simp [Memory.wf, h.1, h.2]

theorem foldl_sameMem {α : Type} (f : State → α → State) (hf : ∀ t a, SameMem t (f t a)) (l : List α) (t : State) :
    SameMem t (l.foldl f t) := by
  induction l generalizing t with
  | nil => exact .rfl' t
  | cons a l ih => exact (hf t a).trans (ih _)

theorem sameMem_ite (s : State) (c : Prop) [Decidable c] {a b : State} (ha : SameMem s a) (hb : SameMem s b) :
    SameMem s (if c then a else b) := by split <;> assumption

/-- A fold keeps the form if each of its steps does. -/
theorem foldl_wf {α : Type} (f : State → α → State) (hf : ∀ t a, Memory.wf t = true → Memory.wf (f t a) = true) (l : List α)
    (t : State) (h : Memory.wf t = true) : Memory.wf (l.foldl f t) = true := by
  induction l generalizing t with
  | nil => exact h
  | cons a l ih => exact ih _ (hf t a h)

theorem foldl_wf1 {α β : Type} (f : State × β → α → State × β)
    (hf : ∀ p a, Memory.wf p.1 = true → Memory.wf (f p a).1 = true) (l : List α) (p : State × β) (h : Memory.wf p.1 = true) :
    Memory.wf (l.foldl f p).1 = true := by
  induction l generalizing p with
  | nil => exact h
  | cons a l ih => exact ih _ (hf p a h)

theorem wfFrom_filter {α : Type} [DecidableEq α] (d : Nat → α) (p : Nat × α → Bool) (t : Tbl α) (a : Nat)
    (h : Tbl.wfFrom d a t = true) : Tbl.wfFrom d a (t.filter p) = true := by
  induction t generalizing a with
  | nil => exact h
  | cons e t ih =>
    obtain ⟨j, v⟩ := e
    simp only [Tbl.wfFrom, Bool.and_eq_true, decide_eq_true_eq] at h
    simp only [List.filter_cons]
    split
    · simp only [Tbl.wfFrom, Bool.and_eq_true, decide_eq_true_eq]; exact ⟨h.1, ih _ h.2⟩
    · exact Tbl_wfFrom_mono d _ (by omega) (ih _ h.2)

theorem wf_filter {α : Type} [DecidableEq α] (d : Nat → α) (p : Nat × α → Bool) (t : Tbl α) (h : Tbl.wf d t = true) :
    Tbl.wf d (t.filter p) = true := wfFrom_filter d p t 0 h

/-! ### What counts and reports leave alone -/

theorem sameMem_setF (x : Fld) (v : Nat) : SameMem s (s.setF x v) := ⟨rfl, rfl⟩
theorem sameMem_setFs (l : List (Fld × Nat)) : SameMem s (s.setFs l) := by rw [setFs_csr]; exact ⟨rfl, rfl⟩
theorem sameMem_incSat (x : Fld) : SameMem s (s.incSat x) := ⟨rfl, rfl⟩
theorem sameMem_setChan (ch : Nat) (k : Chan) : SameMem s (s.setChan ch k) := ⟨rfl, rfl⟩
theorem sameMem_trigFlags (src : Nat) : SameMem s (s.trigFlags src) := by
  unfold State.trigFlags; split
  · exact .rfl' s
  · split <;> exact ⟨rfl, rfl⟩
theorem sameMem_dpend (d : Nat) : SameMem s (s.dpend d) := by
  unfold State.dpend; dsimp only; repeat' split
  · exact .rfl' s
  · exact (sameMem_setF s _ _).trans (sameMem_trigFlags _ _)
  · exact sameMem_setF s _ _
  · exact .rfl' s
theorem sameMem_trigger (src : Nat) : SameMem s (s.trigger src) := (sameMem_trigFlags s src).trans (sameMem_dpend _ _)
theorem sameMem_raise (src bit : Nat) : SameMem s (s.raise src bit) := by
  unfold State.raise; split
  · exact .rfl' s
  · exact (sameMem_setF s _ _).trans (sameMem_trigger _ _)
theorem sameMem_record (a b c d e f : Nat) : SameMem s (s.record a b c d e f) := by
  unfold State.record; dsimp only; split <;> exact ⟨rfl, rfl⟩
theorem sameMem_meter (d i n : Nat) : SameMem s (s.meter d i n) := by
  unfold State.meter; dsimp only; split <;> exact ⟨rfl, rfl⟩
theorem sameMem_throttle (ch b d : Nat) : SameMem s (s.throttle ch b d) := by
  unfold State.throttle; dsimp only; split
  · exact (sameMem_meter s d _ 1).trans ⟨rfl, rfl⟩
  · exact (sameMem_meter s d _ 1).trans ⟨rfl, rfl⟩
theorem sameMem_activate (ch q d : Nat) (m : Bool) : SameMem s (s.activate ch q d m) := by
  have ht : ∀ (t : State) (c : Bool) (b e : Nat), SameMem t (if c then t.throttle ch b e else t) := fun t c b e =>
    sameMem_ite t _ (sameMem_throttle t ch b e) (.rfl' t)
  unfold State.activate
  refine sameMem_ite s _ (sameMem_setChan s _ _) ?_
  · refine SameMem.trans ?_ (sameMem_record _ _ _ _ _ _ _)
    refine SameMem.trans ?_ (sameMem_raise _ _ _)
    refine SameMem.trans ?_ (sameMem_setFs _ _)
    refine SameMem.trans ?_ (sameMem_incSat _ _)
    refine SameMem.trans ?_ (ht _ _ _ _)
    exact SameMem.trans (sameMem_setChan s _ _) (ht _ _ _ _)
theorem sameMem_countGone (L : Nat) : SameMem s (s.countGone L) := by
  unfold State.countGone; dsimp only; split
  · exact .rfl' s
  · exact sameMem_incSat s _
theorem sameMem_ceLeaks (ch n : Nat) : SameMem s (s.ceLeaks ch n) := by
  unfold State.ceLeaks; dsimp only
  have h : SameMem s ((s.setChan ch { s.chan ch with leakAt := (s.chan ch).leakAt + n * s.leakIv ch }).setF
      (R.MEM_CE_BUCKET_COUNT ch) (s.f (R.MEM_CE_BUCKET_COUNT ch) - n)) := (sameMem_setChan s _ _).trans (sameMem_setF _ _ _)
  split
  · exact h.trans (sameMem_setF _ _ _)
  · exact h
theorem sameMem_leaksDue (ch : Nat) : SameMem s (s.leaksDue ch) := by
  unfold State.leaksDue; dsimp only; split
  · exact .rfl' s
  · exact sameMem_ceLeaks s _ _
theorem sameMem_correctable (ch q cw : Nat) (a b : Bool) : SameMem s (s.correctable ch q cw a b) := by
  have h : SameMem s ((((s.leaksDue ch).incSat (R.MEM_CE_TOTAL_COUNT ch)).incSat (R.MEM_CE_BUCKET_COUNT ch)).setFs
      [ (R.MEM_CE_LAST_CW ch, cw), (R.MEM_CE_LAST_Q ch, q), (R.MEM_CE_LAST_SRC ch, b2n a), (R.MEM_CE_LAST_TWO ch, b2n b) ]) :=
    ((sameMem_leaksDue s ch).trans (sameMem_incSat _ _)).trans ((sameMem_incSat _ _).trans (sameMem_setFs _ _))
  unfold State.correctable; dsimp only; split
  · exact h.trans ((sameMem_setF _ _ _).trans ((sameMem_raise _ _ _).trans (sameMem_record _ _ _ _ _ _ _)))
  · exact h

/-! ### DRAM -/

theorem reset_wf : Memory.wf State.reset = true := rfl

theorem setCw_wf (cw w : Nat) (h : Memory.wf s = true) : Memory.wf (s.setCw cw w) = true := by
  simp only [Memory.wf, Bool.and_eq_true] at h ⊢
  have h1 := Tbl_wf_set (fun _ => (none : Option Nat)) s.dram cw (some (w % 2 ^ 88)) h.1
  exact ⟨h1, h.2⟩

theorem uncorrectable_wf (ch q L cw src dom : Nat) (h : Memory.wf s = true) :
    Memory.wf (s.uncorrectable ch q L cw src dom) = true := by
  have h1 := setCw_wf s (L * 8 + cw) poisonWord h
  rw [← h1]
  refine SameMem.wf ?_
  refine SameMem.trans ?_ (sameMem_record _ _ _ _ _ _ _)
  refine SameMem.trans ?_ (sameMem_raise _ _ _)
  exact SameMem.trans (sameMem_incSat _ _) (sameMem_setFs _ _)

theorem readCw_wf (ch q L src dom i : Nat) (h : Memory.wf s = true) : Memory.wf (s.readCw ch q L src dom i).1 = true := by
  unfold State.readCw; dsimp only
  split
  · exact uncorrectable_wf s _ _ _ _ _ _ h
  · have h1 : Memory.wf (if (codeDec (s.rawCw (L * 8 + i))).2 = 0 then s
        else s.correctable ch q i (src == 2) ((codeDec (s.rawCw (L * 8 + i))).2 == 2)) = true := by
      split
      · exact h
      · rw [(sameMem_correctable s _ _ _ _ _).wf]; exact h
    generalize (if (codeDec (s.rawCw (L * 8 + i))).2 = 0 then s
        else s.correctable ch q i (src == 2) ((codeDec (s.rawCw (L * 8 + i))).2 == 2)) = t at h1 ⊢
    split <;> split <;> first | exact h1 | exact setCw_wf _ _ _ h1

/-- A read of a line at its channel keeps the form (an uncorrectable word is rewritten as poison). -/
theorem dramRead_wf (L dom src : Nat) (h : Memory.wf s = true) : Memory.wf (s.dramRead L dom src).1 = true := by
  unfold State.dramRead; split
  · rw [(sameMem_countGone s L).wf]; exact h
  · dsimp only
    refine foldl_wf1 (β := LineD) _ (fun p i hp => ?_) _ (_, _) ?_
    · exact readCw_wf p.1 _ _ _ _ _ i hp
    · rw [(sameMem_activate s _ _ _ _).wf]; exact h

theorem dramWriteLine_wf (L dom : Nat) (d : LineD) (h : Memory.wf s = true) : Memory.wf (s.dramWriteLine L dom d) = true := by
  unfold State.dramWriteLine; split
  · rw [(sameMem_countGone s L).wf]; exact h
  · dsimp only
    refine foldl_wf _ (fun t i ht => setCw_wf t _ _ ht) _ _ ?_
    rw [(sameMem_activate s _ _ _ _).wf]; exact h

theorem dramPartial_wf (L dom : Nat) (w : WrReq) (h : Memory.wf s = true) : Memory.wf (s.dramPartial L dom w).1 = true := by
  unfold State.dramPartial; split
  · rw [(sameMem_countGone s L).wf]; exact h
  · dsimp only
    have h0 : Memory.wf (s.activate (chanOf L) (L / 24) dom false) = true := by
      rw [(sameMem_activate s _ _ _ _).wf]; exact h
    generalize s.activate (chanOf L) (L / 24) dom false = s0 at h0 ⊢
    refine foldl_wf1 _ (fun p i hp => ?_) _ _ h0
    split
    · exact hp
    · split
      · exact setCw_wf _ _ _ hp
      · have h1 := readCw_wf (p.1.incSat (R.MEM_RMW_COUNT (chanOf L))) (chanOf L) (L / 24) L 1 dom i
          (by rw [(sameMem_incSat p.1 _).wf]; exact hp)
        split <;> exact setCw_wf _ _ _ h1

/-- The code words that a device store reads are read one by one. -/
theorem readCws_wf (ch q L dom : Nat) (l : List Nat) (p : State × LineD) (h : Memory.wf p.1 = true) :
    Memory.wf (l.foldl (fun (acc : State × LineD) i =>
      let (t, w) := (acc.1.incSat (R.MEM_RMW_COUNT ch)).readCw ch q L 1 dom i; (t, acc.2.putCw i w)) p).1 = true := by
  refine foldl_wf1 (β := LineD) _ (fun p i hp => ?_) l p h
  exact readCw_wf (p.1.incSat (R.MEM_RMW_COUNT ch)) ch q L 1 dom i (by rw [(sameMem_incSat p.1 _).wf]; exact hp)

theorem devStore_wf (L dom off size : Nat) (data : BitVec 512) (lo : Bool) (lk : LockReq) (h : Memory.wf s = true) :
    Memory.wf (s.devStore L dom off size data lo lk).1 = true := by
  unfold State.devStore; split
  · rw [(sameMem_countGone s L).wf]; exact h
  · dsimp only
    have h1 := readCws_wf (chanOf L) (L / 24) L dom ((List.range ((off + size - 1) / 8 + 1 - off / 8)).map (· + off / 8))
      (s.activate (chanOf L) (L / 24) dom false, lineZero) (by rw [(sameMem_activate s _ _ _ _).wf]; exact h)
    generalize (List.foldl _ (s.activate (chanOf L) (L / 24) dom false, lineZero) _) = r at h1 ⊢
    split
    · exact h1
    · generalize (if lo = true then none else lockMiss lk _ off size) = miss
      split
      · exact h1
      · exact foldl_wf _ (fun t i ht => setCw_wf t _ _ ht) _ _ h1

theorem loseSegment_wf (ch g : Nat) (h : Memory.wf s = true) : Memory.wf (s.loseSegment ch g) = true := by
  simp only [Memory.wf, Bool.and_eq_true] at h ⊢
  exact ⟨wf_filter _ _ _ h.1, h.2⟩

theorem dramLost_wf (h : Memory.wf s = true) : Memory.wf s.dramLost = true := by
  simp only [Memory.wf, Bool.and_eq_true] at h ⊢
  exact ⟨rfl, h.2⟩

/-! ### Keeper SRAM -/

theorem kwinWrite_wf (o size v : Nat) (h : Memory.wf s = true) : Memory.wf (s.kwinWrite o size v) = true := by
  unfold State.kwinWrite; split
  · simp only [Memory.wf, Bool.and_eq_true] at h ⊢
    exact ⟨h.1, Tbl_wf_set (fun _ => 0) s.ksram _ _ h.2⟩
  · exact h

theorem sramLoad_wf (g : Nat) (b : List Nat) (w : Bool) (h : Memory.wf s = true) : Memory.wf (s.sramLoad g b w) = true := by
  unfold State.sramLoad; dsimp only
  refine foldl_wf _ (fun t i ht => kwinWrite_wf t _ _ _ ht) _ _ ?_
  refine foldl_wf _ (fun t i ht => kwinWrite_wf t _ _ _ ht) _ _ ?_
  split
  · simp only [Memory.wf, Bool.and_eq_true] at h ⊢
    exact ⟨h.1, wf_filter _ _ _ h.2⟩
  · exact h

/-! ### Through the home and its channel -/

theorem sameMem_send (m : Msg) : SameMem s (s.send m) := ⟨rfl, rfl⟩
theorem sameMem_toChan (L dom : Nat) (op : ChOp) : SameMem s (s.toChan L dom op) := ⟨rfl, rfl⟩
theorem sameMem_setDir (L : Nat) (e : Option DirE) : SameMem s (s.setDir L e) := ⟨rfl, rfl⟩
theorem sameMem_setL2 (t L : Nat) (x : L2Line) : SameMem s (s.setL2 t L x) := ⟨rfl, rfl⟩
theorem sameMem_unpin (L : Nat) : SameMem s (s.unpin L) := by
  unfold State.unpin; cases s.dirE L <;> exact ⟨rfl, rfl⟩
theorem sameMem_closeTxn (L : Nat) : SameMem s (s.closeTxn L) := SameMem.trans ⟨rfl, rfl⟩ (sameMem_unpin _ L)

theorem sameMem_llcIn (L w : Nat) (d : LineD) (dirty : Bool) : SameMem s (s.llcIn L w d dirty) := by
  unfold State.llcIn
  cases s.llcE L <;> cases s.llcAt L w <;> exact ⟨rfl, rfl⟩

theorem sameMem_llcPut (L dom : Nat) (d : LineD) (dirty : Bool) : SameMem s (s.llcPut L dom d dirty) := by
  unfold State.llcPut
  split
  · exact sameMem_llcIn s _ _ _ _
  · exact sameMem_ite s _ (sameMem_toChan s _ _ _) (.rfl' s)
  · split
    · exact (sameMem_ite s _ (sameMem_toChan s _ _ _) (.rfl' s)).trans (sameMem_llcIn _ _ _ _ _)
    · exact sameMem_llcIn s _ _ _ _

theorem sameMem_recall (L : Nat) : SameMem s (s.recall L) := by
  unfold State.recall
  cases s.dirE L with
  | none => exact .rfl' s
  | some e =>
    refine SameMem.trans (foldl_sameMem _ (fun t a => ?_) _ s) (sameMem_setDir _ L none)
    generalize t.l2 a L = x
    obtain ⟨st, _⟩ := x
    cases st
    case M => exact (sameMem_llcPut t _ _ _ _).trans (sameMem_setL2 _ _ _ _)
    case E | S => exact sameMem_setL2 _ _ _ _
    all_goals exact sameMem_incSat t _

/-- A read at the channel keeps the form, whether the array or a waiting write answers it. -/
theorem chanRead_wf (L dom src : Nat) (h : Memory.wf s = true) : Memory.wf (s.chanRead L dom src).1 = true := by
  unfold State.chanRead; split
  · split
    · rw [(sameMem_countGone s L).wf]; exact h
    · exact h
  · exact dramRead_wf s L dom src h

theorem homeFetch_wf (L dom : Nat) (h : Memory.wf s = true) : Memory.wf (s.homeFetch L dom).1 = true := by
  unfold State.homeFetch; split
  · exact h
  · exact chanRead_wf s L dom 0 h

/-- A line read without caching keeps the form. -/
theorem ncRead_wf (L dom : Nat) (h : Memory.wf s = true) : Memory.wf (s.ncRead L dom).1 = true := by
  unfold State.ncRead; split
  · exact h
  · refine homeFetch_wf _ L dom ?_
    split
    · split
      · rw [(sameMem_incSat s _).wf]; exact h
      · exact h
    · exact h

theorem count_recall_wf (L : Nat) (h : Memory.wf s = true) : Memory.wf ((s.count L).recall L) = true := by
  rw [(SameMem.trans (s := s) (t := s.count L) ⟨rfl, rfl⟩ (sameMem_recall _ L)).wf]; exact h

/-- A masked line write keeps the form. -/
theorem ncWrite_wf (L dom : Nat) (w : WrReq) (h : Memory.wf s = true) : Memory.wf (s.ncWrite L dom w).1 = true := by
  have h1 := count_recall_wf s L h
  unfold State.ncWrite; dsimp only; split
  · rw [(sameMem_llcPut _ _ _ _ _).wf]; exact h1
  · split
    · rw [(sameMem_toChan _ _ _ _).wf]; exact h1
    · exact dramPartial_wf _ _ _ _ h1

/-- An atomic at the home keeps the form. -/
theorem homeAtomic_wf (L dom : Nat) (a : AtomReq) (h : Memory.wf s = true) : Memory.wf (s.homeAtomic L dom a).1 = true := by
  unfold State.homeAtomic; dsimp only
  rw [(sameMem_llcPut _ _ _ _ _).wf]; exact homeFetch_wf _ L dom (count_recall_wf s L h)

/-- A read of a range keeps the form. -/
theorem memRead_wf (dom a n : Nat) (h : Memory.wf s = true) : Memory.wf (s.memRead dom a n).1 = true := by
  unfold State.memRead
  exact foldl_wf1 (β := List Nat × Bool) _ (fun p L hp => ncRead_wf p.1 L dom hp) _ (s, [], false) h

/-- A write of a range keeps the form. -/
theorem memWrite_wf (dom a : Nat) (bs : List Nat) (pol : LockPol) (h : Memory.wf s = true) :
    Memory.wf (s.memWrite dom a bs pol).1 = true := by
  unfold State.memWrite
  refine foldl_wf1 (β := Bool) _ (fun p L hp => ?_) _ (s, false) h
  exact ncWrite_wf p.1 L dom (lineWr L a bs pol) hp

/-! ### Lines -/

/-- A read of a line that the LLC holds and no tile owns is the LLC's line, and changes nothing. -/
theorem ncRead_llc (L dom : Nat) (x : LlcE) (h1 : s.ownerCopy L = none ∧ ∀ e, s.dirE L = some e → e.st ≠ .EX)
    (h2 : s.llcE L = some x) : s.ncRead L dom = (s, x.d) := by
  unfold State.ncRead
  rw [h1.1]
  cases hd : s.dirE L with
  | none => simp [State.homeFetch, h2]
  | some e => simp [State.homeFetch, h1.2 e hd, h2]

theorem memRead_llc_fold (dom a n : Nat) (ls : List Nat) (p : List Nat × Bool)
    (h : ∀ L ∈ ls, (s.ownerCopy L = none ∧ ∀ e, s.dirE L = some e → e.st ≠ .EX) ∧ ∃ x, s.llcE L = some x) :
    (ls.foldl (fun (acc : State × List Nat × Bool) L =>
      let (s1, d) := acc.1.ncRead L dom
      let lo := max a (L * 64)
      let hi := min (a + n) (L * 64 + 64)
      (s1, acc.2.1 ++ leBytes (hi - lo) (d.read (lo - L * 64) (hi - lo)),
        acc.2.2 || spanPoison d.poison (lo - L * 64) (hi - lo))) (s, p)).1 = s := by
  induction ls generalizing p with
  | nil => rfl
  | cons L ls ih =>
    obtain ⟨h1, x, h2⟩ := h L List.mem_cons_self
    rw [List.foldl_cons]
    simp only [ncRead_llc s L dom x h1 h2]
    exact ih _ (fun M hM => h M (List.mem_cons_of_mem _ hM))

/-- A read of a range that stands in the LLC changes nothing. -/
theorem memRead_inLlc (dom a n : Nat) (b : List Nat) (h : InLlc s a n b) : (s.memRead dom a n).1 = s :=
  memRead_llc_fold s dom a n _ _ (fun L hL => by
    obtain ⟨h1, x, h2, _⟩ := h.2.1 L hL
    exact ⟨h1, x, h2⟩)

end Sys2Proof.Laws
end

