-- ==== Sys2Proof/Laws/Values.lean ====
section
/-! SUPPORT. What the integer operations compute, in the words of the instruction tables. -/

namespace Sys2Proof.Laws
open Sys2Proof Sys2Proof.Machine


theorem value_div (x y : W64) : divS x y = if y = 0 then 0xFFFFFFFFFFFFFFFF else BitVec.ofInt 64 (x.toInt.tdiv y.toInt) := by
  unfold divS; split
  · rfl
  · apply BitVec.eq_of_toInt_eq; rw [BitVec.toInt_sdiv, BitVec.toInt_ofInt]

theorem value_rem (x y : W64) : remS x y = if y = 0 then x else BitVec.ofInt 64 (x.toInt.tmod y.toInt) := by
  unfold remS; split
  · rfl
  · rw [← BitVec.toInt_srem, BitVec.ofInt_toInt]

theorem value_mulh (x y : W64) : mulHS x y = (x.signExtend 128 * y.signExtend 128).extractLsb' 64 64 := by
  have hx : (x.signExtend 128).toInt = x.toInt := BitVec.toInt_signExtend_of_le (by omega)
  have hy : (y.signExtend 128).toInt = y.toInt := BitVec.toInt_signExtend_of_le (by omega)
  have key : ((x.signExtend 128 * y.signExtend 128).toNat : Int) = (x.toInt * y.toInt) % 2 ^ 128 := by
    have h2 : ((x.signExtend 128 * y.signExtend 128).toNat : Int) = (x.signExtend 128 * y.signExtend 128).toInt % 2^128 := by
      have := BitVec.toInt_eq_toNat_bmod (x.signExtend 128 * y.signExtend 128)
      rw [this]
      have hlt := (x.signExtend 128 * y.signExtend 128).isLt
      simp only [Int.bmod]; split <;> omega
    rw [h2, BitVec.toInt_mul, hx, hy]
    simp only [Int.bmod]; split <;> omega
  apply BitVec.eq_of_toNat_eq
  unfold mulHS
  rw [BitVec.toNat_ofInt, BitVec.extractLsb'_toNat, Nat.shiftRight_eq_div_pow]
  have : ∀ p : Int, ∀ n : Nat, (n : Int) = p % 2^128 → ((p / 2^64) % 2^64).toNat = n / 2^64 % 2^64 := by
    intro p n h; omega
  exact this _ _ key

theorem value_mulhu (x y : W64) : mulHU x y = (x.setWidth 128 * y.setWidth 128).extractLsb' 64 64 := by
  apply BitVec.eq_of_toNat_eq
  unfold mulHU
  rw [BitVec.toNat_ofNat, BitVec.extractLsb'_toNat, BitVec.toNat_mul, BitVec.toNat_setWidth, BitVec.toNat_setWidth, Nat.shiftRight_eq_div_pow]
  have hx := x.isLt; have hy := y.isLt
  have : x.toNat * y.toNat < 2^128 := by nlinarith
  rw [Nat.mod_eq_of_lt (a := x.toNat) (by omega), Nat.mod_eq_of_lt (a := y.toNat) (by omega), Nat.mod_eq_of_lt this]

theorem value_divu (x y : W64) : divU x y = if y = 0 then 0xFFFFFFFFFFFFFFFF else BitVec.ofNat 64 (x.toNat / y.toNat) := by
  unfold divU; split
  · rfl
  · apply BitVec.eq_of_toNat_eq; rw [BitVec.toNat_udiv, BitVec.toNat_ofNat, Nat.mod_eq_of_lt]
    exact lt_of_le_of_lt (Nat.div_le_self _ _) x.isLt

theorem value_remu (x y : W64) : remU x y = if y = 0 then x else BitVec.ofNat 64 (x.toNat % y.toNat) := by
  unfold remU; split
  · rfl
  · apply BitVec.eq_of_toNat_eq; rw [BitVec.toNat_umod, BitVec.toNat_ofNat]
    exact (Nat.mod_eq_of_lt (lt_of_le_of_lt (Nat.mod_le _ _) x.isLt)).symm

theorem value_min (x y : W64) : minS x y = if x.toInt ≤ y.toInt then x else y := by
  unfold minS; simp only [BitVec.slt, decide_eq_true_eq]; split <;> split <;> first | rfl | omega

theorem value_max (x y : W64) : maxS x y = if x.toInt ≤ y.toInt then y else x := by
  unfold maxS; simp only [BitVec.slt, decide_eq_true_eq]; split <;> split <;> first | rfl | omega | skip
  exact BitVec.eq_of_toInt_eq (by omega)

theorem value_minu (x y : W64) : minU x y = if x.toNat ≤ y.toNat then x else y := by
  unfold minU; simp only [BitVec.ult, decide_eq_true_eq]; split <;> split <;> first | rfl | omega

theorem value_maxu (x y : W64) : maxU x y = if x.toNat ≤ y.toNat then y else x := by
  unfold maxU; simp only [BitVec.ult, decide_eq_true_eq]; split <;> split <;> first | rfl | omega | skip
  exact BitVec.eq_of_toNat_eq (by omega)

theorem value_mul (x y : W64) : x * y = BitVec.ofNat 64 (x.toNat * y.toNat) := by
  apply BitVec.eq_of_toNat_eq; rw [BitVec.toNat_mul, BitVec.toNat_ofNat]

theorem value_popc (x : W64) : popc64 x = BitVec.ofNat 64 ((List.range 64).filter (fun i => x.getLsbD i)).length := by
  unfold popc64
  congr 1
  have : ∀ (l : List Nat) (a : Nat), l.foldl (fun n i => if x.getLsbD i then n + 1 else n) a = a + (l.filter (fun i => x.getLsbD i)).length := by
    intro l; induction l with
    | nil => simp
    | cons b l ih => intro a; rw [List.foldl_cons, ih]; by_cases hb : x.getLsbD b <;> simp [hb]; omega
  rw [this]; omega

theorem value_zext (x : W64) : extend 4 false x.toNat = (x.setWidth 32).setWidth 64 := by
  apply BitVec.eq_of_toNat_eq
  simp [extend]

end Sys2Proof.Laws
end

