-- ==== Sys2Proof/WellFormed.lean ====
section
/-! DEFINITION. Which commands name units that exist and sizes that their registers have. A command that is not well formed
reaches nothing on the device: its meaning turns it away. -/

namespace Sys2Proof
open Sys2Proof.Machine

/-- R17 to R27: 512 cores, 256 tiles, 32 hives, 24 channels of 64 banks, 16 ports. -/
def coreOk (c : Nat) : Bool := decide (c < 512)
def tileOk (t : Nat) : Bool := decide (t < 256)
def hiveOk (h : Nat) : Bool := decide (h < 32)
def chanOk (ch : Nat) : Bool := decide (ch < 24)
def bankOk (b : Nat) : Bool := decide (b < 64)
def portOk (p : Nat) : Bool := decide (p < 16)
/-- R380, R356: 8,192 event sources; domains 0 to 4,095. -/
def srcOk (n : Nat) : Bool := decide (n < 8192)
def domOk (d : Nat) : Bool := decide (d < 4096)
/-- R422, R450, R469, R390, R404, R528: rings, send rings, trigger pages, window entries, key slots. -/
def ringOk (r : Nat) : Bool := decide (r < 64)
def sendOk (n : Nat) : Bool := decide (n < 96)
def pageOk (n : Nat) : Bool := decide (n < 2048)
def winOk (w : Nat) : Bool := decide (w < 256)
def slotOk (n : Nat) : Bool := decide (n < 4)
/-- R276, R268: network interfaces, and a router's ports. -/
def niOk (n : Nat) : Bool := decide (n < 296)
def dirOk (p : Nat) : Bool := decide (p < 5)
/-- The agents that send coherence messages: tiles, the endpoint, the fabric interface, the engines, the lock log. -/
def agentOk (g : Nat) : Bool := decide (g < 291)
/-- R16: register accesses are of 4 or 8 bytes. -/
def sizeOk (n : Nat) : Bool := n == 4 || n == 8
def byteSizeOk (n : Nat) : Bool := n == 1 || n == 2 || n == 4 || n == 8
/-- R336: the comparators' output groups. -/
def groupOk (n : Nat) : Bool := decide (n < 6)
/-- R408: outbound read tags. -/
def tagOk (n : Nat) : Bool := decide (n < 512)
/-- R536 rails, R504 counter sets, R420 speeds, and the kinds of a link loss and of a completion. -/
def railOk (n : Nat) : Bool := decide (n < 4)
def setOk (n : Nat) : Bool := decide (n < 5)
def speedOk (n : Nat) : Bool := decide (1 ≤ n) && decide (n ≤ 6)
def kindOk (n : Nat) : Bool := decide (n < 4)
def statusOk (n : Nat) : Bool := decide (n < 4)

def Agent.ok : Agent → Bool
  | .core c => coreOk c
  | .keeper h => hiveOk h

/-- The command is well formed. -/
def Instr.wf : Instr → Bool
  | .add a _ _ _ _ => a.ok
  | .sub a _ _ _ _ => a.ok
  | .and a _ _ _ _ => a.ok
  | .or a _ _ _ _ => a.ok
  | .xor a _ _ _ _ => a.ok
  | .andn a _ _ _ _ => a.ok
  | .orn a _ _ _ _ => a.ok
  | .sll a _ _ _ _ => a.ok
  | .srl a _ _ _ _ => a.ok
  | .sra a _ _ _ _ => a.ok
  | .ror a _ _ _ _ => a.ok
  | .addW a _ _ _ _ => a.ok
  | .subW a _ _ _ _ => a.ok
  | .sllW a _ _ _ _ => a.ok
  | .srlW a _ _ _ _ => a.ok
  | .sraW a _ _ _ _ => a.ok
  | .mul a _ _ _ _ => a.ok
  | .mulh a _ _ _ _ => a.ok
  | .mulhu a _ _ _ _ => a.ok
  | .div a _ _ _ _ => a.ok
  | .divu a _ _ _ _ => a.ok
  | .rem a _ _ _ _ => a.ok
  | .remu a _ _ _ _ => a.ok
  | .min a _ _ _ _ => a.ok
  | .max a _ _ _ _ => a.ok
  | .minu a _ _ _ _ => a.ok
  | .maxu a _ _ _ _ => a.ok
  | .clz a _ _ _ => a.ok
  | .ctz a _ _ _ => a.ok
  | .popc a _ _ _ => a.ok
  | .sextB a _ _ _ => a.ok
  | .sextH a _ _ _ => a.ok
  | .sextW a _ _ _ => a.ok
  | .zextW a _ _ _ => a.ok
  | .bswap a _ _ _ => a.ok
  | .addi a _ _ _ _ => a.ok
  | .andi a _ _ _ _ => a.ok
  | .ori a _ _ _ _ => a.ok
  | .xori a _ _ _ _ => a.ok
  | .addiW a _ _ _ _ => a.ok
  | .slli a _ _ _ _ => a.ok
  | .srli a _ _ _ _ => a.ok
  | .srai a _ _ _ _ => a.ok
  | .rori a _ _ _ _ => a.ok
  | .slliW a _ _ _ _ => a.ok
  | .srliW a _ _ _ _ => a.ok
  | .sraiW a _ _ _ _ => a.ok
  | .liz a _ _ _ _ => a.ok
  | .lin a _ _ _ _ => a.ok
  | .lik a _ _ _ _ => a.ok
  | .liku a _ _ _ _ => a.ok
  | .addpc a _ _ _ => a.ok
  | .cmp c _ _ _ _ _ _ _ => coreOk c
  | .cmpi c _ _ _ _ _ _ => coreOk c
  | .pand c _ _ _ _ _ _ => coreOk c
  | .por c _ _ _ _ _ _ => coreOk c
  | .pxor c _ _ _ _ _ _ => coreOk c
  | .ptog c _ _ => coreOk c
  | .gtop c _ _ => coreOk c
  | .ldB a _ _ _ _ => a.ok
  | .ldBs a _ _ _ _ => a.ok
  | .ldH a _ _ _ _ => a.ok
  | .ldHs a _ _ _ _ => a.ok
  | .ldW a _ _ _ _ => a.ok
  | .ldWs a _ _ _ _ => a.ok
  | .ldD a _ _ _ _ => a.ok
  | .ldx a _ _ _ _ _ _ _ => a.ok
  | .stB a _ _ _ _ => a.ok
  | .stH a _ _ _ _ => a.ok
  | .stW a _ _ _ _ => a.ok
  | .stD a _ _ _ _ => a.ok
  | .stx a _ _ _ _ _ _ _ => a.ok
  | .stlkW c _ _ _ => coreOk c
  | .stlkL c _ _ _ => coreOk c
  | .ldlkW c _ _ _ => coreOk c
  | .ldlkL c _ _ _ => coreOk c
  | .key c _ _ _ _ => coreOk c
  | .keyi c _ _ _ _ => coreOk c
  | .atmSwap a _ _ _ _ _ _ => a.ok
  | .atmCas a _ _ _ _ _ _ => a.ok
  | .atmAdd a _ _ _ _ _ _ => a.ok
  | .atmAnd a _ _ _ _ _ _ => a.ok
  | .atmOr a _ _ _ _ _ _ => a.ok
  | .atmXor a _ _ _ _ _ _ => a.ok
  | .atmMin a _ _ _ _ _ _ => a.ok
  | .atmMax a _ _ _ _ _ _ => a.ok
  | .atmMinu a _ _ _ _ _ _ => a.ok
  | .atmMaxu a _ _ _ _ _ _ => a.ok
  | .fenceLl a _ => a.ok
  | .fenceLs a _ => a.ok
  | .fenceSl a _ => a.ok
  | .fenceSs a _ => a.ok
  | .fence a _ => a.ok
  | .fenceIo a _ => a.ok
  | .sync a _ => a.ok
  | .syncI a _ => a.ok
  | .clWb c _ _ => coreOk c
  | .clInv c _ _ => coreOk c
  | .clWbi c _ _ => coreOk c
  | .prefR c _ _ => coreOk c
  | .prefW c _ _ => coreOk c
  | .b c _ _ => coreOk c
  | .bl c _ _ => coreOk c
  | .jr c _ _ => coreOk c
  | .jalr c _ _ _ => coreOk c
  | .ret c _ => coreOk c
  | .calls a _ _ => a.ok
  | .callm c _ _ => coreOk c
  | .brk a _ _ => a.ok
  | .tret a _ => a.ok
  | .waitev a _ => a.ok
  | .tlbiVa c _ _ => coreOk c
  | .tlbiAll c _ => coreOk c
  | .tlbiAllg c _ => coreOk c
  | .tlbiS2 c _ _ => coreOk c
  | .tlbiS2all c _ => coreOk c
  | .crx a _ _ _ _ => a.ok
  | .crset a _ _ _ _ => a.ok
  | .crclr a _ _ _ _ => a.ok
  | .vint c _ _ _ _ _ _ => coreOk c
  | .vfp c _ _ _ _ _ _ => coreOk c
  | .fps c _ _ _ _ _ _ => coreOk c
  | .vfma c _ _ _ _ _ _ => coreOk c
  | .vfms c _ _ _ _ _ _ => coreOk c
  | .vld c _ _ _ _ => coreOk c
  | .vst c _ _ _ _ => coreOk c
  | .vls c _ _ _ _ _ _ => coreOk c
  | .vsel c _ _ _ _ _ => coreOk c
  | .vbcast c _ _ _ _ => coreOk c
  | .vins c _ _ _ _ _ => coreOk c
  | .vext c _ _ _ _ _ => coreOk c
  | .vperm c _ _ _ _ _ => coreOk c
  | .vsum c _ _ _ _ => coreOk c
  | .vmaxr c _ _ _ _ => coreOk c
  | .vminr c _ _ _ _ => coreOk c
  | .vcvtIf c _ _ _ _ => coreOk c
  | .vcvtFi c _ _ _ _ => coreOk c
  | .vcvtW c _ _ _ _ => coreOk c
  | .vcvtN c _ _ _ _ => coreOk c
  | .vmov c _ _ _ _ => coreOk c
  | .vpred c _ _ _ _ => coreOk c
  | .bc h _ _ _ _ _ => hiveOk h
  | .j h _ _ => hiveOk h
  | .jl h _ _ => hiveOk h
  | .jx h _ _ _ => hiveOk h
  | .instructionFetch c _ _ => coreOk c
  | .branchResolve c _ => coreOk c
  | .loadReissue c => coreOk c
  | .storeAddressResolve c _ _ _ _ => coreOk c
  | .storeBufferWrite c => coreOk c
  | .tableWalk c _ _ => coreOk c
  | .markSwap c _ _ => coreOk c
  | .deviceStoreReply c _ => coreOk c
  | .eventArrival src => srcOk src
  | .interruptRecognition c => coreOk c
  | .interruptEntry c => coreOk c
  | .timerMatch c _ => coreOk c
  | .keeperTimerMatch h => hiveOk h
  | .tilClkCtlWrite n _ => tileOk n
  | .pllLock n => tileOk n
  | .voltageReached n => tileOk n
  | .sensorRead h _ _ _ => hiveOk h
  | .capStep h => hiveOk h
  | .rdS r _ => tileOk r
  | .rdO r _ => tileOk r
  | .upg r _ => tileOk r
  | .rdSpec c _ => coreOk c
  | .promote c _ => coreOk c
  | .rdFetch r _ => tileOk r
  | .rdNc g _ dom => agentOk g && domOk dom
  | .wrNc g _ dom _ => agentOk g && domOk dom
  | .atomic g dom _ => agentOk g && domOk dom
  | .flush r _ => tileOk r
  | .wb r _ => tileOk r
  | .fwdS t _ => tileOk t
  | .fwdO t _ => tileOk t
  | .fwdPeek t _ => tileOk t
  | .inv t _ => tileOk t
  | .data t _ => tileOk t
  | .grant t _ => tileOk t
  | .notServed c _ => coreOk c
  | .replay c _ => coreOk c
  | .ownerAck t _ => tileOk t
  | .invAck t _ => tileOk t
  | .notPresent t _ => tileOk t
  | .wbInflight t _ => tileOk t
  | .wbAck t _ => tileOk t
  | .flushAck t _ => tileOk t
  | .wrDone g _ => agentOk g
  | .complete t _ => tileOk t
  | .l2Eviction t _ => tileOk t
  | .pendingRestart _ => true
  | .retryRestart n => tileOk n
  | .epochAdvance n => tileOk n
  | .silenceTimeout _ => true
  | .flitArrival n p _ => tileOk n && dirOk p
  | .routeEntryWrite ni _ _ size _ => niOk ni && sizeOk size
  | .tilNiCtlDefault ni => niOk ni
  | .tilRtrPortEnWrite n _ => tileOk n
  | .tilRtrClr n => tileOk n
  | .tilHomeClr n => tileOk n
  | .meshQuiesce r => ringOk r
  | .quiesceDrained => true
  | .meshRelease r => ringOk r
  | .releaseCheckDone => true
  | .modeLlcClass r => ringOk r
  | .modeTrainCtl r => ringOk r
  | .modeRdistCtl r => ringOk r
  | .modeForageStep r => ringOk r
  | .modeLockctl r => ringOk r
  | .prepare h => hiveOk h
  | .modeTimeout => true
  | .commit h => hiveOk h
  | .abort h => hiveOk h
  | .channelRequestAccept ch => chanOk ch
  | .bankOperation ch _ _ => chanOk ch
  | .targetedRefreshDone ch bank => chanOk ch && bankOk bank
  | .throttleExpiry ch bank dom => chanOk ch && bankOk bank && domOk dom
  | .groupCounterReset ch => chanOk ch
  | .refresh ch bank _ => chanOk ch && bankOk bank
  | .retraining ch => chanOk ch
  | .retrainingDone ch _ _ => chanOk ch
  | .memTrainDeferWrite ch _ => chanOk ch
  | .deferralEnd ch => chanOk ch
  | .memTrainCtlWrite ch _ => chanOk ch
  | .memPasrCtlWrite ch _ => chanOk ch
  | .selfRefreshWake ch => chanOk ch
  | .selfRefreshExitDone ch _ _ => chanOk ch
  | .foragerRead ch => chanOk ch
  | .memScrubRangeWrite ch _ _ => chanOk ch
  | .ceLeak ch => chanOk ch
  | .memClrCounters ch => chanOk ch
  | .memClrBucket ch => chanOk ch
  | .keeperWindowAccess h _ size _ _ => hiveOk h && byteSizeOk size
  | .keeperMeshReply h => hiveOk h
  | .keeperAccessTimeout h => hiveOk h
  | .keeperTagRelease h => hiveOk h
  | .keeperInterrupt h => hiveOk h
  | .keeperRestart h => hiveOk h
  | .keeperRestartDone h => hiveOk h
  | .moduleLoad h => hiveOk h
  | .moduleLoadDone h => hiveOk h
  | .moduleUnload h => hiveOk h
  | .cuffMismatch t group _ _ _ => tileOk t && groupOk group
  | .agreementExchange t _ => tileOk t
  | .rearm t => tileOk t
  | .rearmDone t => tileOk t
  | .pairJoin r => ringOk r
  | .pairSplit r => ringOk r
  | .handoverSync n => tileOk n
  | .cufHtoExpiry n => tileOk n
  | .create r => ringOk r
  | .map r => ringOk r
  | .assignTiles r => ringOk r
  | .assignEvents r => ringOk r
  | .assignEp r => ringOk r
  | .start r => ringOk r
  | .park r => ringOk r
  | .resume r => ringOk r
  | .stop r => ringOk r
  | .switch r => ringOk r
  | .migrateOut r => ringOk r
  | .migrateIn r => ringOk r
  | .copy h _ => hiveOk h
  | .fill h _ => hiveOk h
  | .compress h _ => hiveOk h
  | .decompress h _ => hiveOk h
  | .powerClockTarget r => ringOk r
  | .powerSegmentKeep r => ringOk r
  | .powerSelfRefreshEntry r => ringOk r
  | .powerSelfRefreshExit r => ringOk r
  | .powerLinkState r _ _ => ringOk r
  | .powerTileEntry r => ringOk r
  | .powerTileWake r => ringOk r
  | .meterCfg r => ringOk r
  | .routeSet r => ringOk r
  | .scrubRange r => ringOk r
  | .timeSet r => ringOk r
  | .arrayBist r => ringOk r
  | .cuffInjectionTest r => ringOk r
  | .sliceBist r => ringOk r
  | .marchTest r => ringOk r
  | .keeperSramBist r => ringOk r
  | .enginePatternTest r => ringOk r
  | .portLoopback r => ringOk r
  | .retrainNow r => ringOk r
  | .sensorCalibration r => ringOk r
  | .selfTestDone r _ _ _ _ => ringOk r
  | .periodBoundary => true
  | .recordWrite => true
  | .mtrCtlWrite _ => true
  | .mtrRingBaseWrite _ => true
  | .mtrRingTailWrite _ => true
  | .hosterrClear => true
  | .domLockclr d => domOk d
  | .domCtxbaseWrite d _ => domOk d
  | .evtTrig src => srcOk src
  | .trig n dom _ => pageOk n && domOk dom
  | .pendSet src => srcOk src
  | .clrp src => srcOk src
  | .causeClear src _ => srcOk src
  | .evtCfgWrite src _ => srcOk src
  | .evtDesigWrite d _ => domOk d
  | .evtTpgWrite n _ => pageOk n
  | .presentation src => srcOk src
  | .msixMessage src => srcOk src
  | .configurationRequest _ _ _ _ => true
  | .bar0Read _ _ => true
  | .bar0Write _ _ _ => true
  | .bar2Read _ _ => true
  | .bar2Write _ _ _ => true
  | .hostCompletion tag status _ => tagOk tag && statusOk status
  | .completionTimeout tag => tagOk tag
  | .tagQuarantineEnd tag => tagOk tag
  | .dlActiveLoss kind => kindOk kind
  | .dataLinkProtocolError => true
  | .flowControlProtocolError => true
  | .receiverOverflow => true
  | .malformedTlp => true
  | .uncorrectableInternalError => true
  | .release => true
  | .releaseDone => true
  | .busMasterEnableClear => true
  | .busMasterEnableSet => true
  | .d3hotEntry => true
  | .functionLevelReset => true
  | .flrDone => true
  | .hepIwinWrite w _ size _ => winOk w && sizeOk size
  | .hepOwinWrite w _ size _ => winOk w && sizeOk size
  | .hepClr => true
  | .cmdRingDb r _ => ringOk r
  | .cmdCqTail r _ => ringOk r
  | .cmdRingRestart r => ringOk r
  | .cmdRingEnWrite r _ => ringOk r
  | .descriptorFetch r => ringOk r
  | .cmdClr => true
  | .cmdMonack c _ => coreOk c
  | .monitorTimeout r => ringOk r
  | .trDb h t _ => hiveOk h && ringOk t
  | .trTail h t _ => hiveOk h && ringOk t
  | .trRestart h t => hiveOk h && ringOk t
  | .engineJobStart h => hiveOk h
  | .cmpClr h => hiveOk h
  | .frameReceive p _ => portOk p
  | .nak p => portOk p
  | .replayTimeout p => portOk p
  | .linkLoss p => portOk p
  | .linkUp p => portOk p
  | .rdLine _ => true
  | .wrLine _ => true
  | .wrPart _ => true
  | .fabAtomic _ => true
  | .msg _ => true
  | .rdRsp _ => true
  | .ack _ => true
  | .atomRsp _ => true
  | .err _ => true
  | .routeUnavail _ => true
  | .transitForward => true
  | .remoteTimeout _ => true
  | .remoteTagRelease _ => true
  | .drain p => portOk p
  | .drainDone p => portOk p
  | .undrain p => portOk p
  | .retrain p => portOk p
  | .holdExpiry p => portOk p
  | .fabDevnumWrite _ => true
  | .fabRtIdxWrite _ => true
  | .fabRwinWrite n _ size _ => winOk n && sizeOk size
  | .sqDb n _ => sendOk n
  | .sqRestart n => sendOk n
  | .sendRingFetch n => sendOk n
  | .fabClr => true
  | .fabPortClr p => portOk p
  | .preparationEnd t => tileOk t
  | .preparationTimeout t => tileOk t
  | .stateReached t => tileOk t
  | .wake t => tileOk t
  | .serviceWake t => tileOk t
  | .serviceReturnDone t => tileOk t
  | .exitDone t => tileOk t
  | .pwrHclr h => hiveOk h
  | .pwrClr => true
  | .pmcCtlWrite set _ _ _ => setOk set
  | .counterWrap set _ _ _ => setOk set
  | .freeze _ => true
  | .clrall => true
  | .recordAccept => true
  | .persistentCopy _ => true
  | .flushDone => true
  | .erCursorWrite _ => true
  | .erWindowAutoinc => true
  | .erClr _ => true
  | .clearDone => true
  | .ophoursSave => true
  | .powerOnReset => true
  | .deviceReset _ _ _ => true
  | .bootCtl _ => true
  | .bootDone _ _ _ => true
  | .secEnroll _ _ => true
  | .secRevoke _ _ => true
  | .secRollWrite n _ => slotOk n
  | .secKeyroll _ => true
  | .railMonitorTrip rail => railOk rail
  | .thermtrip => true
  | .pwrlimN _ => true
  | .pwrwarnN => true
  | .flashOwnN _ _ => true
  | .smbusBlockRead _ => true
  | .bypass => true
  | .idcode => true
  | .samplePreload _ => true
  | .extest => true
  | .registerWrite _ size _ dom => sizeOk size && domOk dom
  | .illegalInstruction a _ => a.ok
  | .dlActive speed _ => speedOk speed
  | .porNLow => true
  | .railInTolerance rail => railOk rail
  | .fabPortCtlEn p _ => portOk p
  | .cmpTrCfgWrite h t _ => hiveOk h && ringOk t
  | .fabSqCfgWrite n _ => sendOk n

end Sys2Proof
end

