-- ==== Sys2Proof/Tests/Slice0.lean ====
section
/-! SUPPORT. Tests: ill-formed commands are refused, single commands give what the spec states on small states, and the
premises of every obligation are met together by a concrete state and operands. -/

namespace Sys2Proof.Tests
open Sys2Proof Sys2Proof.Machine Sys2Proof.Safety
set_option Elab.async false

/-- Reset with register fields set. -/
def regs (l : List (Fld × Nat)) : State := State.reset.setFs l
/-- Core `c` of state `k` runs. -/
def oneCore (c : Nat) (k : Core) : State := { State.reset with cores := [(c, { k with run := true })] }
/-- Keeper `h` of state `k` is active. -/
def oneKeeper (h : Nat) (k : Keeper) : State := { regs [(R.HIV_KSTAT_STATE h, 1)] with keepers := [(h, k)] }
/-- A line of one byte value. -/
def lineB (v : Nat) : LineD := ⟨BitVec.ofNat 512 v, 0, 0⟩
/-- A line `L` standing in the LLC. -/
def withLlc (s : State) (L : Nat) (d : LineD) : State := s.setLlc L (some ⟨d, false, 0⟩)
/-- The command of ring 0. -/
def ringCmd (s : State) (c : Cmd) : State := { s.setF R.CMD_STAT_READY 1 with cmds := [(0, some c)] }

/-! ### Premises of the obligations -/

theorem witness_KeeperSramWindows : (31 < 32 ∧ 0x3FFF8 < 2 ^ 20 ∧ 0x3FFF8 % 8 = 0 ∧ 0x3FFF8 < 0x40000)
    ∧ (0x40000 < 2 ^ 20 ∧ 0x40000 % 8 = 0 ∧ 0x40000 ≤ 0x40000) := by decide

theorem witness_LinesHaveOneChannelAndHome : chanOf (24 * (2 ^ 29 - 1) + 23) = chanOf (24 * (2 ^ 29 - 1) + 23)
    ∧ 2 ^ 29 - 1 < 2 ^ 29 ∧ 23 < 24 ∧ 255 < 256 := by decide +kernel

/-- The most negative number in g1 and k1, all ones in g2 and k2. -/
def corner : Tbl W64 := [(1, 0x8000000000000000), (2, 0xFFFFFFFFFFFFFFFF)]

theorem witness_IntegerRegisterResults :
    (Ready (.core 0) 0 [31, 1, 2] (oneCore 0 { g := corner })
      ∧ (oneCore 0 { g := corner }).rgA (.core 0) 1 = 0x8000000000000000
      ∧ (oneCore 0 { g := corner }).rgA (.core 0) 2 = 0xFFFFFFFFFFFFFFFF)
    ∧ (Ready (.keeper 31) 0 [15, 1, 2] (oneKeeper 31 { k := corner })
      ∧ (oneKeeper 31 { k := corner }).rgA (.keeper 31) 1 = 0x8000000000000000
      ∧ (oneKeeper 31 { k := corner }).rgA (.keeper 31) 2 = 0xFFFFFFFFFFFFFFFF) := by
  simp only [Ready, ReadyP, ReadyK]; decide +kernel

theorem witness_IntegerUnaryAndImmediateResults : Ready (.core 511) 0 [0, 31] (oneCore 511 {})
    ∧ Ready (.keeper 0) 0 [15, 0] (oneKeeper 0 {}) := by
  simp only [Ready, ReadyP, ReadyK]; decide +kernel

theorem witness_RegisterWriteFrame : (regs []).cix 1 ≠ (regs []).cix 0 ∧ ((oneKeeper 0 {}).keeper 0).slot = none := by
  decide +kernel

theorem witness_CompareAndPredicateResults : ReadyP 0 0 (oneCore 0 {}) ∧ Cond.eq ≠ .tst ∧ Cond.eq ≠ .tstn
    ∧ ReadyP 0 9 (oneCore 0 {}) := by
  simp only [ReadyP]; decide +kernel

theorem witness_BranchesTransfer :
    (ReadyP 0 0 (oneCore 0 {}) ∧ (31 : BitVec 5) ≠ 0)
    ∧ ((oneCore 0 {}).canIssue 0 = true ∧ ((oneCore 0 {}).core 0).predOk 1 = false)
    ∧ (ReadyK 0 (oneKeeper 0 {}) ∧ ((oneKeeper 0 {}).keeper 0).slot = none
      ∧ Cond.eq.holds (((oneKeeper 0 {}).keeper 0).rg 1) (((oneKeeper 0 {}).keeper 0).rg 2) = true
      ∧ Cond.ne.holds (((oneKeeper 0 {}).keeper 0).rg 1) (((oneKeeper 0 {}).keeper 0).rg 2) = false) := by
  simp only [ReadyP, ReadyK]; decide +kernel

theorem witness_FalsePredicateOnlyRetires : (oneCore 0 {}).canIssue 0 = true ∧ ((oneCore 0 {}).core 0).predOk 1 = false
    ∧ VTy.isF .i32 = false ∧ vfpLegal .f32 0 0 = true ∧ 7 < VTy.lanes .i32 ∧ VTy.isF .f16 = true := by decide +kernel

theorem witness_CallsTakeTheirTrap : (ReadyP 3 0 (oneCore 3 { priv := .S }) ∧ ((oneCore 3 { priv := .S }).core 3).priv ≠ .U)
    ∧ (ReadyK 0 (oneKeeper 0 {}) ∧ ((oneKeeper 0 {}).keeper 0).slot = none ∧ ((oneKeeper 0 {}).keeper 0).exl = false
      ∧ ((oneKeeper 0 {}).keeper 0).modMode = false)
    ∧ ReadyK 0 (oneKeeper 0 { cr := [(0x800, 4), (0x80C, 0x3F00)] })
      ∧ ((oneKeeper 0 { cr := [(0x800, 4), (0x80C, 0x3F00)] }).keeper 0).modMode = true := by
  simp only [ReadyP, ReadyK]; decide +kernel

theorem witness_ReturnsFromTrap :
    (ReadyP 0 0 (oneCore 0 {}) ∧ ((oneCore 0 {}).core 0).priv ≠ .U ∧ Tbl.get 0 (oneCore 0 {}).tilePark 0 ≠ 1)
    ∧ (ReadyP 0 0 { oneCore 0 {} with tilePark := [(0, 1)] } ∧ Tbl.get 0 [(0, 1)] 0 = 1
      ∧ bits (((oneCore 0 {}).core 0).cr0 0xC00).toNat 2 2 = 0)
    ∧ (ReadyK 0 (oneKeeper 0 {}) ∧ ((oneKeeper 0 {}).keeper 0).slot = none ∧ ((oneKeeper 0 {}).keeper 0).modMode = false
      ∧ 0x801 ∈ kSyncRegs ∧ Tbl.get none ((oneKeeper 0 { crP := [(0x801, some 4)] }).keeper 0).crP 0x801 = some 4) := by
  simp only [ReadyP, ReadyK]; decide +kernel

theorem witness_WaitTlbAndControlRegisters :
    (ReadyP 0 0 (oneCore 0 { priv := .S }) ∧ ((oneCore 0 { priv := .S }).core 0).priv ≠ .U
      ∧ (((oneCore 0 { priv := .S }).core 0).cr0 0xC0B).getLsbD 0 = false
      ∧ ¬ (((oneCore 0 { priv := .S }).core 0).held ≠ [] ∨ (oneCore 0 { priv := .S }).time ≥ (((oneCore 0 { priv := .S }).core 0).cr0 0xC07).toNat
        ∨ (oneCore 0 { priv := .S }).time ≥ (((oneCore 0 { priv := .S }).core 0).cr0 0x406).toNat))
    ∧ ((oneCore 0 { held := [⟨1024, 0, 0⟩] }).core 0).held ≠ []
    ∧ (ReadyK 0 (oneKeeper 0 {}) ∧ ((oneKeeper 0 {}).keeper 0).slot = none ∧ ((oneKeeper 0 {}).keeper 0).modMode = false)
    ∧ (ReadyP 0 0 (oneCore 0 {}) ∧ (oneCore 0 {}).drained 0 = true ∧ ((oneCore 0 {}).core 0).priv = .M)
    ∧ (0xC0C ∈ [0x000, 0xC0C] ∧ ((oneCore 0 {}).core 0).priv = .M) := by
  simp only [ReadyP, ReadyK]; decide +kernel

theorem witness_VectorIntegerMovesAndKeys : ReadyP 0 0 (oneCore 0 {}) ∧ VTy.isF .i8 = false ∧ 31 < 256 / VTy.width .i8
    ∧ 3 < 256 / VTy.width .f64 := by
  simp only [ReadyP]; decide +kernel

theorem witness_VectorFloatingPoint : ReadyP 0 0 (oneCore 0 {}) ∧ vfpLegal .f64 0 0 = true ∧ VTy.isF .i16 = false
    ∧ VTy.i16 ≠ .i8 ∧ VTy.isF .f16 = true ∧ (fpUnpack f64 0x7FF8000000000000).isNan = true
    ∧ (fpUnpack f32 0x80000000).isNan = false ∧ 0x80000000 < 2 ^ 32 := by
  simp only [ReadyP]; decide +kernel

/-- A keeper whose k1 addresses SRAM offset `o` of its own window. -/
def kAt (o : Nat) : State := oneKeeper 31 { k := [(1, BitVec.ofNat 64 (0x3F0100000000 + 31 * 2 ^ 20 + o))] }

theorem witness_KeeperSramAccesses : ∀ o ∈ [0, 0x3FFF8], ReadyK 31 (kAt o) ∧ o < 0x40000 ∧ o % 8 = 0
    ∧ (((kAt o).keeper 31).rg 1).toNat = 0x3F0100000000 + 31 * 2 ^ 20 + o ∧ ((kAt o).keeper 31).modMode = false
    ∧ 31 * 2 ^ 15 + o / 8 ∉ (kAt o).ksramBad := by
  simp only [ReadyK]; decide +kernel

/-- Core 0 in M with address `a` in g1, tile 0 holding its line in E. -/
def coreAt (a : Nat) : State :=
  { oneCore 0 { g := [(1, BitVec.ofNat 64 a)] } with caches := [(a / 64, { st := .E, d := lineB 7 })] }

theorem witness_NormalLoads :
    (∀ a ∈ [64, dramEnd - 64], ReadyP 0 0 (coreAt a) ∧ (coreAt a).mayLoad 0 = true ∧ (BitVec.ofNat 64 a).toNat % 64 = 0
      ∧ (coreAt a).xlate 0 (((coreAt a).core 0).rg 1) .load = .ok a .normal false (coreAt a)
      ∧ fwdOf ((coreAt a).core 0).sb false a 8 = .none ∧ (coreAt a).tileCopy 0 (a / 64) = some (lineB 7)
      ∧ checkRead (lineB 7) ((coreAt a).lockReq 0 (BitVec.ofNat 64 a)) 0 64 = .ok)
    ∧ (let s := oneCore 0 { g := [(1, 64)] }
       ReadyP 0 0 s ∧ s.xlate 0 ((s.core 0).rg 1) .load = .ok 64 .normal false s ∧ s.tileCopy 0 1 = none
        ∧ (s.l2 0 1).st.transient = false)
    ∧ ((coreAt 64).core 0).sb.any (·.rel) = false ∧ ((coreAt 64).core 0).posted.any (fun p => p.rel && !p.done) = false := by
  simp only [ReadyP]; decide +kernel

theorem witness_NormalStoresEnterTheBuffer :
    (ReadyP 0 0 (coreAt 64) ∧ (coreAt 64).mayStore 0 = true
      ∧ (coreAt 64).xlate 0 (((coreAt 64).core 0).rg 1) .store = .ok 64 .normal false (coreAt 64)
      ∧ ((coreAt 64).core 0).sb.length < 64 ∧ ((coreAt 64).core 0).posted.all (·.done) = true ∧ (coreAt 64).clDone 0 = true
      ∧ (coreAt 64).tileCopy 0 1 = some (lineB 7)
      ∧ checkRead { lineB 7 with locks := commitLocks ((coreAt 64).core 0).sb false 64 (lineB 7).locks }
        ((coreAt 64).lockReq 0 64) 0 64 = .ok)
    ∧ (let s := oneCore 0 { g := [(1, 64)] }
       ReadyP 0 0 s ∧ s.xlate 0 ((s.core 0).rg 1) .store = .ok 64 .normal false s ∧ s.tileCopy 0 1 = none
        ∧ (s.l2 0 1).st.transient = false) := by
  simp only [ReadyP]; decide +kernel

/-- The wait of core 0 for the DATA of its atomic. -/
def atomWait : Wait := ⟨4, 0, .atomic, 64, 64, 8, .g 3 8 true, ⟨0, .off, true⟩⟩

theorem witness_NormalAtomics :
    (let s := oneCore 0 { g := [(1, 64), (2, 5)] }
     ReadyP 0 0 s ∧ s.mayLoad 0 = true ∧ s.mayStore 0 = true ∧ ((s.core 0).rg 1).toNat % 8 = 0 ∧ s.drained 0 = true
      ∧ (s.core 0).sb = [] ∧ (s.core 0).posted = [] ∧ s.xlate 0 ((s.core 0).rg 1) .atomic = .ok 64 .normal false s
      ∧ s.lineOut 0 1 = false)
    ∧ (let m : Msg := { k := .data, L := 1, agent := 0, src := some 1, val := 7 }
       let s := { oneCore 0 { wait := some atomWait } with msgs := [m], outReq := [⟨0, 1, .atomic, 0⟩] }
       s.seamOpen 0 = true ∧ (match s.take .data 0 1 with
        | some (n, t) => n == m && (match t.answered 0 1 .atomic with
          | some u => (u.core 0).mark == none && (u.core 0).wait == some atomWait
          | none => false)
        | none => false) = true ∧ m.req ≠ 1 ∧ m.kind = .none ∧ m.d = none ∧ m.stat = 0)
    ∧ spanPoison (lineB 7).poison 56 8 = false ∧ lockMiss ⟨0, .off, true⟩ (lineB 7).locks 56 8 = none ∧ 60 % 4 = 0 := by
  simp only [ReadyP]; decide +kernel

theorem witness_FencesAndCacheMaintenance :
    (let s := oneCore 0 { sb := [⟨64, false, .bytes, 8, 9, 0, ⟨0, .off, true⟩, 64, 0, .M, false⟩] }
     ReadyP 0 0 (coreAt 64) ∧ (coreAt 64).drained 0 = true ∧ ((coreAt 64).core 0).sb = [] ∧ ReadyP 0 0 s ∧ s.drained 0 = false
      ∧ ReadyK 0 (oneKeeper 0 { crP := [(0x801, some 4)] }) ∧ ((oneKeeper 0 {}).keeper 0).slot = none
      ∧ 0x801 ∈ kSyncRegs)
    ∧ (∀ st ∈ [LSt.M, .E, .S, .I], let s := { coreAt 64 with caches := if st == .I then [] else [(1, { st := st, d := lineB 7 })] }
       ReadyP 0 0 s ∧ s.xlate 0 ((s.core 0).rg 1) .load = .ok 64 .normal false s ∧ s.mayLoad 0 = true ∧ s.mayStore 0 = true
        ∧ (s.l2 0 1).st = st ∧ (s.core 0).sb = [] ∧ s.lineOut 0 1 = false) := by
  simp only [ReadyP, ReadyK]; decide +kernel

/-- Core 0 in S with stage 1 off and one stage-2 leaf that maps everything to itself, of type `mt`. -/
def sCore (mt : MT) : State := oneCore 0 { priv := .S, cr := [(0xC0C, 1)], g := [(1, 64)], s2C := [⟨0, 46, true, true, true, mt, 0⟩] }

theorem witness_FencesAndCacheMaintenance_types :
    (let s := sCore .gcached
     ReadyP 0 0 s ∧ (match s.xlate 0 ((s.core 0).rg 1) .load with | .ok pa mt mk _ => pa == 64 && mt == .gcached && !mk | _ => false) = true
      ∧ s.mayLoad 0 = true ∧ s.mayStore 0 = true ∧ (s.core 0).sb = [])
    ∧ (let s := coreAt 0x1000_0000_0000
       ReadyP 0 0 s ∧ s.xlate 0 ((s.core 0).rg 1) .load = .ok 0x1000_0000_0000 .hostOrdered false s) := by
  simp only [ReadyP]; decide +kernel

theorem witness_IllegalWordsFetchAndSpeculation :
    ((oneCore 0 {}).canIssue 0 = true ∧ legalP 0xFFFFFFFF = false ∧ legalS 0xFFFFFFFF = false
      ∧ (let s := { oneKeeper 0 {} with ksram := [(0, 0xFFFFFFFF)] }
         ReadyK 0 s ∧ (s.keeper 0).exl = false ∧ (s.keeper 0).slot = none
          ∧ ((s.kFill 0).keeper 0).pq.head?.map (·.2) = some 0xFFFFFFFF))
    ∧ (let s := { coreAt 64 with cores := [(0, { pc := 64, run := true })] }
       let i := fun (w : Nat) => { s with cores := [(0, { pc := 64, run := true, l1i := [⟨1, BitVec.ofNat 512 w, 0⟩] })] }
       let m := { s with caches := [] }
       s.canIssue 0 = true ∧ s.xlate 0 64 .fetch = .ok 64 .normal false s ∧ s.tileCopy 0 1 = some (lineB 7)
       ∧ (s.core 0).l1i = [] ∧ branchKind 0x1C3FFFFB ≠ none ∧ branchKind 7 = none
       ∧ (∀ w ∈ [7, 0x1C3FFFFB], (i w).xlate 0 64 .fetch = .ok 64 .normal false (i w)
          ∧ ((i w).core 0).l1i.find? (·.line == 1) = some ⟨1, BitVec.ofNat 512 w, 0⟩ ∧ ((i w).core 0).win = [] ∧ ((i w).core 0).btb = [])
       ∧ m.xlate 0 64 .fetch = .ok 64 .normal false m ∧ m.tileCopy 0 1 = none ∧ m.lineOut 0 1 = false) := by
  simp only [ReadyK]; decide +kernel

theorem witness_IllegalWordsFetchAndSpeculation_squash :
    (let s := oneCore 511 { win := [.branch 8 64, .access 12 64 .load 64 8 none false true] }
     s.tileRuns 255 = true ∧ (s.core 511).run = true ∧ (s.core 511).stopped = false
      ∧ (s.core 511).win.findIdx? (fun e => e.isBranch && e.pc == 8) = some 0 ∧ (s.core 511).win[0]? = some (.branch 8 64)
      ∧ (s.core 511).win[1]? = some (.access 12 64 .load 64 8 none false true)
      ∧ s.specXlate 511 64 .store = some (64, .normal, false) ∧ s.specXlate 511 71 .atomic = some (71, .normal, false)
      ∧ 64 < 64 + 8 ∧ 71 < 64 + 8 ∧ 64 < 71 + 1) := by
  decide +kernel

/-- Core 0 in S, stage 1 with its root at 0x1000, whose first entry is a writable leaf with A and D clear; its tile holds it. -/
def walker : State := { oneCore 0 { priv := .S, cr := [(0xC0C, 1), (0x40A, 0x1001)], s2C := [⟨0, 46, true, true, true, .normal, 0⟩] } with
  caches := [(64, { st := .E, d := lineB 0xD })] }

theorem witness_IllegalWordsFetchAndSpeculation_walks :
    (let s := sCore .normal
     (s.core 0).priv ≠ .M ∧ s.specRuns 0 = true ∧ (s.core 0).walkB.length < 8
      ∧ (match s.walk 0 true 64 .load true with | .ok w => useCheck (s.core 0) w.e 64 .load == none | _ => false) = true)
    ∧ (let r : MarkReq := ⟨64, .store, 5, 0, 1⟩
       let m : Msg := { k := .data, L := 1, agent := 0, src := some 1, val := 7 }
       let s := { oneCore 0 { priv := .S, mark := some r } with msgs := [m], outReq := [⟨0, 1, .atomic, 0⟩] }
       s.seamOpen 0 = true ∧ (match s.take .data 0 1 with
        | some (n, t) => n == m && (match t.answered 0 1 .atomic with
          | some u => (u.core 0).mark == some r
          | none => false)
        | none => false) = true ∧ m.stat ≠ 2)
    ∧ (∀ acc ∈ [Acc.load, .store], walker.canIssue 0 = true ∧ walker.lineOut 0 64 = false ∧ (walker.core 0).sb = []
      ∧ (match walker.walk 0 false 64 acc false with
         | .ok w => useCheck (walker.core 0) w.e 64 acc == none && w.e.needsMark acc && w.leafW && w.leaf == 0x1000 && w.raw == 0xD
         | _ => false) = true) := by decide +kernel

/-- A buffered store of eight bytes 9 to address 64. -/
def sb64 : SbE := ⟨64, false, .bytes, 8, 9, 0, ⟨0, .off, true⟩, 64, 0, .M, false⟩

theorem witness_StoreBufferAndReplies :
    (∀ e ∈ [sb64, { sb64 with kind := .lockW, size := 4 }, { sb64 with kind := .lockL, size := 64 }],
      let s := { coreAt 64 with cores := [(0, { run := true, sb := [e] })] }
      s.tileRuns 0 = true ∧ (s.core 0).sb = [e] ∧ (s.l2 0 1).st = .E ∧ (s.l2 0 1).d.poison = 0
        ∧ lockMiss e.lk (s.l2 0 1).d.locks 0 8 = none ∧ e.pa % 64 + e.size ≤ 64)
    ∧ (let p : Parked := ⟨64, 64, 8, .g 1 8 false, ⟨0, .off, true⟩, 0, false⟩
       let s := { coreAt 64 with cores := [(0, { run := true, parked := some p })] }
       s.tileRuns 0 = true ∧ (s.core 0).run = true ∧ (s.core 0).stopped = false ∧ (s.core 0).parked = some p ∧ p.mark = 0
        ∧ fwdOf (s.core 0).sb p.gc p.pa p.size = .none ∧ s.tileCopy 0 1 = some (lineB 7) ∧ checkRead (lineB 7) p.lk 0 8 = .ok)
    ∧ (let r : DevReply := ⟨0, 5, 0, 0, 0, false⟩
       let q : Posted := { fab := false, tag := 5, pa := 64, ea := 64, pc := 0, priv := .M, lk := ⟨0, .off, true⟩, acc := .store }
       let s := { oneCore 0 { posted := [q] } with devRep := [r] }
       s.devRep.find? (fun a => a.core == s.cix 0 && a.tag == r.tag) = some r ∧ r.stat = 0
        ∧ (s.core 0).posted.find? (fun a => !a.fab && a.tag == r.tag) = some q) := by decide +kernel

theorem witness_InterruptsAndArrivals :
    (let a : Arrival := ⟨0, ⟨1024, 3, 0⟩⟩
     let b : Arrival := ⟨543, ⟨1024, 3, 0⟩⟩
     let s := { oneCore 0 {} with arrivals := [a] }
     let t := { oneKeeper 31 {} with arrivals := [b] }
     s.arrivals.find? (fun x => x.h.src == a.h.src) = some a ∧ s.tileRuns 0 = true ∧ (s.core 0).held.length < 32
      ∧ t.arrivals.find? (fun x => x.h.src == b.h.src) = some b ∧ t.f (R.HIV_KSTAT_STATE (b.holder - 512)) = 1)
    ∧ (let k : Core := { held := [⟨1024, 3, 0⟩], cr := [(0xC00, 1)] }
       let s := oneCore 0 k
       let t := oneCore 0 { k with recog := true }
       s.tileRuns 0 = true ∧ (s.core 0).run = true ∧ (s.core 0).recog = false ∧ s.intrOf 0 ≠ none
        ∧ (t.core 0).recog = true ∧ (t.core 0).commit = false ∧ (t.core 0).wait = none ∧ (t.core 0).parked = none ∧ (t.core 0).mark = none ∧ t.intrOf 0 = some (true, 1))
    ∧ (let s := oneCore 0 { cr := [(0x406, 0), (0xC07, 0)] }
       s.tileRuns 0 = true ∧ s.time ≥ ((s.core 0).cr0 0xC07).toNat ∧ s.time ≥ ((s.core 0).cr0 0x406).toNat)
    ∧ (let s := oneKeeper 31 { cr := [(0x800, 1), (0x808, 0)] }
       let t := oneKeeper 31 { cr := [(0x800, 1)], held := [⟨1024, 3, 0⟩] }
       s.f (R.HIV_KSTAT_STATE 31) = 1 ∧ s.time ≥ ((s.keeper 31).cr0 0x808).toNat ∧ (s.keeper 31).ie = true
        ∧ (s.keeper 31).exl = false ∧ (s.keeper 31).slot = none ∧ s.isFatal = false
        ∧ (t.keeper 31).held.any (fun x => x.pri ≥ ((t.keeper 31).cr0 0x809).toNat % 16) = true) := by decide +kernel

theorem witness_EventTriggersAndNetwork :
    (let s := regs [(R.EVT_TPG_OWNER 2047, 5), (R.EVT_OWN_OWNER 8191, 5), (R.EVT_STAT_PEND 1024, 1), (R.EVT_STAT_HELD 1025, 1)]
     s.deadSource 8191 = false ∧ s.deadSource 1008 = true ∧ s.f (R.EVT_STAT_PEND 8191) ≠ 1 ∧ s.f (R.EVT_STAT_HELD 8191) ≠ 1
      ∧ s.f (R.EVT_STAT_PEND 1024) = 1 ∧ s.f (R.EVT_STAT_HELD 1025) = 1 ∧ 8191 % 8192 = 8191
      ∧ s.f (R.EVT_OWN_OWNER 8191) = s.f (R.EVT_TPG_OWNER 2047) ∧ s.f (R.EVT_OWN_OWNER 1024) ≠ s.f (R.EVT_TPG_OWNER 2047)
      ∧ 7 ≠ s.f (R.EVT_TPG_OWNER 2047))
    ∧ (let s := (oneCore 0 {}).setFs [(R.EVT_CFG_EN 1024, 1), (R.EVT_CFG_PRI 1024, 3), (R.EVT_STAT_PEND 1024, 1)]
       s.evtHolder 1024 = some 0 ∧ s.evtReady 1024 = true ∧ s.holderFree 0 = true ∧ s.holderOpen 0 = true ∧ s.evtFirst 1024 0 = true)
    ∧ (let s := regs []
       (s.deadSource 1024 = false ∧ (0 / 2 % 4 = 0 ∧ 511 * 256 / 256 % 2048 ≤ 511) ∧ s.fused (511 / 2) = false)
       ∧ (512 * 256 / 256 % 2048 > 511) ∧ ((2 + 32 * 256) / 2 % 4 = 1 ∧ (2 + 32 * 256) / 256 % 2048 > 31)) := by decide +kernel

/-- One coherence message in flight, with a directory entry and an LLC copy of line 1. -/
def flight (ms : List Msg) (e : Option DirE) (x : Option LlcE) : State :=
  { (((State.reset.setF (R.TIL_HOME_STAT_READY 1) 1).setDir 1 e).setLlc 1 x) with msgs := ms }
/-- The same with tile `t`'s copy of line 1. -/
def tileFlight (ms : List Msg) (t : Nat) (y : L2Line) : State := { State.reset.setL2 t 1 y with msgs := ms }
def msgOf (k : MsgK) (r : Nat) : Msg := { k := k, L := 1, agent := r }
def sharers (l : List Nat) : DirE := ⟨.S, l, 0, 0, false⟩
def ownedBy (t : Nat) : DirE := ⟨.EX, [t], 0, 0, false⟩
def copy7 : LlcE := ⟨lineB 7, false, 0⟩
/-- Nothing is open or waiting on line 1, and its home has room. -/
def Idle1 (s : State) : Bool := s.homeReady 1 && !s.lineBusy 1 && !(s.pendQ ++ s.retryQ).any (fun q => q.L == 1)
  && (s.txns.filter (fun q => homeOf q.L == homeOf 1)).length < 64 && (s.retryQ.filter (fun q => homeOf q.L == homeOf 1)).length < 32
  && (s.dir.filter (fun q => dirKey q.1 == dirKey 1)).length < 16
/-- `k` from `r` for line 1 can be taken in a state that `P` holds of after it left. -/
def Taken (s : State) (k : MsgK) (r : Nat) (P : Msg → State → Bool) : Bool :=
  s.meshRuns && (match s.take k r 1 with | some (m, t) => P m t | none => false)

theorem witness_HomeServesRequests :
    (∀ k ∈ [MsgK.rdS, .rdO, .upg, .flush], ∀ n ∈ [0, 63, 64], Taken { flight [msgOf k 3] none none with
        txns := [{ L := 1, m := msgOf .rdS 9 }], pendQ := List.replicate n (msgOf .rdS 9) } k 3
      (fun _ t => t.homeReady 1 && t.lineBusy 1 && (t.pendQ.filter (fun q => homeOf q.L == homeOf 1)).length == n) = true)
    ∧ (∀ k ∈ [MsgK.rdS, .rdO, .rdFetch], Taken (flight [msgOf k 3] none (some copy7)) k 3
      (fun _ t => Idle1 t && t.dirE 1 == none && t.llcE 1 == some copy7) = true)
    ∧ (∀ k ∈ [MsgK.rdS, .rdO], Taken (flight [msgOf k 3] (some (sharers [5, 6])) (some copy7)) k 3
      (fun _ t => Idle1 t && t.dirE 1 == some (sharers [5, 6]) && (t.listed (sharers [5, 6])).filter (· != 3) != []) = true)
    ∧ Taken (flight [msgOf .upg 3] (some (sharers [3])) none) .upg 3
      (fun _ t => Idle1 t && (t.listed (sharers [3])).filter (· != 3) == [] && (t.listed (sharers [3])).contains 3) = true
    ∧ (∀ k ∈ [MsgK.rdS, .rdO, .rdFetch], Taken (flight [msgOf k 3] (some (ownedBy 5)) none) k 3
      (fun _ t => Idle1 t && t.dirE 1 == some (ownedBy 5) && (ownedBy 5).ptrs.headD 0 != 3) = true)
    ∧ (let a : AtomReq := { addr := 64 + 56, op := .add, size := 8, opnd := 5, cmp := 0, lk := ⟨0, .off, true⟩ }
       Taken (flight [{ msgOf .atomic 3 with at_ := some a }] none (some copy7)) .atomic 3
        (fun m t => Idle1 t && m.at_ == some a && t.dirE 1 == none && t.llcE 1 == some copy7 && t.llcAt 1 copy7.way == some (1, copy7)
          && !spanPoison copy7.d.poison (a.addr % 64) 8 && lockMiss a.lk copy7.d.locks (a.addr % 64) 8 == none) = true)
    ∧ (let s := flight [msgOf .rdS 3] none (some copy7)
       (s.take .rdS 3 1).isSome = true ∧ s.meshRuns = true ∧ s.isFatal = false ∧ s.llcE 1 = some copy7
        ∧ s.f (R.TIL_HOME_ERR_KIND (homeOf 1)) = 0) := by decide +kernel

/-- A load at 64 of core 7, not yet at its commit point. -/
def spec7 : State := (withLlc (oneCore 7 {}) 1 (lineB 7)).setF (R.TIL_HOME_STAT_READY 1) 1

theorem witness_HomeSpeculationAndWritebacks :
    (Taken (flight [{ msgOf .promote 3 with stamp := 5 }] (some (sharers [5])) none) .promote 3
        (fun m t => Idle1 t && !t.stampOk 1 m.stamp) = true)
    ∧ Taken (flight [{ msgOf .promote 3 with stamp := 0 }] (some (sharers [5])) none) .promote 3
        (fun m t => Idle1 t && t.stampOk 1 m.stamp && t.dirE 1 == some (sharers [5])) = true
    ∧ Taken (flight [msgOf .flush 3] none none) .flush 3 (fun _ t => Idle1 t && t.llcE 1 == none && t.dirE 1 == none) = true
    ∧ Taken (flight [{ msgOf .wb 3 with kind := .evict, d := some (lineB 9) }] (some (ownedBy 3)) (some copy7)) .wb 3
        (fun m t => m.d == some (lineB 9) && m.kind == .evict && t.dirE 1 == some (ownedBy 3) && !t.lineBusy 1
          && t.llcE 1 == some copy7) = true
    ∧ (let s := spec7
       s.specRuns 7 = true ∧ s.specXlate 7 64 .load = some (64, .normal, false) ∧ fwdOf (s.core 7).sb false 64 8 = .none
        ∧ (s.core 7).sfb = [] ∧ s.tileCopy 3 1 = none ∧ s.lineOut 3 1 = false ∧ 1 < dramLines ∧ s.meshRuns = true ∧ s.homeReady 1 = true
        ∧ s.routed 3 (homeOf 1) = true ∧ s.txns = [] ∧ s.dirE 1 = none ∧ s.llcE 1 = some copy7)
    ∧ (let b := { spec7 with txns := [{ L := 1, m := msgOf .rdS 9 }] }
       b.specRuns 7 = true ∧ b.specXlate 7 64 .load = some (64, .normal, false) ∧ b.lineOut 3 1 = false
        ∧ b.txns.any (·.L == 1) = true)
    ∧ (let u := spec7.setL2 3 1 { st := .S, d := lineB 7 }
       u.specRuns 7 = true ∧ u.specXlate 7 64 .load = some (64, .normal, false) ∧ u.tileCopy 3 1 = some (lineB 7)
        ∧ checkRead (lineB 7) (u.lockReq 7 64) 0 8 = .ok ∧ (u.l2 3 1).l1.getLsbD (u.cix 7 % 2) = false) := by
  decide +kernel

theorem witness_NonCachingAgentsAndForwards :
    (let s := flight [] none (some copy7)
     256 ≤ 289 ∧ 289 ≠ logAgent ∧ 1 < dramLines ∧ s.meshRuns = true ∧ s.isFatal = false ∧ Idle1 s = true ∧ s.dirE 1 = none ∧ s.llcE 1 = some copy7
      ∧ (∀ g ∈ [256, 257, 258, 289], s.routed (agentNi g (homeOf 1)) (homeOf 1) = true)
      ∧ copy7.d.poison = 0 ∧ s.llcAt 1 copy7.way = some (1, copy7)
      ∧ (64 + 56) % 8 = 0 ∧ (64 + 56) / 64 = 1 ∧ lockMiss ⟨0, .off, true⟩ copy7.d.locks 56 8 = none)
    ∧ (let q : LogW := ⟨1, 5, ⟨0xFF, lineB 9, .clear⟩, none⟩
       let s := { flight [] none (some copy7) with lockQ := [q] }
       s.lockQ = [q] ∧ s.lineQuiet 1 = true ∧ ({ s with txns := [{ L := 1, m := msgOf .rdS 9 }] } : State).lineQuiet 1 = false
        ∧ q.wr.pol ≠ .carried)
    ∧ (∀ k ∈ [MsgK.fwdS, .fwdO, .fwdPeek, .inv], ∀ st ∈ [LSt.M, .E, .S, .SM, .WBP, .I, .IS, .IM],
      let s := tileFlight [msgOf k 3] 3 { st := st, d := lineB 7 }
      s.seamOpen 3 = true ∧ Taken s k 3 (fun _ t => (t.l2 3 1).st == st && t.fillQ == []) = true) := by decide +kernel

/-- `ms` in flight to tile 3, which awaits the answer of its request of kind `k`. -/
def asking (ms : List Msg) (k : MsgK) (y : L2Line) : State := { tileFlight ms 3 y with outReq := [⟨3, 1, k, 0⟩] }
/-- `k` can be taken, answers the request of kind `q`, and `P` holds of the message and of the state after. -/
def Answers (s : State) (k q : MsgK) (P : Msg → State → Bool) : Bool :=
  Taken s k 3 (fun m t => match t.answered 3 1 q with | some u => P m u | none => false)

theorem witness_RepliesAtTheRequester :
    (∀ p ∈ [(LSt.IS, Kind.E), (.IS, .S), (.IM, .M), (.SM, .M)],
      let s := tileFlight [{ msgOf .data 3 with kind := p.2, d := some (lineB 7), core := 6 }] 3 { st := p.1 }
      s.seamOpen 3 = true ∧ Taken s .data 3 (fun m t => m.req != 1 && m.d == some (lineB 7) && (t.l2 3 1).st == p.1 && m.kind == p.2
        && (t.l2Install 3 1 m.core (match p.2 with | .E => .E | .S => .S | _ => .M) (lineB 7)).isSome) = true)
    ∧ (∀ l ∈ [[], [1]], Taken { tileFlight [{ msgOf .data 3 with kind := .none, d := some (lineB 7), core := 6 }] 3 { st := .IS } with
          cores := [(6, { fpend := l })] } .data 3
        (fun m t => m.kind == .none && m.d.isSome && (t.l2 3 1).st == .IS && (t.core m.core).fpend == l) = true)
    ∧ Answers { asking [{ msgOf .data 3 with req := 1, d := some (lineB 7), core := 6 }] .rdSpec {} with
          cores := [(6, { sfb := [⟨1, none, 0, false, false⟩] })] } .data .rdSpec
        (fun m u => m.req == 1 && m.core / 2 == 3 && (u.core m.core).sfb == [⟨1, none, 0, false, false⟩]) = true
    ∧ Taken (tileFlight [{ msgOf .grant 3 with kind := .M }] 3 { st := .SM, d := lineB 7 }) .grant 3
        (fun m t => m.kind == .M && (t.l2Install 3 1 m.core .M (t.l2 3 1).d).isSome) = true
    ∧ Answers { asking [{ msgOf .grant 3 with kind := .S, core := 6 }] .promote {} with
          cores := [(6, { sfb := [⟨1, some (lineB 7), 0, true, false⟩] })] } .grant .promote
        (fun m u => ((u.core m.core).sfb.find? (fun q => q.L == 1 && q.prom)).isSome
          && ((u.updCore m.core (·.dropSfb 1)).l2Install 3 1 m.core .S (lineB 7)).isSome) = true
    ∧ (∀ st ∈ [LSt.WBP, .KP], Taken (tileFlight [msgOf .wbAck 3] 3 { st := st }) .wbAck 3
        (fun _ t => (t.l2 3 1).st == st && (t.l2 3 1).held == none && t.fillQ == []) = true)
    ∧ Answers (asking [msgOf .flushAck 3] .flush {}) .flushAck .flush (fun _ _ => true) = true
    ∧ Taken (tileFlight [msgOf .flushAck 3] 3 {}) .flushAck 3 (fun _ t => t.answered 3 1 .flush == none && !t.isFatal
        && t.f (R.TIL_HOME_ERR_KIND (homeOf 1)) == 0) = true
    ∧ Answers { asking [{ msgOf .notServed 3 with core := 6 }] .rdSpec {} with cores := [(6, { sfb := [⟨1, none, 0, false, false⟩] })] }
        .notServed .rdSpec (fun _ _ => true) = true
    ∧ Answers (asking [{ msgOf .replay 3 with core := 6 }] .promote {}) .replay .promote
        (fun m u => m.core / 2 == 3 && (u.l2 3 1).st == .I && !u.lineOut 3 1) = true
    ∧ Taken (tileFlight [msgOf .wrDone 289] 3 {}) .wrDone 289 (fun _ _ => true) = true := by decide +kernel

theorem witness_ResponsesAndEventsAtTheHome :
    (∀ q ∈ [MsgK.rdS, .rdNc], Taken { flight [msgOf .ownerAck 3] (some (ownedBy 3)) none with
          txns := [{ L := 1, m := msgOf q 5, fwdTo := some 3, done := true }] } .ownerAck 3 (fun m t =>
        (t.txns.find? (fun q => q.fwdTo == some 3 && q.L == 1)).isSome && m.d == none && t.dirE 1 == some (ownedBy 3)) = true)
    ∧ Taken { flight [msgOf .complete 3] none none with txns := [{ L := 1, m := msgOf .rdS 3, sent := true }] } .complete 3 (fun _ t =>
        t.txnOf 1 == some { L := 1, m := msgOf .rdS 3, sent := true }) = true
    ∧ Taken { flight [msgOf .notPresent 3] (some (ownedBy 3)) (some copy7) with txns := [{ L := 1, m := msgOf .rdO 5, fwdTo := some 3 }] }
        .notPresent 3 (fun _ t => (t.txns.find? (fun q => q.fwdTo == some 3 && q.L == 1)).isSome && t.llcE 1 == some copy7
          && t.dirE 1 == some (ownedBy 3)) = true
    ∧ Taken { flight [msgOf .wbInflight 3] none none with txns := [{ L := 1, m := msgOf .rdO 5, fwdTo := some 3 }] } .wbInflight 3
        (fun _ t => (t.txns.find? (fun q => q.fwdTo == some 3 && q.L == 1)).isSome) = true
    ∧ Taken { flight [msgOf .invAck 3] none none with txns := [{ L := 1, m := msgOf .rdO 5, waitInv := [3, 4] }] } .invAck 3 (fun m t =>
        m.d == none && (t.txns.find? (fun q => q.waitInv.contains 3 && (q.evict == some 1 || (q.evict == none && q.L == 1)))).isSome) = true
    ∧ (∀ st ∈ [LSt.S, .E, .M], let s := tileFlight [] 3 { st := st }
       (s.l2 3 1).st = st ∧ s.tileRuns 3 = true)
    ∧ (let s := { State.reset with pendQ := [msgOf .rdS 3] }
       s.pendQ.find? (fun q => q.L == 1) = some (msgOf .rdS 3) ∧ s.lineBusy 1 = false ∧ s.retryQ.any (fun q => q.L == 1) = false
        ∧ (s.txns.filter (fun q => homeOf q.L == homeOf 1)).length < 64)
    ∧ (let s := { State.reset with retryQ := [msgOf .rdS 3] }
       s.retryQ.find? (fun q => homeOf q.L == 1 && s.setOpens q.L && !(s.lineBusy q.L)) = some (msgOf .rdS 3)) := by decide +kernel

theorem witness_ResponsesAndEventsAtTheHome_silence :
    (let s := { State.reset with txns := [{ L := 1, m := msgOf .rdS 3 }], ns := 1000000 }
     s.f R.PWR_MESHQ_STATE < 2 ∧ s.isFatal = false ∧ (∃ y ∈ s.txns, y.L = 1 ∧ y.at_ + 1000000 ≤ s.waitClock)
      ∧ s.f (R.TIL_HOME_ERR_KIND (homeOf 1)) = 0)
    ∧ (let s := { tileFlight [] 3 { st := .IS } with ns := 1000000 }
       s.txns = [] ∧ s.tileSilent 1 = some 3 ∧ s.f (R.TIL_HOME_ERR_KIND 3) = 0)
    ∧ (let s := { tileFlight [] 3 { st := .IS } with ns := 999999 }
       s.txns = [] ∧ s.tileSilent 1 = none ∧ s.f R.PWR_MESHQ_STATE < 2 ∧ s.isFatal = false) := by decide +kernel

/-- A packet as router 17's core port would hold it for the header `x`. -/
def pkt (x : Hdr) : MPkt := ⟨hdrWord x, none, 0⟩
/-- Router 17 (its row 2, column 1) holds packet `x` at its core port. -/
def at17 (x : Hdr) (l : List (Fld × Nat)) : State := { regs l with meshIn := [(inKey 17 0 x.vn, [pkt x])] }

theorem witness_RoutersAndRouteTables :
    (let s := regs []
     niAt 17 0 = some 17 ∧ s.f R.PWR_MESHQ_STATE = 0 ∧ stopFits 17 281 = true ∧ s.f (niEntry 17 281).2.2 = 1 ∧ s.portLive 17 0 = true
      ∧ s.roomAt 17 0 2 ⟨0, some (lineB 7), 0⟩ = true ∧ (regs [((niEntry 17 281).2.2, 0)]).f (niEntry 17 281).2.2 = 0)
    ∧ (∀ x ∈ [hdrInject 0 0 2 0, { hdrInject 0x21 0 0 1 with nextp := 3 }], let s := at17 x []
       s.meshQ 17 0 x.vn = [pkt x] ∧ hdrOf (pkt x).h = x ∧ s.portLive 17 0 = true ∧ x.nextp ≤ 4 ∧ s.linkLive 17 x.nextp = true
        ∧ s.wins 17 x.nextp 0 x.vn = true)
    ∧ (let s := { regs [] with meshIn := [(inKey 17 0 0, [pkt (hdrInject 0 0 0 0)]), (inKey 17 3 2, [pkt (hdrInject 0 0 2 0)])] }
       s.wins 17 0 0 0 = false ∧ s.wins 17 0 3 2 = true)
    ∧ (let s := at17 (hdrInject 0 5 0 0) []
       s.meshQ 17 0 0 = [pkt (hdrInject 0 5 0 0)] ∧ 4 < (hdrOf (pkt (hdrInject 0 5 0 0)).h).nextp ∧ s.isFatal = false
        ∧ s.f (R.TIL_HOME_ERR_KIND 17) = 0)
    ∧ (at17 (hdrInject 0 0 0 0) []).wanting 17 0 = [(0, 0, false)]
    ∧ (let x := hdrInject 2 0 0 0
       let y := hdrInject 1 0 0 0
       (0 < x.nextp ∧ 1 < x.left ∧ segLen x.seg x.sp ≠ 0) ∧ (0 < y.nextp ∧ y.left = 1 ∧ segLen y.seg y.sp ≠ 0))
    ∧ (295 < 296 ∧ 281 < 282 ∧ (regs [(R.PWR_MESHQ_STATE, 2)]).f R.PWR_MESHQ_STATE = 2 ∧ (regs []).f R.PWR_MESHQ_STATE ≠ 2
      ∧ routeWhy 0 0 (defSeg 0 0) (defExit 0 0) = 0 ∧ routeWhy 0 0 0xFFFFFFFFFFFF 7 ≠ 0) := by decide +kernel

/-- A MODE or other device-wide command in ring 63. -/
def cmd63 (s : State) (c : Cmd) : State := { s.setF R.CMD_STAT_READY 1 with cmds := [(63, some c)] }
def desc (op : Nat) (p : List Nat) : Desc := { op := op, p := p }
def modeMasks : List Nat := [mLow 16, mLow 32, mAll, mAll, mAll, mAll]

theorem witness_MeshQuiesceAndModeChanges :
    (∀ p ∈ [[1], [2], [0x10, 0, 15, 0xFFFF], [0x11, 0, 64], [0x12], [0x13, 0, 0xFFFFFFFF], [0x20, 0, 4095, 4095]],
      let c : Cmd := { d := desc 0x20 p, idx := 0 }
      let s := cmd63 (regs []) c
      Ordered s 63 0x20 c ∧ c.phase = 0 ∧ s.mode = none ∧ (p.headD 0 ≤ 2 → noArgs c.d = true) ∧ c.d.okP false false modeMasks = true ∧ c.d.par 0 = p.headD 0
        ∧ s.cmds.all (fun e => e.1 == 63) = true ∧ s.domSt 4095 ≠ domRUNNING)
    ∧ (let m : ModeOp := ⟨63, 1, [], 0, 1000, []⟩
       let s := { regs [(R.PWR_MESHQ_STATE, 1)] with mode := some m }
       s.f R.PWR_MESHQ_STATE = 1 ∧ s.meshEmpty = true ∧ s.isFatal = false)
    ∧ (let s := { regs [(R.PWR_MESHQ_STATE, 3), (R.TIL_RTR_PORT_EN_EN 0, 0)] with mode := some ⟨63, 2, [], 0, 1000, []⟩ }
       s.f R.PWR_MESHQ_STATE = 3 ∧ s.isFatal = false ∧ s.meshIn = [] ∧ s.releaseFault.isSome = true)
    ∧ (∀ w ∈ [List.range 32, [31]],
      let s := { regs [(R.PWR_MODE_STAT_PHASE, 1), (R.PWR_MODE_READY_HIVES, 1)] with mode := some ⟨63, 0x13, [5], 0, 0, w⟩ }
      s.f R.PWR_MODE_STAT_PHASE = 1 ∧ 31 ∈ w ∧ w.Nodup ∧ s.modeWhy 0x13 31 = 0 ∧ 0 + 0 * 1000 ≤ s.ns
        ∧ bitOf (s.f R.PWR_MODE_READY_HIVES) 0 = true)
    ∧ (let s := regs [(R.PWR_MODE_STAT_PHASE, 1), (R.MEM_STAT_FAILED ((hiveChans 0).headD 0), 1)]
       hiveChans 0 ≠ [] ∧ s.modeWhy 0x13 0 ≠ 0)
    ∧ (∀ w ∈ [[30, 31], [31]],
      let s := { regs [(R.PWR_MODE_STAT_PHASE, 2), (R.PWR_MODE_APPLIED_HIVES, 0x7FFFFFFF)] with
        mode := some ⟨63, 0x10, [15, 0xFFFF], 0, 0, w⟩, aborts := [31] }
      s.f R.PWR_MODE_STAT_PHASE = 2 ∧ 31 ∈ w ∧ w.Nodup ∧ s.isFatal = false ∧ 31 ∈ s.aborts
        ∧ setBit (s.f R.PWR_MODE_APPLIED_HIVES) 31 % 2 ^ 32 = allHives) := by
  unfold Ordered; decide +kernel

theorem witness_TileClocksAndLimits :
    (let s := regs []
     255 < 256 ∧ s.fused 255 = false ∧ bits 97 0 7 > 96 ∧ bits 96 0 7 ≤ 96 ∧ s.f (R.TIL_CLK_STAT_BUSY 255) = 0
      ∧ s.f (R.TIL_PWR_STAT_STATE 255) = 0 ∧ s.f (R.TIL_PWR_STAT_PREP 255) = 0 ∧ s.f (R.TIL_PWR_STAT_ENTERING 255) = 0
      ∧ s.f (R.CUF_STAT_HANDOVER 255) = 0 ∧ min 96 (s.f (R.PWR_HCAP_CAP 31)) ≠ s.f (R.TIL_CLK_STAT_CUR 255))
    ∧ (regs [(R.BOOT_TILE_FUSE_DIS 7, 2 ^ 31)]).fused 255 = true
    ∧ (let s := { regs [] with tileClk := [(0, 1)] }
       let t := ({ regs [] with tileClk := [(0, 2)] }).setTpw 0 { clk := (regs []).clkWant 0 }
       let u := { regs [] with tileClk := [(0, 3)] }
       s.tclk 0 = 1 ∧ t.tclk 0 = 2 ∧ (t.tpw 0).clk = t.clkWant 0 ∧ t.cmds = [] ∧ u.tclk 0 = 3)
    ∧ (let c : Cmd := { d := desc 0x21 [0, 96], idx := 0 }
       let d : Cmd := { d := desc 0x21 [0, 96], idx := 0, phase := 1 }
       let s := cmd63 (regs []) c
       let t := cmd63 (regs [(R.TIL_CLK_STAT_CUR 0, 96), (R.TIL_CLK_CTL_TARGET 0, 96)]) d
       Ordered s 63 0x21 c ∧ c.d.tile = 0 ∧ c.d.okP false true [0xFF, 0x7F] = true ∧ s.clash 63 0 [0] = false ∧ c.d.par 1 ≤ 96
        ∧ c.d.par 1 ≠ s.f (R.TIL_CLK_STAT_CUR 0) ∧ c.d.par 1 ≤ s.f (R.PWR_HCAP_CAP 0) ∧ Ordered t 63 0x21 d
        ∧ t.cmds = [(63, some d)] ∧ t.f (R.TIL_CLK_STAT_CUR 0) = t.f (R.TIL_CLK_CTL_TARGET 0))
    ∧ (let s := regs []
       s.hiveTemp 31 < 102 ∧ 102 ≤ degC 102 ∧ degC 102 < 105 ∧ degC 94 < 95 ∧ 5999 < 6000 ∧ s.f (R.PWR_HCAP_CAP 31) ≤ 96)
    ∧ (let s := { regs [] with temps := [(31, 102)], ns := 100000 }
       let t := { regs [(R.PWR_HCAP_CAP 31, 92)] with ns := 1000000 }
       s.stepsNow 31 = true ∧ Tbl.get 0 s.capAt 31 + 100000 ≤ s.ns ∧ t.allClear = true ∧ t.f (R.PWR_HCAP_CAP 31) < 96
        ∧ t.clearAt + 1000000 ≤ t.ns ∧ Tbl.get 0 t.capAt 31 + 1000000 ≤ t.ns) := by
  unfold Ordered; decide +kernel

/-- Tile 255 with its power controller's notes. -/
def pwrTile (l : List (Fld × Nat)) (x : TilePwr) : State := (regs l).setTpw 255 x
def tileCmd (op : Nat) (p : List Nat) (ph : Nat) (aux : List Nat) : Cmd :=
  { d := { op := op, tile := 255, p := p }, idx := 0, phase := ph, aux := aux }
def haltedCores : Tbl Core := [(510, { halt := true }), (511, { halt := true })]

theorem witness_TilePowerStates :
    (let s := { pwrTile [(R.TIL_PWR_STAT_PREP 255, 1)] { goal := 3 } with cores := haltedCores }
     s.f (R.TIL_PWR_STAT_PREP 255) = 1 ∧ s.tileOut 255 = false ∧ s.evRefuses 255 = false)
    ∧ (let s := { pwrTile [(R.TIL_PWR_STAT_PREP 255, 1)] { goal := 3 } with ns := 4000 }
       s.f (R.TIL_PWR_STAT_PREP 255) = 1 ∧ 1 ≤ (s.tpw 255).goal ∧ (s.tpw 255).goal ≤ 3 ∧ (s.tpw 255).ring = none
        ∧ s.tileOut 255 = false ∧ s.evRefuses 255 = true ∧ (s.tpw 255).at_ + 4000 ≤ s.ns)
    ∧ (∀ l ∈ [0, 1], let s := pwrTile [(R.TIL_PWR_STAT_ENTERING 255, 1), (R.TIL_PWR_STAT_LATCHED 255, l)] { goal := 3, core := true }
       s.f (R.TIL_PWR_STAT_ENTERING 255) = 1 ∧ (s.tpw 255).ring = none ∧ (s.tpw 255).goal < 4 ∧ (s.tpw 255).core = true
        ∧ s.f (R.TIL_PWR_STAT_LATCHED 255) = l)
    ∧ (∀ p ∈ [R.TIL_PWR_STAT_STATE 255, R.TIL_PWR_STAT_ENTERING 255],
       let s := { regs [(p, 1)] with cores := [(510, { cr := [(0xC07, 0)] })], msgs := [{ k := .fwdS, L := 1, agent := 255 }] }
       s.asleep 255 = true ∧ s.coreWakeDue 255 = true ∧ s.f (R.CUF_STAT_STOPPED 255) = 0 ∧ s.fwdWaits 255 = true
        ∧ Tbl.get 0 s.tileSvc 255 = 0 ∧ s.f (R.TIL_PWR_STAT_LATCHED 255) = 0 ∧ (s.tpw 255).back = false) := by decide +kernel

theorem witness_TilePowerStates_exits :
    (let s := { regs [(R.TIL_PWR_STAT_STATE 255, 1)] with tileSvc := [(255, 1)] }
       let t := regs [(R.TIL_PWR_STAT_STATE 255, 1), (R.TIL_PWR_STAT_EXITING 255, 1)]
       Tbl.get 0 s.tileSvc 255 = 1 ∧ s.fwdWaits 255 = false ∧ s.f (R.TIL_PWR_STAT_LATCHED 255) = 0
        ∧ t.f (R.TIL_PWR_STAT_EXITING 255) = 1 ∧ Tbl.get 0 t.tileSvc 255 = 0 ∧ t.cmds = [] ∧ t.domOf 255 = 0) := by decide +kernel

theorem witness_TilePowerStates_commands :
    (let a := tileCmd 0x21 [5, 50] 0 []
       let b := tileCmd 0x21 [5, 50] 1 [255]
       let d := tileCmd 0x21 [6] 0 []
       let s := cmd63 (regs []) a
       let t := { cmd63 (regs []) b with cores := haltedCores }
       let u := cmd63 (regs [(R.TIL_PWR_STAT_STATE 255, 1)]) d
       Ordered s 63 0x21 a ∧ a.d.okP false true [0xFF, mLow 24] = true ∧ s.clash 63 0 [255] = false ∧ s.fused 255 = false
        ∧ s.asleep 255 = false ∧ Ordered t 63 0x21 b ∧ t.tileAtB 255 false = true ∧ t.tileOut 255 = false
        ∧ t.f (R.TIL_CLK_STAT_BUSY 255) = 0 ∧ (∀ k ∈ [510, 511], (t.core k).held = [] ∧ t.timerWakes k = false)
        ∧ Ordered u 63 0x21 d ∧ d.d.okP false true [0xFF, 0] = true ∧ u.asleep 255 = true
        ∧ u.f (R.TIL_PWR_STAT_ENTERING 255) ≠ 1 ∧ (cmd63 (regs []) d).asleep 255 = false) := by
  unfold Ordered; decide +kernel

theorem witness_TilePowerStates_handOver :
    let a := tileCmd 0x21 [5, 50] 0 []
    let s := cmd63 (regs [(R.CUF_STAT_HANDOVER 255, 1)]) a
    Ordered s 63 0x21 a ∧ a.d.okP false true [0xFF, mLow 24] = true ∧ s.fused 255 = false ∧ s.asleep 255 = false
      ∧ s.f (R.TIL_PWR_STAT_PREP 255) = 0 ∧ s.f (R.TIL_PWR_STAT_STATE 255) = 0 ∧ s.f (R.CUF_STAT_HANDOVER 255) = 1
      ∧ s.domOf 255 = 0 ∧ s.f (R.CUF_STAT_STOPPED 255) = 0 := by
  unfold Ordered; decide +kernel

theorem witness_OneOrTwoWrongBitsAreCorrected : 87 < 88 ∧ 86 < 88 ∧ 87 ≠ 86 := by decide

/-- Channel 23 open, with its queues. -/
def chan23 (l : List (Fld × Nat)) (k : Chan) : State := (regs ((R.MEM_STAT_TRAINED 23, 1) :: l)).setChan 23 k
/-- The first line of channel 23. -/
def L23 : Nat := lineAt 23 0
def rd23 (n : Nat) : ChReq := { L := L23, dom := 0, op := .homeRd { k := .rdS, L := L23, agent := 3 } .E false, n := n }
def al23 : ChReq := { rd23 0 with op := .homeRd { k := .rdS, L := L23, agent := 3 } .E true }
def wr23 (n : Nat) : ChReq := { L := L23, dom := 0, op := .homeWr (lineB 7) none, n := n }
/-- Another line of its slice and set. -/
def V23 : Nat := 524574
/-- A fill of the LLC that waits for the victim's write. -/
def fill23 : LlcFill := ⟨L23 + 1, ⟨lineB 9, false, 0⟩, [], false⟩
/-- The host endpoint's write of the whole line under CLEAR. -/
def nc23 : Msg := { k := .wrNc, L := L23, agent := 256, wr := some ⟨BitVec.allOnes 64, lineB 7, .clear⟩ }
def word7 (i : Nat) : Nat := if i = 0 then codeEnc 7 0 false else codeEnc 0 0 false

theorem witness_ChannelServesRequests :
    (∀ q ∈ [rd23 0, wr23 0], let s := chan23 [] { inq := [q] }
      s.chanOpen 23 = true ∧ (s.chan 23).inq = [q] ∧ (s.chan 23).rdq.length < 64 ∧ (s.chan 23).wrq.length < 64
        ∧ (rd23 0).isRead = true ∧ (wr23 0).op = .homeWr (lineB 7) none)
    ∧ (let q : ChReq := { wr23 0 with op := .homeWr (lineB 7) (some fill23) }
       let s := chan23 [] { inq := [q] }
       (s.chan 23).inq = [q] ∧ s.llc = [] ∧ s.llcAt fill23.L fill23.e.way = none)
    ∧ (let q : ChReq := { wr23 0 with op := .devWr 7 3 0 8 0 false ⟨0, .off, true⟩ }
       let p : Posted := { fab := false, tag := 3, pa := 64, ea := 64, pc := 0, priv := .M, lk := ⟨0, .off, true⟩, acc := .store }
       let s := { chan23 [] { inq := [q] } with cores := [(7, { posted := [p] })] }
       (s.chan 23).inq = [q] ∧ (s.core 7).posted = [p])
    ∧ (let q : ChReq := { wr23 0 with op := .ncWr nc23 }
       let s := { chan23 [] { inq := [q] } with txns := [{ L := L23, m := nc23 }] }
       s.chanOpen 23 = true ∧ (s.chan 23).inq = [q] ∧ (s.chan 23).wrq.length < 64 ∧ q.op.wholeLine = some (lineB 7)
        ∧ s.txns.any (fun y => y.L == q.L && y.m == nc23) = true) := by decide +kernel

theorem witness_ChannelServesRequests_serves :
    (let s := { chan23 [] { rdq := [rd23 0] } with dram := (List.range 8).map (fun i => (L23 * 8 + i, some (word7 i))) }
     s.chanOpen 23 = true ∧ s.bankOpen 23 (rd23 0).bank = true ∧ s.throttled 23 (rd23 0).bank 0 = false
      ∧ s.chanGone (rd23 0).L = false ∧ (∀ i, i < 8 → Tbl.get none s.dram ((rd23 0).L * 8 + i) =
        some (codeEnc ((lineB 7).read (8 * i) 8) (lockAt (lineB 7).locks (2 * i) + 16 * lockAt (lineB 7).locks (2 * i + 1)) false)))
    ∧ (chan23 [(R.MEM_STAT_FAILED 23, 1)] { rdq := [rd23 0] }).chanGone (rd23 0).L = true
    ∧ (∀ b ∈ [true, false], let s := { chan23 [(R.TIL_LLC_CLASS_WAYS (homeOf L23) 0, 1)] { rdq := [al23] } with llc := [(V23, some ⟨lineB 9, b, 0⟩)] }
       (s.chan 23).rdq = [al23] ∧ s.bankOpen 23 al23.bank = true ∧ s.throttled 23 al23.bank 0 = false ∧ s.llcE L23 = none
        ∧ s.llcWay L23 0 = some 0 ∧ s.llcAt L23 0 = some (V23, ⟨lineB 9, b, 0⟩) ∧ V23 ≠ L23)
    ∧ (let s := chan23 [] { rdq := [rd23 1], wrq := [wr23 0] }
       (s.chan 23).rdq = [rd23 1] ∧ (s.chan 23).wrq = [wr23 0] ∧ (wr23 0).L = (rd23 1).L ∧ (wr23 0).n < (rd23 1).n)
    ∧ (let s := chan23 [] { wrq := [wr23 0] }
       (s.chan 23).rdq = [] ∧ s.bankOpen 23 (wr23 0).bank = true ∧ s.chanGone (wr23 0).L = false) := by decide +kernel

theorem witness_RefreshAndRetraining :
    (let s := { chan23 [] { tref := [(63, 5)], thr := [⟨63, 4095, 5, 0, 1⟩], refDue := [(62, 8)] } with ns := 32000000 }
     let k := s.chan 23
     k.tref.any (·.1 == 63) = true ∧ k.thr.any (fun x => x.bank == 63 && x.dom == 4095 && decide (x.till ≤ s.ns)) = true
      ∧ k.grpAt + 32000000 ≤ s.ns ∧ s.f (R.MEM_STAT_TRAINED 23) = 1 ∧ s.f (R.MEM_STAT_SREF 23) = 0 ∧ Tbl.get 0 k.refDue 62 = 8
      ∧ Tbl.get 0 k.refDue 61 < 8 ∧ s.f (R.MEM_STAT_PAUSED 23) = 0 ∧ k.tref.any (·.1 == 61) = false
      ∧ s.chanOpen 23 = true ∧ k.trainAt + s.f (R.MEM_TRAIN_CTL_INTERVAL 23) * 500000 ≤ s.ns ∧ s.f (R.MEM_TRAIN_STAT_DEFERRED 23) = 0)
    ∧ (let s := { chan23 [(R.MEM_STAT_PAUSED 23, 1), (R.MEM_TRAIN_STAT_DEFERRED 23, 1)] {} with ns := 32000000 }
       s.f (R.MEM_STAT_PAUSED 23) = 1 ∧ 200 ≤ 200 ∧ s.f (R.MEM_TRAIN_STAT_DEFERRED 23) = 1
        ∧ min (s.chan 23).deferTo ((s.chan 23).trainAt + s.f (R.MEM_TRAIN_CTL_INTERVAL 23) * 500000 + 16000000) ≤ s.ns)
    ∧ (bits 1 0 7 = 1 ∧ bits 64 0 7 = 64 ∧ bits 0 0 7 = 0 ∧ 64 < bits 65 0 7) := by decide +kernel

theorem witness_SegmentsAndSelfRefresh :
    (let s := chan23 [] {}
     (∀ j, j < 24 → (s.chan j).rdq = [] ∧ (s.chan j).wrq = []) ∧ 7 < 8)
    ∧ (let s := chan23 [(R.MEM_STAT_SREF 23, 1)] { inq := [rd23 0] }
       s.f (R.MEM_STAT_SREF 23) = 1 ∧ (s.chan 23).exiting = false ∧ (s.chan 23).inq ≠ [])
    ∧ (let s := chan23 [] { exiting := true }
       (s.chan 23).exiting = true ∧ 200 ≤ 200 ∧ s.cmds = [])
    ∧ (∀ p ∈ [[1, 0xFF], [2, 2 ^ 24 - 1], [3, 2 ^ 24 - 1]],
       let c : Cmd := { d := desc 0x21 p, idx := 0 }
       let s := cmd63 (chan23 [(R.MEM_STAT_SREF 23, 1)] {}) c
       Ordered s 63 0x21 c ∧ c.d.okP false false [0xFF, if p.headD 0 = 1 then 0xFF else mLow 24] = true ∧ s.cmds = [(63, some c)]
        ∧ bitOf (c.d.par 1) 7 = true ∧ s.f (R.MEM_STAT_SREF 23) = 1) := by
  unfold Ordered; decide +kernel

theorem witness_ForagerAndErrorAccounts :
    (let s := { chan23 [(R.MEM_FORAGE_CTL_EN 23, 1), (R.MEM_SCRUB_RANGE_V 23 7, 1), (R.MEM_SCRUB_RANGE_LAST 23 7, 1)] {} with ns := 10 ^ 9 }
     s.chanOpen 23 = true ∧ s.f (R.MEM_FORAGE_CTL_EN 23) = 1 ∧ (s.chan 23).forageAt + max 100 (s.f (R.MEM_FORAGE_STEP_NS 23)) ≤ s.ns
      ∧ s.nextCovered 23 (s.f (R.MEM_FORAGE_POS_Q 23)) = some 0 ∧ (s.chan 23).tref = [] ∧ Tbl.get 0 (s.chan 23).refDue (bankOf 0) < 8
      ∧ s.nextCovered 23 1 = some 1
      ∧ s.nextCovered 23 2 = none ∧ s.nextCovered 23 0 = some 0
      ∧ (s.chan 23).leakAt + max 1 (s.f (R.MEM_CE_CTL_LEAK_MS 23)) * 1000000 ≤ s.ns)
    ∧ (let s := chan23 [(R.MEM_FORAGE_POS_Q 23, 1), (R.MEM_SCRUB_RANGE_V 23 7, 1), (R.MEM_SCRUB_RANGE_LAST 23 7, 1)] {}
       s.nextCovered 23 (s.f (R.MEM_FORAGE_POS_Q 23)) = some 1 ∧ s.nextCovered 23 (1 + 1) = none ∧ s.nextCovered 23 0 = some 0)
    ∧ (let s := chan23 [(R.MEM_FORAGE_POS_Q 23, 2), (R.MEM_SCRUB_RANGE_V 23 7, 1), (R.MEM_SCRUB_RANGE_LAST 23 7, 1)] {}
       s.nextCovered 23 (s.f (R.MEM_FORAGE_POS_Q 23)) = none ∧ s.nextCovered 23 0 = some 0 ∧ s.nextCovered 23 (0 + 1) = some 1)
    ∧ (let c : Cmd := { d := desc 0x24 [15, 0, 0xC0_0000_0000], idx := 0 }
       Ordered (cmd63 (regs []) c) 63 0x24 c ∧ c.d.okP false false [0xF, mAll, mAll] = true ∧ 8 ≤ c.d.par 0 ∧ c.d.par 1 % 1536 = 0
        ∧ c.d.par 2 % 1536 = 0 ∧ c.d.par 1 < c.d.par 2 ∧ c.d.par 2 ≤ 0xC0_0000_0000) := by
  unfold Ordered; decide +kernel

/-- A mesh access of keeper 31 that waits for its reply. -/
def kw (acc : Acc) (pa : Nat) : KWait := ⟨0, acc, pa, 8, false, 1, 0, none, false, 0⟩

theorem witness_KeeperUnitsAndModules :
    (0x3FFF8 < 0x40000 ∧ 0x3FFF8 % 8 = 0 ∧ 0x40000 ≤ 0x40000 ∧ 0xFFFF8 < 2 ^ 20 ∧ 0xFFFF8 % 8 = 0)
    ∧ (let w := kw .load 0x3F01_0000_0000
       let s := oneKeeper 31 { wait := some w }
       let b := { s with ksramBad := [0] }
       (s.keeper 31).wait = some w ∧ regionOf w.pa = .ksram ∧ s.linked 248 (kwinOff w.pa / 2 ^ 20 % 32 * 8) = true
        ∧ s.kwinRead (kwinOff w.pa) w.size = (0, false)
        ∧ b.kwinRead (kwinOff w.pa) w.size = (0, true) ∧ (b.keeper 31).exl = false ∧ (b.keeper 31).modMode = false
        ∧ s.f R.PWR_MESHQ_STATE = 0)
    ∧ (let w := kw .load 64
       let s := oneKeeper 31 { late := [w], quar := [(0, 0)] }
       (s.keeper 31).wait = none ∧ (s.keeper 31).late = [w] ∧ regionOf w.pa ≠ .host ∧ (s.keeper 31).quar = [(0, 0)] ∧ 0 ≤ s.ns)
    ∧ (let s := regs [(R.HIV_KSTAT_STATE 31, 0), (R.BOOT_STAT_DONE, 1)]
       s.f (R.HIV_KSTAT_STATE 31) = 0 ∧ s.f R.BOOT_STAT_DONE = 1 ∧ s.pickImage 0 0 0x40000 = none)
    ∧ (let s := oneKeeper 31 {}
       s.f (R.HIV_KMOD_STAT_STATUS 31) ≠ 1 ∧ s.f (R.HIV_KSTAT_STATE 31) = 1) := by decide +kernel

/-- Bytes standing in the LLC from line `L` on. -/
def llcBytes (s : State) (L : Nat) (b : List Nat) : State :=
  (List.range ((b.length + 63) / 64)).foldl
    (fun s i => s.setLlc (L + i) (some ⟨⟨BitVec.ofNat 512 (ofLe ((b.drop (64 * i)).take 64)), 0, 0⟩, false, 0⟩)) s

/-- The SHA-384 digest of four zero bytes. -/
def digest0 : List Nat :=
  [57, 67, 65, 183, 24, 44, 210, 39, 197, 198, 176, 126, 248, 0, 12, 223, 216, 97, 54, 196, 41, 43, 142, 87,
   101, 115, 173, 126, 217, 174, 65, 1, 159, 88, 24, 180, 185, 113, 201, 239, 252, 96, 225, 173, 159, 18, 137, 240]
/-- An image of one zero word: magic, kind, load offset and entry, key slot, version. -/
def image (magic : List Nat) (kind off slot ver : Nat) : List Nat :=
  magic ++ leBytes 2 1 ++ leBytes 2 kind ++ leBytes 4 ver ++ leBytes 4 ver ++ leBytes 4 off ++ leBytes 4 4 ++ leBytes 4 off
    ++ leBytes 4 0 ++ leBytes 1 slot ++ leBytes 0x27 0 ++ digest0 ++ leBytes 0x88 0 ++ [0, 0, 0, 0]
def firmware : List Nat := image [0x55, 0x4B, 0x46, 0x57] 0 0 0 0
def monitor : List Nat := image [0x55, 0x4B, 0x4D, 0x4E] 2 0 0 0
def moduleImg (ver : Nat) : List Nat := image [0x55, 0x4B, 0x4D, 0x44] 1 0x30000 1 ver

/-- With a signature that verifies, these images pass every check; boot then takes the firmware and the monitor. -/
theorem witness_images (h : ∀ l, Config.signatureOk l = true) :
    { regs [] with flash := [firmware, [], monitor, []] }.imgCheck firmware 0 0x40000 = 0
    ∧ { regs [] with flash := [firmware, [], monitor, []] }.imgCheck monitor 2 monSize = 0
    ∧ { regs [] with fuses := { digest := [(1, 5)] } }.imgCheck (moduleImg 0) 1 0x40000 = 0
    ∧ { regs [] with fuses := { digest := [(1, 5)], roll := [(1, 1)] } }.imgCheck (moduleImg 0) 1 0x40000 = 3 := by
  unfold State.imgCheck; simp only [h]; decide +kernel

theorem witness_KeeperUnitsAndModules_loads :
    let s := llcBytes ((oneKeeper 31 {}).setFs [(R.HIV_KMOD_STAT_STATUS 31, 1), (R.HIV_KMOD_ADDR_ADDR 31, 4)]) 16 (moduleImg 0)
    s.f (R.HIV_KMOD_STAT_STATUS 31) = 1 ∧ s.f (R.HIV_KSTAT_STATE 31) = 1 ∧ s.f (R.HIV_KMOD_ADDR_ADDR 31) * 256 = 1024
    ∧ s.memReady 1024 256 0 false (258 + 31) = true ∧ (s.memRead 0 1024 256).2 = ((moduleImg 0).take 256, false)
    ∧ imgCodeLen (moduleImg 0) = 4 ∧ 1024 + 256 + 4 ≤ dramEnd ∧ s.memReady 1024 260 0 false (258 + 31) = true
    ∧ ((s.memRead 0 1024 256).1.memRead 0 1280 4).2 = ([0, 0, 0, 0], false) ∧ modCheck (moduleImg 0) = 2
    ∧ ((s.memRead 0 1024 256).1.memRead 0 1280 4).1.imgCheck (moduleImg 0) 1 0x40000 = 1 := by decide +kernel

theorem witness_LockstepPairs :
    (let s := regs [(R.CUF_STAT_PAIR 255, 1)]
     s.pairLive 255 = true ∧ s.cmds = [] ∧ s.domOf 255 = 0 ∧ 5 < 6)
    ∧ (let s := { regs [(R.CUF_STAT_PAIR 255, 1), (R.DOM_STATE_STATE 7, 2)] with tileDom := [(255, 7)] }
       s.pairLive 255 = true ∧ s.domTiles (s.domOf 255) = [255] ∧ s.domOf 255 ≠ 0 ∧ s.f (R.DOM_STATE_STATE (s.domOf 255)) ≠ domFREE)
    ∧ (let s := regs [(R.CUF_STAT_STOPPED 255, 1)]
       let t := { s with rearm := [255] }
       s.fused 255 = false ∧ s.f (R.CUF_STAT_STOPPED 255) = 1 ∧ 255 ∉ s.rearm ∧ Tbl.get 0 s.stopDom 255 = 0 ∧ (regs []).f (R.CUF_STAT_STOPPED 255) = 0
        ∧ 255 ∈ t.rearm ∧ t.l2Still 255 = true ∧ t.gcDirty 255 = [] ∧ t.gcOut 255 = false)
    ∧ (∀ tf ∈ [0, 1], let s := { regs [(R.CUF_STAT_STOPPED 255, 1), (R.CUF_STAT_TESTFAIL 255, tf)] with rearm := [255] }
       255 ∈ s.rearm ∧ s.f (R.CUF_STAT_TESTFAIL 255) = tf)
    ∧ (∀ x ∈ [domFREE, domFAULTED],
      let s := { regs [(R.CUF_STAT_STOPPED 255, 1), (R.DOM_STATE_STATE 4095, x)] with stopDom := [(255, 4095)] }
      s.fused 255 = false ∧ Tbl.get 0 s.stopDom 255 = 4095 ∧ s.f (R.DOM_STATE_STATE 4095) = x) := by decide +kernel

theorem witness_LockstepPairs_commands :
    (∀ op ∈ [0x0D, 0x0E], ∀ p ∈ [0, 1],
      let c := tileCmd op [] 0 []
      let s := cmd63 (regs [(R.CUF_STAT_PAIR 255, p)]) c
      Ordered s 63 op c ∧ c.d.tile = 255 ∧ c.d.okP false true [] = true ∧ s.clash 63 0 [255] = false ∧ s.fused 255 = false
        ∧ s.f (R.CUF_STAT_STOPPED 255) = 0 ∧ s.f (R.CUF_STAT_HANDOVER 255) = 0 ∧ s.f (R.TIL_PWR_STAT_STATE 255) = 0
        ∧ s.f (R.TIL_PWR_STAT_PREP 255) = 0 ∧ s.f (R.TIL_PWR_STAT_ENTERING 255) = 0 ∧ s.paired 255 = (p == 1)
        ∧ s.f (R.CUF_STAT_TESTFAIL 255) = 0)
    ∧ (cmd63 (regs [(R.CUF_STAT_TESTFAIL 255, 1)]) (tileCmd 0x0D [] 0 [])).f (R.CUF_STAT_TESTFAIL 255) = 1
    ∧ (let c := tileCmd 0x0D [] 1 [255]
       let s := { cmd63 (regs []) c with cores := [(510, {}), (511, { waitev := true, held := [⟨8191, 3, 4095⟩] })] }
       Ordered s 63 0x0D c ∧ s.cmds = [(63, some c)] ∧ s.tileRuns 255 = true ∧ s.f (R.CUF_STAT_STOPPED 255) = 0 ∧ s.paired 255 = false
        ∧ (s.core 511).waitev = true ∧ (s.core 511).priv = .M ∧ (s.core 511).held = [⟨8191, 3, 4095⟩] ∧ s.coreDone 510 = true ∧ s.coreDone 511 = true)
    ∧ (let c := tileCmd 0x0E [] 1 [255]
       let s := cmd63 (regs [(R.CUF_STAT_PAIR 255, 1)]) c
       Ordered s 63 0x0E c ∧ s.cmds = [(63, some c)] ∧ s.tileRuns 255 = true ∧ s.paired 255 = true ∧ s.coreDone 510 = true)
    ∧ (let c := tileCmd 0x0D [] 1 [255]
       let s := { cmd63 (regs []) c with ns := 10 ^ 9 }
       (s.core 511).waitev = false ∧ c.at_ + max 1 (s.f (R.CUF_HTO_US 255)) * 1000 ≤ s.ns) := by
  unfold Ordered; decide +kernel

theorem witness_LockstepPairs_stopped :
    ∀ op ∈ [0x0D, 0x0E],
      let c := tileCmd op [] 1 [255]
      let s := cmd63 (regs [(R.CUF_STAT_STOPPED 255, 1)]) c
      Ordered s 63 op c ∧ c.d.tile = 255 ∧ s.cmds = [(63, some c)] ∧ s.f (R.CUF_STAT_STOPPED 255) = 1 := by
  unfold Ordered; decide +kernel

/-- A command of domain 4095. -/
def domCmd (op : Nat) (p : List Nat) (ph : Nat) (aux todo : List Nat) : Cmd :=
  { d := { op := op, dom := 4095, p := p }, idx := 0, phase := ph, aux := aux, todo := todo }
def st4095 (x : Nat) : Fld × Nat := (R.DOM_STATE_STATE 4095, x)

theorem witness_DomainSetup :
    (∀ x ∈ [domFREE, domCREATED],
      let c := domCmd 1 [fldMask (domCfgFlds 4095), fldMask (ctxBaseFlds 4095), 1] 0 [] []
      let s := cmd63 (regs [st4095 x]) c
      Ordered s 63 1 c ∧ s.clash 63 4095 [] = false
        ∧ c.d.okP true false [fldMask (domCfgFlds 4095), fldMask (ctxBaseFlds 4095), fldMask (s2RootFlds 4095)] = true ∧ s.domSt 4095 = x) := by
  unfold Ordered; decide +kernel

theorem witness_DomainSetup_assigns :
    (∀ p ∈ [0, 1], let c := domCmd 3 [p, 2] 0 [] []
       let s := cmd63 (regs [st4095 1]) c
       Ordered s 63 3 c ∧ c.d.okP true false [1, mAll, mAll, mAll, mAll] = true ∧ s.domOpen 4095 = true
        ∧ (∀ t, t < 256 → Nat.testBit 2 t = true → s.fused t = false ∧ s.f (R.CUF_STAT_STOPPED t) = 0 ∧ s.domOf t ≠ 4095 ∧ t ∉ s.rearm)) := by
  unfold Ordered; decide +kernel

theorem witness_DomainSetup_assigns_events :
    (let c := domCmd 4 [8191, 1] 0 [] []
       let s := cmd63 (regs [st4095 1]) c
       Ordered s 63 4 c ∧ c.d.okP true false [mLow 13, mLow 13] = true ∧ 1024 ≤ c.d.par 0 ∧ c.d.par 0 + c.d.par 1 ≤ 8192
        ∧ s.f (R.EVT_OWN_OWNER 8191) = 0 ∧ s.f (R.EVT_STAT_HELD 8191) = 0 ∧ s.f (R.EVT_STAT_ACTIVE 8191) = 0)
    ∧ (let c := domCmd 5 [4095, 1] 0 [] []
       let s := cmd63 (regs [st4095 1]) c
       Ordered s 63 5 c ∧ c.d.okP true false [mLow 12, mLow 13] = true ∧ s.domOpen 4095 = true ∧ c.d.par 0 + c.d.par 1 ≤ 4096
        ∧ ∀ i, i < 64 → ∀ j, j < 64 → s.f (R.DOM_FABEP_COUNT (64 * i + j)) = 0) := by
  unfold Ordered; decide +kernel

theorem witness_DomainSetup_maps :
    (let c := domCmd 2 [0, 46, 1] 0 [] []
     let s := cmd63 (regs [st4095 1]) c
     Ordered s 63 2 c ∧ c.d.okP true false [mLow 46 - 4095, 0x33F, mLow 32] = true ∧ s.domOpen 4095 = true
      ∧ 12 ≤ bits (c.d.par 1) 0 6 ∧ bits (c.d.par 1) 0 6 ≤ 46 ∧ (c.d.par 1).testBit 9 = false ∧ (c.d.par 1).testBit 8 = false
      ∧ c.d.par 2 < 2 ^ 31 ∧ s.f (R.DOM_MEMHELD_PAGES 4095) + c.d.par 2 < 2 ^ 28)
    ∧ (let c := domCmd 2 [0, 256 + 12, 1] 0 [] []
       let s := { cmd63 (regs [st4095 1, (R.CMD_MONEV_V, 1), (R.CMD_MONEV_BASE, 1024), (R.CUF_STAT_PAIR 0, 1)]) c with
          tileDom := [(0, 4095)], cores := [(0, { run := true })] }
       Ordered s 63 2 c ∧ s.f R.CMD_MONEV_V = 1 ∧ s.runners 4095 = [0] ∧ s.cmds = [(63, some c)] ∧ (c.d.par 1).testBit 8 = true
        ∧ s.f (R.EVT_STAT_HELD 1024) = 0 ∧ s.f (R.CMD_MONACK_SEQ 0) ≠ (s.f (R.CMD_MONSEQ_SEQ 0) + 1) % 2 ^ 32) := by
  unfold Ordered; decide +kernel

theorem witness_DomainSetup_acks :
    (let c := domCmd 2 [0, 256 + 12, 1] 1 [] [0]
       let s := { cmd63 (regs [st4095 1, (R.CMD_MONSEQ_SEQ 0, 1)]) c with tileDom := [(0, 4095)], ns := 10 ^ 9 }
       Ordered s 63 2 c ∧ c.todo = [0] ∧ c.aux = [] ∧ s.domOf (0 / 2) = 4095 ∧ Tbl.get 0 s.tilePark 0 = 0
        ∧ s.f (R.CMD_MONSEQ_SEQ 0) = 1 ∧ s.f (R.CMD_MONACK_SEQ 0) ≠ s.f (R.CMD_MONSEQ_SEQ 0)
        ∧ c.at_ + max 1 (s.f R.CMD_MONTO_US) * 1000 ≤ s.ns)
    ∧ ((regs [st4095 1]).domSt 4095 = domCREATED ∧ (regs [st4095 2]).domSt 4095 ≠ domCREATED) := by
  unfold Ordered; decide +kernel

/-- What `InLlc` asks, as a check. -/
def llcHolds (s : State) (a n : Nat) : Bool :=
  decide (a + n ≤ dramEnd) && (linesOf a n).all (fun L => s.ownerCopy L == none && s.dirE L == none &&
    (match s.llcE L with | some x => x.d.poison == 0 | none => false))
theorem inLlc_of_check {s : State} {a n : Nat} (h : llcHolds s a n = true) : InLlc s a n (s.memRead 0 a n).2.1 := by
  simp only [llcHolds, Bool.and_eq_true, decide_eq_true_eq, List.all_eq_true, beq_iff_eq] at h
  refine ⟨h.1, fun L hL => ⟨⟨(h.2 L hL).1.1, fun e he => by rw [(h.2 L hL).1.2] at he; cases he⟩, ?_⟩, rfl⟩
  have := (h.2 L hL).2
  split at this
  · next x hx => exact ⟨x, hx, by simpa using this⟩
  · simp at this

/-- Tile 255 is in the set of domain 4095; its slot, at 0xFF000, stands in the LLC: zeros, and `v` in its header. -/
def slotState (x v : Nat) (c : Cmd) : State :=
  { cmd63 (regs [st4095 x, (R.DOM_TILES_SET 4095 7, 2 ^ 31)]) c with
    llc := (List.range 49).map (fun i => (0xFF000 / 64 + i, some ⟨lineB (if i = 48 then v else 0), false, 0⟩)) }

theorem witness_DomainRunsOnTiles_start : ∀ v ∈ [0, 1],
    let c := domCmd 6 [] 0 [] []
    let s := slotState 1 v c
    (Ordered s 63 6 c ∧ c.d.okP true false [] = true ∧ s.domSt 4095 = domCREATED ∧ s.freeTiles 4095 = [255]
      ∧ s.clash 63 4095 [255] = false ∧ s.headsReady 4095 [255] = true ∧ s.slotAddr 4095 255 = 0xFF000)
    ∧ (llcHolds s (0xFF000 + 0xC00) 8 = true ∧ (s.memRead 0 (0xFF000 + 0xC00) 8).2.1 = v :: List.replicate 7 0 ∧ bitOf v 1 = s.paired 255) := by
  unfold Ordered; decide +kernel

theorem witness_DomainRunsOnTiles_none :
    let c := domCmd 6 [] 0 [] []
    let s := cmd63 (regs [st4095 1]) c
    Ordered s 63 6 c ∧ s.domSt 4095 = domCREATED ∧ s.freeTiles 4095 = [] ∧ s.clash 63 4095 [] = false := by
  unfold Ordered; decide +kernel

theorem witness_DomainRunsOnTiles_switch_in : ∀ v ∈ [0, 1],
    let c := domCmd 6 [] 1 [255] [255]
    let s := { slotState 1 v c with cores := haltedCores }
    (Ordered s 63 6 c ∧ c.todo = [255] ∧ c.res = 0 ∧ SwitchPoint s 255 0 ∧ s.domSt 4095 = domCREATED
      ∧ s.f (R.CUF_STAT_STOPPED 255) = 0 ∧ Tbl.get 0 s.tilePark 255 = 0 ∧ s.slotReady 255 4095 0xC40 false = true)
    ∧ llcHolds s 0xFF000 0xC40 = true := by
  unfold Ordered SwitchPoint; decide +kernel

/-- Tile 255 belongs to domain 4095. -/
def owned255 (x : Nat) (c : Cmd) : State := { cmd63 (regs [st4095 x]) c with tileDom := [(255, 4095)] }

theorem witness_DomainRunsOnTiles_resume_park :
    (let c := domCmd 8 [] 1 [255] [255]
     let s := { owned255 3 c with tilePark := [(255, 1)] }
     Ordered s 63 8 c ∧ s.domOf 255 = 4095 ∧ s.domSt 4095 = domPARKED ∧ s.asleep 255 = false
      ∧ s.f (R.TIL_PWR_STAT_STATE 255) = 0 ∧ s.f (R.TIL_PWR_STAT_LATCHED 255) = 0 ∧ s.f (R.CUF_STAT_HANDOVER 255) = 0
      ∧ s.f (R.CUF_STAT_STOPPED 255) = 0)
    ∧ (let c := domCmd 8 [] 0 [] []
       let s := owned255 3 c
       Ordered s 63 8 c ∧ c.d.okP true false [] = true ∧ s.domTiles 4095 = [255] ∧ s.freeTiles 4095 = [] ∧ s.clash 63 4095 [255] = false)
    ∧ (let c := domCmd 7 [] 0 [] []
       let s := owned255 2 c
       Ordered s 63 7 c ∧ s.domSt 4095 = domRUNNING ∧ s.domTiles 4095 = [255] ∧ Tbl.get 0 s.tilePark 255 = 0)
    ∧ (let c := domCmd 7 [] 1 [255] [255]
       let s := { owned255 2 c with cores := [(510, { priv := .U }), (511, { priv := .S })] }
       Ordered s 63 7 c ∧ s.domSt 4095 = domRUNNING ∧ s.tileAtB 255 true = true ∧ s.f (R.DOM_LATTOL_NS 4095) < 50
        ∧ s.f (R.TIL_PWR_STAT_PREP 255) = 0) := by
  unfold Ordered; decide +kernel

theorem witness_DomainRunsOnTiles_switch_refused : ∀ f ∈ [0, 1],
    let c : Cmd := { domCmd 0x0A [] 0 [] [] with d := { op := 0x0A, dom := 4095, tile := 255 } }
    let s := cmd63 (regs [(R.BOOT_TILE_FUSE_DIS 7, f * 2 ^ 31)]) c
    Ordered s 63 0x0A c ∧ c.d.okP true true [] = true ∧ s.fused 255 = (f == 1) ∧ s.inSet 4095 255 = false := by
  unfold Ordered; decide +kernel

theorem witness_DomainRunsOnTiles_switch_out :
    let c : Cmd := { domCmd 0x0A [] 1 [] [] with d := { op := 0x0A, dom := 0, tile := 255 } }
    let s := { slotState 2 1 c with tileDom := [(255, 4095)], cores := [(510, { priv := .U }), (511, { priv := .U })] }
    (Ordered s 63 0x0A c ∧ SwitchPoint s 255 4095 ∧ s.f (R.CUF_STAT_STOPPED 255) = 0 ∧ s.slotReady 255 4095 0xC40 true = true
      ∧ s.slotAddr 4095 255 = 0xFF000 ∧ ∀ L ∈ linesOf 0xFF000 0xC40, s.lineBusy L = false)
    ∧ llcHolds s 0xFF000 0xC40 = true := by
  unfold Ordered SwitchPoint; decide +kernel

/-- The headers of all 256 slots of domain 4095 stand in the LLC, none valid. -/
def allSlots (s : State) : State :=
  { s with llc := (List.range 256).map (fun t => (t * 64 + 48, some ⟨lineB 0, false, 0⟩)) }

theorem witness_DomainEndsAndMigrates :
    (let c := domCmd 9 [1] 0 [] []
     let s := owned255 2 c
     Ordered s 63 9 c ∧ c.d.okP true false [1] = true ∧ s.clash 63 4095 (s.domTiles 4095) = false ∧ s.domSt 4095 ≠ domFREE)
    ∧ (let c := domCmd 0x0B [0, 4096] 0 [] []
       let s := owned255 3 c
       Ordered s 63 0x0B c ∧ c.d.okP true false [mAll, mAll] = true ∧ s.clash 63 4095 (s.domTiles 4095) = false ∧ s.domSt 4095 = domPARKED)
    ∧ (let c := domCmd 9 [] 1 [] []
       let s := owned255 2 c
       let t := s.setF (R.CMP_TR_CFG_DOMAIN 31 63) 4095
       Ordered s 63 9 c ∧ s.jobsLeft 4095 = false ∧ t.f (R.CMP_TR_CFG_DOMAIN 31 63) = 4095)
    ∧ (let c := domCmd 9 [] 2 [] [255]
       let s := (owned255 2 c).setF (R.CUF_STAT_STOPPED 255) 1
       Ordered s 63 9 c ∧ c.todo = [255] ∧ s.f (R.CUF_STAT_STOPPED 255) = 1) := by
  unfold Ordered; decide +kernel

theorem witness_DomainEndsAndMigrates_ends :
    (let c := domCmd 9 [] 3 [] []
     let s := allSlots (owned255 2 c)
     Ordered s 63 9 c ∧ s.slotsReady 4095 = true)
    ∧ (∀ op ∈ [9, 0x0B], let c := domCmd op [] 4 [] []
       let s := owned255 2 c
       Ordered s 63 op c ∧ s.time < s.mbound ∧ s.backlog.length < 8192) := by
  unfold Ordered; decide +kernel

/-- Every channel is trained: no range of memory has to wait. -/
def trained (s : State) : State := s.setFs ((List.range 24).map (fun ch => (R.MEM_STAT_TRAINED ch, 1)))
/-- Domain 4095 is parked, its MIGRATE_OUT is ready to write, and no slot of it is valid. -/
def migState (c : Cmd) : State := trained (allSlots (owned255 3 c))

theorem homeOf_lt (L : Nat) : homeOf L < 256 := by
  unfold homeOf
  refine Nat.xor_lt_two_pow (n := 8) (Nat.xor_lt_two_pow (Nat.xor_lt_two_pow ?_ ?_) (Nat.xor_lt_two_pow ?_ ?_)) ?_
  all_goals simp only [bits]; omega

theorem memReady_of_open {s : State} (hm : s.meshRuns = true) (ht : s.txns = []) (hp : s.pendQ = []) (hr : s.retryQ = [])
    (hg : s.msgs = []) (hc : s.chans = []) (hn : ∀ h, h < 256 → (s.routed (agentNi 256 h) h && s.routed h (agentIdx 256)) = true)
    (h : ∀ ch, ch < 24 → s.chanOpen ch = true) (hb : ∀ ch, ch < 24 → s.ns < s.trainDue ch ∧ s.forageDue ch = false) (a n d : Nat) (wr : Bool) :
    s.memReady a n d wr = true := by
  have hread (L : Nat) : s.readOpen L d = true := by
    have hch : chanOf L < 24 := Nat.mod_lt _ (by decide)
    simp [State.readOpen, State.chanLast, State.chanHas, State.arrayOpen, h _ hch, State.bankOpen, State.bankFree, State.maintDue,
      (hb _ hch).1, (hb _ hch).2, State.throttled, State.chan, hc, Tbl.get]
  have hopen (L : Nat) : s.homeOpen L d = true := by simp [State.homeOpen, hread]
  have hw (L : Nat) : s.writeOpen L d = true := by simp [State.writeOpen, hopen, State.chanHas, State.chan, hc, Tbl.get]
  have hq (L : Nat) : s.lineQuiet L = true := by
    simp [State.lineQuiet, State.lineBusy, State.fillWaits, ht, hp, hr, hg, State.chan, hc, Tbl.get]
  have hbz (L : Nat) : s.lineBusy L = false := by simp [State.lineBusy, ht]
  simp only [State.memReady, hm, Bool.true_and, List.all_eq_true]
  intro L _
  have := hn (homeOf L) (homeOf_lt L)
  cases wr <;> simp [State.reaches, this, hopen, hq, hbz, hw]

theorem witness_DomainEndsAndMigrates_out :
    let c := domCmd 0x0B [0x100000, 4096] 2 [] []
    let t := migState c
    Ordered t 63 0x0B c ∧ t.domSt 4095 = domPARKED ∧ (∀ n, n < 256 → t.slotReady n 4095 4096 false = true)
    ∧ 4096 * (1 + 0) ≤ c.d.par 1 ∧ c.d.par 0 + 4096 ≤ dramEnd ∧ t.memReady 0x100000 4096 0 true = true := by
  refine ⟨by unfold Ordered; decide +kernel, by decide +kernel, fun n _ => ?_, by decide +kernel, by decide +kernel, ?_⟩
  · have := memReady_of_open (s := migState (domCmd 0x0B [0x100000, 4096] 2 [] [])) (by decide +kernel) rfl rfl rfl rfl rfl
      (by decide +kernel) (by decide +kernel) (by decide +kernel) ((migState (domCmd 0x0B [0x100000, 4096] 2 [] [])).slotAddr 4095 n) 4096 0 false
    simp [State.slotReady, this]
  · exact memReady_of_open (s := migState (domCmd 0x0B [0x100000, 4096] 2 [] [])) (by decide +kernel) rfl rfl rfl rfl rfl
      (by decide +kernel) (by decide +kernel) (by decide +kernel) _ _ _ _

theorem witness_DomainEndsAndMigrates_out_slots :
    ((migState (domCmd 0x0B [0x100000, 4096] 2 [] [])).validSlots 4095).2 = ([], 0) := by decide +kernel

/-- The start of the image of a domain with no saved slot. -/
def migHeader : List Nat := [0x55, 0x4B, 0x4D, 0x49] ++ leBytes 2 1
theorem witness_DomainEndsAndMigrates_in :
    let masks := [mAll, mAll, fldMask (ctxBaseFlds 4095), fldMask (s2RootFlds 4095)]
    (let c := domCmd 0x0C [0, 4096] 0 [] []
     let s := cmd63 (regs []) c
     Ordered s 63 0x0C c ∧ c.d.okP true false masks = true ∧ s.clash 63 4095 [] = false ∧ s.domSt 4095 = domFREE
      ∧ 4096 ≤ c.d.par 1 ∧ c.d.par 1 % 4096 = 0 ∧ c.d.par 1 ≤ 4096 * 257)
    ∧ (let c := domCmd 0x0C [0, 64] 1 [] []
       let s := { cmd63 (regs []) c with llc := [(0, some ⟨lineB 0, false, 0⟩)] }
       Ordered s 63 0x0C c ∧ s.memReady 0 64 0 false = true ∧ (s.memRead 0 0 64).2.2 = false
        ∧ (s.memRead 0 0 64).1.imgBad (s.memRead 0 0 64).2.1 64 = stIMGBAD) := by
  unfold Ordered; decide +kernel

theorem witness_DomainEndsAndMigrates_in_good :
    let c := domCmd 0x0C [0, 4096] 1 [] []
    let s := { cmd63 (regs []) c with
      llc := (List.range 64).map (fun i => (i, some ⟨lineB (if i = 0 then ofLe migHeader else 0), false, 0⟩)) }
    let x := s.memRead 0 0 4096
    Ordered s 63 0x0C c ∧ s.memReady 0 4096 0 false = true ∧ x.2.2 = false ∧ x.1.imgBad x.2.1 4096 = 0
    ∧ leAt x.2.1 0x50 32 = 0 := by
  unfold Ordered; decide +kernel

/-- A job of engine 31 for domain 0, and the engine running it. -/
def job (op : Nat) (p : List Nat) : Job := { d := desc op p, idx := 0, ring := 63, ten := false, dom := 0 }
def runJob (j : Job) : State := { regs [] with engines := [(31, { run := some j })] }

theorem witness_CompressionEngines :
    (let j := job 0x10 [0, 128, 64, 0]
     let s := { regs [(R.BOOT_STAT_DONE, 1)] with engines := [(31, { hostq := [j] })] }
     (s.engine 31).run = none ∧ s.f R.BOOT_STAT_DONE = 1 ∧ s.isFatal = false ∧ s.engTest 31 = false ∧ s.cmds = []
      ∧ (s.engine 31).hostq = [j] ∧ (∀ t, t < 64 → s.tenWork 31 t = false) ∧ j.ten = false ∧ s.jobCheck j = none)
    ∧ (∀ p ∈ [(0x10, [0, 128, 64, 0]), (0x12, [0, 64, 128, 64, 0]), (0x13, [0, 64, 128, 64, 0])],
       let j := job p.1 p.2
       let s := { runJob j with llc := [(0, some copy7), (2, some copy7)] }
       (s.engine 31).run = some j ∧ j.stop = false ∧ j.wait = 0 ∧ j.part = 0 ∧ j.dpos ≠ j.d.dstOf.2 ∧ j.spos < j.d.srcOf.2
        ∧ j.buf.length < linePart j.d.dstOf.1 j.dpos j.d.dstOf.2
        ∧ s.jobLoc j (j.d.srcOf.1 + j.spos) false = .loc 0 ∧ linePart j.d.srcOf.1 j.spos j.d.srcOf.2 = 64
        ∧ s.memReady 0 64 j.agentDom false (258 + 31) = true ∧ (s.memRead j.agentDom 0 64).2.2 = false
        ∧ (s.memRead j.agentDom 0 64).2.1.length = 64)
    ∧ (∀ p ∈ [(0x10, [0, 128, 64, 0]), (0x11, [128, 64, 7, 0]), (0x12, [0, 64, 128, 64, 0]), (0x13, [0, 64, 128, 64, 0])],
       let j := { job p.1 p.2 with buf := List.replicate 64 5, part := if p.1 < 0x12 then 0 else 1 }
       let s := { runJob j with llc := [(2, some copy7)] }
       linePart j.d.dstOf.1 j.dpos j.d.dstOf.2 ≤ j.buf.length ∧ j.dpos ≠ j.d.dstOf.2 ∧ j.buf ≠ []
        ∧ s.jobLoc j (j.d.dstOf.1 + j.dpos) true = .loc 128 ∧ j.next.length = 64 ∧ s.memReady 128 64 j.agentDom true (258 + 31) = true
        ∧ (s.memWrite j.agentDom 128 j.next j.d.pol).2 = false)
    ∧ (∀ p ∈ [(0x10, [0, 128, 64, 0]), (0x11, [128, 64, 7, 0])],
       let j := { job p.1 p.2 with dpos := 64 }
       let e := { job p.1 p.2 with wait := 3 }
       j.dpos = j.d.dstOf.2 ∧ j.wait = 0 ∧ e.wait = 3 ∧ e.ten = false ∧ e.spos = 0 ∧ (runJob e).cmds = []) := by decide +kernel

theorem witness_CompressionEngines_converts :
    (let j := { job 0x13 [0, 64, 128, 64, 0] with spos := 64, buf := [] }
     j.part = 0 ∧ j.d.srcOf.2 ≤ j.spos)
    ∧ (let j := { job 0x12 [0, 0, 128, 4096, 0] with buf := [] }
       j.d.srcOf.2 ≤ j.spos ∧ (pack j.buf (bits j.d.ctl 8 5) (bits j.d.ctl 6 2)).length ≤ j.d.par 3)
    ∧ (match unpack (pack [] 12 1) 0 with | .inr out => out == [] | .inl _ => false) = true
    ∧ (let head := [0x55, 0x4B, 0x43, 0x5A, 1, 12, 0, 0] ++ leBytes 8 4096 ++ leBytes 4 (2 ^ 31 + 4096) ++ leBytes 4 4096 ++ List.replicate 40 0
       let j := { job 0x13 [0, 4128, 8192, 4096, 0] with spos := 64 }
       head.length = 64 ∧ ({ j with buf := head } : Job).early = none
        ∧ ({ j with buf := 0 :: head.drop 1 } : Job).early = some (csCONT, 0)) := by decide +kernel

/-- Tenant ring 63 of engine 31, of domain 0, with one job to fetch. -/
theorem witness_CompressionEngines_tenant :
    let d := desc 0x11 [0, 64, 7, 1, 0, 0]
    let b := [0x11, 0] ++ List.replicate 14 0 ++ leBytes 8 0 ++ leBytes 8 64 ++ leBytes 8 7 ++ leBytes 8 1 ++ List.replicate 16 0
    let s := { regs [(R.BOOT_STAT_DONE, 1), (R.CMP_TR_CFG_EN 31 63, 1), (R.CMP_TR_CFG_DOMAIN 31 63, 4095), st4095 2,
        (R.TR_STAT_STATE 31 63, rgRUN), (R.TR_DB_PROD 31 63, 1), (R.DOM_S2ROOT_V 4095, 1), (R.DOM_S2ROOT_BASE 4095, 512)] with
      llc := [(0, some ⟨⟨BitVec.ofNat 512 (ofLe b), 0, 0⟩, false, 0⟩), (64, some ⟨⟨BitVec.ofNat 512 (2 ^ 0 + 2 ^ 2 + 2 ^ 3 + 7 * 2 ^ 8), 0, 0⟩, false, 0⟩)] }
    (s.engine 31).run = none ∧ (s.engine 31).hostq = [] ∧ (∀ t, t < 64 → s.tenWork 31 t = decide (t = 63)) ∧ s.cmds = []
    ∧ s.jobLoc ⟨{}, 0, 63, true, 4095, 0, 0, [], 0, 0, false⟩ 0 false = .loc 0 ∧ s.memReady 0 64 4095 false (258 + 31) = true
    ∧ (s.memRead 4095 0 64).2 = (b, false) ∧ (s.memRead 4095 0 64).1.csr = s.csr
    ∧ descOf b = d ∧ isJob d.op = true ∧ jobRefuse d true = none := by decide +kernel

theorem witness_SelfTests :
    (∀ p ∈ [(1, 255), (2, 255), (3, 255), (4, 23), (5, 31), (6, 31), (7, 15), (0x10, 2 ^ 24 - 1), (0x11, 0)],
      let c : Cmd := { d := desc 0x25 [p.1, p.2], idx := 0 }
      let s := cmd63 (regs [(R.BOOT_STAT_SELFTEST, 1), (R.PWR_MESHQ_STATE, 2), (R.HIV_KSTAT_STATE 31, 2), (R.FAB_PORT_STAT_STATE 15, 4)]) c
      Ordered s 63 0x25 c ∧ c.d.okP false false [mAll, mAll] = true ∧ c.d.par 0 = p.1 ∧ c.d.par 1 = p.2 ∧ s.fused 255 = false
        ∧ s.clash 63 0 [255] = false)
    ∧ (let s := regs [(R.BOOT_STAT_SELFTEST, 1), (R.PWR_MESHQ_STATE, 2), (R.HIV_KSTAT_STATE 31, 2), (R.FAB_PORT_STAT_STATE 15, 4)]
       s.f R.BOOT_STAT_SELFTEST = 1 ∧ s.f R.PWR_MESHQ_STATE = 2 ∧ s.f (R.HIV_KSTAT_STATE 31) = 2 ∧ s.f (R.CMP_STAT_BUSY 31) = 0
        ∧ s.f (R.CMP_STAT_HOSTQ 31) = 0 ∧ (∀ t, t < 64 → s.f (R.CMP_TR_CFG_EN 31 t) = 0) ∧ s.f (R.FAB_PORT_STAT_STATE 15) = 4
        ∧ (regs []).f R.BOOT_STAT_SELFTEST ≠ 1) := by
  unfold Ordered; decide +kernel

theorem witness_SelfTests_tiles :
    (let c : Cmd := { d := desc 0x25 [1, 255], idx := 0, phase := 1, aux := [255] }
     let s := { cmd63 (regs []) c with cores := haltedCores }
     Ordered s 63 0x25 c ∧ s.l2Still 255 = true ∧ s.gcDirty 255 = [] ∧ s.gcOut 255 = false)
    ∧ (let c : Cmd := { d := desc 0x25 [1, 255], idx := 0 }
       let s := { cmd63 (regs []) c with cores := [(510, { waitev := true }), (511, { waitev := true })] }
       let t := { cmd63 (regs []) c with cores := [(510, { run := true })] }
       s.tileQuiet 255 = true ∧ t.tileQuiet 255 = false)
    ∧ (∀ code ∈ [1, 2, 4], let c : Cmd := { d := desc 0x25 [code, 23], idx := 0, phase := 2 }
       let s := cmd63 (regs []) c
       Ordered s 63 0x25 c ∧ s.paired 23 = false)
    ∧ (∀ x ∈ [0, 1], let s := regs [(R.MEM_STAT_TRAINED 23, 1), (R.MEM_TRAIN_STAT_DEFERRED 23, x)]
       bitOf (2 ^ 24 - 1) 23 = true ∧ s.chanOpen 23 = true ∧ s.f (R.MEM_TRAIN_STAT_DEFERRED 23) = x) := by
  unfold Ordered; decide +kernel

theorem witness_Metering :
    (let p : MPer := { isOpen := true }
     let s := { regs [] with mper := [(4095, p)], time := 60000000000 }
     s.mbound ≤ s.time ∧ s.isFatal = false ∧ s.mper = [(4095, p)] ∧ s.backlog.length < 8192)
    ∧ (let rs := [(R.MTR_CTL_EN, 1), (R.HEP_OWIN_V 0, 1), (R.HEP_OWIN_LOG2SZ 0, 32), (R.MTR_RING_BASE_BASE, 2 ^ 32)]
       let at_ := 2 ^ 32 * 4096
       let s := { regs rs with backlog := [⟨List.replicate 128 0, true⟩], cfg := [(0x004, some 6)] }
       s.f R.MTR_CTL_EN = 1 ∧ s.mstall = false ∧ s.isFatal = false ∧ s.contained = false ∧ s.bme = true ∧ s.outq = []
        ∧ (s.f R.MTR_RING_HEAD_HEAD + 2 ^ 32 - s.f R.MTR_RING_TAIL_TAIL) % 2 ^ 32 < 2 ^ min 16 (max 6 (s.f R.MTR_RING_SIZE_LOG2N))
        ∧ s.f R.MTR_RING_BASE_BASE * 4096 + s.f R.MTR_RING_HEAD_HEAD % 64 * 128 = at_ ∧ inHost at_ 128 = true ∧ s.outRefuse (some at_) = none
        ∧ ({ s with cfg := [] } : State).outRefuse (some at_) ≠ none ∧ inHost 0 128 = false)
    ∧ (let c : Cmd := { d := desc 0x22 [3600, 32 + 56 * 256 + 73 * 65536, 1], idx := 0 }
       let s := cmd63 (regs []) c
       Ordered s 63 0x22 c ∧ c.d.okP false false [mLow 12, 0x7F7F7F, 1] = true ∧ mtrBandsOk (c.d.par 1) = true ∧ s.time < s.mbound)
    ∧ (let c : Cmd := { d := desc 0x26 [2 ^ 64 - 1], idx := 0 }
       Ordered (cmd63 (regs []) c) 63 0x26 c ∧ c.d.okP false false [mAll] = true) := by
  unfold Ordered; decide +kernel

/-- The link is up, Bus Master Enable set, window 0 of each kind open. -/
def hostRegs : List (Fld × Nat) := [(R.HEP_STAT_LINKUP, 1), (R.HEP_OWIN_V 0, 1), (R.HEP_OWIN_LOG2SZ 0, 32), (R.HEP_IWIN_V 0, 1),
  (R.HEP_IWIN_LOG2SZ 0, 32), (R.HEP_IWIN_RD 0, 1), (R.HEP_IWIN_WR 0, 1), (R.BOOT_STAT_DONE, 1)]
def host (l : List (Fld × Nat)) : State := { regs (hostRegs ++ l) with cfg := [(0x004, some 6)] }
def htag (o : HOrig) : HTag := ⟨5, ⟨o, false, 0, 8, [], false⟩, 0⟩

theorem witness_HostTraffic :
    (let s := host []
     s.linkUp = true ∧ 0xFFC < 4096 ∧ 0xFFC % 4 = 0 ∧ s.f R.BOOT_STAT_DONE = 1 ∧ s.inFlr = false ∧ (regs []).f R.BOOT_STAT_DONE = 0
      ∧ bar0Ok 0x30_0000 4 = true ∧ s.inbRefused (bar0Fatal 0x30_0000) = false ∧ ctlForm 0x30_0000 4 = true
      ∧ bar0Ok 0x30_0000 2 = true ∧ ctlForm 0x30_0000 2 = false
      ∧ 0x7FFC < 0x8000 ∧ 0x7FFC % 4 = 0 ∧ s.inbRefused false = false)
    ∧ (let s := host [(R.HEP_DV_STAT_STATE, 1)]
       s.linkUp = true ∧ s.contained = true)
    ∧ (let s := { host [] with llc := [(1, some copy7)] }
       bar2Ok 64 64 = true ∧ s.bar2At 64 64 false = .inl 64 ∧ s.bar2At 64 64 true = .inl 64 ∧ 64 % 64 + 64 ≤ 64
        ∧ llcHolds s 64 64 = true ∧ s.memReady 64 64 0 false = true ∧ s.memReady 64 64 0 true = true
        ∧ bar2Ok (2 ^ 32) 64 = true ∧ (match s.bar2At (2 ^ 32) 64 false with | .inr _ => true | .inl _ => false) = true
        ∧ (match s.bar2At (2 ^ 32) 64 true with | .inr _ => true | .inl _ => false) = true) := by decide +kernel

theorem witness_HostTraffic_messages :
    (let s := { host [(R.EVT_CFG_TKIND 512, 3), (R.EVT_CFG_EN 512, 1), (R.EVT_STAT_PEND 512, 1), (R.EVT_CFG_TARGET 512, 2047)] with
        cfg := [(0x004, some 6), (0x090, some 0x80000000)], msix := [(2047, { mask := false })] }
     s.linkUp = true ∧ s.f (R.EVT_CFG_TKIND 512) = 3 ∧ s.evtEn 512 = true ∧ s.f (R.EVT_STAT_PEND 512) = 1 ∧ s.f (R.EVT_STAT_HELD 512) = 0
      ∧ s.f (R.EVT_STAT_ACTIVE 512) = 0 ∧ s.msixOpen (s.f (R.EVT_CFG_TARGET 512)) = true ∧ s.outq = []
      ∧ (∀ x ∈ s.pendSrcs, s.msixReady x = true → s.f (R.EVT_CFG_PRI x) ≤ s.f (R.EVT_CFG_PRI 512)))
    ∧ (let k : Wait := ⟨0, 5, .load, 0x1000_0000_0000, 0x1000_0000_0000, 8, .g 1 8 false, ⟨0, .off, true⟩⟩
       let s := { host [] with htags := [htag (.core 511)], cores := [(511, { run := true, wait := some k })] }
       s.htags = [htag (.core 511)] ∧ (htag (.core 511)).tag = 5 ∧ s.outq = [] ∧ (s.core 511).wait = some k ∧ k.net = 0)
    ∧ (let s := { host [] with htags := [htag .gone] }
       (htag .gone).till ≤ s.ns ∧ (htag .gone).req.orig = .gone)
    ∧ (let s := { host [] with hquar := [(5, 0)] }
       s.linkUp = true ∧ s.htags = [] ∧ s.hquar.any (·.1 == 5) = true ∧ 0 ≤ s.ns ∧ s.outq = []) := by decide +kernel

theorem witness_ContainmentLeavesAndReturns :
    (let s := host [(R.CMD_RING_STAT_STATE 63, 1)]
     63 < 64 ∧ 255 < 256 ∧ s.pins.inPor = false ∧ s.linkUp = true ∧ s.outq = [] ∧ s.htags = [] ∧ s.inFlr = false
      ∧ s.bme = true ∧ s.d3 = false ∧ Tbl.get none s.heldC 63 = none ∧ s.cmd 63 = none ∧ s.ringState 63 = rgRUN ∧ s.heldC = []
      ∧ s.f R.HEP_DV_STAT_STATE = 0 ∧ ∀ e ∈ s.heldC, e.2 = none)
    ∧ (let s := { host [(R.CMD_RING_STAT_STATE 63, 3)] with cfg := [] }
       s.linkUp = true ∧ s.bme = false ∧ s.d3 = false ∧ s.ringState 63 = rgBME)
    ∧ (let s := regs [(R.HEP_STAT_LINKUP, 0)]
       s.f R.HEP_STAT_LINKUP = 0 ∧ 1 ≤ 6 ∧ 6 ≤ 6 ∧ 16 ∈ [1, 2, 4, 8, 16])
    ∧ (let s := host [(R.HEP_DV_STAT_STATE, 1), (R.HEP_DV_STAT_LINKUP, 1)]
       let t := host [(R.HEP_DV_STAT_STATE, 1)]
       let u := host [(R.HEP_DV_STAT_STATE, 2)]
       s.f R.HEP_DV_STAT_STATE = 1 ∧ s.f R.HEP_DV_STAT_LINKUP = 1 ∧ s.inFlr = false
        ∧ t.f R.HEP_DV_STAT_LINKUP = 0 ∧ u.f R.HEP_DV_STAT_STATE = 2)
    ∧ (host [(R.HEP_STAT_FLR, 1)]).inFlr = true
    ∧ (∀ z ∈ [12, 32], bits (z * 2 ^ 46) 46 6 = z ∧ bits (z * 2 ^ 46) 3 2 ≠ 3 ∧ bits (z * 4) 2 6 = z)
    ∧ (bits (1 + 11 * 4) 2 6 < 12 ∧ 32 < bits (1 + 33 * 4) 2 6 ∧ (1 + 11 * 4) % 2 = 1) := by decide +kernel

theorem witness_CommandRings :
    (let s := host [(R.CMD_STAT_READY, 1), (R.CMD_RING_STAT_STATE 63, 1), (R.CMD_RING_CFG_EN 63, 1), (R.CMD_RING_DB_PROD 63, 1), (R.CMD_RING_BASE_BASE 63, 2 ^ 32)]
     s.f R.CMD_STAT_READY = 1 ∧ s.isFatal = false ∧ s.f (R.CMD_RING_STAT_STATE 63) = 1 ∧ s.f (R.CMD_RING_CFG_EN 63) = 1
      ∧ s.f (R.CMD_RING_DB_PROD 63) ≠ s.f (R.CMD_RING_CONS_CONS 63) ∧ s.cmd 63 = none ∧ Tbl.get none s.heldC 63 = none
      ∧ s.ringReading 63 = false ∧ (s.f (R.CMD_CQ_HEAD_HEAD 63) + 2 ^ 32 - s.f (R.CMD_CQ_TAIL_TAIL 63)) % 2 ^ 32 ≠ 2 ^ min 16 (max 6 (s.f (R.CMD_RING_CFG_LOG2N 63)))
      ∧ s.outq = [] ∧ s.f (R.CMD_RING_BASE_BASE 63) * 4096 = 2 ^ 44 ∧ inHost (2 ^ 44) 64 = true ∧ s.outRefuse (some (2 ^ 44)) = none
      ∧ s.freeHTag = some 0 ∧ ({ s with cfg := [] } : State).outRefuse (some (2 ^ 44)) ≠ none ∧ inHost 0 64 = false)
    ∧ (let s := regs [(R.CMD_CQ_HEAD_HEAD 63, 64)]
       (s.f (R.CMD_CQ_HEAD_HEAD 63) + 2 ^ 32 - s.f (R.CMD_CQ_TAIL_TAIL 63)) % 2 ^ 32 = 2 ^ min 16 (max 6 (s.f (R.CMD_RING_CFG_LOG2N 63))))
    ∧ (∀ x ∈ [2, 4], let s := host [(R.CMD_RING_STAT_STATE 63, x)]
       s.f (R.CMD_RING_STAT_STATE 63) = x ∧ s.contained = false ∧ Tbl.get none s.heldC 63 = none ∧ s.bme = true ∧ s.d3 = false
        ∧ ({ s with cfg := [] } : State).bme = false)
    ∧ (let c : Cmd := { d := desc 1 [], idx := 0 }
       ∀ x ∈ [1, 3, 4], let s := { host [(R.CMD_RING_STAT_STATE 63, x), (R.CMD_RING_CFG_EN 63, 1), (R.CMD_CQ_BASE_BASE 63, 2 ^ 32)] with cmds := [(63, some c)] }
       s.cmd 63 = some c ∧ c.d.dom < 4096 ∧ c.orphan = false ∧ c.d.flags = 0 ∧ s.f (R.CMD_RING_CFG_EN 63) = 1
        ∧ s.f (R.CMD_RING_STAT_STATE 63) = x ∧ s.outq = [] ∧ s.f (R.CMD_CQ_BASE_BASE 63) * 4096 = 2 ^ 44 ∧ inHost (2 ^ 44) 16 = true
        ∧ s.outRefuse (some (2 ^ 44)) = none) := by
  decide +kernel

/-- A frame of body `v` with its CRC. -/
def frame (v : Nat) : BitVec 336 := BitVec.ofNat 336 (v + frameCrc v * 2 ^ 320)
/-- A one-flit reply that ends at device 0 after one hop, in sequence. -/
def ackFrame : BitVec 336 := frame (({ ptr := 1, nhop := 1, ty := 9, tag := 5 } : Pkt).header.toNat + 2 ^ 290)

theorem witness_FabricPortsAndLinks :
    (let s := regs [(R.FAB_PORT_STAT_STATE 15, 2), (R.FAB_DEVNUM_LOCK, 1)]
     let f := (frame 0).toNat
     let g := ackFrame.toNat
     let x := s.port 15
     let pk := Pkt.ofFlits [ackFrame.truncate 288] (bits g 288 2)
     s.f (R.FAB_PORT_STAT_STATE 15) = 2 ∧ bits (f + 2 ^ 320) 320 16 ≠ frameCrc (f + 2 ^ 320)
      ∧ (bits f 320 16 = frameCrc f ∧ f.testBit 313 = false ∧ x.unack = [] ∧ x.q = [] ∧ f.testBit 290 = false)
      ∧ (bits g 320 16 = frameCrc g ∧ g.testBit 313 = false ∧ g.testBit 290 = true ∧ bits g 291 11 = x.rxSeq ∧ x.asm = []
        ∧ flitsOf (ackFrame.truncate 288) = 1 ∧ s.f R.FAB_DEVNUM_LOCK = 1 ∧ tyKnown pk.ty = true ∧ 0 < pk.ptr ∧ pk.ptr = pk.nhop
        ∧ pk.nhop ≤ 24 ∧ pk.dstDev = s.ownDev)
      ∧ bits (frame (2 ^ 290 + 2 ^ 291)).toNat 291 11 ≠ x.rxSeq)
    ∧ (∀ n ∈ [0, 15, 16], let s := { (regs [(R.FAB_PORT_STAT_STATE 15, 3)]).setPort 15 { unack := [(0, 0)], tries := n } with ns := 384 }
       (s.port 15).sentAt.headD 0 + 384 ≤ s.ns ∧ s.f (R.FAB_PORT_STAT_STATE 15) = 3 ∧ (s.port 15).unack ≠ [] ∧ (s.port 15).tries = n ∧ (s.port 15).q = [])
    ∧ (∀ d ∈ [0, 1], let s := regs [(R.FAB_PORT_CTL_EN 15, 1), (R.FAB_PORT_STAT_STATE 15, 1), (R.FAB_PORT_CTL_DRAIN 15, d)]
       s.f (R.FAB_PORT_CTL_EN 15) = 1 ∧ s.f (R.FAB_PORT_STAT_STATE 15) = 1 ∧ s.f (R.FAB_PORT_CTL_DRAIN 15) = d)
    ∧ (let s := (regs [(R.FAB_PORT_STAT_STATE 15, 2), (R.FAB_HOLD_US, 1)]).setPort 15 { q := [{}] }
       s.f (R.FAB_PORT_STAT_STATE 15) = 2 ∧ (s.port 15).q ≠ [] ∧ (s.port 15).hold.length + (s.port 15).q.length ≤ 64
        ∧ s.f R.FAB_HOLD_US ≠ 0)
    ∧ (let s := regs [(R.FAB_PORT_STAT_STATE 15, 3)]
       s.f (R.FAB_PORT_STAT_STATE 15) = 3 ∧ (s.port 15).unack = [] ∧ (s.port 15).asm = [] ∧ (s.port 15).q = [])
    ∧ (regs [(R.FAB_PORT_STAT_STATE 15, 4)]).f (R.FAB_PORT_STAT_STATE 15) = 4
    ∧ (∀ k ∈ [({ ty := 9 } : Pkt), { ty := 1, ptr := 1 }],
       let s := { (regs []).setPort 15 { hold := [(k, 0)] } with ns := 10 ^ 12 }
       (s.port 15).hold = [(k, 0)] ∧ 0 + s.f R.FAB_HOLD_US * 1000 ≤ s.ns ∧ k.isReply = (k.ty == 9) ∧ k.srcDev = s.ownDev) := by
  decide +kernel

/-- R456: with credits for one packet, the input after the last served one has its turn, and a reply goes before it. -/
theorem test_port_turns :
    (let k (i : Nat) : Pkt := { ty := 1, hop := [0, i, 15], ptr := 3, nhop := 3 }
     let x : Port := { q := [k 3, k 7], rr := [5, 0, 0, 0], cred := [1, 0, 9, 0] }
     let t := fun (x : Port) => (((regs []).setPort 15 x).pump 15).port 15
     (t x).q = [k 3] ∧ (t x).rr = [7, 0, 0, 0] ∧ (t { x with first := 1 }).q = [k 7]
      ∧ (t { x with q := [k 3, { ty := 9, ptr := 1 }] }).unack.map (·.1) = [2, 0]) := by decide +kernel

theorem witness_FabricNumbersRoutesAndTransit :
    (let k : Pkt := { ty := 9, hop := [0, 15], ptr := 1, nhop := 2 }
     let s := { regs [(R.FAB_HOLD_US, 1)] with transit := [k] }
     let t := { regs [(R.FAB_PORT_STAT_STATE 15, 2)] with transit := [k] }
     k.hop.getD k.ptr 0 = 15 ∧ s.f (R.FAB_PORT_STAT_STATE 15) ≠ 2 ∧ (s.port 15).hold.length < 64 ∧ s.f R.FAB_HOLD_US ≠ 0
      ∧ t.f (R.FAB_PORT_STAT_STATE 15) = 2 ∧ (t.port 15).q = [] ∧ k.flits ≤ (t.port 15).cred.getD k.vc 0
      ∧ (t.port 15).unack.length + k.flits ≤ 1024
      ∧ ({ k with hop := [0, 16] } : Pkt).hop.getD 1 0 = 16 ∧ k.isReply = true)
    ∧ (let s := regs []
       let t := { s with staged := [(0x920000 + 16 * 255 + 8, some 5), (0x920000 + 16 * 255 + 12, some 6)] }
       s.stagedAt (0x920000 + 16 * 255 + 8) = none ∧ s.stagedAt (0x920000 + 16 * 255 + 12) = none
        ∧ t.stagedAt (0x920000 + 16 * 255 + 8) = some 5 ∧ t.stagedAt (0x920000 + 16 * 255 + 12) = some 6)
    ∧ (∀ v ∈ [0, 2 ^ 127 - 1], let c : Cmd := { d := desc 0x23 [262143, 1, 64], idx := 0 }
       let s := { cmd63 (regs []) c with llc := [(1, some ⟨lineB v, false, 0⟩)] }
       Ordered s 63 0x23 c ∧ c.d.okP false false [mAll, mAll, mAll] = true ∧ c.d.par 0 + c.d.par 1 ≤ 262144
        ∧ s.memReady 64 16 0 false = true ∧ (s.memRead 0 64 16).2.2 = false ∧ (s.memRead 0 64 16).1 = s)
    ∧ (∀ lp ∈ [0, 1, 2], let c : Cmd := { d := desc 0x21 [4, 2 ^ 15 + lp * 2 ^ 16], idx := 0 }
       let s := cmd63 (regs [(R.FAB_PORT_STAT_STATE 15, 4)]) c
       Ordered s 63 0x21 c ∧ c.d.okP false false [0xFF, mLow 18] = true ∧ bits (c.d.par 1) 16 2 = lp
        ∧ (∀ p, p < 16 → (bits (c.d.par 1) 0 16).testBit p = true → s.f (R.FAB_PORT_STAT_STATE p) = 4)) := by
  unfold Ordered; decide +kernel

/-- A request from this device at a window that admits everything of source device 0's domain 0. -/
def request (k : Pkt) : State :=
  { regs [(R.FAB_RWIN_V 255, 1), (R.FAB_RWIN_LOG2SZ 255, 46), (R.FAB_RWIN_D0 255, 1), (R.FAB_RWIN_R 255, 1), (R.FAB_RWIN_W 255, 1),
      (R.FAB_RWIN_A 255, 1), (R.FAB_RWIN2_DOM 255, 4095)] with
    fabIn := [k], llc := [(1, some copy7)] }

theorem witness_FabricRequestsServed :
    (∀ p ∈ [(1, 64, false), (2, 64, false), (3, 8, false), (3, 4, true), (3, 64, true), (4, 8, false)],
      let k : Pkt := { ty := p.1, d0 := true, loc := 64, lkonly := p.2.2, sz := p.2.1 != 4, op := 2 }
      let s := request k
      s.fabIn = [k] ∧ s.isFatal = false ∧ s.meshRuns = true ∧ s.ownerCopy 1 = none ∧ s.llcE 1 = some copy7 ∧ copy7.d.poison = 0
        ∧ (∀ g ∈ [R.FAB_RWIN_R, R.FAB_RWIN_W, R.FAB_RWIN_A], s.rwinDom k (k.loc / p.2.1 * p.2.1) p.2.1 g = some 4095)
        ∧ s.memReady 64 p.2.1 4095 true 257 = true ∧ s.memReady 64 p.2.1 4095 false 257 = true ∧ k.chk = 0 ∧ bits k.aux 0 8 = 0
        ∧ k.srcDev = s.ownDev ∧ (AtomOp.of 2).isSome = true)
    ∧ (let k : Pkt := { ty := 1, loc := 64 }
       let s := { request k with csr := [] }
       s.rwinDom k 64 64 R.FAB_RWIN_R = none) := by decide +kernel

/-- A message to endpoint 5 of domain 4095, whose stage-2 tables map it to itself. -/
theorem witness_FabricRequestsServed_message :
    let k : Pkt := { ty := 5, ep := 5, aux := 48 }
    let leaf : LlcE := ⟨⟨BitVec.ofNat 512 (2 ^ 0 + 2 ^ 2 + 2 ^ 3 + 7 * 2 ^ 8), 0, 0⟩, false, 0⟩
    let s := { regs [(R.FAB_EP_EN 5, 1), (R.FAB_EP_OWNER 5, 4095), (R.DOM_S2ROOT_V 4095, 1), (R.DOM_S2ROOT_BASE 4095, 512)] with
      fabIn := [k], llc := [(0, some ⟨lineB 0, false, 0⟩), (1, some copy7), (64, some leaf)] }
    let r := s.memRead 4095 0 8
    s.f (R.FAB_EP_EN 5) = 1 ∧ s.f (R.FAB_EP_OWNER 5) ≠ 0 ∧ s.dpaLoc 4095 0 true = some 0 ∧ s.memReady 0 8 4095 true 257 = true
    ∧ r.2 = ([0, 0, 0, 0, 0, 0, 0, 0], false) ∧ r.1.dpaLoc 4095 64 true = some 64 ∧ s.memReady 64 64 4095 true 257 = true
    ∧ (r.1.memWrite 4095 64 (List.replicate 64 0) .clear).2 = false ∧ s.f (R.FAB_EP_EVT_EN 5) = 0 := by decide +kernel

/-- A reply waits, and its request's tag is held by `o`. -/
def reply (k : Pkt) (o : FOrig) : State := { regs [(R.FAB_TAGS_INUSE, 1)] with fabIn := [k], ftags := [⟨5, o, 0, 0, 0, 0⟩] }

theorem witness_FabricRepliesAndSendRings :
    (∀ ty ∈ [8, 11, 12], let k : Pkt := { ty := ty, tag := 5, op := 1 }
      let s := reply k (.job 31)
      s.fabIn = [k] ∧ s.isFatal = false ∧ s.ftags = [⟨5, .job 31, 0, 0, 0, 0⟩] ∧ k.op ≠ 0)
    ∧ (let p : Posted := { fab := true, tag := 5, pa := 64, ea := 64, pc := 0, priv := .M, lk := ⟨0, .off, true⟩, acc := .store }
       let s := { reply { ty := 9, tag := 5 } (.post 511) with cores := [(511, { posted := [p] })] }
       p.fab = true ∧ p.tag = 5 ∧ (s.core 511).posted = [p])
    ∧ (let w : Wait := ⟨1, 5, .atomic, 64, 64, 8, .g 1 8 true, ⟨0, .off, true⟩⟩
       let s := { reply { ty := 10, tag := 5 } (.core 511) with cores := [(511, { wait := some w })] }
       (s.core 511).wait = some w ∧ w.net = 1 ∧ w.acc = .atomic)
    ∧ (let s := { regs [(R.FAB_DEVNUM_LOCK, 1)] with fquar := [(5, 0)] }
       s.f R.FAB_DEVNUM_LOCK = 1 ∧ s.ownDev = 0 ∧ origTile (.core 511) = some 255 ∧ s.linked 255 281 = true ∧ s.freeFTag = some 0 ∧ s.fquar = [(5, 0)] ∧ 0 ≤ s.ns ∧ s.ftags = []
        ∧ s.fquar.any (·.1 == 5) = true) := by decide +kernel

theorem witness_FabricRepliesAndSendRings_ring :
    let leaf : LlcE := ⟨⟨BitVec.ofNat 512 (2 ^ 0 + 2 ^ 2 + 2 ^ 3 + 7 * 2 ^ 8), 0, 0⟩, false, 0⟩
    let s := { regs [(R.FAB_SQ_CFG_EN 95, 1), (R.FAB_SQ_CFG_DOMAIN 95, 4095), (R.SQ_STAT_STATE 95, 1), (R.SQ_DB_PROD 95, 1),
        (R.FAB_EP_OWNER 0, 4095), (R.DOM_S2ROOT_V 4095, 1), (R.DOM_S2ROOT_BASE 4095, 512), (R.FAB_DEVNUM_LOCK, 1)] with
      llc := [(0, some copy7), (64, some leaf)] }
    s.ftags = [] ∧ s.f (R.FAB_SQ_CFG_EN 95) = 1 ∧ s.f (R.SQ_STAT_STATE 95) = rgRUN ∧ s.f (R.SQ_DB_PROD 95) ≠ s.f (R.SQ_CONS_CONS 95)
    ∧ s.isFatal = false ∧ s.dpaLoc 4095 0 false = some 0 ∧ s.memReady 0 64 4095 false 257 = true ∧ (s.memRead 4095 0 64).2.2 = false
    ∧ s.f (R.FAB_EP_OWNER (s.f (R.FAB_SQ_CFG_SRCEP 95))) = 4095 := by decide +kernel

/-- A counter that counts: enabled, event `e`, nothing frozen, unit's own domain. -/
def counting (set n k e : Nat) (l : List (Fld × Nat)) : State := regs ([(pmcEN set n k, 1), (pmcEVENT set n k, e)] ++ l)

theorem witness_PerformanceCounters_writes :
    (regs []).pmcThere 0 511 7 = true ∧ (regs []).pmcThere 4 15 3 = true ∧ (regs []).pmcThere 4 15 4 = false
    ∧ pmcCode 0 (bits (0x200001D : W32).toNat 1 10) = true ∧ (0x200001D : W32).toNat.testBit 20 = false
    ∧ pmcCode 4 (bits (0x10070B : W32).toNat 1 10) = true ∧ (0x10070B : W32).toNat.testBit 20 = true
    ∧ pmcCode 0 (bits (0x1F : W32).toNat 1 10) = false := by decide +kernel

theorem witness_PerformanceCounters_counts :
    (let s := counting 4 15 3 0x385 []
     s.pmcRuns 4 15 3 = true ∧ s.f (pmcVALUE 4 15 3) + (2 ^ 48 - 1) < 2 ^ 48 ∧ 3 + 1 = pmcCount 4)
    ∧ (let s := (counting 0 511 6 0xE [(pmcVALUE 0 511 6, 2 ^ 48 - 1), (pmcEN 0 511 7, 1), (pmcCHAIN 0 511 7, 1)]).setCore 511 { run := true }
       let t := { s with csr := s.csr }
       t.pmcRuns 0 511 6 = true ∧ t.paired 255 = false ∧ 2 ^ 48 ≤ t.f (pmcVALUE 0 511 6) + 1 ∧ t.f (pmcEVTEN 0 511 6) = 0
        ∧ 6 + 1 < pmcCount 0 ∧ t.f (pmcEN 0 511 7) = 1 ∧ t.f (pmcCHAIN 0 511 7) = 1 ∧ t.f (pmcVALUE 0 511 7) < 2 ^ 48 - 1)
    ∧ (let s := counting 3 23 0 0x300 [(pmcTHRMODE 3 23 0, 1), (pmcTHR 3 23 0, 255)]
       s.pmcRuns 3 23 0 = true ∧ s.f (pmcTHRMODE 3 23 0) ≠ 0 ∧ s.f (pmcTHR 3 23 0) < 256 ∧ ¬ s.f (pmcTHR 3 23 0) < 255)
    ∧ (let s := counting 3 0 0 0x300 [(pmcVALUE 3 0 0, 2 ^ 48 - 1), (pmcCHAIN 3 0 1, 1)]
       s.pmcRuns 3 0 0 = true ∧ 2 ^ 48 ≤ s.f (pmcVALUE 3 0 0) + 1 ∧ s.f (pmcEVTEN 3 0 0) = 0 ∧ s.f (pmcEN 3 0 1) ≠ 1) := by decide +kernel

theorem witness_PerformanceCounters_control_registers :
    (∀ p ∈ [Priv.M, .S, .U], let s := { oneCore 511 { priv := p } with tileDom := [(255, 5)] }
      let t := { s with csr := (regs [(pmcOWNER 0 511 7, 5), (pmcUREAD 0 511 7, 1)]).csr }
      ReadyP 511 0 s ∧ s.f (pmcOWNER 0 (s.cix 511) 7) ≠ s.domOf 255 ∧ ReadyP 511 0 t
        ∧ t.f (pmcOWNER 0 (t.cix 511) 7) = t.domOf 255 ∧ t.f (pmcUREAD 0 (t.cix 511) 7) = 1) := by
  simp only [ReadyP]; decide +kernel

/-- A record of severity `sev` numbered `seq`. -/
def record (seq sev : Nat) : Rec := { seq := seq, oph := 0, ops := 0, src := 0xC000, pcyc := 0, sev := sev, code := 1, d0 := 3, d1 := 0 }
/-- Reset with the event recorder's contents. -/
def recorder (l : List (Fld × Nat)) (e : Recorder) : State := { regs l with er := e }

theorem witness_EventRecorder :
    (∀ n ∈ [0, 1535, 1536], (recorder [] { staged := [record 0 2], area1 := List.replicate n (record 0 0) }).er.area1.length = n)
    ∧ (∀ n ∈ [511, 512], let s := recorder [] { copyQ := [record 0 2], area0 := List.replicate n (record 0 2) }
       s.er.copyQ = [record 0 2] ∧ s.clearing0 = false ∧ s.er.area0.length = n)
    ∧ (let s := recorder [(R.ER_STAT_FLUSHING, 1)] { area1 := [record 4 0, record 5 2] }
       s.f R.ER_STAT_FLUSHING = 1 ∧ s.er.staged = [] ∧ s.er.area1.getLast? = some (record 5 2))
    ∧ (let s := recorder [(R.ER_SEQ_SEQ, 6), (R.ER_CURSOR_AUTOINC, 1), (R.ER_CURSOR_AREA, 0)] { area0 := [record 0 2, record 1 2], area1 := [record 5 2] }
       bits (0x100000000 : W64).toNat 0 2 = 0 ∧ s.er.area0[bits (0x100000000 : W64).toNat 32 32]? = some (record 1 2)
        ∧ s.er.area0[bits (0x200000000 : W64).toNat 32 32]? = none
        ∧ bits (0x500000001 : W64).toNat 0 2 = 1 ∧ s.er.area1.find? (·.seq == bits (0x500000001 : W64).toNat 32 32) = some (record 5 2)
        ∧ s.er.area1.find? (·.seq == bits (0x400000001 : W64).toNat 32 32) = none
        ∧ s.f R.ER_CURSOR_AUTOINC = 1 ∧ s.f R.ER_CURSOR_AREA = 0 ∧ s.er.area0[(s.f R.ER_CURSOR_INDEX + 1) % 2 ^ 32]? = some (record 1 2)
        ∧ (regs []).f R.ER_CURSOR_AUTOINC = 0)
    ∧ (let s := recorder [] {}
       s.f R.ER_STAT_BUSY = 0 ∧ bits (0x30C1E : W32).toNat 0 16 = 0x0C1E ∧ s.isFatal = false ∧ s.er.staged = [] ∧ bits (0 : W32).toNat 0 16 ≠ 0x0C1E)
    ∧ (∀ m ∈ [1, 2], let s := recorder [(R.ER_STAT_BUSY, 1)] { area1 := [record 5 2], clrMask := m, clrRec := some 5 }
       s.f R.ER_STAT_BUSY = 1 ∧ s.er.area1.find? (·.seq == s.er.clrRec.getD 0) = some (record 5 2)) := by decide +kernel

/-- Reset with the contacts so. -/
def pinned (p : Pins) : State := { regs [] with pins := p }

theorem witness_ResetsAndPower :
    (let p := (pinned { inPor := true, porN := false }).pins
     p.inPor = true ∧ p.porN = false ∧ p.rails = 15 ∧ p.flashN = true ∧ p.trip = false)
    ∧ (let p := (pinned { inPor := true, porN := false, rails := 14 }).pins
       p.inPor = true ∧ p.porN = false ∧ p.rails ≠ 15 ∧ p.rails.testBit 0 = false)
    ∧ (let s := regs []
       s.pins.inPor = false ∧ s.pins.porN = true ∧ s.pins.rails.testBit 3 = true ∧ s.f R.ER_STAT_FLUSHING = 0 ∧ s.er.staged = []
        ∧ bits (0x1D5E7 : W32).toNat 0 16 = 0xD5E7 ∧ (0x1D5E7 : W32).getLsbD 16 = true ∧ (0x0D5E7 : W32).getLsbD 16 = false)
    ∧ (let p := (pinned { inPor := true, rails := 7 }).pins
       p.inPor = true ∧ p.porN = true ∧ p.flashN = true ∧ p.trip = false ∧ p.rails.testBit 3 = false ∧ p.rails + 2 ^ 3 = 15)
    ∧ (let p := (pinned { rails := 7 }).pins
       p.inPor = false ∧ p.rails.testBit 3 = false)
    ∧ (let s := regs [(R.PWR_TEMP_TMEM, 115)]
       s.pins.trip = false ∧ degC (s.f R.PWR_TEMP_TMEM) ≥ 115)
    ∧ (pinned { porN := false }).pins.porN = false ∧ [[], [256], [], []].length = 4 := by decide +kernel

theorem witness_BootFusesAndTap :
    (let s := regs []
     s.pins.inPor = false ∧ s.f R.BOOT_STAT_DONE = 0 ∧ s.imgCheck (s.flash.getD 0 []) 0 0x40000 ≠ 0
      ∧ s.imgCheck (s.flash.getD 1 []) 0 0x40000 ≠ 0 ∧ s.fused 255 = false
      ∧ (s.fuses.digest.any (fun e => e.1 == 3)) = false ∧ s.fuses.revoked.contains 3 = false ∧ s.slotRoll 3 < (255 : W32).toNat % 256
      ∧ (0 : W32).toNat % 256 ≤ s.slotRoll 3 ∧ s.pins.rails.testBit 3 = true ∧ s.pins.porN = true
      ∧ bits (0x4B52 : W32).toNat 0 16 = 0x4B52)
    ∧ (let u := ({ regs [] with fuses := { keygen := 127, digest := [(3, 5)], revoked := [3] } }).fuses
       u.keygen.testBit 7 = false ∧ (∀ j, j < 7 → u.keygen.testBit j = true) ∧ (u.digest.any (fun e => e.1 == 3)) = true
        ∧ u.revoked.contains 3 = true)
    ∧ (∀ i, i < 8 → ({ regs [] with fuses := { keygen := 255 } }).fuses.keygen.testBit i = true)
    ∧ (pinned { porN := false }).pins.porN = false := by decide +kernel

/-- The window entry of a legal write, of one too small and of one with the reserved routing. -/
theorem witness_RegisterWrites :
    (regs []).pins.inPor = false
    ∧ (∀ v ∈ [0, 1 + 12 * 2 ^ 46, 1 + 32 * 2 ^ 46], v.testBit 0 = true → 12 ≤ bits v 46 6 ∧ bits v 46 6 ≤ 32 ∧ bits v 3 2 ≠ 3)
    ∧ (∀ v ∈ [1 + 11 * 2 ^ 46, 1 + 33 * 2 ^ 46, 1 + 24 + 12 * 2 ^ 46],
        ¬ (v.testBit 0 = true → 12 ≤ bits v 46 6 ∧ bits v 46 6 ≤ 32 ∧ bits v 3 2 ≠ 3))
    ∧ (regs [(R.CMP_TR_CFG_DOMAIN 31 63, 4095)]).f (R.CMP_TR_CFG_DOMAIN 31 63) = 4095
    ∧ ctlForm 0x30_0008 4 = true ∧ (regs []).pageOwner 0x30_0008 = none := by decide +kernel

/-- A step that blows a fuse. -/
theorem witness_StepKeepsFuses :
    step { State.reset with pending := [.secKeyroll 0x4B52] } = .next { State.reset with fuses := { keygen := 1 } }
    ∧ FusesLegal State.reset.fuses := ⟨by rfl, by unfold FusesLegal; decide⟩

theorem witness_StepRunsFrontCommand : State.reset.pending = [] ∧ State.reset.pins.inPor = false := by decide +kernel

/-! Each bound of well-formedness: its last value is accepted, the next refused. -/

theorem test_wf_core : (Instr.ret 511 0).wf = true ∧ (Instr.ret 512 0).wf = false ∧ (Instr.fence (.core 512) 0).wf = false := by decide
theorem test_wf_keeper : (Instr.fence (.keeper 31) 0).wf = true ∧ (Instr.fence (.keeper 32) 0).wf = false
    ∧ (Instr.j 32 false 0).wf = false := by decide
theorem test_wf_tile : (Instr.pllLock 255).wf = true ∧ (Instr.pllLock 256).wf = false := by decide
theorem test_wf_channel : (Instr.retraining 23).wf = true ∧ (Instr.retraining 24).wf = false := by decide
theorem test_wf_bank : (Instr.targetedRefreshDone 0 63).wf = true ∧ (Instr.targetedRefreshDone 0 64).wf = false := by decide
theorem test_wf_port : (Instr.drain 15).wf = true ∧ (Instr.drain 16).wf = false := by decide
theorem test_wf_source : (Instr.evtTrig 8191).wf = true ∧ (Instr.evtTrig 8192).wf = false := by decide
theorem test_wf_domain : (Instr.domLockclr 4095).wf = true ∧ (Instr.domLockclr 4096).wf = false := by decide
theorem test_wf_ring : (Instr.start 63).wf = true ∧ (Instr.start 64).wf = false := by decide
theorem test_wf_sendRing : (Instr.sqDb 95 0).wf = true ∧ (Instr.sqDb 96 0).wf = false := by decide
theorem test_wf_page : (Instr.evtTpgWrite 2047 0).wf = true ∧ (Instr.evtTpgWrite 2048 0).wf = false := by decide
theorem test_wf_window : (Instr.hepIwinWrite 255 0 8 0).wf = true ∧ (Instr.hepIwinWrite 256 0 8 0).wf = false := by decide
theorem test_wf_size : (Instr.hepOwinWrite 0 0 4 0).wf = true ∧ (Instr.hepOwinWrite 0 0 2 0).wf = false := by decide
theorem test_wf_slot : (Instr.secRollWrite 3 0).wf = true ∧ (Instr.secRollWrite 4 0).wf = false := by decide
theorem test_wf_interface : (Instr.tilNiCtlDefault 295).wf = true ∧ (Instr.tilNiCtlDefault 296).wf = false := by decide
theorem test_wf_routerPort : (Instr.flitArrival 0 4 ⟨2, none, 0⟩).wf = true ∧ (Instr.flitArrival 0 5 ⟨0, none, 0⟩).wf = false := by decide
theorem test_wf_agent : (Instr.wrDone 290 0).wf = true ∧ (Instr.wrDone 291 0).wf = false := by decide
theorem test_wf_byteSize : (Instr.keeperWindowAccess 0 0 1 false 0).wf = true ∧ (Instr.keeperWindowAccess 0 0 3 false 0).wf = false := by
  decide
theorem test_wf_group : (Instr.cuffMismatch 0 5 0 false []).wf = true ∧ (Instr.cuffMismatch 0 6 0 false []).wf = false := by decide
theorem test_wf_tag : (Instr.completionTimeout 511).wf = true ∧ (Instr.completionTimeout 512).wf = false := by decide
theorem test_wf_status : (Instr.hostCompletion 0 3 []).wf = true ∧ (Instr.hostCompletion 0 4 []).wf = false := by decide
theorem test_wf_kind : (Instr.dlActiveLoss 3).wf = true ∧ (Instr.dlActiveLoss 4).wf = false := by decide
theorem test_wf_speed : (Instr.dlActive 6 16).wf = true ∧ (Instr.dlActive 0 16).wf = false ∧ (Instr.dlActive 7 16).wf = false := by decide
theorem test_wf_rail : (Instr.railMonitorTrip 3).wf = true ∧ (Instr.railMonitorTrip 4).wf = false := by decide
theorem test_wf_counterSet : (Instr.counterWrap 4 0 0 1).wf = true ∧ (Instr.counterWrap 5 0 0 1).wf = false := by decide

/-! A command that names a unit which is not there changes nothing. -/

theorem test_ill_formed_turned_away : exec (.ret 512 0) State.reset = .next State.reset
    ∧ exec (.pllLock 256) State.reset = .next State.reset := ⟨by rfl, by rfl⟩

/-! No row has bits. -/

theorem test_no_word_spells_a_command : decodeTableWord 32 0 = none ∧ State.reset.withFetchWord 32 5 = State.reset := ⟨rfl, rfl⟩

/-! R95, R100, R124: words written out from the spec's encodings, and the commands they name. -/

theorem test_word_ldD : instrOf (.core 3) 0x078A6000 = some (.ldD (.core 3) 0 5 6 0) := by decide +kernel
theorem test_word_add : instrOf (.core 3) 0x004E7280 = some (.add (.core 3) 0 7 7 5) := by decide +kernel
theorem test_word_addi : instrOf (.core 3) 0x008C6008 = some (.addi (.core 3) 0 6 6 8) := by decide +kernel
theorem test_word_cmpi : instrOf (.core 3) 0x04C84064 = some (.cmpi 3 0 1 .set 4 100 .lt) := by decide +kernel
theorem test_word_b : instrOf (.core 3) 0x1C3FFFFB = some (.b 3 1 0x3FFFFB) := by decide +kernel
theorem test_word_keeper : instrOf (.keeper 3) 0x07043000 = some (.ldW (.keeper 3) 0 2 3 0)
    ∧ instrOf (.keeper 3) 0x1E064FFE = some (.bc 3 false .ne 3 4 0xFFE)
    ∧ instrOf (.keeper 3) 0x004A5100 = some (.add (.keeper 3) 0 5 5 2) := by decide +kernel
/-- R96: the P-profile's own majors are illegal on a keeper, and a keeper's on a P-core. -/
theorem test_word_profiles : instrOf (.keeper 3) 0x04C84064 = none ∧ instrOf (.core 3) 0x0E064FFE = none := by decide +kernel

/-! Single commands on small states; each value is the spec's. -/

/-- The command answers a next state of which `p` holds. -/
def gives (i : Instr) (s : State) (p : State → Bool) : Bool := match exec i s with | .next t => p t | _ => false
/-- Core 0 with g1, g2 of these values. -/
def two (x y : W64) : State := oneCore 0 { g := [(1, x), (2, y)] }

/-- R101: an add wraps to 64 bits; g0 discards its write. -/
theorem test_add_wraps : gives (.add (.core 0) 0 3 1 2) (two (-1) 2) (fun t => t.rgA (.core 0) 3 == 1) = true
    ∧ gives (.add (.core 0) 0 0 1 2) (two (-1) 2) (fun t => t.rgA (.core 0) 0 == 0) = true := by decide +kernel
/-- R101: ADD.W sign-extends bit 31. -/
theorem test_addW_sign_extends : gives (.addW (.core 0) 0 3 1 2) (two 0x7FFFFFFF 1)
    (fun t => t.rgA (.core 0) 3 == 0xFFFFFFFF80000000) = true := by decide +kernel
/-- R102: signed division by zero gives all ones, the most negative number by −1 itself. -/
theorem test_div_corners : gives (.div (.core 0) 0 3 1 2) (two 7 0) (fun t => t.rgA (.core 0) 3 == -1) = true
    ∧ gives (.div (.core 0) 0 3 1 2) (two 0x8000000000000000 (-1)) (fun t => t.rgA (.core 0) 3 == 0x8000000000000000) = true := by
  decide +kernel
/-- R102: a remainder by zero is the dividend; a remainder has the dividend's sign. -/
theorem test_rem_corners : gives (.rem (.core 0) 0 3 1 2) (two 7 0) (fun t => t.rgA (.core 0) 3 == 7) = true
    ∧ gives (.rem (.core 0) 0 3 1 2) (two (-7) 2) (fun t => t.rgA (.core 0) 3 == -1) = true := by decide +kernel
/-- R101: the high half of −1 times −1, signed and unsigned. -/
theorem test_mulh : gives (.mulh (.core 0) 0 3 1 2) (two (-1) (-1)) (fun t => t.rgA (.core 0) 3 == 0) = true
    ∧ gives (.mulhu (.core 0) 0 3 1 2) (two (-1) (-1)) (fun t => t.rgA (.core 0) 3 == 0xFFFFFFFFFFFFFFFE) = true := by decide +kernel
/-- R101: a shift uses the low six bits of rb. -/
theorem test_sll_masks_amount : gives (.sll (.core 0) 0 3 1 2) (two 1 65) (fun t => t.rgA (.core 0) 3 == 2) = true := by decide +kernel
/-- R102: zero has 64 leading and 64 trailing zeros. -/
theorem test_clz_ctz_zero : gives (.clz (.core 0) 0 3 1) (two 0 0) (fun t => t.rgA (.core 0) 3 == 64) = true
    ∧ gives (.ctz (.core 0) 0 3 1) (two 0 0) (fun t => t.rgA (.core 0) 3 == 64) = true := by decide +kernel
/-- R103: LIZ places its immediate in the upper half of 32 bits, LIKU keeps the rest. -/
theorem test_load_immediates : gives (.liz (.core 0) 0 3 true 0x1234) (two 0 0) (fun t => t.rgA (.core 0) 3 == 0x12340000) = true
    ∧ gives (.addi (.core 0) 0 3 1 0xFFF) (two 5 0) (fun t => t.rgA (.core 0) 3 == 4) = true := by decide +kernel
/-- R113: a branch adds four times its immediate to its own address; BL links the next word. -/
theorem test_bl_links : gives (.bl 0 0 0x3FFFFF) (oneCore 0 { pc := 0x1000 })
    (fun t => (t.core 0).pc == 0xFFC && t.rgA (.core 0) 31 == 0x1004) = true := by decide +kernel
/-- R104: CMP.LTU of 1 and −1 sets the predicate, CMP.LT does not. -/
theorem test_cmp_signedness : gives (.cmp 0 0 2 .set 1 2 false .ltu) (two 1 (-1)) (fun t => (t.core 0).p.getLsbD 2) = true
    ∧ gives (.cmp 0 0 2 .set 1 2 false .lt) (two 1 (-1)) (fun t => !(t.core 0).p.getLsbD 2) = true := by decide +kernel
/-- R119: eight-bit lanes wrap apart from each other. -/
theorem test_vint_lanes : gives (.vint 0 0 3 1 2 .i8 0) (oneCore 0 { v := [(1, 0x00FF), (2, 0x0101)] })
    (fun t => Tbl.get 0 (t.core 0).v 3 == 0x0100) = true := by decide +kernel
/-- R381: a trigger of a pending source merges with it. -/
theorem test_triggers_merge : gives (.evtTrig 2000) (regs [(R.EVT_STAT_PEND 2000, 1)]) (fun t => t.f (R.EVT_STAT_PEND 2000) == 1) = true := by
  decide +kernel
/-- R89: a lock of the clock's loop with no change in progress does nothing. -/
theorem test_pllLock_idle : exec (.pllLock 3) State.reset = .next State.reset := by rfl
/-- R528: an enrolment without its key blows nothing. -/
theorem test_enroll_needs_key : gives (.secEnroll 1 0) State.reset (fun t => t.fuses == {}) = true := by decide +kernel
/-- R509: CLRALL clears a counter's value and keeps its event. -/
theorem test_clrall : gives .clrall (regs [(pmcVALUE 4 15 3, 9), (pmcEVENT 4 15 3, 0x385)])
    (fun t => t.f (pmcVALUE 4 15 3) == 0 && t.f (pmcEVENT 4 15 3) == 0x385) = true := by decide +kernel
/-- A step takes the command in front and leaves the rest of the queue. -/
theorem test_step_takes_front : step { State.reset with pending := [.freeze true, .clrall] }
    = exec (.freeze true) { State.reset with pending := [.clrall] } := by rfl

end Sys2Proof.Tests
end

section
/-! The state after power-on reset (R15, R524). Every table of it is empty, so each accessor reads its default. -/

namespace Sys2Proof.Laws
open Sys2Proof Sys2Proof.Machine Sys2Proof.Safety

/-- R15, R17: where no register is listed, a field reads its reset value, cut to its width. -/
theorem f_of_csr_empty {s : State} (h : s.csr = []) (x : Fld) : s.f x = x.reset % 2 ^ x.w := by
  simp [State.f, Tbl.get, h]

/-- Where no core is listed, every core, paired or not, is at its defaults. -/
theorem core_of_cores_empty {s : State} (h : s.cores = []) (c : Nat) : s.core c = {} := by
  simp [State.core, Tbl.get, h]

@[simp] theorem f_reset (x : Fld) : State.reset.f x = x.reset % 2 ^ x.w := f_of_csr_empty rfl x

@[simp] theorem core_reset (c : Nat) : State.reset.core c = {} := core_of_cores_empty rfl c

/-- R28, R525, R528, R529: fuses of which none is blown are in their form. -/
theorem fusesLegal_unblown : FusesLegal {} := by simp [FusesLegal]

/-- Settles O60: the empty tables give the registers, the cores and the canonical form; what is left of the fuses is
`fusesLegal_unblown`, and three registers are evaluated at their map's reset value. -/
theorem resetState : Obligations.ResetState := by
  unfold Obligations.ResetState
  refine ⟨fusesLegal_unblown, reset_wf, f_reset, rfl, fun c => ?run, ?step, ?done, ?ready, rfl, rfl⟩
  case run => rw [core_reset]
  case step => simp [R.BOOT_STAT_STEP]
  case done => simp [R.BOOT_STAT_DONE]
  case ready => simp [R.CMD_STAT_READY]

end Sys2Proof.Laws
end

section
/-! SUPPORT. A message in flight is taken, and what the tile that a forward reaches leaves behind (R235, R245). -/

namespace Sys2Proof.Laws
open Sys2Proof Sys2Proof.Machine Sys2Proof.Safety

variable (s : State)

/-! ### Messages and the tile's lines -/

/-- A message that is taken is one that its three keys name, and nothing but the messages in flight changes. -/
theorem take_some {k : MsgK} {g L : Nat} {m : Msg} {t : State} (h : s.take k g L = some (m, t)) :
    m.agent = g ∧ m.L = L ∧ m.k = k ∧ t = { s with msgs := t.msgs } := by
  unfold State.take at h
  dsimp only at h
  split at h
  case h_1 x hx =>
    split at h
    · obtain ⟨rfl, rfl⟩ := Prod.mk.inj (Option.some.inj h)
      have hsel := List.find?_some hx
      simp only [Bool.and_eq_true, beq_iff_eq] at hsel
      obtain ⟨⟨hagent, hline⟩, hkind⟩ := hsel
      exact ⟨hagent, hline, hkind, rfl⟩
    · cases h
  case h_2 => cases h

theorem l2_eq_of_caches_eq {s t : State} (h : t.caches = s.caches) (a L : Nat) : t.l2 a L = s.l2 a L := by
  simp [State.l2, h]

@[simp] theorem l2_send (m : Msg) (a L : Nat) : (s.send m).l2 a L = s.l2 a L := rfl
@[simp] theorem l2_setCore (c : Nat) (k : Core) (a L : Nat) : (s.setCore c k).l2 a L = s.l2 a L := rfl
@[simp] theorem l2_updCore (c : Nat) (f : Core → Core) (a L : Nat) : (s.updCore c f).l2 a L = s.l2 a L := rfl
@[simp] theorem l2_setL2_same (a L : Nat) (x : L2Line) : (s.setL2 a L x).l2 a L = x := by simp [State.l2, State.setL2]

@[simp] theorem send_msgs (m : Msg) : (s.send m).msgs = s.msgs ++ [m] := rfl
theorem foldl_send (ms : List Msg) : ms.foldl State.send s = { s with msgs := s.msgs ++ ms } := by
  induction ms generalizing s with
  | nil => simp
  | cons m ms ih => simp [ih, State.send]

/-! ### Forwards at a tile -/

/-- No fill of the tile waits for a way, so none goes. -/
theorem fillsGo_none (t : Nat) (h : ∀ f ∈ s.fillQ, f.agent ≠ t) : s.fillsGo t = s := by
  have : s.fillQ.filter (fun m => m.agent == t) = [] := by simpa using h
  simp [State.fillsGo, this]

/-- R245: what tile `m.agent` says of itself, in its own domain. -/
def tileRsp (m : Msg) (k : MsgK) (d : Option LineD) : Msg :=
  { k := k, L := m.L, agent := m.agent, dom := s.domOf m.agent, d := d }
/-- R245: the tile's copy, for the requester that message `m` names. -/
def tileDat (m : Msg) (kind : Kind) (dirty : Bool) : Msg :=
  { k := .data, L := m.L, agent := m.req, core := m.core, dom := m.dom, kind := kind, d := some (s.l2 m.agent m.L).d
    dirty := dirty, src := some m.agent }

/-- From `s` to `t` the tile of `m` has sent `ms` and left its line in state `st`, with its data where it still has any; cores,
memory and registers are as they were, and so are the fills that wait. -/
structure Leaves (t : State) (m : Msg) (st : LSt) (ms : List Msg) : Prop where
  msgs : t.msgs = s.msgs ++ ms
  state : (t.l2 m.agent m.L).st = st
  data : st ≠ .I → (t.l2 m.agent m.L).d = (s.l2 m.agent m.L).d
  cores : t.cores = s.cores
  dram : t.dram = s.dram
  csr : t.csr = s.csr
  fillQ : t.fillQ = s.fillQ

/-- Messages alone leave the line as it is. -/
theorem leaves_sends (m : Msg) (ms : List Msg) : Leaves s (ms.foldl State.send s) m (s.l2 m.agent m.L).st ms := by
  rw [foldl_send]; exact ⟨rfl, rfl, fun _ => rfl, rfl, rfl, rfl, rfl⟩

/-- Messages, and a new line that has kept the data or has no state. -/
theorem leaves_setL2 (m : Msg) (ms : List Msg) (y : L2Line) (hy : y.st ≠ .I → y.d = (s.l2 m.agent m.L).d) :
    Leaves s ((ms.foldl State.send s).setL2 m.agent m.L y) m y.st ms := by
  rw [foldl_send]; exact ⟨rfl, by simp, by simpa using hy, rfl, rfl, rfl, rfl⟩

variable {s} {m : Msg}

theorem tileAnswer_fwdS_of_own (h : (s.l2 m.agent m.L).st = .M ∨ (s.l2 m.agent m.L).st = .E) (hk : m.k = .fwdS) :
    Leaves s (s.tileAnswer m) m .S [tileDat s m .S false,
      tileRsp s m .ownerAck (if (s.l2 m.agent m.L).st == .M then some (s.l2 m.agent m.L).d else none)] := by
  convert leaves_setL2 s m _ { s.l2 m.agent m.L with st := .S } (fun _ => rfl) using 1
  rcases h with h | h <;> simp [State.tileAnswer, h, hk, tileDat, tileRsp]

theorem tileAnswer_fwdO_of_own (h : (s.l2 m.agent m.L).st = .M ∨ (s.l2 m.agent m.L).st = .E) (hk : m.k = .fwdO) :
    Leaves s (s.tileAnswer m) m .I [tileDat s m .M ((s.l2 m.agent m.L).st == .M)] := by
  convert leaves_setL2 s m _ {} (fun h => absurd rfl h) using 1
  rcases h with h | h <;> simp [State.tileAnswer, h, hk, tileDat, beq_eq_decide]

theorem tileAnswer_fwdPeek_of_own (h : (s.l2 m.agent m.L).st = .M ∨ (s.l2 m.agent m.L).st = .E) (hk : m.k = .fwdPeek) :
    Leaves s (s.tileAnswer m) m (s.l2 m.agent m.L).st [tileDat s m .none false, tileRsp s m .ownerAck none] := by
  convert leaves_sends s m _ using 1
  rcases h with h | h <;> simp [State.tileAnswer, h, hk, tileDat, tileRsp]

theorem tileAnswer_inv_of_copy
    (h : ((s.l2 m.agent m.L).st = .M ∨ (s.l2 m.agent m.L).st = .E) ∨ (s.l2 m.agent m.L).st = .S) (hk : m.k = .inv) :
    Leaves s (s.tileAnswer m) m .I
      [tileRsp s m .invAck (if (s.l2 m.agent m.L).st == .M then some (s.l2 m.agent m.L).d else none)] := by
  convert leaves_setL2 s m _ {} (fun h => absurd rfl h) using 1
  rcases h with (h | h) | h <;> simp [State.tileAnswer, h, hk, tileRsp]

theorem tileAnswer_inv_of_upgrading (h : (s.l2 m.agent m.L).st = .SM) (hk : m.k = .inv) :
    Leaves s (s.tileAnswer m) m .IM [tileRsp s m .invAck none] := by
  convert leaves_setL2 s m _ { s.l2 m.agent m.L with st := .IM } (fun _ => rfl) using 1
  simp [State.tileAnswer, h, hk, tileRsp]

theorem tileAnswer_of_writeback (h : (s.l2 m.agent m.L).st = .WBP) :
    Leaves s (s.tileAnswer m) m .WBP [tileRsp s m .wbInflight none] := by
  convert leaves_sends s m _ using 1
  · simp [State.tileAnswer, h, tileRsp]
  · exact h.symm

theorem tileAnswer_of_absent
    (h : (s.l2 m.agent m.L).st = .I ∨ (s.l2 m.agent m.L).st = .IS ∨ (s.l2 m.agent m.L).st = .IM) :
    Leaves s (s.tileAnswer m) m (s.l2 m.agent m.L).st [tileRsp s m .notPresent none] := by
  convert leaves_sends s m _ using 1
  rcases h with h | h | h <;> simp [State.tileAnswer, h, tileRsp]

/-- R235: a forward that reaches its tile through an open Seam, where no fill waits, is answered. -/
theorem atTile_leaves {s1 : State} {k : MsgK} {t0 L : Nat} {st : LSt} {ms : List Msg} (hs : s.seamOpen t0 = true)
    (ht : s.take k t0 L = some (m, s1)) (hf : ∀ f ∈ s1.fillQ, f.agent ≠ t0) (h : Leaves s1 (s1.tileAnswer m) m st ms) :
    ∃ t, atTile s k t0 L = .next t ∧ t.msgs = s1.msgs ++ ms ∧ (t.l2 t0 L).st = st
      ∧ (st ≠ .I → (t.l2 t0 L).d = (s1.l2 t0 L).d) ∧ t.cores = s.cores ∧ t.dram = s.dram ∧ t.csr = s.csr := by
  obtain ⟨ha, hL, -, h1⟩ := take_some s ht
  have hgo : (s1.tileAnswer m).fillsGo t0 = s1.tileAnswer m := fillsGo_none _ t0 (by rw [h.fillQ]; exact hf)
  have hstate := h.state
  have hdata := h.data
  rw [ha, hL] at hstate hdata
  refine ⟨s1.tileAnswer m, by rw [atTile, if_pos hs, onMsg_some s k t0 L _ m s1 ht, hgo], h.msgs, hstate, hdata, ?_, ?_, ?_⟩
  · rw [h.cores, h1]
  · rw [h.dram, h1]
  · rw [h.csr, h1]

end Sys2Proof.Laws
end

section
/-! SUPPORT. The bytes and locks of a line after a masked write (R166). -/

namespace Sys2Proof.Laws
open Sys2Proof Sys2Proof.Machine Sys2Proof.Safety

/-! ### Bytes of a line -/

/-- A byte of the line is eight bits of it. -/
theorem testBit_read_byte (d : LineD) (i k : Nat) : (d.read i 1).testBit k = (decide (k < 8) && d.data.getLsbD (8 * i + k)) := by
  rw [LineD.read, Nat.testBit_mod_two_pow]; simp [BitVec.getLsbD]

/-- A write of `n` bytes gives their bits those of the value, and leaves every other bit alone. -/
theorem getLsbD_write (d : LineD) (o n v j : Nat) (hj : j < 512) : (d.write o n v).data.getLsbD j
    = if 8 * o ≤ j ∧ j < 8 * o + 8 * n then v.testBit (j - 8 * o) else d.data.getLsbD j := by
  have hj' : j - 8 * o < 512 := by omega
  simp only [LineD.write, BitVec.getLsbD_or, BitVec.getLsbD_and, BitVec.getLsbD_not, BitVec.getLsbD_shiftLeft, BitVec.getLsbD_ofNat,
    Nat.testBit_two_pow_sub_one, hj, hj', decide_true, Bool.true_and]
  by_cases h : j < 8 * o
  · simp [h]
  · by_cases hn : j - 8 * o < 8 * n
    · rw [if_pos (by omega)]; simp [h, hn]
    · rw [if_neg (by omega)]; simp [hn]

/-- Each byte written is its digit of the value, and every other byte stays. -/
theorem read_write_byte (d : LineD) (o n v i : Nat) (hi : i < 64) :
    (d.write o n v).read i 1 = if o ≤ i ∧ i < o + n then v / 2 ^ (8 * (i - o)) % 256 else d.read i 1 := by
  apply Nat.eq_of_testBit_eq
  intro k
  by_cases hk : k < 8
  · rw [testBit_read_byte, getLsbD_write _ _ _ _ _ (by omega)]
    by_cases h : o ≤ i ∧ i < o + n
    · rw [if_pos (by omega), if_pos h, show (256 : Nat) = 2 ^ 8 from rfl, Nat.testBit_mod_two_pow, Nat.testBit_div_two_pow]
      congr 2; omega
    · rw [if_neg (by omega), if_neg h, testBit_read_byte]
  · have h256 (x : Nat) : (x % 256).testBit k = false := by
      rw [show (256 : Nat) = 2 ^ 8 from rfl, Nat.testBit_mod_two_pow]; simp [hk]
    rw [testBit_read_byte]
    split
    · simp [hk, h256]
    · simp [hk, testBit_read_byte]

/-- Little-endian bytes put together stay below the next power. -/
theorem foldl_bytes_lt (f : Nat → Nat) (hf : ∀ b, f b < 256) (n : Nat) :
    (List.range n).foldl (fun x b => x + f b * 2 ^ (8 * b)) 0 < 2 ^ (8 * n) := by
  induction n with
  | zero => simp
  | succ n ih =>
    rw [List.range_succ, List.foldl_append]
    have := hf n
    have : f n * 2 ^ (8 * n) ≤ 255 * 2 ^ (8 * n) := Nat.mul_le_mul_right _ (by omega)
    have e : 2 ^ (8 * (n + 1)) = 256 * 2 ^ (8 * n) := by rw [Nat.mul_succ, Nat.pow_add]; omega
    simp only [List.foldl_cons, List.foldl_nil]; omega

/-- Each digit of such a number is its byte. -/
theorem foldl_bytes_digit (f : Nat → Nat) (hf : ∀ b, f b < 256) (n k : Nat) (hk : k < n) :
    (List.range n).foldl (fun x b => x + f b * 2 ^ (8 * b)) 0 / 2 ^ (8 * k) % 256 = f k := by
  induction n with
  | zero => omega
  | succ n ih =>
    rw [List.range_succ, List.foldl_append]
    simp only [List.foldl_cons, List.foldl_nil]
    rcases Nat.lt_succ_iff_lt_or_eq.mp hk with h | rfl
    · have e : f n * 2 ^ (8 * n) = 2 ^ (8 * k) * (256 * (f n * 2 ^ (8 * (n - k - 1)))) := by
        rw [show 8 * n = 8 * k + (8 + 8 * (n - k - 1)) by omega, Nat.pow_add, Nat.pow_add]; ring
      rw [e, Nat.add_mul_div_left _ _ (Nat.two_pow_pos _), Nat.add_mul_mod_self_left, ih h]
    · rw [Nat.add_mul_div_right _ _ (Nat.two_pow_pos _), Nat.div_eq_of_lt (foldl_bytes_lt f hf k), Nat.zero_add,
        Nat.mod_eq_of_lt (hf k)]

/-! ### Locks -/

/-- A word's own lock, written back, changes nothing. -/
theorem setLock_lockAt (l : BitVec 64) (i : Nat) : setLock l i (lockAt l i) = l := by
  apply BitVec.eq_of_getLsbD_eq
  intro j hj
  have hj' : j - 4 * i < 64 := by omega
  have hF : (0xF : BitVec 64) = BitVec.ofNat 64 (2 ^ 4 - 1) := rfl
  have hv : lockAt l i % 16 = l.toNat >>> (4 * i) % 2 ^ 4 := by simp [lockAt]
  simp only [setLock, hF, hv, BitVec.getLsbD_or, BitVec.getLsbD_and, BitVec.getLsbD_not, BitVec.getLsbD_shiftLeft, BitVec.getLsbD_ofNat,
    Nat.testBit_two_pow_sub_one, Nat.testBit_mod_two_pow, Nat.testBit_shiftRight, hj, hj', decide_true, Bool.true_and]
  by_cases h : j < 4 * i
  · simp [h]
  · by_cases hn : j - 4 * i < 4
    · simp [h, hn, BitVec.getLsbD, show 4 * i + (j - 4 * i) = j by omega]
    · simp [hn]

/-! ### A masked write, code word by code word -/

/-- The eight bytes of code word `i`, those that the mask covers taken from the write. -/
def mergedWord (w : WrReq) (d : LineD) (i : Nat) : Nat :=
  (List.range 8).foldl (fun (x : Nat) b =>
    x + (if maskAt w.mask (8 * i + b) then w.d.read (8 * i + b) 1 else d.read (8 * i + b) 1) * 2 ^ (8 * b)) 0
/-- The line's locks with the policy's in the words of code word `i` that the mask touches. -/
def mergedLocks (w : WrReq) (d : LineD) (i : Nat) : BitVec 64 :=
  [2 * i, 2 * i + 1].foldl (fun (l : BitVec 64) j =>
    if bits w.mask.toNat (4 * j) 4 = 0 then l else setLock l j (polLock w.pol d.locks w.d.locks j)) d.locks
/-- What `mergeWr` does to code word `i`. -/
def mergeCw (w : WrReq) (acc : LineD × Bool) (i : Nat) : LineD × Bool :=
  let d := acc.1
  let m := bits w.mask.toNat (8 * i) 8
  if m = 0 then acc
  else
    let whole := m == 255 && w.pol != .preserve
    if !whole && d.poison.getLsbD i then (d, true)
    else if w.pol = .carried ∧ w.d.poison.getLsbD i then
      ({ d with poison := d.poison ||| ((1 : BitVec 8) <<< i) }, acc.2)
    else
      ({ (d.write (8 * i) 8 (mergedWord w d i)) with
          locks := mergedLocks w d i, poison := d.poison &&& ~~~((1 : BitVec 8) <<< i) }, acc.2)

theorem mergeWr_eq (old : LineD) (w : WrReq) : mergeWr old w = (List.range 8).foldl (mergeCw w) (old, false) := rfl

/-- The byte that a masked write leaves where `x` stood. -/
def mergedByte (w : WrReq) (x : LineD) (j : Nat) : Nat := if w.mask.getLsbD j then w.d.read j 1 else x.read j 1

/-- The line `y` is `x` with the bytes below `n` that the mask covers taken from the write; no mark of poison, and under PRESERVE
no lock, has changed. -/
structure MergedTo (w : WrReq) (x : LineD) (n : Nat) (y : LineD) : Prop where
  poison : y.poison = 0
  bytes : ∀ j < 64, y.read j 1 = if j < n then mergedByte w x j else x.read j 1
  locks : w.pol = .preserve → y.locks = x.locks

theorem read_byte_lt (d : LineD) (j : Nat) : d.read j 1 < 256 := Nat.mod_lt _ (by decide)

/-- A code word none of whose bytes the mask covers. -/
theorem mask_clear_of_bits {m : BitVec 64} {i j : Nat} (h : bits m.toNat (8 * i) 8 = 0) (h1 : 8 * i ≤ j) (h2 : j < 8 * i + 8) :
    m.getLsbD j = false := by
  have := congrArg (fun x => x.testBit (j - 8 * i)) h
  simp only [bits, Nat.testBit_mod_two_pow, Nat.testBit_div_two_pow, Nat.zero_testBit, Bool.and_eq_false_iff] at this
  rcases this with h | h
  · simp at h; omega
  · rwa [show j - 8 * i + 8 * i = j by omega] at h

theorem mergeCw_of_clear {w : WrReq} {i : Nat} (h : bits w.mask.toNat (8 * i) 8 = 0) (acc : LineD × Bool) :
    mergeCw w acc i = acc := by simp [mergeCw, h]

theorem mergeCw_of_clean {w : WrReq} {d : LineD} {i : Nat} (h : bits w.mask.toNat (8 * i) 8 ≠ 0) (hp : d.poison = 0)
    (hc : w.pol ≠ .carried) (b : Bool) : mergeCw w (d, b) i
      = ({ d.write (8 * i) 8 (mergedWord w d i) with locks := mergedLocks w d i, poison := 0 }, b) := by
  simp [mergeCw, h, hp, hc]

theorem mergedLocks_preserve {w : WrReq} (h : w.pol = .preserve) (d : LineD) (i : Nat) : mergedLocks w d i = d.locks := by
  simp [mergedLocks, h, polLock, setLock_lockAt]

/-- Byte `j` of code word `i` as it is merged. -/
theorem mergedWord_digit (w : WrReq) (d : LineD) (i j : Nat) (h1 : 8 * i ≤ j) (h2 : j < 8 * i + 8) :
    mergedWord w d i / 2 ^ (8 * (j - 8 * i)) % 256 = mergedByte w d j := by
  have hlt (b : Nat) : (if maskAt w.mask (8 * i + b) then w.d.read (8 * i + b) 1 else d.read (8 * i + b) 1) < 256 := by
    split <;> exact read_byte_lt _ _
  rw [mergedWord, foldl_bytes_digit _ hlt 8 (j - 8 * i) (by omega), show 8 * i + (j - 8 * i) = j by omega]
  rfl

/-- One code word of an unpoisoned line. -/
theorem mergeCw_mergedTo {w : WrReq} {x y : LineD} {i : Nat} (hc : w.pol ≠ .carried) (h : MergedTo w x (8 * i) y) :
    (mergeCw w (y, false) i).2 = false ∧ MergedTo w x (8 * (i + 1)) (mergeCw w (y, false) i).1 := by
  obtain ⟨hp, hb, hl⟩ := h
  by_cases hm : bits w.mask.toNat (8 * i) 8 = 0
  · rw [mergeCw_of_clear hm]
    refine ⟨rfl, hp, fun j hj => (hb j hj).trans ?_, hl⟩
    by_cases h : 8 * i ≤ j ∧ j < 8 * i + 8
    · rw [if_neg (by omega), if_pos (by omega), mergedByte, mask_clear_of_bits hm h.1 h.2]; rfl
    · exact if_congr (by omega) rfl rfl
  · rw [mergeCw_of_clean hm hp hc]
    refine ⟨rfl, rfl, fun j hj => (read_write_byte y (8 * i) 8 _ j hj).trans ?_, fun hw => ?_⟩
    · by_cases h : 8 * i ≤ j ∧ j < 8 * i + 8
      · have hy : y.read j 1 = x.read j 1 := by rw [hb j hj, if_neg (by omega)]
        rw [if_pos h, if_pos (by omega), mergedWord_digit _ _ _ _ h.1 h.2, mergedByte, hy, mergedByte]
      · rw [if_neg h, hb j hj]; exact if_congr (by omega) rfl rfl
    · exact (mergedLocks_preserve hw y i).trans (hl hw)

/-- R166: of a line with no poison every code word is merged, and none is discarded. -/
theorem mergeWr_mergedTo (x : LineD) (w : WrReq) (hp : x.poison = 0) (hc : w.pol ≠ .carried) :
    (mergeWr x w).2 = false ∧ MergedTo w x 64 (mergeWr x w).1 := by
  rw [mergeWr_eq]
  have h (n : Nat) : ((List.range n).foldl (mergeCw w) (x, false)).2 = false
      ∧ MergedTo w x (8 * n) ((List.range n).foldl (mergeCw w) (x, false)).1 := by
    induction n with
    | zero => exact ⟨rfl, hp, fun j _ => by simp, fun _ => rfl⟩
    | succ n ih =>
      obtain ⟨h2, h1⟩ := ih
      rw [List.range_succ, List.foldl_append, List.foldl_cons, List.foldl_nil]
      generalize List.foldl (mergeCw w) (x, false) (List.range n) = r at h1 h2
      obtain ⟨y, b⟩ := r
      subst h2
      exact mergeCw_mergedTo hc h1
  exact h 8

theorem read_mergeWr (x : LineD) (w : WrReq) (hp : x.poison = 0) (hc : w.pol ≠ .carried) (j : Nat) (hj : j < 64) :
    (mergeWr x w).1.read j 1 = if w.mask.getLsbD j then w.d.read j 1 else x.read j 1 := by
  rw [(mergeWr_mergedTo x w hp hc).2.bytes j hj, if_pos hj]; rfl

theorem mergeWr_keeps_all (x : LineD) (w : WrReq) (hp : x.poison = 0) (hc : w.pol ≠ .carried) : (mergeWr x w).2 = false :=
  (mergeWr_mergedTo x w hp hc).1

theorem locks_mergeWr (x : LineD) (w : WrReq) (hp : x.poison = 0) (hw : w.pol = .preserve) : (mergeWr x w).1.locks = x.locks :=
  (mergeWr_mergedTo x w hp (by rw [hw]; exact LockPol.noConfusion)).2.locks hw

end Sys2Proof.Laws
end

section
/-! SUPPORT. A request of an agent without a cache at the home of a line that no tile holds and the LLC does (R246, R254). -/

namespace Sys2Proof.Laws
open Sys2Proof Sys2Proof.Machine Sys2Proof.Safety

variable {s : State} {L : Nat} {x : LlcE}

/-! ### The directory and the LLC -/

@[simp] theorem dirE_setDir_same (e : Option DirE) : (s.setDir L e).dirE L = e := by simp [State.dirE, State.setDir]
@[simp] theorem llcE_setLlc_same (e : Option LlcE) : (s.setLlc L e).llcE L = e := by simp [State.llcE, State.setLlc]
theorem dirE_eq_of_dir_eq {t : State} (h : t.dir = s.dir) (M : Nat) : t.dirE M = s.dirE M := by simp [State.dirE, h]
theorem llcE_eq_of_llc_eq {t : State} (h : t.llc = s.llc) (M : Nat) : t.llcE M = s.llcE M := by simp [State.llcE, h]

/-- The LLC's entry of `L` is rewritten in its way, which becomes the most recently used. -/
def llcRewrite (s : State) (L : Nat) (e : LlcE) : State := (s.setLlc L (some e)).llcTouch L e.way

@[simp] theorem llcE_llcRewrite (e : LlcE) : (llcRewrite s L e).llcE L = some e := llcE_setLlc_same (s := s) (some e)
@[simp] theorem llcRewrite_msgs (e : LlcE) : (llcRewrite s L e).msgs = s.msgs := rfl
@[simp] theorem llcRewrite_txns (e : LlcE) : (llcRewrite s L e).txns = s.txns := rfl
@[simp] theorem dirE_llcRewrite (e : LlcE) (M : Nat) : (llcRewrite s L e).dirE M = s.dirE M := rfl

theorem llcIn_held (hx : s.llcE L = some x) (w : Nat) (d : LineD) (dirty : Bool) :
    s.llcIn L w d dirty = llcRewrite s L ⟨d, dirty, w⟩ := by
  simp only [State.llcIn, hx]; rfl

/-- R236: dirty data of a line that stands in the slice is rewritten there. -/
theorem llcPut_held (hx : s.llcE L = some x) (dom : Nat) (d : LineD) :
    s.llcPut L dom d true = llcRewrite s L ⟨d, true, x.way⟩ := by
  simp only [State.llcPut, hx, Bool.or_true, llcIn_held hx]

@[simp] theorem closeTxn_txns : (s.closeTxn L).txns = s.txns.filter (fun t => t.L != L) := by
  unfold State.closeTxn State.unpin; split <;> rfl
@[simp] theorem closeTxn_msgs : (s.closeTxn L).msgs = s.msgs := by unfold State.closeTxn State.unpin; split <;> rfl
@[simp] theorem closeTxn_llc : (s.closeTxn L).llc = s.llc := by unfold State.closeTxn State.unpin; split <;> rfl
/-- With no entry to unpin, the directory stays. -/
theorem closeTxn_dir (hd : s.dirE L = none) : (s.closeTxn L).dir = s.dir := by
  have h : ({ s with txns := s.txns.filter (fun t => t.L != L) } : State).dirE L = none := hd
  simp [State.closeTxn, State.unpin, h]

/-- R236, R238: a request's dirty line that stands in its way of the slice needs no victim: its messages leave, and its transaction
closes. -/
theorem llcReq_held (hx : s.llcE L = some x) (hat : s.llcAt L x.way = some (L, x)) (dom : Nat) (d : LineD) (ms : List Msg) :
    s.llcReq L dom d true ms true = (ms.foldl State.send (llcRewrite s L ⟨d, true, x.way⟩)).closeTxn L := by
  simp [State.llcReq, State.llcWay, State.llcFill, hx, hat, llcIn_held hx]

/-! ### Acceptance -/

/-- R22, R247, R249, R250, R277: agent `g`'s request for line `L` reaches its home, which is ready, has nothing open or waiting on
the line, and has room. -/
structure Welcomes (s : State) (g L : Nat) : Prop where
  inDram : L < dramLines
  runs : s.meshRuns = true
  alive : s.isFatal = false
  route : s.routed (agentNi g (homeOf L)) (homeOf L) = true
  ready : s.homeReady L = true
  idle : s.lineBusy L = false
  unasked : (s.pendQ ++ s.retryQ).any (fun q => q.L == L) = false
  slots : (s.txns.filter (fun q => homeOf q.L == homeOf L)).length < 64
  retries : (s.retryQ.filter (fun q => homeOf q.L == homeOf L)).length < 32

theorem accept_welcome {m : Msg} (h : Welcomes s m.agent m.L) : s.accept m = some (s.openReq m) := by
  have hs := h.slots
  have hr := h.retries
  simp only [State.accept, h.ready, h.idle, h.unasked]
  simp [Nat.not_le.mpr hs, Nat.not_le.mpr hr]

/-- Such a request opens at once. -/
theorem fromAgent_welcome {m : Msg} (hk : m.k.toHome = true) (h : Welcomes s m.agent m.L) :
    fromAgent s m = .next (s.openReq m) := by
  simp [fromAgent, Msg.path, hk, h.inDram, h.runs, State.agentSeam, h.alive, h.route, accept_welcome h]

/-! ### The transaction -/

theorem txns_free (h : s.lineBusy L = false) : s.txns.filter (fun t => t.L != L) = s.txns := by
  simp only [State.lineBusy, List.any_eq_false, Bool.or_eq_true, not_or] at h
  exact List.filter_eq_self.mpr (fun t ht => by simpa using (h t ht).1)

/-- The transaction that opens on an idle line is the line's. -/
theorem txnOf_openTxn {y : Txn} (h : s.lineBusy y.L = false) : (s.openTxn y).txnOf y.L = some { y with at_ := s.waitClock } := by
  simp only [State.lineBusy, List.any_eq_false, Bool.or_eq_true, not_or] at h
  have hn : s.txns.find? (fun t => t.L == y.L) = none := List.find?_eq_none.mpr (fun t ht => (h t ht).1)
  simp [State.txnOf, State.openTxn, List.find?_append, hn]

/-- R249: once it has closed, the line's transactions are as they were. -/
theorem txns_openTxn_close {y : Txn} (h : s.lineBusy y.L = false) : (s.openTxn y).txns.filter (fun t => t.L != y.L) = s.txns := by
  simp [State.openTxn, txns_free h]

/-! ### RD_NC, WR_NC and ATOMIC -/

theorem openReq_rdNc {m : Msg} (hk : m.k = .rdNc) (hd : s.dirE m.L = none) :
    s.openReq m = (s.openTxn { L := m.L, m := m }).serveSnap m := by
  simp [State.openReq, hk, hd]

theorem serveSnap_held {m : Msg} (hx : s.llcE m.L = some x) : s.serveSnap m
    = (s.send { k := .data, L := m.L, agent := m.agent, core := m.core, dom := m.dom, kind := .none, d := some x.d }).closeTxn m.L := by
  simp [State.serveSnap, State.serve, hx]

/-- R246: RD_NC takes a copy of the LLC's line and leaves the home as it was. -/
theorem exec_rdNc_held {g dom : Nat} (hg : 256 ≤ g) (h : Welcomes s g L) (hd : s.dirE L = none) (hx : s.llcE L = some x) :
    ∃ t, exec (.rdNc g L dom) s = .next t ∧ t.llc = s.llc ∧ t.dir = s.dir
      ∧ t.msgs = s.msgs ++ [{ k := .data, L := L, agent := g, dom := dom, d := some x.d }] := by
  have he : exec (.rdNc g L dom) s = fromAgent s { k := .rdNc, L := L, agent := g, dom := dom } := by simp [execRdNc, hg]
  rw [he, fromAgent_welcome rfl h, openReq_rdNc rfl hd, serveSnap_held (x := x) (by exact hx)]
  exact ⟨_, rfl, closeTxn_llc, closeTxn_dir (by exact hd), closeTxn_msgs⟩

/-- R254: the home of message `m` with the transaction of an exclusive access open and every copy given up. -/
def ncOpened (s : State) (m : Msg) : State := ((s.count m.L).openTxn { L := m.L, m := m }).setDir m.L none
/-- R254: such an access has left entry `e` in the LLC and answered `r`. -/
def ncDone (s : State) (m : Msg) (e : LlcE) (r : Msg) : State := ((llcRewrite (ncOpened s m) m.L e).send r).closeTxn m.L

variable {m r : Msg}

theorem dirE_ncOpened : (ncOpened s m).dirE m.L = none := dirE_setDir_same none
@[simp] theorem ncOpened_msgs : (ncOpened s m).msgs = s.msgs := rfl

theorem dirE_ncDone (e : LlcE) : (ncDone s m e r).dirE m.L = none := by
  have h : ((llcRewrite (ncOpened s m) m.L e).send r).dirE m.L = none := by
    rw [dirE_eq_of_dir_eq (send_dir _ r), dirE_llcRewrite, dirE_ncOpened]
  rw [ncDone, dirE_eq_of_dir_eq (closeTxn_dir h), h]
theorem llcE_ncDone (e : LlcE) : (ncDone s m e r).llcE m.L = some e := by
  rw [ncDone, llcE_eq_of_llc_eq closeTxn_llc, llcE_eq_of_llc_eq (send_llc _ r), llcE_llcRewrite]
theorem msgs_ncDone (e : LlcE) : (ncDone s m e r).msgs = s.msgs ++ [r] := by simp [ncDone]
theorem lineBusy_ncDone (e : LlcE) (hi : s.lineBusy m.L = false) : (ncDone s m e r).lineBusy m.L = false := by
  have h : (ncDone s m e r).txns = s.txns := by
    rw [ncDone, closeTxn_txns, send_txns, llcRewrite_txns]
    exact txns_openTxn_close (s := s.count m.L) (y := { L := m.L, m := m }) hi
  rw [State.lineBusy, h]; exact hi

/-- R254: an exclusive access to a line that no tile holds goes on at once. -/
theorem openReq_exclusive (hk : m.k = .atomic ∨ m.k = .wrNc) (hd : s.dirE m.L = none) (hi : s.lineBusy m.L = false) :
    s.openReq m = (ncOpened s m).execNc { L := m.L, m := m, at_ := s.waitClock } := by
  have ht : ((s.count m.L).openTxn { L := m.L, m := m }).txnOf m.L = some { L := m.L, m := m, at_ := s.waitClock } :=
    txnOf_openTxn (s := s.count m.L) (y := { L := m.L, m := m }) hi
  rcases hk with hk | hk <;> simp [State.openReq, State.proceed, hk, hd, ht, ncOpened]

theorem openReq_wrNc_held {w : WrReq} (hk : m.k = .wrNc) (hw : m.wr = some w) (hd : s.dirE m.L = none)
    (hi : s.lineBusy m.L = false) (hx : s.llcE m.L = some x) :
    s.openReq m = ncDone s m ⟨(mergeWr x.d w).1, true, x.way⟩
      { k := .wrDone, L := m.L, agent := m.agent, stat := b2n (mergeWr x.d w).2 } := by
  have hx' : (ncOpened s m).llcE m.L = some x := hx
  simp [openReq_exclusive (.inr hk) hd hi, State.execNc, hk, hw, hx', llcPut_held hx', ncDone]

theorem openReq_atomic_held {a : AtomReq} (hk : m.k = .atomic) (ha : m.at_ = some a) (hd : s.dirE m.L = none)
    (hi : s.lineBusy m.L = false) (hx : s.llcE m.L = some x) (hat : s.llcAt m.L x.way = some (m.L, x))
    (hp : spanPoison x.d.poison (a.addr % 64) a.size = false) (hl : lockMiss a.lk x.d.locks (a.addr % 64) a.size = none) :
    s.openReq m = ncDone s m ⟨(atomLine x.d a).1, true, x.way⟩
      { k := .data, L := m.L, agent := m.agent, core := m.core, val := x.d.read (a.addr % 64) a.size } := by
  have hx' : (ncOpened s m).llcE m.L = some x := hx
  have hat' : (ncOpened s m).llcAt m.L x.way = some (m.L, x) := hat
  simp [openReq_exclusive (.inl hk) hd hi, State.execNc, State.atomHome, hk, ha, hx', llcReq_held hx' hat', atomLine, hp, hl, ncDone]

theorem fromAgent_wrNc_held {w : WrReq} (hk : m.k = .wrNc) (hw : m.wr = some w) (h : Welcomes s m.agent m.L)
    (hd : s.dirE m.L = none) (hx : s.llcE m.L = some x) (hm : (mergeWr x.d w).2 = false) :
    ∃ t, fromAgent s m = .next t ∧ t.dirE m.L = none ∧ t.lineBusy m.L = false
      ∧ t.msgs = s.msgs ++ [{ k := .wrDone, L := m.L, agent := m.agent }] ∧ t.llcE m.L = some ⟨(mergeWr x.d w).1, true, x.way⟩ := by
  rw [fromAgent_welcome (by rw [hk]; rfl) h, openReq_wrNc_held hk hw hd h.idle hx, hm]
  exact ⟨_, rfl, dirE_ncDone _, lineBusy_ncDone _ h.idle, msgs_ncDone _, llcE_ncDone _⟩

theorem fromAgent_atomic_held {a : AtomReq} (hk : m.k = .atomic) (ha : m.at_ = some a) (h : Welcomes s m.agent m.L)
    (hd : s.dirE m.L = none) (hx : s.llcE m.L = some x) (hat : s.llcAt m.L x.way = some (m.L, x))
    (hp : spanPoison x.d.poison (a.addr % 64) a.size = false) (hl : lockMiss a.lk x.d.locks (a.addr % 64) a.size = none) :
    ∃ t, fromAgent s m = .next t ∧ t.dirE m.L = none
      ∧ t.msgs = s.msgs ++ [{ k := .data, L := m.L, agent := m.agent, core := m.core, val := x.d.read (a.addr % 64) a.size }]
      ∧ t.llcE m.L = some ⟨(atomLine x.d a).1, true, x.way⟩ := by
  rw [fromAgent_welcome (by rw [hk]; rfl) h, openReq_atomic_held hk ha hd h.idle hx hat hp hl]
  exact ⟨_, rfl, dirE_ncDone _, msgs_ncDone _, llcE_ncDone _⟩

/-- R254: WR_NC merges its bytes into the LLC's line, under PRESERVE, and is answered. -/
theorem exec_wrNc_held {g dom : Nat} {w : WrReq} (hg : 256 ≤ g) (hl : g ≠ logAgent) (h : Welcomes s g L) (hd : s.dirE L = none)
    (hx : s.llcE L = some x) (hp : x.d.poison = 0) (hw : w.pol = .preserve) :
    ∃ t, exec (.wrNc g L dom w) s = .next t ∧ t.dirE L = none ∧ t.lineBusy L = false
      ∧ t.msgs = s.msgs ++ [{ k := .wrDone, L := L, agent := g }] ∧ t.llcE L = some ⟨(mergeWr x.d w).1, true, x.way⟩ := by
  have he : exec (.wrNc g L dom w) s = fromAgent s { k := .wrNc, L := L, agent := g, dom := dom, wr := some w } := by
    simp [execWrNc, hg, hl]
  rw [he]
  exact fromAgent_wrNc_held rfl rfl h hd hx (mergeWr_keeps_all x.d w hp (by rw [hw]; exact LockPol.noConfusion))

/-- R188, R254: ATOMIC rewrites the LLC's line and is answered with the old value. -/
theorem exec_atomic_held {g dom : Nat} {a : AtomReq} (hg : 256 ≤ g) (h : Welcomes s g L) (hd : s.dirE L = none)
    (hx : s.llcE L = some x) (hsz : a.size = 4 ∨ a.size = 8) (hal : a.addr % a.size = 0) (hL : a.addr / 64 = L)
    (hp : spanPoison x.d.poison (a.addr % 64) a.size = false) (hlk : lockMiss a.lk x.d.locks (a.addr % 64) a.size = none)
    (hat : s.llcAt L x.way = some (L, x)) :
    ∃ t, exec (.atomic g dom a) s = .next t ∧ t.dirE L = none
      ∧ t.msgs = s.msgs ++ [{ k := .data, L := L, agent := g, val := x.d.read (a.addr % 64) a.size }]
      ∧ t.llcE L = some ⟨(atomLine x.d a).1, true, x.way⟩ := by
  have he : exec (.atomic g dom a) s = fromAgent s { k := .atomic, L := L, agent := g, dom := dom, at_ := some a } := by
    simp [execAtomic, Nat.not_lt.mpr hg, hsz, hal, hL]
  rw [he]
  exact fromAgent_atomic_held rfl rfl h hd hx hat hp hlk

/-! ### The lock log -/

/-- R389: what a trigger changes is registers. -/
theorem regTrig_csr (src d : Nat) : s.regTrig src d = { s with csr := (s.regTrig src d).csr } := by
  have flags (u : State) (n : Nat) : u.trigFlags n = { u with csr := (u.trigFlags n).csr } := by
    unfold State.trigFlags; repeat' split
    all_goals rfl
  have pend (u : State) (n : Nat) : u.dpend n = { u with csr := (u.dpend n).csr } := by
    unfold State.dpend; dsimp only; repeat' split
    · rfl
    · rw [flags]; rfl
    · rfl
    · rfl
  unfold State.regTrig State.softTrig; repeat' split
  · exact setFs_csr s _
  · rw [State.trigger, pend, flags]
  · rfl

theorem regTrig_dir (src d : Nat) : (s.regTrig src d).dir = s.dir := by rw [regTrig_csr]
theorem regTrig_llc (src d : Nat) : (s.regTrig src d).llc = s.llc := by rw [regTrig_csr]

/-- R169: a record whose line is not quiet waits. -/
theorem logGo_waits {q : LogW} (hq : s.lockQ = [q]) (h : s.lineQuiet q.L = false) : s.logGo = s := by
  simp only [State.logGo, hq, logDrain, h, Bool.false_and, Bool.false_eq_true, if_false]
  rw [← hq]

/-- R169: the last record leaves once its line is quiet and its home open; its event, which follows, changes registers only. -/
theorem logDrain_last {q : LogW} (h : s.lineQuiet q.L = true) (hw : s.writeOpen q.L q.dom = true) (hr : s.meshRuns = true) :
    (logDrain [q] s).lockQ = [] ∧ (logDrain [q] s).dir = (s.ncWrite q.L q.dom q.wr).1.dir
      ∧ (logDrain [q] s).llc = (s.ncWrite q.L q.dom q.wr).1.llc := by
  simp only [logDrain, h, hw, hr, Bool.and_self, if_true]
  cases q.evt with
  | none => exact ⟨trivial, rfl, rfl⟩
  | some e => exact ⟨trivial, regTrig_dir e q.dom, regTrig_llc e q.dom⟩

/-- R254: a masked write of a line that no tile holds and the LLC does. -/
theorem ncWrite_held (hd : s.dirE L = none) (hx : s.llcE L = some x) (dom : Nat) (w : WrReq) :
    s.ncWrite L dom w = (llcRewrite (s.count L) L ⟨(mergeWr x.d w).1, true, x.way⟩, (mergeWr x.d w).2) := by
  have hd' : (s.count L).dirE L = none := hd
  have hx' : (s.count L).llcE L = some x := hx
  simp [State.ncWrite, State.recall, hd', hx', llcPut_held hx']

/-- R169, R254: a record of a quiet line that the LLC holds is written there. -/
theorem logGo_writes {q : LogW} (hq : s.lockQ = [q]) (h : s.lineQuiet q.L = true) (hr : s.meshRuns = true) (hd : s.dirE q.L = none)
    (hx : s.llcE q.L = some x) : s.logGo.lockQ = [] ∧ s.logGo.dirE q.L = none
      ∧ s.logGo.llcE q.L = some ⟨(mergeWr x.d q.wr).1, true, x.way⟩ := by
  have hw : s.writeOpen q.L q.dom = true := by simp [State.writeOpen, State.homeOpen, hx]
  obtain ⟨hlog, hdir, hllc⟩ := logDrain_last h hw hr
  rw [ncWrite_held hd hx] at hdir hllc
  rw [State.logGo, hq, dirE_eq_of_dir_eq hdir, llcE_eq_of_llc_eq hllc]
  exact ⟨hlog, hd, llcE_llcRewrite (s := s.count q.L) _⟩

end Sys2Proof.Laws
end

section
/-! PROOF. Agents without a cache at the home of a line, the lock log, and forwards at a tile. -/

namespace Sys2Proof.Laws
open Sys2Proof Sys2Proof.Machine Sys2Proof.Safety

/-- Settles O25: the home's clauses by the transaction that opens and closes at once, with `mergeWr`'s bytes and locks; a forward by
what the tile leaves in each state of its line. That a record of the lock log waits in a queue until its line is quiet is the
model's reading of R169 (notes/assumptions/27.md). -/
theorem nonCachingAgentsAndForwards : Obligations.NonCachingAgentsAndForwards := by
  unfold Obligations.NonCachingAgentsAndForwards
  refine ⟨?agents, ?forwards⟩
  case agents =>
    intro g L dom w a x s hg hL hruns hready hfatal hroute hidle hasked hslots hretry hd hx
    have hw : Welcomes s g L := ⟨hL, hruns, hfatal, hroute, hready, hidle, hasked, hslots, hretry⟩
    refine ⟨exec_rdNc_held hg hw hd hx, fun hp hpol hlog => ?wr, fun q hq => ⟨fun hn => ?waits, fun hqL hn hp hpol _ => ?writes⟩,
      fun hsz hal haL hp hlk hat => ?atomic⟩
    case wr =>
      obtain ⟨t, he, hdir, hbusy, hmsgs, hllc⟩ := exec_wrNc_held (dom := dom) hg hlog hw hd hx hp hpol
      exact ⟨t, he, hdir, hbusy, hmsgs, _, hllc, rfl, locks_mergeWr x.d w hp hpol,
        read_mergeWr x.d w hp (by rw [hpol]; exact LockPol.noConfusion)⟩
    case waits => exact congrArg _ (logGo_waits hq hn)
    case writes =>
      subst hqL
      obtain ⟨hlog, hdir, hllc⟩ := logGo_writes hq hn hruns hd hx
      exact ⟨s.logGo, rfl, hlog, hdir, _, hllc, rfl, read_mergeWr x.d q.wr hp hpol⟩
    case atomic =>
      obtain ⟨t, he, hdir, hmsgs, hllc⟩ := exec_atomic_held (dom := dom) hg hw hd hx hsz hal haL hp hlk hat
      exact ⟨t, he, hdir, hmsgs, _, hllc, rfl, rfl⟩
  case forwards =>
    intro k t0 L m i s s1 hs ht hf hi
    have he : exec i s = atTile s k t0 L := by
      rcases hi with ⟨rfl, rfl⟩ | ⟨rfl, rfl⟩ | ⟨rfl, rfl⟩ | ⟨rfl, rfl⟩ <;> rfl
    obtain ⟨rfl, rfl, rfl, -⟩ := take_some s ht
    rw [he]
    refine ⟨fun hx hk => ?_, fun hx hk => ?_, fun hx hk => ?_, fun hx hk => ?_, fun hx hk => ?_, fun hx => ?_, fun hx => ?_⟩
    · exact atTile_leaves hs ht hf (tileAnswer_fwdS_of_own hx hk)
    · exact atTile_leaves hs ht hf (tileAnswer_fwdO_of_own hx hk)
    · exact atTile_leaves hs ht hf (tileAnswer_fwdPeek_of_own hx hk)
    · exact atTile_leaves hs ht hf (tileAnswer_inv_of_copy hx hk)
    · exact atTile_leaves hs ht hf (tileAnswer_inv_of_upgrading hx hk)
    · exact atTile_leaves hs ht hf (tileAnswer_of_writeback hx)
    · exact atTile_leaves hs ht hf (tileAnswer_of_absent hx)

end Sys2Proof.Laws
end

section
/-! SUPPORT. What a reply leaves behind at the tile that asked (R64, R65, R81, R244, R265). -/

namespace Sys2Proof.Laws
open Sys2Proof Sys2Proof.Machine Sys2Proof.Safety

variable {s u : State} {t L : Nat} {st : LSt} {d : LineD} {m : Msg}

/-! ### A line enters the tile's L2 -/

/-- Use through an L1D leaves the line's state and data. -/
theorem l2_l1Use (c L : Nat) : ((s.l1Use c L).l2 (c / 2) L).st = (s.l2 (c / 2) L).st
    ∧ ((s.l1Use c L).l2 (c / 2) L).d = (s.l2 (c / 2) L).d := by
  by_cases h : (s.l2 (c / 2) L).l1.getLsbD (s.cix c % 2) = true
  · have e : (s.l1Use c L).caches = s.caches := by simp [State.l1Use, h, State.l1Touch]
    rw [l2_eq_of_caches_eq e]; exact ⟨rfl, rfl⟩
  · obtain ⟨v, w, e⟩ : ∃ (v : State) (w : Nat),
        (s.l1Use c L).caches = (v.setL2 (c / 2) L ((s.l2 (c / 2) L).enterL1 (s.cix c % 2) w)).caches := by
      simp only [State.l1Use, h, Bool.false_eq_true, if_false]
      exact ⟨_, _, rfl⟩
    rw [l2_eq_of_caches_eq e, l2_setL2_same]; exact ⟨rfl, rfl⟩

/-- R244: an installed line stands in the tile's L2 in the state and with the data that came. -/
theorem l2_l2Install {core : Nat} (h : s.l2Install t L core st d = some u) : (u.l2 t L).st = st ∧ (u.l2 t L).d = d := by
  obtain ⟨v, w, rfl⟩ : ∃ (v : State) (w : Nat),
      u = ((v.setL2 t L { st := st, d := d, way := w }).l2Touch t L w).l1Use (2 * t + core % 2) L := by
    simp only [State.l2Install] at h
    split at h
    · exact ⟨_, _, (Option.some.inj h).symm⟩
    split at h
    · exact ⟨_, _, (Option.some.inj h).symm⟩
    split at h
    · cases h
    split at h
    · obtain ⟨v, -, hv⟩ := Option.map_eq_some_iff.mp h
      exact ⟨v, _, hv.symm⟩
    · exact ⟨_, _, (Option.some.inj h).symm⟩
  have ht : (2 * t + core % 2) / 2 = t := by omega
  have hl : ((v.setL2 t L { st := st, d := d, way := w }).l2Touch t L w).l2 t L = { st := st, d := d, way := w } :=
    l2_setL2_same v t L _
  have hu := l2_l1Use (s := (v.setL2 t L { st := st, d := d, way := w }).l2Touch t L w) (2 * t + core % 2) L
  rwa [ht, hl] at hu

/-- R244: the fill of message `m` has put its line in state `st` with data `d`, and COMPLETE leaves. -/
structure Filled (u : State) (m : Msg) (st : LSt) (d : LineD) : Prop where
  state : (u.l2 m.agent m.L).st = st
  data : (u.l2 m.agent m.L).d = d
  sent : u.msgs.getLast? = some { k := .complete, L := m.L, agent := m.agent, dom := m.dom }

/-- The state that a reply's kind grants. -/
def grantSt : Kind → LSt
  | .E => .E
  | .S => .S
  | _ => .M

theorem fill_eq (s : State) (m : Msg) :
    s.fill m = (s.l2Install m.agent m.L m.core (grantSt m.kind) (m.d.getD lineZero)).map (fun v =>
      { v.send { k := .complete, L := m.L, agent := m.agent, dom := m.dom } with
        outReq := v.outReq.eraseP (Ask.is m.agent m.L .promote) }) := rfl

/-- R247: where a way can be had, the fill is done at once. -/
theorem fillIn_filled (hk : grantSt m.kind = st) (hd : m.d = some d) (h : s.l2Install m.agent m.L m.core st d ≠ none) :
    Filled (s.fillIn m) m st d := by
  subst hk
  obtain ⟨v, hv⟩ := Option.ne_none_iff_exists'.mp h
  rw [State.fillIn, fill_eq, hd, Option.getD_some, hv, Option.map_some, Option.getD_some]
  exact ⟨(l2_l2Install hv).1, (l2_l2Install hv).2, List.getLast?_concat⟩

/-! ### Protocol errors -/

/-- R39: TIL_HOME_ERR stands at 0x4080 of each tile's 64 KiB. -/
theorem key_homeErrKind (n : Nat) : (R.TIL_HOME_ERR_KIND n).key = (0x4000_4080 + n * 0x1_0000) * 128 := by
  show (0x4000_0000 + n * 0x1_0000 + 0x4080) * 128 + 0 = _
  omega
theorem key_homeErrLine (n : Nat) : (R.TIL_HOME_ERR_LINE n).key = (0x4000_4080 + n * 0x1_0000) * 128 + 8 := by
  show (0x4000_0000 + n * 0x1_0000 + 0x4080) * 128 + 8 = _
  omega

/-- R265, R513: the registers that the first fatal condition at a home's slice writes, apart from TIL_HOME_ERR.KIND. -/
def fatalRegs (n L : Nat) : List (Fld × Nat) :=
  [(R.TIL_HOME_ERR_LINE n, L), (R.ER_STAT_FATAL, 1), (R.HEP_DV_DEV_FATAL, 1), (R.ER_STAT_FLUSHING, 1), (R.FAB_TAGS_INUSE, 0)]

theorem fatalAt_f {n kind : Nat} (h : s.isFatal = false) (h0 : s.f (R.TIL_HOME_ERR_KIND n) = 0) (hk : kind ≠ 0) (x : Fld) :
    (s.fatalAt n kind L).f x = ((s.setF (R.TIL_HOME_ERR_KIND n) kind).setFs (fatalRegs n L)).f x := by
  have hcsr : (s.fatalAt n kind L).csr = ((s.setF (R.TIL_HOME_ERR_KIND n) kind).setFs (fatalRegs n L)).csr := by
    simp [State.fatalAt, State.fatal, h, h0, hk, State.record, fatalRegs]
  simp [State.f, hcsr]

theorem fatalRegs_key_ne (n : Nat) : ∀ p ∈ fatalRegs n L, (R.TIL_HOME_ERR_KIND n).key ≠ p.1.key := by
  have hoff : ∀ p ∈ fatalRegs n L, p.1.key % 2 ^ 23 ≠ 0x4080 * 128 := by
    simp only [fatalRegs, List.mem_cons, List.not_mem_nil, or_false, forall_eq_or_imp, forall_eq, key_homeErrLine]
    exact ⟨by omega, by decide⟩
  intro p hp e
  exact hoff p hp (by rw [← e, key_homeErrKind]; omega)

/-- R265: a condition of that kind at a slice with none before is fatal, and its kind stands in TIL_HOME_ERR. -/
theorem fatalAt_fatal {n kind : Nat} (h : s.isFatal = false) (h0 : s.f (R.TIL_HOME_ERR_KIND n) = 0) (hk : kind ≠ 0) (hlt : kind < 16) :
    (s.fatalAt n kind L).isFatal = true ∧ (s.fatalAt n kind L).f (R.TIL_HOME_ERR_KIND n) = kind := by
  have hlater : ∀ p ∈ [(R.HEP_DV_DEV_FATAL, 1), (R.ER_STAT_FLUSHING, 1), (R.FAB_TAGS_INUSE, 0)], R.ER_STAT_FATAL.key ≠ p.1.key := by
    decide
  rw [State.isFatal, fatalAt_f h h0 hk, fatalAt_f h h0 hk]
  constructor
  · rw [fatalRegs, setFs_cons, setFs_cons, f_setFs_ne _ _ _ hlater, f_setF_same]; rfl
  · rw [f_setFs_ne _ _ _ (fatalRegs_key_ne n), f_setF_same]; exact Nat.mod_eq_of_lt hlt

/-! ### The cores that a reply reaches -/

theorem l2_tickFree (a M : Nat) : s.tickFree.l2 a M = s.l2 a M := rfl
theorem core_tickFree (c : Nat) : s.tickFree.core c = s.core c := rfl

/-- R71: what is put into a bounded list is in it. -/
theorem mem_putBounded {α : Type} (n free : Nat) (l : List α) (x : α) : x ∈ putBounded n free l x := by
  unfold putBounded; split <;> simp

/-- R71: a fetched line is in the L1I that it enters. -/
theorem mem_l1iPut (k : Core) (free : Nat) (d : LineD) : (⟨L, d.data, d.poison⟩ : IcE) ∈ (k.l1iPut free L d).l1i :=
  List.mem_append_right _ (mem_putBounded _ _ _ _)

/-- R81: data of a fetch that no SYNC.I has overtaken. -/
theorem fetchData_wanted (h : m.L ∈ (s.core m.core).fpend) : s.fetchData m d = ((s.setL2 m.agent m.L {}).setCore m.core
    ({ s.core m.core with fpend := (s.core m.core).fpend.erase m.L }.l1iPut s.freeVal m.L d)).tickFree := by
  rw [State.fetchData]; exact if_pos (List.contains_iff_mem.mpr h)
theorem fetchData_stale (h : m.L ∉ (s.core m.core).fpend) : s.fetchData m d = s.setL2 m.agent m.L {} := by
  rw [State.fetchData]; exact if_neg (fun hc => h (List.contains_iff_mem.mp hc))

/-- R81: fetched data leaves the tile without the line, sends nothing, and enters the L1I where it is still wanted. -/
theorem fetchData_leaves (s : State) (m : Msg) (d : LineD) :
    (s.fetchData m d).l2 m.agent m.L = {} ∧ (s.fetchData m d).msgs = s.msgs
      ∧ (m.L ∈ (s.core m.core).fpend → (⟨m.L, d.data, d.poison⟩ : IcE) ∈ ((s.fetchData m d).core m.core).l1i)
      ∧ (m.L ∉ (s.core m.core).fpend → (s.fetchData m d).cores = s.cores) := by
  by_cases h : m.L ∈ (s.core m.core).fpend
  · rw [fetchData_wanted h, l2_tickFree, l2_setCore, l2_setL2_same, core_tickFree, core_setCore_same,
      tickFree_msgs, setCore_msgs, setL2_msgs]
    exact ⟨rfl, rfl, fun _ => mem_l1iPut _ _ d, fun hn => absurd h hn⟩
  · rw [fetchData_stale h, l2_setL2_same, setL2_msgs, setL2_cores]
    exact ⟨rfl, rfl, fun hy => absurd hy h, fun _ => rfl⟩

/-- R63: the one entry that waits for the line takes the data and the stamp. -/
theorem specData_sfb {k : Core} {q : SfbE} (h : k.sfb = [q]) (hL : q.L = m.L) (hq : q.d = none) :
    (k.specData m).sfb = [{ q with d := m.d, stamp := m.stamp }] := by
  simp [Core.specData, h, hL, hq]

/-- R60, R66: after a squash of the whole window no instruction is in it. -/
theorem squash_win (k : Core) : k.squash.win = [] := by simp [Core.squash, Core.squashAfter, Core.dropUnused]

/-- R65: once its entry is dropped, no entry of the shadow fill buffer names the line. -/
theorem sfb_dropSfb_squash (k : Core) : ∀ q ∈ (k.dropSfb L).squash.sfb, q.L ≠ L := by
  intro q hq
  simp only [Core.squash, Core.squashAfter, Core.dropUnused, Core.dropSfb, List.mem_filter, bne_iff_ne] at hq
  obtain ⟨⟨-, hL⟩, -⟩ := hq
  exact hL

/-- R244: a core that misses, of a line that is neither there nor asked for, and with no data from a speculative read, asks by RD_S. -/
theorem wantShare_rdS {c : Nat} (hI : (s.l2 (c / 2) L).st = .I) (hout : s.lineOut (c / 2) L = false)
    (hsfb : ∀ q ∈ (s.core c).sfb, q.L ≠ L) : s.wantShare c L
      = ((s.setCore c { s.core c with sfb := (s.core c).sfb.filter (fun e => e.L != L) }).setL2 (c / 2) L
          { s.l2 (c / 2) L with st := .IS, at_ := s.waitClock }).send
        { k := .rdS, L := L, agent := c / 2, core := s.cix c, dom := s.govDom c } := by
  have hn : (s.core c).sfb.find? (fun e => e.L == L && e.d.isSome && !e.own) = none :=
    List.find?_eq_none.mpr (fun q hq => by simp [hsfb q hq])
  simp [State.wantShare, hI, hout, hn]

theorem core_send (n : Msg) (c : Nat) : (s.send n).core c = s.core c := rfl
theorem core_setL2 (a M : Nat) (y : L2Line) (c : Nat) : (s.setL2 a M y).core c = s.core c := rfl

/-- R244: the line then awaits its data, no entry of the core's shadow fill buffer names it, and RD_S is on its way. -/
theorem wantShare_asks {c : Nat} (hI : (s.l2 (c / 2) L).st = .I) (hout : s.lineOut (c / 2) L = false)
    (hsfb : ∀ q ∈ (s.core c).sfb, q.L ≠ L) :
    ((s.wantShare c L).l2 (c / 2) L).st = .IS ∧ ((s.wantShare c L).core c).win = (s.core c).win
      ∧ (∀ q ∈ ((s.wantShare c L).core c).sfb, q.L ≠ L)
      ∧ (s.wantShare c L).msgs = s.msgs ++ [{ k := .rdS, L := L, agent := c / 2, core := s.cix c, dom := s.govDom c }] := by
  rw [wantShare_rdS hI hout hsfb, l2_send, l2_setL2_same, core_send, core_setL2, core_setCore_same]
  exact ⟨rfl, rfl, fun q hq => by simpa using (List.mem_filter.mp hq).2, rfl⟩

/-- R65: REPLAY squashes what is younger, drops the line's entry and asks again. -/
theorem replay_asks {a c : Nat} (hc : c / 2 = a) (hI : (s.l2 a L).st = .I) (hout : s.lineOut a L = false)
    (hu : s.updCore c (fun k => (k.dropSfb L).squash) = u) :
    ((u.wantShare c L).l2 a L).st = .IS ∧ ((u.wantShare c L).core c).win = []
      ∧ (∀ q ∈ ((u.wantShare c L).core c).sfb, q.L ≠ L)
      ∧ (u.wantShare c L).msgs = s.msgs ++ [{ k := .rdS, L := L, agent := a, core := s.cix c, dom := s.govDom c }] := by
  subst hc
  have hcore : u.core c = ((s.core c).dropSfb L).squash := by rw [← hu]; exact core_setCore_same s c _
  have hdom : u.govDom c = s.govDom c := by rw [State.govDom, hcore, ← hu]; rfl
  have hIu : (u.l2 (c / 2) L).st = .I := by rw [← hu, l2_updCore]; exact hI
  have houtu : u.lineOut (c / 2) L = false := by rw [← hu]; exact hout
  obtain ⟨hst, hwin, hsfb, hmsgs⟩ := wantShare_asks hIu houtu (by rw [hcore]; exact sfb_dropSfb_squash _)
  rw [hcore, squash_win] at hwin
  rw [hdom, show u.cix c = s.cix c by rw [← hu]; rfl, show u.msgs = s.msgs by rw [← hu, updCore_msgs]] at hmsgs
  exact ⟨hst, hwin, hsfb, hmsgs⟩

/-! ### Each reply, through an open Seam, to a request that is out -/

variable {s1 s2 : State} {t0 c : Nat}

theorem exec_data_grants (ht : t0 < 256) (hs : s.seamOpen t0 = true) (h : s.take .data t0 L = some (m, s1)) (hr : m.req ≠ 1)
    (hd : m.d = some d) (hst : (s1.l2 t0 L).st = .IS ∧ (m.kind = .E ∨ m.kind = .S)
      ∨ ((s1.l2 t0 L).st = .IM ∨ (s1.l2 t0 L).st = .SM) ∧ m.kind = .M) :
    exec (.data t0 L) s = .next (s1.fillIn m) := by
  rcases hst with ⟨hx, hk | hk⟩ | ⟨hx | hx, hk⟩ <;>
    simp [execData, hs, onMsg_some s _ _ _ _ m s1 h, ht, hr, hd, hx, hk]

theorem exec_data_fetched (ht : t0 < 256) (hs : s.seamOpen t0 = true) (h : s.take .data t0 L = some (m, s1)) (hr : m.req ≠ 1)
    (hd : m.d = some d) (hx : (s1.l2 t0 L).st = .IS) (hk : m.kind = .none) :
    exec (.data t0 L) s = .next (s1.fetchData m d) := by
  simp [execData, hs, onMsg_some s _ _ _ _ m s1 h, ht, hr, hd, hx, hk]

theorem exec_data_spec (ht : t0 < 256) (hs : s.seamOpen t0 = true) (h : s.take .data t0 L = some (m, s1)) (hr : m.req = 1)
    (ha : s1.answered t0 L .rdSpec = some s2) : exec (.data t0 L) s = .next (s2.updCore m.core (·.specData m)) := by
  simp [execData, hs, onMsg_some s _ _ _ _ m s1 h, ht, hr, ha]

theorem exec_grant_owned (hs : s.seamOpen t0 = true) (h : s.take .grant t0 L = some (m, s1)) (hk : m.kind = .M)
    (hx : (s1.l2 t0 L).st = .SM) : exec (.grant t0 L) s = .next (s1.fillIn { m with d := some (s1.l2 t0 L).d }) := by
  simp [execGrant, hs, onMsg_some s _ _ _ _ m s1 h, hk, hx]

theorem exec_grant_shared {e : SfbE} (hs : s.seamOpen t0 = true) (h : s.take .grant t0 L = some (m, s1)) (hk : m.kind = .S)
    (ha : s1.answered t0 L .promote = some s2)
    (he : (s2.core m.core).sfb.find? (fun q => q.L == L && q.prom) = some e) :
    exec (.grant t0 L) s = .next ((s2.updCore m.core (·.dropSfb L)).fillIn { m with d := e.d }) := by
  simp [execGrant, hs, onMsg_some s _ _ _ _ m s1 h, hk, ha, he]

theorem fillsGo_setL2 (hf : ∀ f ∈ s.fillQ, f.agent ≠ t0) (a M : Nat) (y : L2Line) : (s.setL2 a M y).fillsGo t0 = s.setL2 a M y :=
  fillsGo_none _ t0 (by rw [setL2_fillQ]; exact hf)

theorem exec_wbAck_writeback (hs : s.seamOpen t0 = true) (h : s.take .wbAck t0 L = some (m, s1)) (hf : ∀ f ∈ s1.fillQ, f.agent ≠ t0)
    (hx : (s1.l2 t0 L).st = .WBP) : exec (.wbAck t0 L) s = .next (s1.setL2 t0 L {}) := by
  simp [execWbAck, hs, onMsg_some s _ _ _ _ m s1 h, hx, fillsGo_setL2 hf]

theorem exec_wbAck_kept (hs : s.seamOpen t0 = true) (h : s.take .wbAck t0 L = some (m, s1)) (hf : ∀ f ∈ s1.fillQ, f.agent ≠ t0)
    (hx : (s1.l2 t0 L).st = .KP) (hh : (s1.l2 t0 L).held = none) :
    exec (.wbAck t0 L) s = .next (s1.setL2 t0 L { s1.l2 t0 L with st := .E }) := by
  simp [execWbAck, hs, onMsg_some s _ _ _ _ m s1 h, hx, hh, fillsGo_setL2 hf]

theorem exec_flushAck_of_take (hs : s.seamOpen t0 = true) (h : s.take .flushAck t0 L = some (m, s1)) :
    exec (.flushAck t0 L) s = .next ((s1.answered t0 L .flush).getD (s1.protoErr L)) := by
  simp [execFlushAck, hs, onMsg_some s _ _ _ _ m s1 h]

theorem exec_notServed_answered (hs : s.seamOpen (c / 2) = true) (h : s.take .notServed (c / 2) L = some (m, s1))
    (ha : s1.answered (c / 2) L .rdSpec = some s2) : exec (.notServed c L) s = .next (s2.updCore m.core (·.dropSfb L)) := by
  simp [execNotServed, hs, onMsg_some s _ _ _ _ m s1 h, ha]

theorem exec_replay_answered (hs : s.seamOpen (c / 2) = true) (h : s.take .replay (c / 2) L = some (m, s1))
    (ha : s1.answered (c / 2) L .promote = some s2) :
    exec (.replay c L) s = .next ((s2.updCore m.core (fun k => (k.dropSfb L).squash)).wantShare m.core L) := by
  simp [execReplay, hs, onMsg_some s _ _ _ _ m s1 h, ha]

end Sys2Proof.Laws
end

section
/-! PROOF. Coherence replies at their requester. -/

namespace Sys2Proof.Laws
open Sys2Proof Sys2Proof.Machine Sys2Proof.Safety

/-- Settles O26: each reply's clause from the command's effect, and what a fill, fetched data, a squash and a protocol error leave.
That an unmatched FLUSH_ACK sets TIL_HOME_ERR.KIND to 4 at the slice of the line's home is the model's reading of
R265, beside notes/assumptions/38.md, by which a tile's protocol error has no KIND. -/
theorem repliesAtTheRequester : Obligations.RepliesAtTheRequester := by
  unfold Obligations.RepliesAtTheRequester
  intro c t0 L m d e s s1 s2 x fills
  refine ⟨fun ht hs => ⟨fun h hr hd => ?data, fun h hr ha hc => ?spec, fun h => ?grant, fun h hf => ?wbAck, fun h => ?flushAck⟩,
    fun hs h ha => exec_notServed_answered hs h ha, fun hs h ha hc hI hout => ?replay, fun h => onMsg_some s _ _ _ _ m s1 h⟩
  case data =>
    obtain ⟨rfl, rfl, -, -⟩ := take_some s h
    have granted {st : LSt} (hk : grantSt m.kind = st) (hi : s1.l2Install m.agent m.L m.core st d ≠ none)
        (he : exec (.data m.agent m.L) s = .next (s1.fillIn m)) : fills (.data m.agent m.L) st d :=
      have hfill := fillIn_filled hk hd hi
      ⟨_, he, hfill.state, hfill.data, hfill.sent⟩
    refine ⟨fun hx hk hi => ?_, fun hx hk hi => ?_, fun hx hk hi => ?_, fun hx hk => ?_⟩
    · exact granted (congrArg grantSt hk) hi (exec_data_grants ht hs h hr hd (.inl ⟨hx, .inl hk⟩))
    · exact granted (congrArg grantSt hk) hi (exec_data_grants ht hs h hr hd (.inl ⟨hx, .inr hk⟩))
    · exact granted (congrArg grantSt hk) hi (exec_data_grants ht hs h hr hd (.inr ⟨hx, hk⟩))
    · exact ⟨_, exec_data_fetched ht hs h hr hd hx hk, fetchData_leaves s1 m d⟩
  case spec =>
    obtain ⟨hsame, hcore, hothers⟩ := updCore_only s2 m.core (·.specData m)
    refine ⟨_, exec_data_spec ht hs h hr ha, ?_, fun q hsfb hqL hqd => ?_⟩
    · exact ⟨hsame, by rw [hcore]; rfl, hothers⟩
    · obtain ⟨-, rfl, -, -⟩ := take_some s h
      rw [hcore]; exact specData_sfb hsfb hqL hqd
  case grant =>
    obtain ⟨rfl, rfl, -, -⟩ := take_some s h
    refine ⟨fun hk hx hi => ?_, fun hk ha he hed hi => ?_⟩
    · have hfill := fillIn_filled (m := { m with d := some x.d }) (congrArg grantSt hk) rfl hi
      exact ⟨_, exec_grant_owned hs h hk hx, hfill.state, hfill.data, hfill.sent⟩
    · have hfill := fillIn_filled (m := { m with d := e.d }) (congrArg grantSt hk) hed hi
      exact ⟨_, exec_grant_shared hs h hk ha he, hfill.state, hfill.data, hfill.sent⟩
  case wbAck =>
    exact ⟨exec_wbAck_writeback hs h hf, exec_wbAck_kept hs h hf⟩
  case flushAck =>
    rw [exec_flushAck_of_take hs h]
    refine ⟨fun ha => by rw [ha]; rfl, fun ha hfatal hkind => ?_⟩
    rw [ha]
    exact ⟨_, rfl, fatalAt_fatal hfatal hkind (by decide) (by decide)⟩
  case replay => exact ⟨_, exec_replay_answered hs h ha, replay_asks hc hI hout rfl⟩

end Sys2Proof.Laws
end

section
/-! SUPPORT. A keeper's SRAM window: the word that an access meets, and the word's bytes after a write (R37, R314). -/

namespace Sys2Proof.Laws
open Sys2Proof Sys2Proof.Machine Sys2Proof.Safety

/-! ### Bytes put into a word -/

/-- The word `old` with `n` bytes from byte `o` on taken from `v`. -/
def spliced (old v o n : Nat) : Nat := old - old / 2 ^ (8 * o) % 2 ^ (8 * n) * 2 ^ (8 * o) + v % 2 ^ (8 * n) * 2 ^ (8 * o)

/-- Above the bytes put in stand those of the old word, below them too. -/
theorem spliced_eq (old v o n : Nat) : spliced old v o n
    = 2 ^ (8 * o) * (2 ^ (8 * n) * (old / 2 ^ (8 * o) / 2 ^ (8 * n)) + v % 2 ^ (8 * n)) + old % 2 ^ (8 * o) := by
  unfold spliced
  generalize 2 ^ (8 * o) = a
  generalize 2 ^ (8 * n) = m
  have hq : a * (old / a) = a * (m * (old / a / m)) + old / a % m * a := by
    conv_lhs => rw [← Nat.div_add_mod (old / a) m]
    ring
  have hold : old = a * (m * (old / a / m)) + old / a % m * a + old % a := by rw [← hq, Nat.div_add_mod]
  rw [Nat.mul_add, Nat.mul_comm a (v % m)]
  omega

theorem testBit_spliced (old v o n j : Nat) : (spliced old v o n).testBit j
    = if 8 * o ≤ j ∧ j < 8 * o + 8 * n then v.testBit (j - 8 * o) else old.testBit j := by
  rw [spliced_eq, Nat.testBit_two_pow_mul_add _ (Nat.mod_lt _ (Nat.two_pow_pos _)),
    Nat.testBit_two_pow_mul_add _ (Nat.mod_lt _ (Nat.two_pow_pos _))]
  by_cases hlow : j < 8 * o
  · rw [if_pos hlow, if_neg (by omega), Nat.testBit_mod_two_pow]; simp [hlow]
  · rw [if_neg hlow]
    by_cases hin : j - 8 * o < 8 * n
    · rw [if_pos hin, if_pos (by omega), Nat.testBit_mod_two_pow]; simp [hin]
    · rw [if_neg hin, if_neg (by omega), Nat.testBit_div_two_pow, Nat.testBit_div_two_pow]
      congr 1; omega

/-- What is read where bytes were put in is those bytes. -/
theorem spliced_read (old v o n : Nat) : spliced old v o n / 2 ^ (8 * o) % 2 ^ (8 * n) = v % 2 ^ (8 * n) := by
  apply Nat.eq_of_testBit_eq
  intro j
  rw [Nat.testBit_mod_two_pow, Nat.testBit_mod_two_pow, Nat.testBit_div_two_pow, testBit_spliced]
  by_cases hj : j < 8 * n
  · rw [if_pos (by omega), Nat.add_sub_cancel]
  · simp [hj]

/-- Each byte of the word is the one put in there, or the old one. -/
theorem spliced_byte (old v o n j : Nat) : spliced old v o n / 256 ^ j % 256
    = if o ≤ j ∧ j < o + n then v / 256 ^ (j - o) % 256 else old / 256 ^ j % 256 := by
  have hpow (i : Nat) : 256 ^ i = 2 ^ (8 * i) := by rw [Nat.pow_mul]
  apply Nat.eq_of_testBit_eq
  intro k
  by_cases hk : k < 8
  · split
    all_goals
      simp only [hpow]
      rw [show (256 : Nat) = 2 ^ 8 from rfl]
      simp only [Nat.testBit_mod_two_pow, Nat.testBit_div_two_pow, testBit_spliced]
    · rw [if_pos (by omega)]; congr 2; omega
    · rw [if_neg (by omega)]
  · have hno (x : Nat) : (x % 256).testBit k = false := by
      rw [show (256 : Nat) = 2 ^ 8 from rfl, Nat.testBit_mod_two_pow]; simp [hk]
    split <;> rw [hno, hno]

/-! ### The window -/

variable (s : State) {o key h off size v : Nat}

theorem kwinOff_window (h x : Nat) : kwinOff (0x3F01_0000_0000 + h * 0x10_0000 + x) = h * 2 ^ 20 + x := by
  unfold kwinOff
  norm_num [Nat.add_assoc]

theorem kwinKey_sram (hoff : off < 0x40000) : kwinKey (h * 2 ^ 20 + off) = some (h * 2 ^ 15 + off / 8) := by
  have hword : (h * 2 ^ 20 + off) / 2 ^ 20 * 2 ^ 15 + (h * 2 ^ 20 + off) % 2 ^ 20 / 8 = h * 2 ^ 15 + off / 8 := by omega
  rw [kwinKey, if_pos (by omega), hword]
theorem kwinKey_rest (hoff : off < 2 ^ 20) (hrest : 0x40000 ≤ off) : kwinKey (h * 2 ^ 20 + off) = none :=
  if_neg (by omega)

theorem kwinRead_of_key (hk : kwinKey o = some key) (size : Nat) :
    s.kwinRead o size = (s.kword key / 2 ^ (8 * (o % 8)) % 2 ^ (8 * size), s.ksramBad.contains key) := by
  simp only [State.kwinRead, hk]
theorem kwinRead_of_none (hk : kwinKey o = none) (size : Nat) : s.kwinRead o size = (0, false) := by
  simp only [State.kwinRead, hk]

theorem kwinWrite_of_key (hk : kwinKey o = some key) (size v : Nat) : s.kwinWrite o size v
    = { s with ksram := Tbl.set 0 s.ksram key (spliced (s.kword key) v (o % 8) size)
               ksramBad := if size = 8 then s.ksramBad.filter (· != key) else s.ksramBad } := by
  simp only [State.kwinWrite, hk]; rfl
theorem kwinWrite_of_none (hk : kwinKey o = none) (size v : Nat) : s.kwinWrite o size v = s := by
  simp only [State.kwinWrite, hk]

/-- A write of keeper SRAM changes the SRAM, and which of its words are uncorrectable, alone. -/
theorem kwinWrite_only (o size v : Nat) :
    s.kwinWrite o size v = { s with ksram := (s.kwinWrite o size v).ksram, ksramBad := (s.kwinWrite o size v).ksramBad } := by
  unfold State.kwinWrite; split <;> rfl

theorem kword_kwinWrite_same (hk : kwinKey o = some key) (size v : Nat) :
    (s.kwinWrite o size v).kword key = spliced (s.kword key) v (o % 8) size := by
  rw [kwinWrite_of_key s hk]; exact Tbl_get_set_same _ _ _ _
theorem kword_kwinWrite_ne (hk : kwinKey o = some key) (size v : Nat) {j : Nat} (hj : j ≠ key) :
    (s.kwinWrite o size v).kword j = s.kword j := by
  rw [kwinWrite_of_key s hk]; exact Tbl_get_set_ne _ _ _ _ hj

/-- A write of a whole word makes it correctable. -/
theorem ksramBad_kwinWrite_word (hk : kwinKey o = some key) (v : Nat) : key ∉ (s.kwinWrite o 8 v).ksramBad := by
  rw [kwinWrite_of_key s hk]; simp

end Sys2Proof.Laws
end

section
/-! PROOF. Keeper SRAM windows, and where a line of DRAM lives. -/

namespace Sys2Proof.Laws
open Sys2Proof Sys2Proof.Machine Sys2Proof.Safety

/-- Settles O1: an offset of the window has a word of the keeper's SRAM below 256 KiB and none above, and a read of the bytes just
written gives them back (`spliced_read`). -/
theorem keeperSramWindows : Obligations.KeeperSramWindows := by
  unfold Obligations.KeeperSramWindows
  intro h x size v s hh hx hsize hal pa o word t
  have ho : o = h * 2 ^ 20 + x := kwinOff_window h x
  have hbyte : o % 8 = x % 8 := by omega
  refine ⟨?region, fun hlow => ?sram, fun hrest => ?rest⟩
  case region =>
    have hpa : pa = 0x3F01_0000_0000 + h * 0x10_0000 + x := rfl
    have hdram : ¬ pa < dramEnd := by simp only [hpa, dramEnd, dramLines]; omega
    simp only [regionOf, if_neg hdram]
    rw [if_neg (by omega), if_neg (by omega), if_pos (by omega)]
  case sram =>
    have hk : kwinKey o = some word := ho ▸ kwinKey_sram hlow
    refine ⟨?_, ?_, fun j hj => kword_kwinWrite_ne s hk size v hj, kwinWrite_only s o size v⟩
    · rw [kwinRead_of_key s hk, hbyte]
    · rw [kwinRead_of_key t hk, kword_kwinWrite_same s hk, spliced_read]
  case rest =>
    have hk : kwinKey o = none := ho ▸ kwinKey_rest hx hrest
    exact ⟨kwinRead_of_none s hk size, kwinWrite_of_none s hk size v⟩

/-- R50: the sum of the base-24 digits, digit by digit. -/
theorem digitSum24_eq_sum (k q : Nat) : digitSum24 k q = ((List.range k).map (fun i => q / 24 ^ i % 24)).sum := by
  induction k generalizing q with
  | zero => rfl
  | succ k ih =>
    rw [digitSum24, ih, List.range_succ_eq_map, List.map_cons, List.map_map, List.sum_cons]
    simp only [Nat.div_div_eq_div_mul, Function.comp_def, Nat.pow_succ', Nat.pow_zero, Nat.div_one]

/-- R50: the channel of line `r` of quotient `q`. -/
theorem chanOf_line (q : Nat) {r : Nat} (hr : r < 24) : chanOf (24 * q + r) = (r + digitSum24 7 q) % 24 := by
  rw [chanOf, Nat.mul_add_mod, Nat.mod_eq_of_lt hr, Nat.mul_add_div (by decide), Nat.div_eq_of_lt hr, Nat.add_zero]

/-- R51: a line of the first 256 has its own number's tile as its home. -/
theorem homeOf_of_lt {t : Nat} (ht : t < 256) : homeOf t = t := by
  have h0 : bits t 0 8 = t := by simp only [bits]; omega
  have hz (lo w : Nat) (hlo : 8 ≤ lo) : bits t lo w = 0 := by
    rw [bits, Nat.div_eq_of_lt (ht.trans_le (Nat.pow_le_pow_right (n := 2) (by decide) hlo)), Nat.zero_mod]
  simp [homeOf, h0, hz]

/-- Settles O2: the channel of a line is its remainder shifted by the digit sum of its quotient, which `lineAt` takes back; the home
of line `t` is tile `t`. -/
theorem linesHaveOneChannelAndHome : Obligations.LinesHaveOneChannelAndHome := by
  unfold Obligations.LinesHaveOneChannelAndHome
  refine ⟨fun q r _ hr => ?channel, fun q a b _ ha hb h => ?apart, fun ch q hch _ => ?inverse, fun L => ?home,
    fun t ht => ⟨t, ht, homeOf_of_lt ht⟩⟩
  case channel => rw [chanOf_line q hr, digitSum24_eq_sum]
  case apart =>
    rw [chanOf_line q ha, chanOf_line q hb] at h
    omega
  case inverse =>
    have hr : (ch + 24 - digitSum24 7 q % 24) % 24 < 24 := Nat.mod_lt _ (by decide)
    rw [lineAt, chanOf_line q hr]
    omega
  case home => simp only [homeOf, bits, Nat.pow_zero, Nat.div_one, Nat.xor_assoc]; rfl

end Sys2Proof.Laws
end

section
/-! SUPPORT. Updates of registers alone and of keeper SRAM alone: the event network's flags, and an image's bytes (R144, R147, R381,
R387, R334). -/

namespace Sys2Proof.Laws
open Sys2Proof Sys2Proof.Machine Sys2Proof.Safety

/-- `t` differs from `s` in register fields alone. -/
def RegsOnly (s t : State) : Prop := t = { s with csr := t.csr }
/-- `t` differs from `s` in keeper SRAM alone. -/
def SramOnly (s t : State) : Prop := t = { s with ksram := t.ksram, ksramBad := t.ksramBad }

variable {s t u : State}

theorem RegsOnly.rfl' (s : State) : RegsOnly s s := rfl
theorem RegsOnly.trans (h : RegsOnly s t) (g : RegsOnly t u) : RegsOnly s u := by
  unfold RegsOnly at h g ⊢
  rw [g, h]
theorem RegsOnly.cores (h : RegsOnly s t) : t.cores = s.cores := by unfold RegsOnly at h; rw [h]
theorem RegsOnly.dram (h : RegsOnly s t) : t.dram = s.dram := by unfold RegsOnly at h; rw [h]
theorem RegsOnly.llc (h : RegsOnly s t) : t.llc = s.llc := by unfold RegsOnly at h; rw [h]
theorem RegsOnly.fabIn (h : RegsOnly s t) : t.fabIn = s.fabIn := by unfold RegsOnly at h; rw [h]
theorem SramOnly.rfl' (s : State) : SramOnly s s := rfl
theorem SramOnly.trans (h : SramOnly s t) (g : SramOnly t u) : SramOnly s u := by
  unfold SramOnly at h g ⊢
  rw [g, h]

theorem SramOnly.keepers (h : SramOnly s t) : t.keepers = s.keepers := by unfold SramOnly at h; rw [h]
theorem SramOnly.dram (h : SramOnly s t) : t.dram = s.dram := by unfold SramOnly at h; rw [h]

/-- A fold of steps each related to the state before is related to the first. -/
theorem foldl_related {α : Type} {r : State → State → Prop} (hr : ∀ a, r a a) (ht : ∀ {a b c}, r a b → r b c → r a c)
    {f : State → α → State} (hf : ∀ a x, r a (f a x)) (l : List α) (a : State) : r a (l.foldl f a) := by
  induction l generalizing a with
  | nil => exact hr a
  | cons x l ih => exact ht (hf a x) (ih _)

/-! ### Registers alone -/

variable (s)

theorem regsOnly_setF (x : Fld) (v : Nat) : RegsOnly s (s.setF x v) := rfl
theorem regsOnly_setFs (l : List (Fld × Nat)) : RegsOnly s (s.setFs l) := setFs_csr s l
theorem regsOnly_trigFlags (src : Nat) : RegsOnly s (s.trigFlags src) := by
  unfold State.trigFlags; repeat' split
  all_goals rfl
theorem regsOnly_dpend (d : Nat) : RegsOnly s (s.dpend d) := by
  unfold State.dpend; dsimp only; repeat' split
  · rfl
  · exact (regsOnly_setF s _ _).trans (regsOnly_trigFlags _ _)
  · rfl
  · rfl
theorem regsOnly_raise (src bit : Nat) : RegsOnly s (s.raise src bit) := by
  unfold State.raise; split
  · exact .rfl' s
  · exact (regsOnly_setF s _ _).trans ((regsOnly_trigFlags _ src).trans (regsOnly_dpend _ _))
theorem regsOnly_evReturn (x : Held) : RegsOnly s (s.evReturn x) := (regsOnly_setFs s _).trans (regsOnly_dpend _ _)
theorem regsOnly_evEnd (holder : Nat) (lvl : Option Bool) (src : Nat) : RegsOnly s (s.evEnd holder lvl src) := by
  unfold State.evEnd
  cases lvl <;> dsimp only <;> split <;> rfl

/-! ### An event source's report, at other blocks' registers -/

/-- Where the event network's registers end (R38). -/
def evtEnd : Nat := 0x440200 * 128

variable {y : Fld} (src : Nat)

theorem f_trigFlags_above (hy : evtEnd ≤ y.key) : (s.trigFlags src).f y = s.f y := by
  unfold evtEnd at hy
  unfold State.trigFlags
  by_cases hd : s.deadSource src = true
  · rw [if_pos hd]
  · have hsrc : src < 8192 := by
      by_contra hge
      simp [State.deadSource, Nat.not_lt.mp hge] at hd
    rw [if_neg hd]
    split
    · exact f_incSat_ne s _ y (by simp only [R.EVT_MERGE_COUNT, Fld.key] at hy ⊢; omega)
    · exact f_setF_ne s _ y _ (by simp only [R.EVT_STAT_PEND, Fld.key] at hy ⊢; omega)

theorem f_dpend_above {d : Nat} (hd : d < 4096) (hy : evtEnd ≤ y.key) : (s.dpend d).f y = s.f y := by
  have hne (u : State) (v : Nat) : (u.setF (R.EVT_DPEND_DOM (d / 32)) v).f y = u.f y :=
    f_setF_ne u _ y v (by simp only [evtEnd, R.EVT_DPEND_DOM, Fld.key] at hy ⊢; omega)
  unfold State.dpend; dsimp only; repeat' split
  · rfl
  · rw [f_trigFlags_above _ _ hy, hne]
  · exact hne s _
  · rfl

/-- A field of another block keeps its value. -/
theorem f_raise_above (bit : Nat) (hy : evtEnd ≤ y.key) : (s.raise src bit).f y = s.f y := by
  unfold State.raise
  by_cases hd : s.deadSource src = true
  · rw [if_pos hd]
  · have hsrc : src < 8192 := by
      by_contra hge
      simp [State.deadSource, Nat.not_lt.mp hge] at hd
    have hown (u : State) : u.f (R.EVT_OWN_OWNER src) < 4096 := Nat.mod_lt _ (Nat.two_pow_pos 12)
    rw [if_neg hd, State.trigger, f_dpend_above _ (hown _) hy, f_trigFlags_above _ _ hy]
    exact f_setF_ne s _ y _ (by simp only [evtEnd, R.EVT_STAT_CAUSE, Fld.key] at hy ⊢; omega)

/-! ### Keeper SRAM alone -/

/-- R334: an image's code and zeroed bytes go to keeper SRAM and nowhere else. -/
theorem sramOnly_sramLoad (h : Nat) (b : List Nat) (wipe : Bool) : SramOnly s (s.sramLoad h b wipe) := by
  have hwr (l : List Nat) (at_ n val : Nat → Nat) (t : State) :
      SramOnly t (l.foldl (fun t i => t.kwinWrite (at_ i) (n i) (val i)) t) :=
    foldl_related SramOnly.rfl' SramOnly.trans (fun t i => kwinWrite_only t _ _ _) l t
  unfold State.sramLoad; dsimp only
  refine SramOnly.trans (SramOnly.trans ?wipe (hwr _ _ _ _ _)) (hwr _ _ _ _ _)
  case wipe => split <;> rfl

end Sys2Proof.Laws
end

section
/-! SUPPORT. A keeper unit: its prefetch queue, the ends of its mesh accesses, restart, and its module (R315, R320, R321, R334). -/

namespace Sys2Proof.Laws
open Sys2Proof Sys2Proof.Machine Sys2Proof.Safety

variable (s : State) (h : Nat) {k : Keeper} {w : KWait}

/-! ### The prefetch queue -/

/-- What the keeper executes next, what it has queued, and where its delay slot leads lie at words. -/
structure FetchAligned (k : Keeper) : Prop where
  pc : k.pc.toNat % 4 = 0
  queue : ∀ w ∈ k.pq, w.1 % 4 = 0
  target : ∀ b t, k.slot = some (b, t) → t.toNat % 4 = 0

/-- R315: the words `ws` may come behind the queue of keeper `k`: they fit in it, and each is the SRAM's word at its address. -/
structure FetchesAhead (k : Keeper) (ws : List (Nat × Nat)) : Prop where
  fits : k.pq.length ≤ 4 → (k.pq ++ ws).length ≤ 4
  words : FetchAligned k → ∀ w ∈ ws, w.1 % 4 = 0 ∧ w.1 < 0x40000
    ∧ w.2 = s.kword (h * 2 ^ 15 + w.1 / 8) / 2 ^ (8 * (w.1 % 8)) % 2 ^ 32

theorem fetchAddr_aligned (hk : FetchAligned k) : k.fetchAddr % 4 = 0 := by
  have hnext {w} (hw : k.pq.getLast? = some w) : (w.1 + 4) % 4 = 0 := by
    have := hk.queue w (List.mem_of_getLast? hw); omega
  unfold Keeper.fetchAddr
  split
  · exact hk.pc
  · next hw hslot =>
    split
    · exact hk.target _ _ hslot
    · exact hnext hw
  · next hw _ => exact hnext hw

/-- R315: the words of one fetch at a word's address. -/
theorem kWords_sram {a : Nat} (ha : a % 4 = 0) (hlim : a < 0x40000) : ∀ w ∈ s.kWords h a, w.1 % 4 = 0 ∧ w.1 < 0x40000
    ∧ w.2 = s.kword (h * 2 ^ 15 + w.1 / 8) / 2 ^ (8 * (w.1 % 8)) % 2 ^ 32 := by
  unfold State.kWords
  by_cases h8 : a % 8 = 0
  · have hdiv : (a + 4) / 8 = a / 8 := by omega
    have hmod : (a + 4) % 8 = 4 := by omega
    simp only [if_pos h8, List.forall_mem_cons, List.not_mem_nil, false_implies, implies_true, and_true]
    refine ⟨⟨ha, hlim, ?_⟩, ⟨by omega, by omega, ?_⟩⟩
    · rw [h8, Nat.mul_zero, Nat.pow_zero, Nat.div_one]
    · rw [hdiv, hmod]
  · have hmod : a % 8 = 4 := by omega
    simp only [if_neg h8, List.forall_mem_cons, List.not_mem_nil, false_implies, implies_true, and_true]
    exact ⟨ha, hlim, by rw [hmod]⟩

theorem kWords_length (a : Nat) : (s.kWords h a).length ≤ 2 := by
  unfold State.kWords; dsimp only; split <;> simp

theorem fetchesAhead_nil (k : Keeper) : FetchesAhead s h k [] := ⟨fun hl => by simpa using hl, fun _ w hw => absurd hw List.not_mem_nil⟩

/-- R315: a fetch appends what stands at its address, where the queue has room and the fetch meets nothing. -/
theorem kFetch1_appends (k : Keeper) : ∃ ws, s.kFetch1 h k = { k with pq := k.pq ++ ws } ∧ FetchesAhead s h k ws := by
  unfold State.kFetch1
  split
  · next hgo =>
    obtain ⟨hroom, hok⟩ := hgo
    have hlim : k.fetchAddr < 0x40000 := by
      by_contra hge
      simp [State.kFetchErr, Nat.not_lt.mp hge] at hok
    refine ⟨_, rfl, fun _ => ?_, fun hk => kWords_sram s h (fetchAddr_aligned hk) hlim⟩
    have := kWords_length s h k.fetchAddr
    rw [List.length_append]; omega
  · exact ⟨[], by simp, fetchesAhead_nil s h k⟩

theorem FetchesAhead.append {s : State} {h : Nat} {k : Keeper} {a b : List (Nat × Nat)} (ha : FetchesAhead s h k a)
    (hb : FetchesAhead s h { k with pq := k.pq ++ a } b) : FetchesAhead s h k (a ++ b) := by
  refine ⟨fun hl => ?_, fun hk w hw => ?_⟩
  · rw [← List.append_assoc]; exact hb.fits (ha.fits hl)
  · have hk2 : FetchAligned { k with pq := k.pq ++ a } :=
      ⟨hk.pc, fun w hw => (List.mem_append.mp hw).elim (hk.queue w) (fun hw => (ha.words hk w hw).1), hk.target⟩
    exact (List.mem_append.mp hw).elim (ha.words hk w) (hb.words hk2 w)

/-- R315, R316: the fetches between two issues append to the queue, and the count of issues goes on. -/
theorem kAhead_appends (k : Keeper) : ∃ ws, s.kAhead h k = { k with pq := k.pq ++ ws, issued := k.issued + 1 }
    ∧ FetchesAhead s h k ws := by
  obtain ⟨a, ha, hfa⟩ := kFetch1_appends s h k
  obtain ⟨b, hb, hfb⟩ := kFetch1_appends s h { k with pq := k.pq ++ a }
  unfold State.kAhead; dsimp only
  split
  · exact ⟨[], by simp, fetchesAhead_nil s h k⟩
  · split
    · exact ⟨a, by rw [ha], hfa⟩
    · exact ⟨a ++ b, by rw [ha, hb, List.append_assoc], hfa.append hfb⟩

/-! ### The window and the mesh accesses -/

/-- R37: a legal access through the window. -/
theorem exec_windowAccess {off size : Nat} (hh : h < 32) (hsize : size = 1 ∨ size = 2 ∨ size = 4 ∨ size = 8) (hoff : off < 2 ^ 20)
    (hal : off % size = 0) (wr : Bool) (v : W64) : exec (.keeperWindowAccess h off size wr v) s
      = .next (if wr then s.kwinWrite (h * 2 ^ 20 + off) size v.toNat else s) :=
  whenOk_true s _ _ (by simpa [hh, hal, or_assoc] using ⟨hoff, hsize⟩)

/-- R325, R326: an exception of a keeper outside EXL and module mode. -/
theorem kTrap_enters {x : KCause} (hexl : (s.keeper h).exl = false) (hmod : (s.keeper h).modMode = false) :
    s.kTrap h x = s.setKeeper h ((s.keeper h).enter x false) := by
  simp [State.kTrap, State.modTrap, hexl, hmod]

/-- R275: an access to a keeper's SRAM window goes to that keeper's hive. The offset is generalised before the terms are compared: to
evaluate its subtraction would count down from the window's base. -/
theorem linked_devIdx {pa : Nat} (hr : regionOf pa = .ksram) (hl : s.linked (8 * h) (kwinOff pa / 2 ^ 20 % 32 * 8) = true) :
    s.linked (8 * h) (devIdx pa) = true := by
  revert hl
  unfold devIdx
  generalize kwinOff pa = o
  rw [hr]
  exact id

/-- R37, R320: a load from a keeper's SRAM over the mesh. -/
theorem kPerform_sramLoad (hr : regionOf w.pa = .ksram) (ha : w.acc = .load) (hl : s.linked (8 * h) (devIdx w.pa) = true) {x : Nat}
    {bad : Bool} (hx : s.kwinRead (kwinOff w.pa) w.size = (x, bad)) :
    s.kPerform h w = some (s, x, if bad then some 0x18 else none) := by
  have hdram : ¬ regionOf w.pa = .dram := by rw [hr]; exact Region.noConfusion
  unfold State.kPerform
  extract_lets L
  rw [if_neg hdram, hl, if_neg (by decide)]
  split
  case h_1 he => exact absurd he hdram
  case h_2 he => cases hr.symm.trans he
  case h_3 => rw [if_pos ha, hx]
  case h_4 he => exact absurd hr he

theorem exec_meshReply_loads (hw : (s.keeper h).wait = some w) (ha : w.acc = .load) {v : Nat}
    (hp : s.kPerform h w = some (s, v, none)) : exec (.keeperMeshReply h) s = .next ((s.setWait h none).kDeliver h w.rd w.size w.sx v) := by
  simp [execKeeperMeshReply, hw, hp, ha]

theorem exec_meshReply_fails (hw : (s.keeper h).wait = some w) {v code : Nat} (hp : s.kPerform h w = some (s, v, some code)) :
    exec (.keeperMeshReply h) s
      = .next ((s.setWait h none).kTrap h { code := code, acc := w.acc.code, val := BitVec.ofNat 64 w.pa }) := by
  simp [execKeeperMeshReply, hw, hp]

/-- R320: a reply's value is delivered, and the keeper fetches ahead as at every issue. -/
theorem exec_meshReply_delivers (hw : (s.keeper h).wait = some w) (ha : w.acc = .load) {v : Nat}
    (hp : s.kPerform h w = some (s, v, none)) : Completes (.keeperMeshReply h) s (fun t =>
      t.keeper h = s.kAhead h ({ s.keeper h with wait := none }.wg w.rd (extend w.size w.sx v)).retire
        ∧ t = { s with keepers := t.keepers }) := by
  refine ⟨_, exec_meshReply_loads s h hw ha hp, ?_, rfl⟩
  rw [State.kDeliver, State.retireK, keeper_setKeeper_same, keeper_setKeeper_same, State.setWait, keeper_setKeeper_same]
  rfl

theorem exec_meshReply_traps (hw : (s.keeper h).wait = some w) {v code : Nat} (hp : s.kPerform h w = some (s, v, some code))
    (hexl : (s.keeper h).exl = false) (hmod : (s.keeper h).modMode = false) : Completes (.keeperMeshReply h) s (fun t =>
      t.keeper h = ({ s.keeper h with wait := none } : Keeper).enter
        { code := code, acc := w.acc.code, val := BitVec.ofNat 64 w.pa } false) := by
  have hk : (s.setWait h none).keeper h = { s.keeper h with wait := none } := keeper_setKeeper_same s h _
  refine ⟨_, exec_meshReply_fails s h hw hp, ?_⟩
  beta_reduce
  rw [kTrap_enters _ _ (by rw [hk]; exact hexl) (by rw [hk]; exact hmod), keeper_setKeeper_same, hk]

/-- R321: a load's reply past its time is discarded and counted. -/
theorem exec_meshReply_late (hw : (s.keeper h).wait = none) (hlate : (s.keeper h).late = [w]) (hr : regionOf w.pa ≠ .host)
    (ha : w.acc = .load) : Completes (.keeperMeshReply h) s (fun t => t.keeper h = ({ s.keeper h with late := [] } : Keeper).setCr 0xA03
      (BitVec.ofNat 64 (min (((s.keeper h).cr0 0xA03).toNat + 1) 0xFFFF_FFFF))) := by
  have hfind : (s.keeper h).late.find? (fun w => regionOf w.pa != .host) = some w := by simp [hlate, hr]
  have hexec : exec (.keeperMeshReply h) s = .next ((((s.setKeeper h { s.keeper h with late := [] }).setKeeper h
      (({ s.keeper h with late := [] } : Keeper).setCr 0xA03
        (BitVec.ofNat 64 (min (((s.keeper h).cr0 0xA03).toNat + 1) 0xFFFF_FFFF))))).tickFree) := by
    simp only [exec_keeperMeshReply, execKeeperMeshReply, hw, hfind, ha]
    simp [hlate]
    rfl
  exact ⟨_, hexec, keeper_setKeeper_same _ h _⟩

/-- R321: the timeout leaves the access's reply to be discarded and its tag in quarantine, and traps. -/
theorem exec_accessTimeout (hw : (s.keeper h).wait = some w) (hrun : s.meshRuns = true) (ht : w.t0 + (s.keeper h).mto ≤ s.runClock)
    (hexl : (s.keeper h).exl = false) (hmod : (s.keeper h).modMode = false) : Completes (.keeperAccessTimeout h) s (fun t =>
      t.keeper h = ({ s.keeper h with
          wait := none, late := (s.keeper h).late ++ [{ w with late := true }],
          quar := (s.keeper h).quar ++ [(w.tag, s.ns + 2 * (s.keeper h).mto)] } : Keeper).enter
        { code := 0x19, acc := w.acc.code, val := BitVec.ofNat 64 w.pa } false) := by
  generalize hk : ({ s.keeper h with
    wait := none, late := (s.keeper h).late ++ [{ w with late := true }],
    quar := (s.keeper h).quar ++ [(w.tag, s.ns + 2 * (s.keeper h).mto)] } : Keeper) = k2
  have hexec : exec (.keeperAccessTimeout h) s
      = .next ((s.setKeeper h k2).kTrap h { code := 0x19, acc := w.acc.code, val := BitVec.ofNat 64 w.pa }) := by
    simp only [exec_keeperAccessTimeout, execKeeperAccessTimeout, hw, hk]
    exact whenOk_true s _ _ (by simp [hrun, ht])
  have hexl2 : k2.exl = false := by rw [← hk]; exact hexl
  have hmod2 : k2.modMode = false := by rw [← hk]; exact hmod
  refine ⟨_, hexec, ?_⟩
  beta_reduce
  rw [kTrap_enters _ _ (by rw [keeper_setKeeper_same, hexl2]) (by rw [keeper_setKeeper_same, hmod2]), keeper_setKeeper_same,
    keeper_setKeeper_same]

/-- R321: the end of a quarantine frees the tag. -/
theorem exec_tagRelease {tag till : Nat} (hq : (s.keeper h).quar = [(tag, till)]) (ht : till ≤ s.ns) :
    exec (.keeperTagRelease h) s = .next (s.setKeeper h { s.keeper h with
      quar := [], late := (s.keeper h).late.filter (fun x => x.tag != tag) }) := by
  simp [execKeeperTagRelease, hq, ht]

/-! ### Restart -/

theorem keeper_setF (x : Fld) (v : Nat) : (s.setF x v).keeper h = s.keeper h := rfl
theorem kcr0_setCr_same (k : Keeper) (n : Nat) (v : W64) : (k.setCr n v).cr0 n = v := by simp [Keeper.setCr, Keeper.cr0]

theorem kstat_key_ne_kmod : (R.HIV_KSTAT_STATE h).key ≠ (R.HIV_KMOD_STAT_STATUS h).key := by
  simp [Fld.key, R.HIV_KSTAT_STATE, R.HIV_KMOD_STAT_STATUS]

/-- R334: RESTART stops the keeper and clears it; beside its events' flags nothing else changes. -/
theorem exec_keeperRestart_stops (hh : h < 32) : Completes (.keeperRestart h) s (fun t => t.f (R.HIV_KSTAT_STATE h) = 0
    ∧ t.keeper h = {} ∧ t.f (R.HIV_KMOD_STAT_STATUS h) = 0 ∧ t.cores = s.cores ∧ t.dram = s.dram) := by
  obtain ⟨u, hu, he⟩ : ∃ u, RegsOnly s u ∧ s.keeperRestart h
      = (u.setKeeper h {}).setFs [(R.HIV_KSTAT_STATE h, 0), (R.HIV_KMOD_STAT_STATUS h, 0)] := by
    refine ⟨_, ?_, rfl⟩
    exact (foldl_related RegsOnly.rfl' RegsOnly.trans regsOnly_evReturn _ s).trans
      (foldl_related RegsOnly.rfl' RegsOnly.trans (fun t src => regsOnly_evEnd t _ _ src) _ _)
  refine ⟨_, whenOk_true s _ _ (decide_eq_true hh), ?_⟩
  rw [he]
  simp only [setFs_cons, setFs_nil]
  refine ⟨?_, keeper_setKeeper_same u h {}, by simp, hu.cores, hu.dram⟩
  rw [f_setF_ne _ _ _ _ (kstat_key_ne_kmod h)]; simp

theorem exec_restartDone (hh : h < 32) (hst : s.f (R.HIV_KSTAT_STATE h) = 0) (hboot : s.f R.BOOT_STAT_DONE = 1) :
    exec (.keeperRestartDone h) s = .next (s.keeperStart h) := whenOk_true s _ _ (by simp [hh, hst, hboot])

/-- R525: the keeper starts at the entry of the firmware accepted. -/
theorem keeperStart_starts {b : List Nat × Bool} (hb : s.pickImage 0 0 0x40000 = some b) :
    (s.keeperStart h).f (R.HIV_KSTAT_STATE h) = 1 ∧ (s.keeperStart h).keeper h = { pc := BitVec.ofNat 64 (imgEntry b.1) } := by
  rw [State.keeperStart, hb]
  exact ⟨f_setF_same _ _ _, keeper_setKeeper_same _ h _⟩

/-- R525: with no copy accepted it fails. -/
theorem keeperStart_fails (hb : s.pickImage 0 0 0x40000 = none) : s.keeperStart h = s.setF (R.HIV_KSTAT_STATE h) 3 := by
  rw [State.keeperStart, hb]

/-! ### Modules -/

/-- R334: LOAD, where no load is in progress. -/
theorem exec_moduleLoad_idle (hh : h < 32) (hst : s.f (R.HIV_KMOD_STAT_STATUS h) ≠ 1) : exec (.moduleLoad h) s
    = .next (s.setF (R.HIV_KMOD_STAT_STATUS h) (if s.f (R.HIV_KSTAT_STATE h) = 1 then 1 else 8)) := by
  rw [exec_moduleLoad, execModuleLoad, whenOk_true s _ _ (decide_eq_true hh)]
  simp [State.kmodCmd, hst]

/-- R334: UNLOAD, where no load is in progress. -/
theorem exec_moduleUnload_idle (hh : h < 32) (hst : s.f (R.HIV_KMOD_STAT_STATUS h) ≠ 1) :
    exec (.moduleUnload h) s = .next (s.modUnload h) := by
  rw [exec_moduleUnload, execModuleUnload, whenOk_true s _ _ (decide_eq_true hh)]
  simp [State.kmodCmd, hst]

/-- R333, R334: a load is in progress on an active keeper, and the image at HIV_KMOD_ADDR has been read whole: the header `hd`, then the
code. -/
structure ModuleRead (s1 s2 : State) (hd code : List Nat) : Prop where
  keeper : h < 32
  loading : s.f (R.HIV_KMOD_STAT_STATUS h) = 1
  active : s.f (R.HIV_KSTAT_STATE h) = 1
  headReady : s.memReady (s.f (R.HIV_KMOD_ADDR_ADDR h) * 256) 256 0 false (258 + h) = true
  headRead : s.memRead 0 (s.f (R.HIV_KMOD_ADDR_ADDR h) * 256) 256 = (s1, hd, false)
  inDram : s.f (R.HIV_KMOD_ADDR_ADDR h) * 256 + 256 + imgCodeLen hd ≤ dramEnd
  inSram : imgCodeLen hd ≤ 0x40000
  codeReady : s.memReady (s.f (R.HIV_KMOD_ADDR_ADDR h) * 256) (256 + imgCodeLen hd) 0 false (258 + h) = true
  codeRead : s1.memRead 0 (s.f (R.HIV_KMOD_ADDR_ADDR h) * 256 + 256) (imgCodeLen hd) = (s2, code, false)

/-- The module that an image of `n` bytes of code describes (R332, R333). -/
def moduleOf (b : List Nat) (n : Nat) : KMod := ⟨imgOff b, n, imgEntry b, leAt b 0x22 2, leAt b 0x24 2, imgGrants b, leAt b 8 4⟩

/-- R334: keeper `h` with the module of image `b` in place, before its STATUS says so. -/
def moduleIn (s : State) (h : Nat) (b : List Nat) (n : Nat) : State :=
  (s.sramLoad h b false).setKeeper h { (s.sramLoad h b false).keeper h with mod := some (moduleOf b n) }

variable {s1 s2 : State} {hd code : List Nat}

theorem exec_loadDone_accepts (hr : ModuleRead s h s1 s2 hd code) (hc : s2.imgCheck (hd ++ code) 1 0x40000 = 0)
    (hm : modCheck (hd ++ code) = 2) : exec (.moduleLoadDone h) s
      = .next ((moduleIn s2 h (hd ++ code) (imgCodeLen hd)).setF (R.HIV_KMOD_STAT_STATUS h) 2) := by
  obtain ⟨hh, hst, hact, hready, hread, hdram, hsram, hready2, hread2⟩ := hr
  have hhead : ¬ s.f (R.HIV_KMOD_ADDR_ADDR h) * 256 + 256 > dramEnd := by omega
  simp [execModuleLoadDone, hh, hst, hact, hhead, hready, hread, Nat.not_lt.mpr hdram, Nat.not_lt.mpr hsram, hready2, hread2, hc, hm,
    moduleIn, moduleOf]

/-- R333: an image whose check answers `c`, a signature's or a rollback's code, is refused with the STATUS of what failed. -/
theorem exec_loadDone_refuses (hr : ModuleRead s h s1 s2 hd code) {c : Nat} (hcode : c = 1 ∨ c = 3)
    (hc : s2.imgCheck (hd ++ code) 1 0x40000 = c) : exec (.moduleLoadDone h) s
      = .next (s2.setF (R.HIV_KMOD_STAT_STATUS h) (if c = 1 then 3 else 4)) := by
  obtain ⟨hh, hst, hact, hready, hread, hdram, hsram, hready2, hread2⟩ := hr
  have hhead : ¬ s.f (R.HIV_KMOD_ADDR_ADDR h) * 256 + 256 > dramEnd := by omega
  rcases hcode with rfl | rfl <;>
    simp [execModuleLoadDone, hh, hst, hact, hhead, hready, hread, Nat.not_lt.mpr hdram, Nat.not_lt.mpr hsram, hready2, hread2, hc]

/-- A module in place: the keeper's SRAM and its module have changed. -/
theorem keeper_moduleIn (s : State) (b : List Nat) (n : Nat) :
    (moduleIn s h b n).keeper h = { s.keeper h with mod := some (moduleOf b n) } := by
  have hk : (s.sramLoad h b false).keeper h = s.keeper h := by
    simp only [State.keeper, (sramOnly_sramLoad s h b false).keepers]
  rw [moduleIn, keeper_setKeeper_same, hk]
theorem dram_moduleIn (s : State) (b : List Nat) (n : Nat) : (moduleIn s h b n).dram = s.dram :=
  (sramOnly_sramLoad s h b false).dram

end Sys2Proof.Laws
end

section
/-! PROOF. Keeper units and their modules. -/

namespace Sys2Proof.Laws
open Sys2Proof Sys2Proof.Machine Sys2Proof.Safety

/-- Settles O37: a unit's commands one by one, the queue by the words that each fetch appends. That HIV_KMOD_STAT.STATUS returns to 0 at
a restart, and the order of an image's grounds, are the model's reading of R333 and R334 (notes/assumptions/53.md, 55.md). -/
theorem keeperUnitsAndModules : Obligations.KeeperUnitsAndModules := by
  unfold Obligations.KeeperUnitsAndModules
  refine ⟨?units, ?modules, ?queue⟩
  case units =>
    intro h off size v w s hh k key byte
    refine ⟨fun hsize hoff hal => ⟨exec_windowAccess s h hh hsize hoff hal false v, fun hlow => ?write, fun hrest => ?rest⟩,
      fun hw hr ha hl => ⟨fun x hx => ?delivers, fun x hx hexl hmod => ?fails⟩, fun hw hlate hr ha => ?late,
      exec_accessTimeout s h, fun tag till hq ht => ⟨_, exec_tagRelease s h hq ht, keeper_setKeeper_same s h _, rfl⟩,
      exec_keeperRestart_stops s h hh, fun hst hboot => ⟨fun b hb => ?starts, fun hb => ?stopped⟩⟩
    case write =>
      have hk : kwinKey (h * 2 ^ 20 + off) = some key := kwinKey_sram hlow
      have hbyte : (h * 2 ^ 20 + off) % 8 = off % 8 := by omega
      have hexec := exec_windowAccess s h hh hsize hoff hal true v
      rw [if_pos rfl] at hexec
      refine ⟨_, hexec, kwinWrite_only s _ _ _, fun j hj => kword_kwinWrite_ne s hk _ _ hj,
        fun j _ => ?_, fun h8 => ?_⟩
      · simp only [byte, kword_kwinWrite_same s hk, spliced_byte, hbyte]
      · rw [h8]; exact ksramBad_kwinWrite_word s hk _
    case rest =>
      rw [exec_windowAccess s h hh hsize hoff hal true v, if_pos rfl, kwinWrite_of_none s (kwinKey_rest hoff hrest)]
    case delivers => exact exec_meshReply_delivers s h hw ha (kPerform_sramLoad s h hr ha (linked_devIdx s h hr hl) hx)
    case fails =>
      have := exec_meshReply_traps s h hw (kPerform_sramLoad s h hr ha (linked_devIdx s h hr hl) hx) hexl hmod
      rwa [ha] at this
    case late =>
      obtain ⟨t, he, ht⟩ := exec_meshReply_late s h hw hlate hr ha
      refine ⟨t, he, ?_⟩
      beta_reduce
      rw [ht]
      refine ⟨rfl, rfl, rfl, ?_⟩
      rw [kcr0_setCr_same, BitVec.toNat_ofNat, Nat.mod_eq_of_lt (by omega)]
    case starts =>
      exact ⟨_, exec_restartDone s h hh hst hboot, keeperStart_starts s h hb⟩
    case stopped =>
      refine ⟨_, exec_restartDone s h hh hst hboot, ?_⟩
      rw [keeperStart_fails s h hb]
      exact ⟨setF_only s _ _, f_setF_same _ _ _⟩
  case modules =>
    intro h hd code s s1 s2 hh status a n b read
    have hread (hr : read) : ModuleRead s h s1 s2 hd code := by
      obtain ⟨h1, h2, h3, h4, h5, h6, h7, h8⟩ := hr
      exact ⟨hh, h1, h2, h3, h4, h5, h6, h7, h8⟩
    refine ⟨fun hst => ?load, fun hr hc hm => ?accepts, fun hr hc => ?signature, fun hr hc => ?rollback, fun hst => ?unload⟩
    case load =>
      refine ⟨_, exec_moduleLoad_idle s h hh hst, setF_only s _ _, ?_⟩
      simp only [status, f_setF_same]
      split <;> rfl
    case accepts =>
      refine ⟨_, exec_loadDone_accepts s h (hread hr) hc hm, f_setF_same _ _ _, ?_, ?_, dram_moduleIn h s2 b n⟩
      · rw [keeper_setF, keeper_moduleIn]; rfl
      · rw [keeper_setF, keeper_moduleIn]
    case signature =>
      exact ⟨_, exec_loadDone_refuses s h (hread hr) (.inl rfl) hc, f_setF_same _ _ _, setF_only s2 _ _⟩
    case rollback =>
      exact ⟨_, exec_loadDone_refuses s h (hread hr) (.inr rfl) hc, f_setF_same _ _ _, setF_only s2 _ _⟩
    case unload =>
      exact ⟨_, exec_moduleUnload_idle s h hh hst, f_setF_same _ _ _, keeper_setKeeper_same s h _, rfl⟩
  case queue =>
    intro h k x next s k1
    obtain ⟨ws, hk1, hws⟩ := kAhead_appends s h k
    have hpq : k1.pq = k.pq ++ ws := congrArg Keeper.pq hk1
    refine ⟨?_, ⟨ws, hpq.symm⟩, fun hl => by rw [hpq]; exact hws.fits hl, rfl, fun hpc hq hslot y hy => ?_⟩
    · simp only [k1, hk1]
    · rw [hpq, List.drop_left] at hy
      exact (hws.words ⟨hpc, hq, hslot⟩ y hy).2

end Sys2Proof.Laws
end

section
/-! SUPPORT. A line told by its bytes and locks: whole-line writes under CARRIED, lock writes, and what is read where bytes were written
(R14, R108, R164, R166). -/

namespace Sys2Proof.Laws
open Sys2Proof Sys2Proof.Machine Sys2Proof.Safety

/-! ### Bytes -/

/-- A line's data is its 64 bytes. -/
theorem data_eq_of_bytes {x y : LineD} (h : ∀ j < 64, x.read j 1 = y.read j 1) : x.data = y.data := by
  apply BitVec.eq_of_getLsbD_eq
  intro i hi
  have hbit := congrArg (·.testBit (i % 8)) (h (i / 8) (by omega))
  simp only [testBit_read_byte, show i % 8 < 8 by omega, decide_true, Bool.true_and] at hbit
  rwa [show 8 * (i / 8) + i % 8 = i by omega] at hbit

/-- Bytes just written read back. -/
theorem read_write_same (d : LineD) {o n : Nat} (v : Nat) (hn : o + n ≤ 64) : (d.write o n v).read o n = v % 2 ^ (8 * n) := by
  apply Nat.eq_of_testBit_eq
  intro k
  rw [LineD.read, Nat.testBit_mod_two_pow, Nat.testBit_mod_two_pow, BitVec.testBit_toNat, BitVec.getLsbD_ushiftRight]
  by_cases hk : k < 8 * n
  · rw [getLsbD_write _ _ _ _ _ (by omega), if_pos (by omega), Nat.add_sub_cancel_left]
  · simp [hk]

/-- Byte `j` of eight bytes of data placed at `off`. -/
theorem read_placed (data : BitVec 512) (l : BitVec 64) (p : BitVec 8) {off j : Nat} (hj : j < 64) (hlo : off ≤ j) (hhi : j < off + 8) :
    (⟨(data &&& BitVec.ofNat 512 (2 ^ 64 - 1)) <<< (8 * off), l, p⟩ : LineD).read j 1 = data.toNat / 2 ^ (8 * (j - off)) % 256 := by
  apply Nat.eq_of_testBit_eq
  intro k
  rw [testBit_read_byte, show (256 : Nat) = 2 ^ 8 from rfl, Nat.testBit_mod_two_pow, Nat.testBit_div_two_pow, BitVec.testBit_toNat]
  by_cases hk : k < 8
  · have h512 : 8 * j + k < 512 := by omega
    have hge : ¬ 8 * j + k < 8 * off := by omega
    have h64 : 8 * j + k - 8 * off < 64 := by omega
    have hbit : 8 * j + k - 8 * off = k + 8 * (j - off) := by omega
    rw [BitVec.getLsbD_shiftLeft, BitVec.getLsbD_and, BitVec.getLsbD_ofNat, Nat.testBit_two_pow_sub_one, hbit]
    rw [hbit] at h64
    simp [hk, h512, hge, h64, show k + 8 * (j - off) < 512 by omega]
  · simp [hk]

/-- A byte mask of eight bits placed at `off`. -/
theorem getLsbD_mask {m off j : Nat} (hm : m < 256) (hj : j < 64) : (BitVec.ofNat 64 m <<< off).getLsbD j = true
    ↔ off ≤ j ∧ j < off + 8 ∧ m.testBit (j - off) = true := by
  rw [BitVec.getLsbD_shiftLeft, BitVec.getLsbD_ofNat]
  have hsub : j - off < 64 := by omega
  have hbit (h : m.testBit (j - off) = true) : j - off < 8 := by
    by_contra hge
    have hpow : 2 ^ 8 ≤ 2 ^ (j - off) := Nat.pow_le_pow_right (by decide) (by omega)
    rw [Nat.testBit_lt_two_pow (by omega)] at h
    exact Bool.noConfusion h
  simp only [hj, hsub, decide_true, Bool.true_and, Bool.and_eq_true, Bool.not_eq_true', decide_eq_false_iff_not]
  constructor
  · rintro ⟨h1, h2⟩
    have := hbit h2
    exact ⟨by omega, by omega, h2⟩
  · rintro ⟨h1, -, h2⟩
    exact ⟨by omega, h2⟩

/-! ### Locks -/

theorem testBit_lockAt (l : BitVec 64) (i k : Nat) : (lockAt l i).testBit k = (decide (k < 4) && l.getLsbD (4 * i + k)) := by
  rw [lockAt, show (16 : Nat) = 2 ^ 4 from rfl, Nat.testBit_mod_two_pow, BitVec.testBit_toNat, BitVec.getLsbD_ushiftRight]

theorem getLsbD_setLock (l : BitVec 64) (i v : Nat) {b : Nat} (hb : b < 64) : (setLock l i v).getLsbD b
    = if 4 * i ≤ b ∧ b < 4 * i + 4 then v.testBit (b - 4 * i) else l.getLsbD b := by
  have hb' : b - 4 * i < 64 := by omega
  have hF : (0xF : BitVec 64) = BitVec.ofNat 64 (2 ^ 4 - 1) := rfl
  have h16 : v % 16 = v % 2 ^ 4 := rfl
  simp only [setLock, hF, h16, BitVec.getLsbD_or, BitVec.getLsbD_and, BitVec.getLsbD_not, BitVec.getLsbD_shiftLeft,
    BitVec.getLsbD_ofNat, Nat.testBit_two_pow_sub_one, Nat.testBit_mod_two_pow, hb, hb', decide_true, Bool.true_and]
  by_cases hlow : b < 4 * i
  · simp [hlow]
  · by_cases hin : b - 4 * i < 4
    · rw [if_pos (by omega)]; simp [hlow, hin]
    · rw [if_neg (by omega)]; simp [hin]

theorem lockAt_setLock (l : BitVec 64) (i v : Nat) {j : Nat} (hj : j < 16) :
    lockAt (setLock l i v) j = if j = i then v % 16 else lockAt l j := by
  apply Nat.eq_of_testBit_eq
  intro k
  rw [testBit_lockAt]
  by_cases hk : k < 4
  · rw [getLsbD_setLock l i v (by omega)]
    by_cases hji : j = i
    · rw [if_pos (by omega), if_pos hji, show (16 : Nat) = 2 ^ 4 from rfl, Nat.testBit_mod_two_pow, hji, Nat.add_sub_cancel_left]
    · rw [if_neg (by omega), if_neg hji, testBit_lockAt]
  · split
    · rw [show (16 : Nat) = 2 ^ 4 from rfl, Nat.testBit_mod_two_pow]; simp [hk]
    · rw [testBit_lockAt]; simp [hk]

/-- A line's locks are its 16 words' locks. -/
theorem locks_eq_of_lockAt {a b : BitVec 64} (h : ∀ j < 16, lockAt a j = lockAt b j) : a = b := by
  apply BitVec.eq_of_getLsbD_eq
  intro i hi
  have hbit := congrArg (·.testBit (i % 4)) (h (i / 4) (by omega))
  simp only [testBit_lockAt, show i % 4 < 4 by omega, decide_true, Bool.true_and] at hbit
  rwa [show 4 * (i / 4) + i % 4 = i by omega] at hbit

/-- R108: each word of the span takes its nibble, and the others keep their locks. -/
theorem lockAt_writeLocks (l : BitVec 64) (off n v : Nat) {j : Nat} (hj : j < 16) : lockAt (writeLocks l off n v) j
    = if off / 4 ≤ j ∧ j < off / 4 + n / 4 then v / 16 ^ (j - off / 4) % 16 else lockAt l j := by
  unfold writeLocks
  generalize n / 4 = c
  induction c with
  | zero => rw [if_neg (by omega)]; rfl
  | succ c ih =>
    rw [List.range_succ, List.foldl_append, List.foldl_cons, List.foldl_nil, lockAt_setLock _ _ _ hj, ih]
    by_cases hlast : j = off / 4 + c
    · rw [if_pos hlast, if_pos (by omega), hlast, Nat.add_sub_cancel_left, Nat.mod_mod]
    · rw [if_neg hlast]
      exact if_congr (by omega) rfl rfl

/-! ### A whole line under CARRIED -/

/-- R164, R166: a whole line with its own locks. -/
def wholeWr (d : LineD) : WrReq := ⟨BitVec.allOnes 64, d, .carried⟩

/-- The line `y` is `x` with its first `n` code words taken from `d`, and unpoisoned. -/
structure CarriedTo (d x : LineD) (n : Nat) (y : LineD) : Prop where
  poison : y.poison = 0
  bytes : ∀ j < 64, y.read j 1 = if j < 8 * n then d.read j 1 else x.read j 1
  locks : ∀ j < 16, lockAt y.locks j = if j < 2 * n then lockAt d.locks j else lockAt x.locks j

variable {d x y : LineD}

theorem bits_allOnes {lo w : Nat} (h : lo + w ≤ 64) : bits (BitVec.allOnes 64).toNat lo w = 2 ^ w - 1 := by
  apply Nat.eq_of_testBit_eq
  intro k
  rw [bits, Nat.testBit_mod_two_pow, Nat.testBit_div_two_pow, BitVec.toNat_allOnes, Nat.testBit_two_pow_sub_one,
    Nat.testBit_two_pow_sub_one]
  by_cases hk : k < w
  · simp [hk, show k + lo < 64 by omega]
  · simp [hk]

/-- Each code word is written whole. -/
theorem mergeCw_whole (hd : d.poison = 0) {i : Nat} (hi : i < 8) (y : LineD) (b : Bool) : mergeCw (wholeWr d) (y, b) i
    = ({ y.write (8 * i) 8 (mergedWord (wholeWr d) y i) with
          locks := mergedLocks (wholeWr d) y i, poison := y.poison &&& ~~~((1 : BitVec 8) <<< i) }, b) := by
  have hm : bits (wholeWr d).mask.toNat (8 * i) 8 = 255 := bits_allOnes (by omega)
  have hc : (wholeWr d).pol = .carried := rfl
  have hp : (wholeWr d).d.poison = 0 := hd
  simp [mergeCw, hm, hc, hp]

theorem lockAt_mergedLocks_whole {i : Nat} (hi : i < 8) (y : LineD) {j : Nat} (hj : j < 16) :
    lockAt (mergedLocks (wholeWr d) y i) j = if j = 2 * i ∨ j = 2 * i + 1 then lockAt d.locks j else lockAt y.locks j := by
  have hm (q : Nat) (hq : q < 16) : bits (wholeWr d).mask.toNat (4 * q) 4 ≠ 0 := by
    rw [show bits (wholeWr d).mask.toNat (4 * q) 4 = 15 from bits_allOnes (by omega)]; decide
  have hl (q : Nat) : lockAt d.locks q % 16 = lockAt d.locks q := Nat.mod_eq_of_lt (Nat.mod_lt _ (by decide))
  simp only [mergedLocks, List.foldl_cons, List.foldl_nil, if_neg (hm (2 * i) (by omega)), if_neg (hm (2 * i + 1) (by omega)),
    lockAt_setLock _ _ _ hj]
  by_cases h1 : j = 2 * i + 1
  · rw [if_pos h1, if_pos (.inr h1), h1]; exact hl _
  · rw [if_neg h1]
    by_cases h0 : j = 2 * i
    · rw [if_pos h0, if_pos (.inl h0), h0]; exact hl _
    · rw [if_neg h0, if_neg (by omega)]

theorem mergeCw_carriedTo (hd : d.poison = 0) {i : Nat} (hi : i < 8) (h : CarriedTo d x i y) :
    (mergeCw (wholeWr d) (y, false) i).2 = false ∧ CarriedTo d x (i + 1) (mergeCw (wholeWr d) (y, false) i).1 := by
  obtain ⟨hp, hb, hl⟩ := h
  rw [mergeCw_whole hd hi]
  refine ⟨rfl, ⟨by simp [hp], fun j hj => (read_write_byte y (8 * i) 8 _ j hj).trans ?bytes,
    fun j hj => (lockAt_mergedLocks_whole hi y hj).trans ?locks⟩⟩
  case bytes =>
    by_cases h : 8 * i ≤ j ∧ j < 8 * i + 8
    · have hmask : (wholeWr d).mask.getLsbD j = true := by
        rw [wholeWr, BitVec.getLsbD_allOnes, decide_eq_true hj]
      rw [if_pos h, if_pos (by omega), mergedWord_digit _ _ _ _ h.1 h.2, mergedByte, hmask]; rfl
    · rw [if_neg h, hb j hj]; exact if_congr (by omega) rfl rfl
  case locks =>
    by_cases h : j = 2 * i ∨ j = 2 * i + 1
    · rw [if_pos h, if_pos (by omega)]
    · rw [if_neg h, hl j hj]; exact if_congr (by omega) rfl rfl

/-- R164: a whole unpoisoned line under CARRIED replaces the line, locks and all, and nothing of it is discarded. -/
theorem mergeWr_whole (hd : d.poison = 0) (hx : x.poison = 0) : mergeWr x (wholeWr d) = (d, false) := by
  have h (n : Nat) (hn : n ≤ 8) : ((List.range n).foldl (mergeCw (wholeWr d)) (x, false)).2 = false
      ∧ CarriedTo d x n ((List.range n).foldl (mergeCw (wholeWr d)) (x, false)).1 := by
    induction n with
    | zero => exact ⟨rfl, hx, fun j _ => by simp, fun j _ => by simp⟩
    | succ n ih =>
      obtain ⟨h2, h1⟩ := ih (by omega)
      rw [List.range_succ, List.foldl_append, List.foldl_cons, List.foldl_nil]
      generalize List.foldl (mergeCw (wholeWr d)) (x, false) (List.range n) = r at h1 h2
      obtain ⟨y, b⟩ := r
      subst h2
      exact mergeCw_carriedTo hd (by omega) h1
  obtain ⟨hb, hc⟩ := h 8 le_rfl
  rw [← mergeWr_eq] at hb hc
  generalize mergeWr x (wholeWr d) = r at hb hc
  obtain ⟨⟨data, locks, poison⟩, b⟩ := r
  obtain ⟨hp, hbytes, hlocks⟩ := hc
  have hdata : data = d.data := data_eq_of_bytes (x := ⟨data, locks, poison⟩) (fun j hj => by rw [hbytes j hj, if_pos (by omega)])
  have hlk : locks = d.locks := locks_eq_of_lockAt (fun j hj => (hlocks j hj).trans (if_pos (by omega)))
  obtain ⟨dd, dl, dp⟩ := d
  simp only at hdata hlk hp hb hd
  rw [hdata, hlk, hp, hb, hd]

end Sys2Proof.Laws
end

section
/-! SUPPORT. Whole accesses at the home to a line that no tile owns and the LLC holds: a recall takes nothing from the LLC (R188, R246,
R254, R263). -/

namespace Sys2Proof.Laws
open Sys2Proof Sys2Proof.Machine Sys2Proof.Safety

variable {s : State} {L dom : Nat} {x : LlcE}

/-! ### Checks that pass -/

theorem spanPoison_clean (off n : Nat) : spanPoison 0 off n = false := by simp [spanPoison]
theorem lockMiss_off {lk : LockReq} (h : lk.mode = .off) (locks : BitVec 64) (off n : Nat) : lockMiss lk locks off n = none :=
  if_pos h

/-- R254: an unchecked atomic on an unpoisoned line. -/
theorem atomLine_unchecked {d : LineD} {a : AtomReq} (hp : d.poison = 0) (hm : a.lk.mode = .off) : atomLine d a
    = (d.write (a.addr % 64) a.size (atomNew a.op a.size (d.read (a.addr % 64) a.size) a.opnd.toNat a.cmp.toNat), 0,
        d.read (a.addr % 64) a.size, 0) := by
  simp only [atomLine, hp, spanPoison_clean, lockMiss_off hm, Option.isSome_none, Bool.false_eq_true, false_and, if_false]

/-! ### A recall that finds no dirty copy -/

/-- A key's value is the default or stands in the table. -/
theorem Tbl_get_default_or_mem {α : Type} (d : α) (t : Tbl α) (k : Nat) : Tbl.get d t k = d ∨ (k, Tbl.get d t k) ∈ t := by
  induction t with
  | nil => exact .inl rfl
  | cons e t ih =>
    obtain ⟨j, v⟩ := e
    rw [Tbl.get]
    split
    · next h => exact .inr (h ▸ List.mem_cons_self)
    · exact ih.imp_right (List.mem_cons_of_mem _)

/-- No tile holds a dirty copy of the line. -/
def NoDirtyCopy (s : State) (L : Nat) : Prop := ∀ t, (s.l2 t L).st ≠ .M

theorem noDirtyCopy_of_unowned (ho : s.ownerCopy L = none) (hL : L < 2 ^ 64) : NoDirtyCopy s L := by
  intro t hM
  rcases Tbl_get_default_or_mem {} s.caches (cacheKey t L) with h | h
  · rw [State.l2, h] at hM
    exact LSt.noConfusion hM
  · have hkey : cacheKey t L % 2 ^ 64 = L := by rw [cacheKey, Nat.mul_comm, Nat.mul_add_mod, Nat.mod_eq_of_lt hL]
    have hnone := List.findSome?_eq_none_iff.mp ho _ h
    rw [if_pos ⟨hkey, .inl hM⟩] at hnone
    cases hnone

theorem l2_setL2_ne {t a : Nat} (h : t ≠ a) (y : L2Line) : (s.setL2 a L y).l2 t L = s.l2 t L :=
  Tbl_get_set_ne _ _ _ _ (by unfold cacheKey; omega)

theorem noDirtyCopy_setL2 (h : NoDirtyCopy s L) (a : Nat) : NoDirtyCopy (s.setL2 a L {}) L := by
  intro t
  by_cases hta : t = a
  · rw [hta, l2_setL2_same]; exact LSt.noConfusion
  · rw [l2_setL2_ne hta]; exact h t

/-- Of a state after part of a recall: the LLC and the fabric's packets are those of `s`, and there is still no dirty copy. -/
structure Recalling (s : State) (L : Nat) (t : State) : Prop where
  llc : t.llc = s.llc
  fabIn : t.fabIn = s.fabIn
  clean : NoDirtyCopy t L

/-- R263: with no dirty copy, INV brings nothing to the LLC. -/
theorem recall_keeps (h : NoDirtyCopy s L) : (s.recall L).llc = s.llc ∧ (s.recall L).fabIn = s.fabIn := by
  unfold State.recall
  cases s.dirE L with
  | none => exact ⟨rfl, rfl⟩
  | some e =>
    refine (fun hr : Recalling s L _ => ⟨hr.llc, hr.fabIn⟩) (List.foldlRecOn (motive := Recalling s L) _ _ ⟨rfl, rfl, h⟩ ?_)
    rintro t ⟨hllc, hfab, hclean⟩ a -
    have hM := hclean a
    have hdrop : Recalling s L (t.setL2 a L {}) := 
      ⟨(setL2_llc t a L {}).trans hllc, (setL2_fabIn t a L {}).trans hfab, noDirtyCopy_setL2 hclean a⟩
    dsimp only
    generalize t.l2 a L = y at hM
    obtain ⟨st, _⟩ := y
    cases st
    case M => exact absurd rfl hM
    case E | S => exact hdrop
    all_goals exact ⟨hllc, hfab, hclean⟩

theorem count_recall_keeps (h : NoDirtyCopy s L) (hx : s.llcE L = some x) :
    ((s.count L).recall L).llcE L = some x ∧ ((s.count L).recall L).fabIn = s.fabIn := by
  obtain ⟨hllc, hfab⟩ := recall_keeps (s := s.count L) h
  exact ⟨(llcE_eq_of_llc_eq hllc L).trans hx, hfab⟩

/-! ### Reads, writes and atomics -/

/-- The state `u` differs from `s` by an access of the home that leaves line `L` of the LLC as `d`. -/
structure LeavesLine (s : State) (L : Nat) (d : LineD) (u : State) : Prop where
  fabIn : u.fabIn = s.fabIn
  held : ∃ e, u.llcE L = some e ∧ e.d = d

theorem llcPut_leaves {u : State} (hu : u.fabIn = s.fabIn) (hx : u.llcE L = some x) (dom : Nat) (d : LineD) :
    LeavesLine s L d (u.llcPut L dom d true) := by
  rw [llcPut_held hx]
  exact ⟨hu, _, llcE_llcRewrite _, rfl⟩

/-- R246: a read gives the LLC's line; a directory entry that names an owner which holds none is counted. -/
theorem ncRead_unowned (ho : s.ownerCopy L = none) (hx : s.llcE L = some x) : ∃ u, s.ncRead L dom = (u, x.d)
    ∧ u = { s with csr := u.csr } ∧ ((∀ e, s.dirE L = some e → e.st ≠ .EX) → u = s) := by
  by_cases hd : ∀ e, s.dirE L = some e → e.st ≠ .EX
  · exact ⟨s, ncRead_llc s L dom x ⟨ho, hd⟩ hx, rfl, fun _ => rfl⟩
  · obtain ⟨e, he, hEX⟩ : ∃ e, s.dirE L = some e ∧ e.st = .EX := by simpa using hd
    have hx' : (s.incSat (R.TIL_DIR_STALE_COUNT (homeOf L))).llcE L = some x := hx
    refine ⟨s.incSat (R.TIL_DIR_STALE_COUNT (homeOf L)), ?_, rfl, fun hne => absurd hEX (hne e he)⟩
    simp [State.ncRead, ho, he, hEX, State.homeFetch, hx']

/-- R254: a masked write is merged into the LLC's line. -/
theorem ncWrite_unowned (h : NoDirtyCopy s L) (hx : s.llcE L = some x) (dom : Nat) (w : WrReq) :
    ∃ u, s.ncWrite L dom w = (u, (mergeWr x.d w).2) ∧ LeavesLine s L (mergeWr x.d w).1 u := by
  obtain ⟨hx', hfab⟩ := count_recall_keeps h hx
  refine ⟨_, ?_, llcPut_leaves hfab hx' dom _⟩
  simp only [State.ncWrite, hx']

/-- R188, R254: an unchecked atomic on an unpoisoned line is performed there. -/
theorem homeAtomic_unowned (h : NoDirtyCopy s L) (hx : s.llcE L = some x) (dom : Nat) {a : AtomReq} (hp : x.d.poison = 0)
    (hm : a.lk.mode = .off) : ∃ u, s.homeAtomic L dom a = (u, 0, x.d.read (a.addr % 64) a.size, 0)
      ∧ LeavesLine s L (x.d.write (a.addr % 64) a.size
        (atomNew a.op a.size (x.d.read (a.addr % 64) a.size) a.opnd.toNat a.cmp.toNat)) u := by
  obtain ⟨hx', hfab⟩ := count_recall_keeps h hx
  refine ⟨_, ?_, llcPut_leaves hfab hx' dom _⟩
  simp only [State.homeAtomic, State.homeFetch, hx', atomLine_unchecked hp hm]

end Sys2Proof.Laws
end

section
/-! SUPPORT. Requests that arrive on the fabric: one that waits alone is served, and what serving it does (R33, R465 to R471). -/

namespace Sys2Proof.Laws
open Sys2Proof Sys2Proof.Machine Sys2Proof.Safety

variable {s : State} {k : Pkt} {ty dom : Nat} {x : LlcE}

/-! ### Service and admission -/

/-- R283, R468, R513: the one packet that has arrived is a request of type `ty`, and the device serves requests. -/
structure Served (s : State) (k : Pkt) (ty : Nat) : Prop where
  alone : s.fabIn = [k]
  type : k.ty = ty
  alive : s.isFatal = false
  runs : s.meshRuns = true

/-- The state without the packets that have arrived. -/
abbrev fabEmptied (s : State) : State := { s with fabIn := [] }

theorem fabServe_alone (h : Served s k ty) (f : Pkt → State → Out) : fabServe ty 0 s f = f k (fabEmptied s) := by
  obtain ⟨hk, hty, hfatal, hruns⟩ := h
  simp [fabServe, State.fabFirst, hk, hty, hfatal, hruns]

/-- R465: a request that a window admits, and whose lines can be served, is served. -/
theorem fabMem_admitted (h : Served s k ty) {len : Pkt → Nat} {n : Nat} (hn : len k = n) {wr : Bool} {grant : Nat → Fld}
    (hd : (fabEmptied s).rwinDom k (k.loc / n * n) n grant = some dom)
    (hr : (fabEmptied s).memReady (k.loc / n * n) n dom wr 257 = true) (f : Pkt → Nat → State → State) :
    fabMem ty 0 s len wr grant f = .next (f k dom (fabEmptied s)) := by
  simp only [fabMem, fabServe_alone h, hn, hd, hr, Bool.not_true, Bool.false_eq_true, if_false]

/-- R465: one that no window admits is refused with STATUS 2, counted and reported. -/
theorem fabMem_refused (h : Served s k ty) {len : Pkt → Nat} {n : Nat} (hn : len k = n) {wr : Bool} {grant : Nat → Fld}
    (hd : (fabEmptied s).rwinDom k (k.loc / n * n) n grant = none) (f : Pkt → Nat → State → State) :
    fabMem ty 0 s len wr grant f
      = .next ((((fabEmptied s).answerErr k 2).incSat R.FAB_INBREF_COUNT).raiseFab 5) := by
  simp only [fabMem, fabServe_alone h, hn, hd]

/-- R34: an admitted access lies in DRAM. -/
theorem rwinDom_inDram {a n : Nat} {grant : Nat → Fld} (h : s.rwinDom k a n grant = some dom) : a + n ≤ dramEnd := by
  unfold State.rwinDom at h
  split at h
  · by_contra hout
    rw [if_neg hout] at h
    cases h
  · cases h

theorem line_lt_of_inDram {loc n : Nat} (hn : 0 < n) (h : loc / n * n + n ≤ dramEnd) : loc / 64 < 2 ^ 64 := by
  have hloc := Nat.lt_div_mul_add hn (a := loc)
  have hend : dramEnd = 12 * 2 ^ 30 * 64 := rfl
  omega

/-- R155: a request that asks for no check. -/
theorem lk_off (hc : k.chk = 0) : k.lk.mode = .off := by simp [Pkt.lk, hc]

/-! ### Answers -/

/-- R33: the answer to this device's own request comes back by loopback. -/
theorem answer_loopback (hk : k.srcDev = s.ownDev) (r : Pkt) : ∃ a, s.answer k r = { s with fabIn := s.fabIn ++ [a] }
    ∧ a.ty = r.ty ∧ a.tag = k.tag ∧ a.op = r.op ∧ a.data = r.data := by
  refine ⟨{ r with hop := (k.hop.take k.nhop).reverse, ptr := 0, nhop := k.nhop, srcDev := s.ownDev, dstDev := k.srcDev, tag := k.tag },
    ?_, rfl, rfl, rfl, rfl⟩
  rw [State.answer, hk, beq_self_eq_true]
  rfl

/-! ### What each request does -/

theorem rdLine_unowned (ho : s.ownerCopy (k.loc / 64) = none) (hx : s.llcE (k.loc / 64) = some x) (hp : x.d.poison = 0)
    (hc : k.chk = 0) : ∃ u, s.rdLine k dom = (u.answer k { ty := 8, data := x.d.data, dl := x.d.locks }).fabCharge dom 64
      ∧ u = { s with csr := u.csr } ∧ ((∀ e, s.dirE (k.loc / 64) = some e → e.st ≠ .EX) → u = s) := by
  obtain ⟨u, hu, hcsr, hsame⟩ := ncRead_unowned (dom := dom) ho hx
  refine ⟨u, ?_, hcsr, hsame⟩
  simp only [State.rdLine, hu, lockMiss_off (lk_off hc), hp, Option.isSome_none, Bool.false_eq_true, false_and, if_false]
  rfl

theorem wrLine_unowned (h : NoDirtyCopy s (k.loc / 64)) (hx : s.llcE (k.loc / 64) = some x) (hp : x.d.poison = 0)
    (ha : bits k.aux 0 8 = 0) : ∃ u, s.wrLine k dom = (u.answer k { ty := 9 }).fabCharge dom 64
      ∧ LeavesLine s (k.loc / 64) ⟨k.data, k.dl, 0⟩ u := by
  have haux : BitVec.ofNat 8 k.aux = 0 := by
    apply BitVec.eq_of_toNat_eq
    simpa [bits] using ha
  have hm : mergeWr x.d ⟨BitVec.allOnes 64, ⟨k.data, k.dl, BitVec.ofNat 8 k.aux⟩, .carried⟩ = (⟨k.data, k.dl, 0⟩, false) := by
    rw [haux]; exact mergeWr_whole (d := ⟨k.data, k.dl, 0⟩) rfl hp
  obtain ⟨u, hu, hline⟩ := ncWrite_unowned h hx dom ⟨BitVec.allOnes 64, ⟨k.data, k.dl, BitVec.ofNat 8 k.aux⟩, .carried⟩
  rw [hm] at hu hline
  refine ⟨u, ?_, hline⟩
  simp only [State.wrLine, hu, tyACK, Bool.false_eq_true, if_false]

/-- The masked write that WR_PART asks for (R466). -/
def partWr (k : Pkt) : WrReq :=
  ⟨BitVec.ofNat 64 (k.aux % 256) <<< (k.loc % 64 / 8 * 8),
    ⟨(k.data &&& BitVec.ofNat 512 (2 ^ 64 - 1)) <<< (8 * (k.loc % 64 / 8 * 8)), 0, 0⟩, .preserve⟩

theorem wrPart_unowned (h : NoDirtyCopy s (k.loc / 64)) (hx : s.llcE (k.loc / 64) = some x) (hp : x.d.poison = 0) (hc : k.chk = 0) :
    ∃ u, s.wrPart k dom = (u.answer k { ty := 9 }).fabCharge dom (popCount (k.aux % 256) 8)
      ∧ LeavesLine s (k.loc / 64) (mergeWr x.d (partWr k)).1 u := by
  obtain ⟨u, hu, hline⟩ := ncWrite_unowned h hx dom (partWr k)
  rw [mergeWr_keeps_all x.d (partWr k) hp LockPol.noConfusion] at hu
  refine ⟨u, ?_, hline⟩
  simp only [partWr] at hu
  simp only [State.wrPart, hu, lockMiss_off (lk_off hc), Option.isSome_none, Bool.false_eq_true, false_and, if_false]
  rfl

/-- R466: each byte of the eight at the packet's place that the mask names is the packet's; the others stay. -/
theorem read_partWr (hp : x.d.poison = 0) {j : Nat} (hj : j < 64) : (mergeWr x.d (partWr k)).1.read j 1
    = if k.loc % 64 / 8 * 8 ≤ j ∧ j < k.loc % 64 / 8 * 8 + 8 ∧ (k.aux % 256).testBit (j - k.loc % 64 / 8 * 8) = true
      then k.data.toNat / 2 ^ (8 * (j - k.loc % 64 / 8 * 8)) % 256 else x.d.read j 1 := by
  have hmask := getLsbD_mask (m := k.aux % 256) (off := k.loc % 64 / 8 * 8) (Nat.mod_lt _ (by decide)) hj
  rw [read_mergeWr x.d (partWr k) hp LockPol.noConfusion j hj]
  by_cases hin : (partWr k).mask.getLsbD j = true
  · obtain ⟨hlo, hhi, hbit⟩ := hmask.mp hin
    rw [if_pos hin, if_pos ⟨hlo, hhi, hbit⟩]
    exact read_placed k.data 0 0 hj hlo hhi
  · rw [if_neg hin, if_neg (fun hcov => hin (hmask.mpr hcov))]

/-- The first byte and the length of the words whose locks an LKONLY write names (R466). -/
def lockSpan (k : Pkt) : Nat × Nat := if k.sz then (0, 64) else (k.loc % 64 / 4 * 4, 4)

theorem wrLocks_unowned (h : NoDirtyCopy s (k.loc / 64)) (hx : s.llcE (k.loc / 64) = some x) (hp : x.d.poison = 0) :
    ∃ u, s.wrLocks k dom = (u.answer k { ty := 9 }).fabCharge dom 8 ∧ LeavesLine s (k.loc / 64) { x.d with
      locks := writeLocks x.d.locks (lockSpan k).1 (lockSpan k).2 (k.data.toNat % 2 ^ 64 / 2 ^ (4 * ((lockSpan k).1 / 4))) } u := by
  obtain ⟨hx', hfab⟩ := count_recall_keeps h hx
  refine ⟨_, ?_, llcPut_leaves hfab hx' dom _⟩
  simp only [State.wrLocks, hx', hp, spanPoison_clean, tyACK, lockSpan, Bool.false_eq_true, if_false]

theorem lockAt_lockSpan (k : Pkt) (l : BitVec 64) {j : Nat} (hj : j < 16) :
    lockAt (writeLocks l (lockSpan k).1 (lockSpan k).2 (k.data.toNat % 2 ^ 64 / 2 ^ (4 * ((lockSpan k).1 / 4)))) j
      = if k.sz = true ∨ j = k.loc % 64 / 4 then k.data.toNat / 2 ^ (4 * j) % 16 else lockAt l j := by
  have hnib (n b : Nat) (hb : b ≤ j) : n % 2 ^ 64 / 2 ^ (4 * b) / 16 ^ (j - b) % 16 = n / 2 ^ (4 * j) % 16 := by
    rw [show (16 : Nat) ^ (j - b) = 2 ^ (4 * (j - b)) by rw [Nat.pow_mul], Nat.div_div_eq_div_mul, ← Nat.pow_add,
      show 4 * b + 4 * (j - b) = 4 * j by omega]
    apply Nat.eq_of_testBit_eq
    intro i
    rw [show (16 : Nat) = 2 ^ 4 from rfl, Nat.testBit_mod_two_pow, Nat.testBit_mod_two_pow, Nat.testBit_div_two_pow,
      Nat.testBit_div_two_pow, Nat.testBit_mod_two_pow]
    by_cases hi : i < 4
    · simp [hi, show i + 4 * j < 64 by omega]
    · simp [hi]
  rw [lockAt_writeLocks _ _ _ _ hj]
  unfold lockSpan
  cases k.sz with
  | true =>
    rw [if_pos rfl, if_pos ⟨Nat.zero_le _, by simpa using hj⟩, if_pos (.inl rfl)]
    exact hnib _ 0 (Nat.zero_le _)
  | false =>
    simp only [Bool.false_eq_true, if_false, false_or]
    by_cases hw : j = k.loc % 64 / 4
    · rw [if_pos (by omega), if_pos hw]
      exact hnib _ _ (by omega)
    · rw [if_neg (by omega), if_neg hw]

/-- R188, R466: an unchecked atomic is performed at the home and answered with the old value. -/
theorem fabAtomic_unowned (h : NoDirtyCopy s (k.loc / 64)) (hx : s.llcE (k.loc / 64) = some x) (hp : x.d.poison = 0) (hc : k.chk = 0)
    {op : AtomOp} (hop : AtomOp.of k.op = some op) {n : Nat} (hn : (if k.sz then 8 else 4) = n) :
    ∃ u, s.fabAtomic k dom = (u.answer k { ty := 10, data := BitVec.ofNat 512 (x.d.read (k.loc / n * n % 64) n) }).fabCharge dom (2 * n)
      ∧ LeavesLine s (k.loc / 64) (x.d.write (k.loc / n * n % 64) n (atomNew op n (x.d.read (k.loc / n * n % 64) n)
          (k.data.toNat % 2 ^ 64) (k.data.toNat / 2 ^ 64 % 2 ^ 64))) u := by
  obtain ⟨u, hu, hline⟩ := homeAtomic_unowned h hx dom (a := ⟨k.loc / n * n, op, n, BitVec.ofNat 64 k.data.toNat,
    BitVec.ofNat 64 (k.data.toNat / 2 ^ 64), k.lk, 0⟩) hp (lk_off hc)
  simp only [BitVec.toNat_ofNat] at hline
  refine ⟨u, ?_, hline⟩
  simp only [State.fabAtomic, hop, hn, hu]
  rfl

/-! ### From the packet on -/

variable {n : Nat}

theorem exec_rdLine_admitted (h : Served s k 1)
    (hd : (fabEmptied s).rwinDom k (k.loc / 64 * 64) 64 R.FAB_RWIN_R = some dom)
    (hr : (fabEmptied s).memReady (k.loc / 64 * 64) 64 dom false 257 = true) :
    exec (.rdLine 0) s = .next ((fabEmptied s).rdLine k dom) :=
  fabMem_admitted (len := fun _ => 64) h rfl hd hr (fun k dom s => s.rdLine k dom)

theorem exec_wrLine_admitted (h : Served s k 2)
    (hd : (fabEmptied s).rwinDom k (k.loc / 64 * 64) 64 R.FAB_RWIN_W = some dom)
    (hr : (fabEmptied s).memReady (k.loc / 64 * 64) 64 dom true 257 = true) :
    exec (.wrLine 0) s = .next ((fabEmptied s).wrLine k dom) :=
  fabMem_admitted (len := fun _ => 64) h rfl hd hr (fun k dom s => s.wrLine k dom)

/-- R466: the bytes that a WR_PART may touch. -/
def partLen (k : Pkt) : Nat := if k.lkonly then (if k.sz then 64 else 4) else 8

theorem exec_wrPart_admitted (h : Served s k 3) (hn : partLen k = n)
    (hd : (fabEmptied s).rwinDom k (k.loc / n * n) n R.FAB_RWIN_W = some dom)
    (hr : (fabEmptied s).memReady (k.loc / n * n) n dom true 257 = true) : exec (.wrPart 0) s
      = .next (if k.lkonly then (fabEmptied s).wrLocks k dom else (fabEmptied s).wrPart k dom) :=
  fabMem_admitted (len := partLen) h hn hd hr (fun k dom s => if k.lkonly then s.wrLocks k dom else s.wrPart k dom)

theorem exec_fabAtomic_admitted (h : Served s k 4) (hn : (if k.sz then 8 else 4) = n)
    (hd : (fabEmptied s).rwinDom k (k.loc / n * n) n R.FAB_RWIN_A = some dom)
    (hr : (fabEmptied s).memReady (k.loc / n * n) n dom true 257 = true) :
    exec (.fabAtomic 0) s = .next ((fabEmptied s).fabAtomic k dom) :=
  fabMem_admitted (len := fun k => if k.sz then 8 else 4) h hn hd hr (fun k dom s => s.fabAtomic k dom)

/-- R465: a request of this device that no window admits comes back as ERR with STATUS 2, counted, and touches no line. -/
theorem exec_rdLine_refused (h : Served s k 1)
    (hd : (fabEmptied s).rwinDom k (k.loc / 64 * 64) 64 R.FAB_RWIN_R = none) (hk : k.srcDev = s.ownDev) :
    Completes (.rdLine 0) s (fun t => t.f R.FAB_INBREF_COUNT = min (s.f R.FAB_INBREF_COUNT + 1) (2 ^ 32 - 1) ∧ t.llc = s.llc
      ∧ ∃ a, t.fabIn = [a] ∧ a.ty = 11 ∧ a.op = 2) := by
  obtain ⟨a, ha, hty, -, hop, -⟩ := answer_loopback (s := { s with fabIn := [] }) hk { ty := tyERR, op := 2 }
  have hexec : exec (.rdLine 0) s = .next ((({ s with fabIn := [a] } : State).incSat R.FAB_INBREF_COUNT).raiseFab 5) :=
    (fabMem_refused (len := fun _ => 64) h rfl hd (fun k dom s => s.rdLine k dom)).trans (by rw [State.answerErr, ha]; rfl)
  have hregs := regsOnly_raise (({ s with fabIn := [a] } : State).incSat R.FAB_INBREF_COUNT) 1004 5
  refine ⟨_, hexec, ?_, hregs.llc, a, hregs.fabIn, hty, hop⟩
  rw [State.raiseFab, f_raise_above _ 1004 5 (by decide), f_incSat_same]
  rfl

/-- R471: a message whose entry the ring has room for is written there, then the head, and it is acknowledged; without an event
nothing else happens. -/
theorem exec_msg_delivers {s s2 s3 s4 : State} {k : Pkt} {hp ep : Nat} {hd : List Nat} (h : Served s k 5) :
    let own := s.f (R.FAB_EP_OWNER k.ep)
    let base := s.f (R.FAB_EP2_RXBASE k.ep) * 4096
    let lg := min 16 (max 6 (s.f (R.FAB_EP_LOG2N k.ep)))
    let head := leAt hd 0 4
    let s0 := fabEmptied s
    let u := (s4.answer k { ty := 9 }).fabCharge own (min 48 k.aux)
    s.f (R.FAB_EP_EN k.ep) = 1 → own ≠ 0 → s0.dpaLoc own base true = some hp → s0.memReady hp 8 own true 257 = true →
    s0.memRead own hp 8 = (s2, hd, false) → (head + 2 ^ 32 - leAt hd 4 4) % 2 ^ 32 < 2 ^ lg →
    s2.dpaLoc own (base + 64 + head % 2 ^ lg * 64) true = some ep → s0.memReady ep 64 own true 257 = true →
    s2.memWrite own ep (msgEntry k head lg) .clear = (s3, false) → s3.memWrite own hp (leBytes 4 (head + 1)) .clear = (s4, false) →
    u.f (R.FAB_EP_EVT_EN k.ep) = 0 → exec (.msg 0) s = .next u := by
  intro own base lg head s0 u hen hown hbase hready hread hroom hentry hready2 hwr hwr2 hevt
  have hof (y : Fld) : (fabEmptied s).f y = s.f y := rfl
  have hevt' : (((s4.answer k { ty := tyACK }).fabCharge own (min 48 k.aux)).f (R.FAB_EP_EVT_EN k.ep) = 1) = False :=
    eq_false (fun h => absurd (hevt.symm.trans h) (by decide))
  have hroom' : ((head + 2 ^ 32 - leAt hd 4 4) % 2 ^ 32 ≥ 2 ^ lg) = False := eq_false (Nat.not_le.mpr hroom)
  simp only [own, base, lg, head, s0] at hown hbase hready hread hroom' hentry hready2 hwr hwr2 hevt'
  rw [exec_msg, execMsg, fabServe_alone (ty := tyMSG) h]
  simp only [hof, hen, hown, hbase, hready, hread, hroom', hentry, hready2, hwr, hwr2, hevt', Nat.one_ne_zero, or_self, if_false,
    Bool.not_true, Bool.false_eq_true, Bool.or_self, false_and]
  rfl

end Sys2Proof.Laws
end

section
/-! PROOF. Requests and messages that arrive on the fabric. -/

namespace Sys2Proof.Laws
open Sys2Proof Sys2Proof.Machine Sys2Proof.Safety

/-- Settles O50: a request that waits alone, once a window admits it, does at its home what `ncRead`, `ncWrite` and `homeAtomic` do to
a line that no tile owns and the LLC holds, told in the line's bytes and locks; the message by running its steps. -/
theorem fabricRequestsServed : Obligations.FabricRequestsServed := by
  unfold Obligations.FabricRequestsServed
  intro dom hp ep k r e op hd s s2 s3 s4 s0 served L inLlc mem answers line off m n at_ w old wide own base lg head len
  have hserved {ty : Nat} (h : served ty) : Served s k ty := by
    obtain ⟨hk, hty, hfatal, hruns⟩ := h
    exact ⟨hk, hty, hfatal, hruns⟩
  have hno {n : Nat} (hn : 0 < n) {wr : Bool} {grant : Nat → Fld} (h : mem n wr grant) : NoDirtyCopy s0 L := by
    obtain ⟨⟨ho, -, -⟩, hdom, -⟩ := h
    exact noDirtyCopy_of_unowned ho (line_lt_of_inDram hn (rwinDom_inDram hdom))
  refine ⟨fun hk => answer_loopback hk r, fun hs hm hc => ?rd, fun hs hm ha => ?wr, fun hs hlk hm hc => ?part, fun hs hlk hm => ?locks,
    fun hs hm hc hop => ?atomic, fun hs hd hk => exec_rdLine_refused (hserved hs) hd hk, fun hs => ?msg⟩
  case rd =>
    obtain ⟨⟨ho, hx, hclear⟩, hdom, hready⟩ := hm
    obtain ⟨u, hu, hcsr, hsame⟩ := rdLine_unowned (s := s0) (dom := dom) ho hx hclear hc
    refine ⟨u, (exec_rdLine_admitted (hserved hs) hdom hready).trans (congrArg _ hu), ?_, hcsr, hsame⟩
    rw [hcsr]
  case wr =>
    have hcopies := hno (by decide) hm
    obtain ⟨⟨-, hx, hclear⟩, hdom, hready⟩ := hm
    obtain ⟨u, hu, hfab, e', he', hd'⟩ := wrLine_unowned (s := s0) (dom := dom) hcopies hx hclear ha
    refine ⟨u, (exec_wrLine_admitted (hserved hs) hdom hready).trans (congrArg _ hu), hfab, e', he', ?_⟩
    rw [hd']; exact ⟨rfl, rfl, rfl⟩
  case part =>
    have hcopies := hno (by decide) hm
    obtain ⟨⟨-, hx, hclear⟩, hdom, hready⟩ := hm
    have hexec := exec_wrPart_admitted (hserved hs) (by rw [partLen, hlk]; rfl) hdom hready
    rw [hlk, if_neg Bool.false_ne_true] at hexec
    obtain ⟨u, hu, hfab, e', he', hd'⟩ := wrPart_unowned (s := s0) (dom := dom) hcopies hx hclear hc
    refine ⟨u, hexec.trans (congrArg _ hu), hfab, e', he', ?_⟩
    rw [hd']
    exact ⟨(mergeWr_mergedTo e.d (partWr k) hclear LockPol.noConfusion).2.poison, locks_mergeWr e.d (partWr k) hclear rfl,
      fun j hj => read_partWr hclear hj⟩
  case locks =>
    have hcopies := hno (n := wide) (by simp only [wide]; split <;> decide) hm
    obtain ⟨⟨-, hx, hclear⟩, hdom, hready⟩ := hm
    have hexec := exec_wrPart_admitted (hserved hs) (by rw [partLen, hlk]; rfl) hdom hready
    rw [hlk, if_pos rfl] at hexec
    obtain ⟨u, hu, hfab, e', he', hd'⟩ := wrLocks_unowned (s := s0) (dom := dom) hcopies hx hclear
    refine ⟨u, hexec.trans (congrArg _ hu), hfab, e', he', ?_⟩
    rw [hd']; exact ⟨hclear, rfl, fun j hj => lockAt_lockSpan k e.d.locks hj⟩
  case atomic =>
    have hcopies := hno (n := n) (by simp only [n]; split <;> decide) hm
    obtain ⟨⟨-, hx, hclear⟩, hdom, hready⟩ := hm
    have hexec := exec_fabAtomic_admitted (hserved hs) rfl hdom hready
    obtain ⟨u, hu, hfab, e', he', hd'⟩ := fabAtomic_unowned (s := s0) (dom := dom) hcopies hx hclear hc hop (n := n) rfl
    have hfit : at_ + n ≤ 64 := by
      simp only [at_, n]
      cases k.sz <;> simp only [Bool.false_eq_true, if_false, if_true] <;> omega
    refine ⟨u, hexec.trans (congrArg _ hu), hfab, e', he', ?_⟩
    rw [hd']; exact ⟨hclear, rfl, read_write_same e.d _ hfit⟩
  case msg => exact exec_msg_delivers (hserved hs)

end Sys2Proof.Laws
end

section
/-! PROOF. O8: an instruction whose predicate is false. Every P-core instruction runs under `pRun`, which asks the predicate before
it looks at anything but the encoding: each shape of instruction therefore only retires. -/
namespace Sys2Proof.Laws
open Sys2Proof Sys2Proof.Machine Sys2Proof.Safety

section
variable {s : State} {c : Nat} {pr : BitVec 4}
  (retires : ∀ f : State → Out, pRun c pr true s f = .next (s.updCore c Core.retire))
include retires

theorem regOp_retires (rd : BitVec 5) (srcs : List (BitVec 5)) (v : State → W64) :
    regOp (.core c) pr rd srcs v s = .next (s.updCore c Core.retire) := by simp only [regOp, agRun, retires]

theorem ldOp_retires (rd : BitVec 5) (srcs : List (BitVec 5)) (ea : State → W64) (size : Nat) (sx aq : Bool) :
    ldOp (.core c) pr rd srcs ea size sx aq s = .next (s.updCore c Core.retire) := by simp only [ldOp, agRun, retires]

theorem stOp_retires (rd : BitVec 5) (srcs : List (BitVec 5)) (ea : State → W64) (size : Nat) (rl : Bool) :
    stOp (.core c) pr rd srcs ea size rl s = .next (s.updCore c Core.retire) := by simp only [stOp, agRun, retires]

theorem atmOp_retires (op : AtomOp) (rd ra rb : BitVec 5) (ord : BitVec 2) (sz : Bool) :
    atmOp op (.core c) pr rd ra rb ord sz s = .next (s.updCore c Core.retire) := by simp only [atmOp, agRun, retires]

theorem fenceOp_retires (go : State → Nat → Option State) :
    fenceOp go (.core c) pr s = .next (s.updCore c Core.retire) := by simp only [fenceOp, agRun, retires]

theorem clInstr_retires (o : ClOp) (ra : BitVec 5) :
    clInstr o c pr ra s = .next (s.updCore c Core.retire) := by simp only [clInstr, retires]

theorem predOp_retires (pd : BitVec 3) (v : Core → Bool) :
    predOp c pr pd v s = .next (s.updCore c Core.retire) := by simp only [predOp, retires]

theorem vecOp_retires (vd : BitVec 5) (v : Core → W256 × FF) :
    vecOp c pr true vd v s = .next (s.updCore c Core.retire) := by simp only [vecOp, retires]

/-- A conversion is legal for some lane types only; where the type is one of them it retires as any vector operation does. -/
theorem vecOp_retiresIf {legal : Bool} (hl : legal = true) (vd : BitVec 5) (v : Core → W256 × FF) :
    vecOp c pr legal vd v s = .next (s.updCore c Core.retire) := hl ▸ vecOp_retires retires vd v

theorem execVcvtIf_retires (vd va : BitVec 5) {ty : VTy} (hi : ty.isF = false) (h8 : ty ≠ .i8) :
    execVcvtIf c pr vd va ty s = .next (s.updCore c Core.retire) :=
  vecOp_retiresIf retires (by cases ty <;> simp_all [isI, VTy.isF, VTy.width]) vd _

theorem execVcvtW_retires (vd va : BitVec 5) {ty : VTy} (ht : ty = .f16 ∨ ty = .f32) :
    execVcvtW c pr vd va ty s = .next (s.updCore c Core.retire) :=
  vecOp_retiresIf retires (by simpa using ht) vd _

theorem execVcvtN_retires (vd va : BitVec 5) {ty : VTy} (ht : ty = .f32 ∨ ty = .f64) :
    execVcvtN c pr vd va ty s = .next (s.updCore c Core.retire) :=
  vecOp_retiresIf retires (by simpa using ht) vd _

theorem execVls_retires (vd ra : BitVec 5) (st : Bool) {sz : BitVec 2} (imm : BitVec 9) (hsz : sz ≠ 0) :
    execVls c pr vd ra st sz imm s = .next (s.updCore c Core.retire) := by
  have hlegal : (sz != 0) = true := by simpa using hsz
  simp only [execVls, hlegal, retires]

theorem tlbi_retires (m : Bool) (word : Nat) (f : Core → Core) :
    tlbi c pr m word f s = .next (s.updCore c Core.retire) := by simp only [tlbi, retires]

theorem crInstr_retires (o : CrOp) (rd ra : BitVec 5) (cr : BitVec 12) :
    crInstr o (.core c) pr rd ra cr s = .next (s.updCore c Core.retire) := by simp only [crInstr, retires]

end

/-- Settles O8: an instruction of any shape in a legal encoding reaches `pRun`, and `pRun_false` retires it there. -/
theorem falsePredicateOnlyRetires : Obligations.FalsePredicateOnlyRetires := by
  unfold Obligations.FalsePredicateOnlyRetires
  intro pr key op rd ra rb shw vd va vb vc n imm cr sh h w na nb sc aq rl sz st imm16 imm17 c pd pa pb size cm cond size2 ord ft sz2
    code ty imm9 s hissue hpr hpred idle
  have retires (f : State → Out) : pRun c pr true s f = .next (s.updCore c Core.retire) := pRun_false s c pr f hissue hpr hpred
  and_intros
  all_goals simp +contextual [idle, op1, op2, fmaOp, redOp, isI, retires, regOp_retires retires, ldOp_retires retires,
    stOp_retires retires, atmOp_retires retires, fenceOp_retires retires, clInstr_retires retires, predOp_retires retires,
    vecOp_retires retires, tlbi_retires retires, crInstr_retires retires, execVcvtIf_retires retires,
    execVcvtW_retires retires, execVcvtN_retires retires, execVls_retires retires,
    execAdd, execSub, execAnd, execOr, execXor, execAndn, execOrn, execSll, execSrl, execSra, execRor, execAddW, execSubW,
    execSllW, execSrlW, execSraW, execMul, execMulh, execMulhu, execDiv, execDivu, execRem, execRemu, execMin, execMax,
    execMinu, execMaxu, execClz, execCtz, execPopc, execSextB, execSextH, execSextW, execZextW, execBswap, execAddi,
    execAndi, execOri, execXori, execAddiW, execSlli, execSrli, execSrai, execRori, execSlliW, execSrliW, execSraiW,
    execLiz, execLin, execLik, execLiku, execAddpc, execCmp, execCmpi, execPand, execPor, execPxor, execPtog, execGtop,
    execLdB, execLdBs, execLdH, execLdHs, execLdW, execLdWs, execLdD, execLdx, execStB, execStH, execStW, execStD, execStx,
    execStlkW, execStlkL, execLdlkW, execLdlkL, execKey, execKeyi, execAtmSwap, execAtmCas, execAtmAdd, execAtmAnd,
    execAtmOr, execAtmXor, execAtmMin, execAtmMax, execAtmMinu, execAtmMaxu, execFenceLl, execFenceLs, execFenceSl,
    execFenceSs, execFence, execFenceIo, execSync, execSyncI, execClWb, execClInv, execClWbi, execPrefR, execPrefW,
    execCalls, execCallm, execBrk, execTret, execWaitev, execTlbiVa, execTlbiAll, execTlbiAllg, execTlbiS2, execTlbiS2all,
    execCrx, execCrset, execCrclr, execVint, execVfp, execFps, execVfma, execVfms, execVld, execVst, execVsel, execVbcast,
    execVins, execVext, execVperm, execVsum, execVmaxr, execVminr, execVcvtFi, execVmov, execVpred]

end Sys2Proof.Laws
end

section
/-! SUPPORT. Retirement touches the front end of a core alone: the pc, the window, the translation buffers and what speculation
holds. Every architectural register, the store buffer, the posted stores, the fences' holds and the caches' state stay. -/
namespace Sys2Proof.Laws
open Sys2Proof Sys2Proof.Machine Sys2Proof.Safety

/-- `k` with the front end of `k'`. -/
def frontFrom (k k' : Core) : Core :=
  { k with pc := k'.pc, commit := k'.commit, fill := k'.fill, itlb := k'.itlb, dtlb := k'.dtlb, l2tlb := k'.l2tlb, l2big := k'.l2big,
           walkC := k'.walkC, s2C := k'.s2C, walkB := k'.walkB, sfb := k'.sfb, win := k'.win, retS := k'.retS }

/-- `k'` is `k` but for the front end. -/
def SameBack (k k' : Core) : Prop := k' = frontFrom k k'

namespace SameBack
variable {k k' k'' : Core}

theorem refl (k : Core) : SameBack k k := rfl
theorem trans (h : SameBack k k') (h' : SameBack k' k'') : SameBack k k'' := by
  rw [SameBack] at h h' ⊢; rw [h', h]; rfl

theorem foldl {α : Type} {f : Core → α → Core} (hf : ∀ k a, SameBack k (f k a)) (l : List α) (k : Core) :
    SameBack k (l.foldl f k) := by
  induction l generalizing k with
  | nil => exact refl k
  | cons a l ih => exact (hf k a).trans (ih _)

variable (h : SameBack k k')
include h
theorem sb : k'.sb = k.sb := by rw [h]; rfl
theorem posted : k'.posted = k.posted := by rw [h]; rfl
theorem holds : k'.holds = k.holds := by rw [h]; rfl
theorem held : k'.held = k.held := by rw [h]; rfl
theorem l1dLru : k'.l1dLru = k.l1dLru := by rw [h]; rfl

end SameBack

theorem install_sameBack (k : Core) (free : Nat) (w : WalkOut) (fetch : Bool) (va : W64) :
    SameBack k (k.install free w fetch va) := by
  unfold Core.install
  by_cases hbig : w.e.sz ≥ 21 <;> cases fetch <;> simp only [hbig, if_true, if_false, Bool.false_eq_true] <;> rfl

theorem settle_sameBack (k : Core) : SameBack k k.settle :=
  (SameBack.foldl (f := fun (k : Core) (b : WalkB) => k.install b.free b.w b.fetch b.va)
    (fun k b => install_sameBack k b.free b.w b.fetch b.va) k.fill k).trans rfl

theorem squash_sameBack (k : Core) : SameBack k k.squash := rfl

theorem leave_sameBack (k : Core) (next : W64) : SameBack k (k.leave next) := by
  refine (settle_sameBack k).trans ?_
  unfold Core.leave
  dsimp only
  split
  · split
    · rfl
    · split
      · rfl
      · exact squash_sameBack _
  · rfl

theorem retire_sameBack (k : Core) : SameBack k k.retire := leave_sameBack k _

@[simp] theorem retire_sb (k : Core) : k.retire.sb = k.sb := (retire_sameBack k).sb
@[simp] theorem retire_posted (k : Core) : k.retire.posted = k.posted := (retire_sameBack k).posted
@[simp] theorem retire_holds (k : Core) : k.retire.holds = k.holds := (retire_sameBack k).holds
@[simp] theorem retire_l1dLru (k : Core) : k.retire.l1dLru = k.l1dLru := (retire_sameBack k).l1dLru

end Sys2Proof.Laws
end

section
/-! SUPPORT. What the head of a store buffer makes of its line (R76, R161, R163): its bytes or locks written, its late check on
the locks as they then stand; and the use of a line through an L1D, which changes replacement state alone. -/
namespace Sys2Proof.Laws
open Sys2Proof Sys2Proof.Machine Sys2Proof.Safety

variable {s : State} {c L : Nat} {d : LineD} {e : SbE}

/-! ### Use through an L1D -/

/-- Use of a line through an L1D changes cache lines' places and replacement state, and then touches the L1D's set. -/
theorem l1Use_eq (c L : Nat) : ∃ caches plru w, s.l1Use c L = { s with caches := caches, l2plru := plru }.l1Touch c L w := by
  unfold State.l1Use
  dsimp only
  split
  · exact ⟨s.caches, s.l2plru, _, rfl⟩
  · split <;> exact ⟨_, _, _, rfl⟩

theorem l1Use_frame (c L : Nat) :
    s.l1Use c L = { s with cores := (s.l1Use c L).cores, caches := (s.l1Use c L).caches, l2plru := (s.l1Use c L).l2plru } := by
  obtain ⟨caches, plru, w, h⟩ := l1Use_eq (s := s) c L
  rw [h]; rfl

theorem l1Use_dram (c L : Nat) : (s.l1Use c L).dram = s.dram := by rw [l1Use_frame]

/-- Of the core only the L1D's replacement state changes. -/
theorem l1Use_core (c L : Nat) : (s.l1Use c L).core c = { s.core c with l1dLru := ((s.l1Use c L).core c).l1dLru } := by
  obtain ⟨caches, plru, w, h⟩ := l1Use_eq (s := s) c L
  rw [h, State.l1Touch, State.updCore, core_setCore_same]; rfl

/-! ### The bytes of a store -/

theorem write_empty (d : LineD) (off v : Nat) : d.write off 0 v = d := by
  have hdata : (d.write off 0 v).data = d.data :=
    BitVec.eq_of_getLsbD_eq fun j hj => by rw [getLsbD_write _ _ _ _ _ hj, if_neg (by omega)]
  calc d.write off 0 v = { d with data := (d.write off 0 v).data } := rfl
    _ = d := by rw [hdata]

theorem write_snoc (d : LineD) (off n v : Nat) :
    (d.write off n v).write (off + n) 1 (v / 256 ^ n % 256) = d.write off (n + 1) v := by
  have hdata : ((d.write off n v).write (off + n) 1 (v / 256 ^ n % 256)).data = (d.write off (n + 1) v).data := by
    refine BitVec.eq_of_getLsbD_eq fun j hj => ?_
    rw [getLsbD_write _ _ _ _ _ hj, getLsbD_write _ _ _ _ _ hj, getLsbD_write _ _ _ _ _ hj]
    by_cases hlast : 8 * (off + n) ≤ j ∧ j < 8 * (off + n) + 8 * 1
    · rw [if_pos hlast, if_pos (by omega), show (256 : Nat) = 2 ^ 8 from rfl, ← pow_mul, Nat.testBit_mod_two_pow,
        Nat.testBit_div_two_pow, show j - 8 * (off + n) + 8 * n = j - 8 * off by omega]
      simp only [show j - 8 * (off + n) < 8 by omega, decide_true, Bool.true_and]
    · rw [if_neg hlast]
      exact if_congr (by omega) rfl rfl
  calc (d.write off n v).write (off + n) 1 (v / 256 ^ n % 256)
      = { d with data := ((d.write off n v).write (off + n) 1 (v / 256 ^ n % 256)).data } := rfl
    _ = d.write off (n + 1) v := by rw [hdata]; rfl

/-- Byte by byte into an unpoisoned line is the whole span at once. -/
theorem foldl_bytes_eq_write (hp : d.poison = 0) (off n v : Nat) :
    (List.range n).foldl (fun (x : LineD) b =>
      if d.poison.getLsbD ((off + b) / 8) then x else x.write (off + b) 1 (v / 256 ^ b % 256)) d = d.write off n v := by
  induction n with
  | zero => exact (write_empty d off v).symm
  | succ n ih =>
    rw [List.range_succ, List.foldl_append, ih, List.foldl_cons, List.foldl_nil, hp]
    simpa using write_snoc d off n v

/-! ### Its late check -/

theorem effLocks_clean (hp : d.poison = 0) : d.effLocks = d.locks := by
  simp [LineD.effLocks, hp, List.range, List.range.loop]

/-- R163: a lock that still is what the store met at its commit point is not compared again. -/
theorem lockAt_lateLocks (e : SbE) (locks : BitVec 64) {j : Nat} (hj : j < 16) : lockAt (e.lateLocks locks) j
    = if lockAt locks j = lockAt e.locks j then 0 else lockAt locks j := by
  suffices upTo : ∀ n, lockAt ((List.range n).foldl (fun l i => if lockAt locks i = lockAt e.locks i then setLock l i 0 else l) locks) j
      = if j < n ∧ lockAt locks j = lockAt e.locks j then 0 else lockAt locks j by
    simpa [SbE.lateLocks, hj] using upTo 16
  intro n
  induction n with
  | zero => simp
  | succ n ih =>
    rw [List.range_succ, List.foldl_append, List.foldl_cons, List.foldl_nil]
    by_cases hjn : j = n
    · subst hjn
      by_cases hsame : lockAt locks j = lockAt e.locks j
      · simp [hsame, lockAt_setLock _ _ _ hj]
      · simpa [hsame] using ih
    · have hkept : ∀ l, lockAt (if lockAt locks n = lockAt e.locks n then setLock l n 0 else l) j = lockAt l j := fun l => by
        split
        · rw [lockAt_setLock _ _ _ hj, if_neg hjn]
        · rfl
      rw [hkept, ih]
      exact if_congr (and_congr_left fun _ => by omega) rfl rfl

theorem mem_spanWords_lt {off n i : Nat} (h : off + n ≤ 64) (hi : i ∈ spanWords off n) : i < 16 := by
  simp only [spanWords, List.mem_map, List.mem_range] at hi
  obtain ⟨a, ha, rfl⟩ := hi
  omega

theorem lockMiss_eq_none_iff {lk : LockReq} (hm : lk.mode ≠ .off) (locks : BitVec 64) (off n : Nat) :
    lockMiss lk locks off n = none ↔ ∀ i ∈ spanWords off n, lockMatch lk (lockAt locks i) = true := by
  simp [lockMiss, hm, List.find?_eq_none]

/-- The late check finds nothing where no lock has changed, and where none mismatches. -/
theorem lockMiss_lateLocks {off n : Nat} (hspan : off + n ≤ 64) {locks : BitVec 64}
    (h : locks = e.locks ∨ lockMiss e.lk locks off n = none) : lockMiss e.lk (e.lateLocks locks) off n = none := by
  by_cases hm : e.lk.mode = .off
  · exact lockMiss_off hm _ _ _
  rw [lockMiss_eq_none_iff hm]
  intro i hi
  rw [lockAt_lateLocks e locks (mem_spanWords_lt hspan hi)]
  split
  · rfl
  · next hchanged =>
    obtain hsame | hmatch := h
    · exact absurd (by rw [hsame]) hchanged
    · exact (lockMiss_eq_none_iff hm _ _ _).mp hmatch i hi

/-! ### The line it leaves -/

/-- R76: the bytes are written and nothing else of the line. -/
theorem sbWrite_bytes (hk : e.kind = .bytes) (hp : d.poison = 0) (hspan : e.pa % 64 + e.size ≤ 64)
    (hlate : d.locks = e.locks ∨ lockMiss e.lk d.locks (e.pa % 64) e.size = none) :
    sbWrite e d = (d.write (e.pa % 64) e.size e.data.toNat, none, false) := by
  have hmiss := lockMiss_lateLocks hspan hlate
  simp only [sbWrite, hk, effLocks_clean hp, hmiss, Option.isSome_none, Bool.false_eq_true, false_and, if_false,
    foldl_bytes_eq_write hp]

/-- R161: the lock of one word. -/
theorem sbWrite_lockW (hk : e.kind = .lockW) (hp : d.poison = 0) :
    sbWrite e d = ({ d with locks := setLock d.locks (e.pa % 64 / 4) (e.data.toNat % 16) }, none, false) := by
  simp [sbWrite, hk, hp]

/-- R161: the locks of the whole line. -/
theorem sbWrite_lockL (hk : e.kind = .lockL) (hp : d.poison = 0) : sbWrite e d = ({ d with locks := (sbWrite e d).1.locks }, none, false)
    ∧ ∀ i, i < 16 → lockAt (sbWrite e d).1.locks i = e.data.toNat / 16 ^ i % 16 := by
  have upTo (n i : Nat) (hi : i < 16) : lockAt ((List.range n).foldl (fun l j => setLock l j (e.data.toNat / 16 ^ j % 16)) d.locks) i
      = if i < n then e.data.toNat / 16 ^ i % 16 else lockAt d.locks i := by
    induction n with
    | zero => rfl
    | succ n ih =>
      rw [List.range_succ, List.foldl_append, List.foldl_cons, List.foldl_nil, lockAt_setLock _ _ _ hi, ih, Nat.mod_mod]
      by_cases hin : i = n
      · simp [hin]
      · rw [if_neg hin]
        exact if_congr (by omega) rfl rfl
  have heq : sbWrite e d
      = ({ d with locks := (List.range 16).foldl (fun l j => setLock l j (e.data.toNat / 16 ^ j % 16)) d.locks }, none, false) := by
    simp [sbWrite, hk, hp]
  rw [heq]
  exact ⟨rfl, fun i hi => by rw [upTo 16 i hi, if_pos hi]⟩

end Sys2Proof.Laws
end

section
/-! PROOF. O20: what finishes stores and parked loads. -/
namespace Sys2Proof.Laws
open Sys2Proof Sys2Proof.Machine Sys2Proof.Safety

variable {s : State} {c : Nat} {e : SbE} {rest : List SbE}

/-! ### The head of a store buffer -/

/-- R76, R163: the head of the buffer writes its owned line as `d` and leaves the buffer. -/
theorem storeBufferWrite_head (hc : c < 512) (hrun : s.tileRuns (c / 2) = true) (hsb : (s.core c).sb = e :: rest)
    (hst : (s.l2 (c / 2) (lineKey e.gc e.pa)).st = .M ∨ (s.l2 (c / 2) (lineKey e.gc e.pa)).st = .E) {d : LineD}
    (hd : sbWrite e (s.l2 (c / 2) (lineKey e.gc e.pa)).d = (d, none, false)) :
    ∃ t, exec (.storeBufferWrite c) s = .next t ∧ (t.core c).sb = rest ∧ (t.core c).g = (s.core c).g ∧ (t.core c).pc = (s.core c).pc
      ∧ t.dram = s.dram ∧ (t.l2 (c / 2) (lineKey e.gc e.pa)).st = .M ∧ (t.l2 (c / 2) (lineKey e.gc e.pa)).d = d := by
  let L := lineKey e.gc e.pa
  let u := s.l1Use c L
  let w := u.setL2 (c / 2) L { u.l2 (c / 2) L with st := .M, d := d, l1 := (1 : BitVec 2) <<< (s.cix c % 2) }
  have hexec : exec (.storeBufferWrite c) s = .next (w.updCore c (fun k =>
      { k with sb := rest, parked := k.parked.map (fun p => { p with mark := p.mark - 1 })
               holds := k.holds.map (fun h => { h with n := h.n - 1 }) })) := by
    simp [execStoreBufferWrite, hc, hrun, hsb, hst, hd, w, u, L]
  have hcore : w.core c = { s.core c with l1dLru := (u.core c).l1dLru } := l1Use_core c L
  have hdram : u.dram = s.dram := l1Use_dram c L
  refine ⟨_, hexec, ?_, ?_, ?_, hdram, ?_, ?_⟩
  · rw [State.updCore, core_setCore_same]
  · rw [State.updCore, core_setCore_same, hcore]
  · rw [State.updCore, core_setCore_same, hcore]
  · rw [l2_updCore, l2_setL2_same]
  · rw [l2_updCore, l2_setL2_same]

/-! ### A parked load -/

theorem deliver_withLru (k : Core) (dst : Dst) (raw : Nat) (y : Tbl Nat) :
    ({ k with l1dLru := y } : Core).deliver dst raw = { k.deliver dst raw with l1dLru := y } := by
  have hwg (r : Nat) (v : W64) : ({ k with l1dLru := y } : Core).wg r v = { k.wg r v with l1dLru := y } := by
    unfold Core.wg; split <;> rfl
  cases dst with
  | none => rfl
  | g r n sx => exact hwg _ _
  | v r n => rfl
  | lockW r => exact hwg _ _
  | lockL r => exact hwg _ _

/-- R63, R77: a load that no older store touches, and whose copy in the tile passes its checks, takes its value and retires. -/
theorem loadCached_hit {s s0 : State} {c : Nat} {gc : Bool} {w : Wait} {d : LineD} (hfwd : fwdOf (s.core c).sb gc w.pa w.size = .none)
    (hcopy : s.tileCopy (c / 2) (lineKey gc w.pa) = some d) (hok : checkRead d w.lk (w.pa % 64) w.size = .ok) :
    s.loadCached s0 c gc false w = .next ((s.l1Use c (lineKey gc w.pa)).updCore c
      (fun k => (k.deliver w.dst (loadRaw d w.dst (w.pa % 64) w.size)).retire)) := by
  simp [State.loadCached, hfwd, hcopy, State.loadHere, hok, State.gate, State.loadDone]

/-- R77, R83: the load that waited for its store takes its value from the tile's copy and retires. -/
theorem loadReissue_hit {p : Parked} {d : LineD} (hc : c < 512) (hrun : s.tileRuns (c / 2) = true) (hk : (s.core c).run = true)
    (hs : (s.core c).stopped = false) (hp : (s.core c).parked = some p) (hm : p.mark = 0)
    (hfwd : fwdOf (s.core c).sb p.gc p.pa p.size = .none) (hcopy : s.tileCopy (c / 2) (lineKey p.gc p.pa) = some d)
    (hok : checkRead d p.lk (p.pa % 64) p.size = .ok) :
    ∃ t, exec (.loadReissue c) s = .next t ∧ t.dram = s.dram
      ∧ t.core c = Core.retire { ({ s.core c with parked := none, commit := true } : Core).deliver p.dst
          (loadRaw d p.dst (p.pa % 64) p.size) with l1dLru := (t.core c).l1dLru } := by
  let k1 : Core := { s.core c with parked := none, commit := true }
  let u := (s.setCore c k1).l1Use c (lineKey p.gc p.pa)
  have hfwd' : fwdOf ((s.setCore c k1).core c).sb p.gc p.pa p.size = .none := by rwa [core_setCore_same]
  have hcopy' : (s.setCore c k1).tileCopy (c / 2) (lineKey p.gc p.pa) = some d := hcopy
  have hexec : exec (.loadReissue c) s
      = .next (u.updCore c (fun k => (k.deliver p.dst (loadRaw d p.dst (p.pa % 64) p.size)).retire)) := by
    have hgo := loadCached_hit (s0 := s) (w := ⟨0, 0, .load, p.ea, p.pa, p.size, p.dst, p.lk⟩) hfwd' hcopy' hok
    simp only [exec_loadReissue, execLoadReissue, hp]
    rw [if_neg (by simp [hc, hrun, hk, hs, hm])]
    exact hgo
  have hcore : u.core c = { k1 with l1dLru := (u.core c).l1dLru } := by
    simpa only [core_setCore_same] using l1Use_core (s := s.setCore c k1) c (lineKey p.gc p.pa)
  have hdram : u.dram = s.dram := l1Use_dram c _
  refine ⟨_, hexec, hdram, ?_⟩
  rw [State.updCore, core_setCore_same, hcore, deliver_withLru, retire_l1dLru]

/-! ### The obligation -/

/-- Settles O20: the head writes what `sbWrite` makes of its line, a parked load reissues as a hit, and a reply of status 0 only
takes its entries out. -/
theorem storeBufferAndReplies : Obligations.StoreBufferAndReplies := by
  unfold Obligations.StoreBufferAndReplies
  intro c e rest p r q s hc k key x
  refine ⟨?drains, ?reissues, ?replies⟩
  case drains =>
    intro hrun hsb hst hp hlate hspan
    cases hk : e.kind with
    | bytes =>
      have hw := sbWrite_bytes hk hp hspan (hlate hk)
      obtain ⟨t, hexec, hrest, hg, hpc, hdram, hM, hd⟩ := storeBufferWrite_head hc hrun hsb hst hw
      refine ⟨t, hexec, hrest, hg, hpc, hdram, hM, ?_⟩
      rw [show (t.l2 (c / 2) (key e.gc e.pa)).d = _ from hd]
      refine ⟨fun _ => ⟨read_write_same _ _ hspan, rfl, fun j hj hout => ?_⟩, nofun, nofun⟩
      rw [getLsbD_write _ _ _ _ _ hj, if_neg (by omega)]
    | lockW =>
      obtain ⟨t, hexec, hrest, hg, hpc, hdram, hM, hd⟩ := storeBufferWrite_head hc hrun hsb hst (sbWrite_lockW hk hp)
      refine ⟨t, hexec, hrest, hg, hpc, hdram, hM, ?_⟩
      rw [show (t.l2 (c / 2) (key e.gc e.pa)).d = _ from hd]
      exact ⟨nofun, fun _ => ⟨rfl, fun i hi => by rw [lockAt_setLock _ _ _ hi, Nat.mod_mod]; rfl⟩, nofun⟩
    | lockL =>
      obtain ⟨hw, hlocks⟩ := sbWrite_lockL hk hp
      obtain ⟨t, hexec, hrest, hg, hpc, hdram, hM, hd⟩ := storeBufferWrite_head hc hrun hsb hst hw
      refine ⟨t, hexec, hrest, hg, hpc, hdram, hM, ?_⟩
      rw [show (t.l2 (c / 2) (key e.gc e.pa)).d = _ from hd]
      exact ⟨nofun, nofun, fun _ => ⟨rfl, hlocks⟩⟩
  case reissues =>
    intro hrun hk hs hp hm hfwd d hcopy hok
    exact loadReissue_hit hc hrun hk hs hp hm hfwd hcopy hok
  case replies =>
    intro hr hstat hq
    simp [execDeviceStoreReply, hr, hstat, hq, k]

end Sys2Proof.Laws
end

section
/-! SUPPORT. The saved status of a trap, field by field; a keeper's pending writes as they apply (R324); and what a wake-up leaves
of a core or keeper (R148). -/
namespace Sys2Proof.Laws
open Sys2Proof Sys2Proof.Machine Sys2Proof.Safety

variable {s : State} {c h : Nat}

theorem getLsbD_putBits (x : W64) (lo w v : Nat) {j : Nat} (hj : j < 64) :
    (putBits x lo w v).getLsbD j = if lo ≤ j ∧ j < lo + w then v.testBit (j - lo) else x.getLsbD j := by
  have hj' : j - lo < 64 := by omega
  simp only [putBits, BitVec.getLsbD_or, BitVec.getLsbD_and, BitVec.getLsbD_not, BitVec.getLsbD_shiftLeft, BitVec.getLsbD_ofNat,
    Nat.testBit_two_pow_sub_one, Nat.testBit_mod_two_pow, hj, hj', decide_true, Bool.true_and]
  by_cases hlo : j < lo
  · simp [hlo, show ¬ lo ≤ j by omega]
  · by_cases hw : j - lo < w
    · simp [hlo, hw, show lo ≤ j ∧ j < lo + w by omega]
    · simp [hlo, hw, show ¬ (lo ≤ j ∧ j < lo + w) by omega]

/-! ### A write of a register that pairs no tile -/

theorem core_setF {x : Fld} (hx : ∀ t, (R.CUF_STAT_PAIR t).key ≠ x.key) (v c : Nat) : (s.setF x v).core c = s.core c := by
  have hpair (t : Nat) : (s.setF x v).paired t = s.paired t := by simp only [State.paired, f_setF_ne s x _ v (hx t)]
  simp only [State.core, State.cix, hpair, setF_cores]

/-- R484: the flag that follows a tile's cores changes none. -/
theorem core_haltFlag (t c : Nat) : (s.haltFlag t).core c = s.core c :=
  core_setF (fun n => by simp only [Fld.key, R.CUF_STAT_PAIR, R.TIL_PWR_STAT_HALT, tileBase, ne_eq]; omega) _ c

/-! ### A keeper's pending writes -/

theorem kcr0_setCr_ne (k : Keeper) (n m : Nat) (v : W64) (hm : m ≠ n) : (k.setCr n v).cr0 m = k.cr0 m :=
  Tbl_get_set_ne _ _ _ _ hm

/-- R324: one register takes its pending write. -/
def applyOne (k : Keeper) (n : Nat) : Keeper :=
  match Tbl.get none k.crP n with
  | some v => k.setCr n v
  | none => k

theorem applyOne_eq (k : Keeper) (n : Nat) : applyOne k n = { k with cr := (applyOne k n).cr } := by
  unfold applyOne; split <;> rfl

theorem cr0_applyOne (k : Keeper) (n m : Nat) :
    (applyOne k n).cr0 m = if m = n then (Tbl.get none k.crP n).getD (k.cr0 m) else k.cr0 m := by
  unfold applyOne
  split
  · next v hv =>
    by_cases hm : m = n
    · subst hm; simp [kcr0_setCr_same, hv]
    · rw [kcr0_setCr_ne _ _ _ _ hm, if_neg hm]
  · next hv => simp [hv]

theorem foldl_applyOne (l : List Nat) (hl : l.Nodup) (k : Keeper) : l.foldl applyOne k = { k with cr := (l.foldl applyOne k).cr }
    ∧ ∀ m, (l.foldl applyOne k).cr0 m = if m ∈ l then (Tbl.get none k.crP m).getD (k.cr0 m) else k.cr0 m := by
  induction l generalizing k with
  | nil => exact ⟨rfl, fun m => by simp⟩
  | cons n l ih =>
    obtain ⟨hn, hl⟩ := List.nodup_cons.mp hl
    obtain ⟨hframe, hcr⟩ := ih hl (applyOne k n)
    have hp : (applyOne k n).crP = k.crP := by rw [applyOne_eq]
    refine ⟨?_, fun m => ?_⟩
    · rw [List.foldl_cons, hframe, applyOne_eq]
    · rw [List.foldl_cons, hcr, hp, cr0_applyOne]
      by_cases hm : m = n
      · subst hm; simp [hn]
      · simp [hm]

theorem applyPend_frame (k : Keeper) : k.applyPend = { k with cr := k.applyPend.cr, crP := [] } := by
  obtain ⟨hframe, -⟩ := foldl_applyOne kSyncRegs (by decide) k
  exact congrArg (fun k1 : Keeper => { k1 with crP := [] }) hframe

/-- R324: a register of the list takes what is pending for it; every other stays. -/
theorem cr0_applyPend (k : Keeper) (m : Nat) :
    k.applyPend.cr0 m = if m ∈ kSyncRegs then (Tbl.get none k.crP m).getD (k.cr0 m) else k.cr0 m :=
  (foldl_applyOne kSyncRegs (by decide) k).2 m

/-! ### Waking -/

theorem leave_pc (k : Core) (next : W64) : (k.leave next).pc = next := by
  unfold Core.leave
  dsimp only
  split
  · split
    · rfl
    · split <;> rfl
  · rfl

theorem retire_pc (k : Core) : k.retire.pc = pcNext k.pc := leave_pc k _

/-- R148: recognition at once marks the core and squashes, and leaves the rest. -/
theorem recogNow_frame (s : State) (c : Nat) : s.recogNow c = { s with cores := (s.recogNow c).cores }
    ∧ ((s.recogNow c).core c).held = (s.core c).held ∧ ((s.recogNow c).core c).waitev = (s.core c).waitev
    ∧ ((s.recogNow c).core c).pc = (s.core c).pc := by
  unfold State.recogNow
  split
  · refine ⟨rfl, ?_, ?_, ?_⟩ <;> rw [State.updCore, core_setCore_same] <;> rfl
  · exact ⟨rfl, rfl, rfl, rfl⟩

/-- R148: a core that something wakes does not wait in WAITEV any more: where it did, it goes on behind it. -/
theorem wakeCore_wakes (hw : s.wakeable (s.core c) = true) : s.wakeCore c = { s with cores := (s.wakeCore c).cores }
    ∧ ((s.wakeCore c).core c).held = (s.core c).held ∧ ((s.wakeCore c).core c).waitev = false
    ∧ ((s.wakeCore c).core c).pc = (if (s.core c).waitev then pcNext (s.core c).pc else (s.core c).pc) := by
  cases hwait : (s.core c).waitev with
  | true =>
    have hwake : s.wakeCore c = (s.setCore c { (s.core c).retire with waitev := false }).recogNow c := by
      simp [State.wakeCore, hwait, hw]
    obtain ⟨hframe, hheld, hwaitev, hpc⟩ := recogNow_frame (s.setCore c { (s.core c).retire with waitev := false }) c
    rw [core_setCore_same] at hheld hwaitev hpc
    rw [hwake]
    exact ⟨hframe.trans rfl, hheld.trans (retire_sameBack _).held, hwaitev, hpc.trans (retire_pc _)⟩
  | false =>
    have hwake : s.wakeCore c = s := by simp [State.wakeCore, hwait]
    rw [hwake]
    exact ⟨rfl, rfl, hwait, rfl⟩

/-- R148, R328: the same for a keeper. -/
theorem wakeKeeper_wakes (hw : ((s.keeper h).held.isEmpty = false) ∨ s.kTimer (s.keeper h) = true) :
    (s.wakeKeeper h).csr = s.csr ∧ (s.wakeKeeper h).arrivals = s.arrivals
    ∧ ((s.wakeKeeper h).keeper h).held = (s.keeper h).held ∧ ((s.wakeKeeper h).keeper h).waitev = false
    ∧ ((s.wakeKeeper h).keeper h).k = (s.keeper h).k := by
  have retired (k : Keeper) : k.retire.held = k.held ∧ k.retire.k = k.k := by
    unfold Keeper.retire; split <;> exact ⟨rfl, rfl⟩
  have recognised (u : State) : (u.kRecog h).csr = u.csr ∧ (u.kRecog h).arrivals = u.arrivals
      ∧ ((u.kRecog h).keeper h).held = (u.keeper h).held ∧ ((u.kRecog h).keeper h).waitev = (u.keeper h).waitev
      ∧ ((u.kRecog h).keeper h).k = (u.keeper h).k := by
    by_cases hi : (u.kIntr (u.keeper h)).isSome = true <;> simp [State.kRecog, hi]
  cases hwait : (s.keeper h).waitev with
  | true =>
    have hwake : s.wakeKeeper h = (s.setKeeper h { (s.keeper h).retire with waitev := false }).kRecog h := by
      obtain hw | hw := hw <;> simp [State.wakeKeeper, hwait, hw]
    obtain ⟨hcsr, harr, hheld, hwaitev, hk⟩ := recognised (s.setKeeper h { (s.keeper h).retire with waitev := false })
    rw [keeper_setKeeper_same] at hheld hwaitev hk
    rw [hwake]
    exact ⟨hcsr, harr, hheld.trans (retired _).1, hwaitev, hk.trans (retired _).2⟩
  | false =>
    have hwake : s.wakeKeeper h = s := by simp [State.wakeKeeper, hwait]
    rw [hwake]
    exact ⟨rfl, rfl, rfl, hwait, rfl⟩

/-! ### Trap entry -/

/-- R133: the status register of level M (`m`) or S as the entry leaves it: the enable moves to its saved place. -/
def entryStat (k : Core) (m : Bool) : W64 :=
  let st := putBits (putBits (k.cr0 (crTSTAT m)) 1 1 ((k.cr0 (crTSTAT m)).toNat % 2)) 0 1 0
  if m then putBits st 2 2 k.priv.code else putBits st 2 1 (if k.priv = .U then 0 else 1)

/-- R133: the trap registers of level M (`m`) or S as the entry leaves them. -/
def entryRegs (k : Core) (m : Bool) (x : Cause) (tpc : W64) : Core :=
  let k1 := (((k.setCr (crTPC m) tpc).setCr (crTCAUSE m) x.word).setCr (crTVAL m) x.val).setCr (crTSTAT m) (entryStat k m)
  if m then k1.setCr 0xC05 x.val2 else k1

/-- R133: the core in the level entered, before a change of level clears the predictors. -/
def enteredLevel (k : Core) (m : Bool) (x : Cause) (tpc : W64) : Core :=
  { (entryRegs k m x tpc).squash with
      pc := pcMask (k.cr0 (crTVEC m) &&& ~~~(3 : W64)), priv := if m then .M else .S, commit := false, fill := [] }

theorem enter_eq (k : Core) (m : Bool) (x : Cause) (tpc : W64) : k.enter m x tpc
    = if (if m then Priv.M else Priv.S) = k.priv then enteredLevel k m x tpc else (enteredLevel k m x tpc).clearPred := by
  simp only [Core.enter, enteredLevel, entryRegs, entryStat]

/-- An entry sets the trap registers, the level and the pc, and of the rest only what speculation and prediction hold. -/
theorem enter_fields (k : Core) (m : Bool) (x : Cause) (tpc : W64) :
    (k.enter m x tpc).cr = (entryRegs k m x tpc).cr ∧ (k.enter m x tpc).priv = (if m then .M else .S)
    ∧ (k.enter m x tpc).pc = pcMask (k.cr0 (crTVEC m) &&& ~~~(3 : W64)) ∧ (k.enter m x tpc).recog = k.recog
    ∧ (k.enter m x tpc).g = k.g := by
  have hset (k : Core) (n : Nat) (v : W64) : (k.setCr n v).recog = k.recog ∧ (k.setCr n v).g = k.g := ⟨rfl, rfl⟩
  have hregs : (entryRegs k m x tpc).recog = k.recog ∧ (entryRegs k m x tpc).g = k.g := by
    unfold entryRegs; cases m <;> simp [hset]
  have cleared (p : Prop) [Decidable p] (k1 : Core) : (if p then k1 else k1.clearPred)
      = { k1 with dirT := (if p then k1 else k1.clearPred).dirT, btb := (if p then k1 else k1.clearPred).btb,
                  btbLru := (if p then k1 else k1.clearPred).btbLru, retR := (if p then k1 else k1.clearPred).retR,
                  retS := (if p then k1 else k1.clearPred).retS } := by split <;> rfl
  rw [enter_eq, cleared, ← hregs.1, ← hregs.2]
  exact ⟨rfl, rfl, rfl, rfl, rfl⟩

theorem cr0_enter (k : Core) (m : Bool) (x : Cause) (tpc : W64) :
    (k.enter m x tpc).cr0 (crTPC m) = tpc ∧ (k.enter m x tpc).cr0 (crTCAUSE m) = x.word
    ∧ (k.enter m x tpc).cr0 (crTSTAT m) = entryStat k m := by
  have hcr (n : Nat) : (k.enter m x tpc).cr0 n = (entryRegs k m x tpc).cr0 n := by
    rw [Core.cr0, (enter_fields k m x tpc).1]; rfl
  simp only [hcr, entryRegs]
  cases m <;> simp [crTPC, crTCAUSE, crTVAL, crTSTAT, cr0_setCr_same, cr0_setCr_ne]

/-- R133: interrupts are off in the level entered, and were as its saved enable says. -/
theorem getLsbD_entryStat (k : Core) (m : Bool) : (entryStat k m).getLsbD 0 = false
    ∧ (entryStat k m).getLsbD 1 = (k.cr0 (crTSTAT m)).getLsbD 0 := by
  have hbit : Nat.testBit ((k.cr0 (crTSTAT m)).toNat % 2) 0 = (k.cr0 (crTSTAT m)).getLsbD 0 := by
    rw [show 2 = 2 ^ 1 from rfl, Nat.testBit_mod_two_pow, BitVec.testBit_toNat]; rfl
  have h0 : 0 < 64 := by omega
  have h1 : 1 < 64 := by omega
  cases m <;> simp only [entryStat, if_true, Bool.false_eq_true, if_false, getLsbD_putBits _ _ _ _ h0, getLsbD_putBits _ _ _ _ h1] <;>
    exact ⟨rfl, hbit⟩

end Sys2Proof.Laws
end

section
/-! PROOF. O21: arrivals, interrupts and timers at cores and keepers. -/
namespace Sys2Proof.Laws
open Sys2Proof Sys2Proof.Machine Sys2Proof.Safety

variable {s : State} {c h : Nat} {a : Arrival} {m : Bool}

/-! ### Arrivals -/

theorem eventArrival_core (ha : s.arrivals.find? (fun b => b.h.src == a.h.src) = some a) (hc : a.holder < 512)
    (hrun : s.tileRuns (a.holder / 2) = true) (hroom : (s.core a.holder).held.length < 32) :
    ∃ t, exec (.eventArrival a.h.src) s = .next t ∧ t.arrivals = s.arrivals.erase a
      ∧ (t.core a.holder).held = (s.core a.holder).held ++ [a.h] ∧ (t.core a.holder).waitev = false ∧ t.csr = s.csr := by
  let u := ({ s with arrivals := s.arrivals.erase a }).updCore a.holder (fun k => { k with held := k.held ++ [a.h] })
  have hcore : u.core a.holder = { s.core a.holder with held := (s.core a.holder).held ++ [a.h] } := core_setCore_same _ _ _
  have hwake : u.wakeable (u.core a.holder) = true := by simp [State.wakeable, hcore]
  obtain ⟨hframe, hheld, hwaitev, -⟩ := wakeCore_wakes hwake
  refine ⟨u.wakeCore a.holder, by simp [execEventArrival, ha, hc, hrun, hroom, whenOk, u], ?_, ?_, hwaitev, ?_⟩
  · rw [hframe]; rfl
  · rw [hheld, hcore]
  · rw [hframe]; rfl

theorem eventArrival_keeper (ha : s.arrivals.find? (fun b => b.h.src == a.h.src) = some a) (hh : 512 ≤ a.holder)
    (hrun : s.f (R.HIV_KSTAT_STATE (a.holder - 512)) = 1) :
    ∃ t, exec (.eventArrival a.h.src) s = .next t ∧ t.arrivals = s.arrivals.erase a
      ∧ (t.keeper (a.holder - 512)).held = (s.keeper (a.holder - 512)).held ++ [a.h]
      ∧ (t.keeper (a.holder - 512)).waitev = false ∧ t.csr = s.csr := by
  let g := a.holder - 512
  let u := ({ s with arrivals := s.arrivals.erase a }).setKeeper g { s.keeper g with held := (s.keeper g).held ++ [a.h] }
  have hkeeper : u.keeper g = { s.keeper g with held := (s.keeper g).held ++ [a.h] } := keeper_setKeeper_same _ _ _
  obtain ⟨hcsr, harr, hheld, hwaitev, -⟩ := wakeKeeper_wakes (s := u) (h := g) (.inl (by simp [hkeeper]))
  have hnot : ¬ a.holder < 512 := by omega
  refine ⟨u.wakeKeeper g, ?_, harr, by rw [hheld, hkeeper], hwaitev, hcsr⟩
  simp [execEventArrival, ha, hnot, hrun, whenOk, u, g]
  rfl

/-! ### Interrupts of a core -/

/-- R83: recognition squashes what has not reached its commit point. -/
theorem squash_eq (k : Core) : k.squash = { k with win := [], sfb := k.sfb.filter (·.prom), walkB := [], retS := k.retR } := by
  simp [Core.squash, Core.squashAfter, Core.dropUnused]

theorem interruptEntry_enters (hc : c < 512) (hrun : s.tileRuns (c / 2) = true) (hk : (s.core c).run = true)
    (hs : (s.core c).stopped = false) (hw : (s.core c).waitev = false) {code : Nat} (hr : (s.core c).recog = true)
    (hcommit : (s.core c).commit = false) (hwait : (s.core c).wait = none) (hparked : (s.core c).parked = none)
    (hmark : (s.core c).mark = none) (hi : s.intrOf c = some (m, code)) :
    ∃ t, exec (.interruptEntry c) s = .next t ∧ t.core c
      = { ({ s.core c with recog := false } : Core).enter m { code := code, intr := true } (s.core c).pc with halt := false } := by
  let u := s.updCore c (fun k => { k with recog := false })
  have hcore : u.core c = { s.core c with recog := false } := core_setCore_same _ _ _
  have hi' : u.intrOf c = some (m, code) := by
    rw [← hi]; unfold State.intrOf; rw [hcore]; rfl
  have hready : s.intrReady c = true := by simp [State.intrReady, hc, hrun, hk, hs, hw, hcommit, hwait, hparked, hmark]
  have hexec : exec (.interruptEntry c) s = .next ((u.updCore c (fun k =>
      { k.enter m { code := code, intr := true } k.pc with halt := false })).haltFlag (c / 2)) := by
    simp only [exec_interruptEntry, execInterruptEntry, hready, hr, Bool.and_self, Bool.not_true, Bool.false_eq_true, if_false]
    rw [show (s.updCore c (fun k => { k with recog := false })).intrOf c = some (m, code) from hi']
  refine ⟨_, hexec, ?_⟩
  rw [core_haltFlag, State.updCore, core_setCore_same, hcore]

/-! ### A keeper's interrupt -/

/-- R328, R329: the interrupt that a keeper outside a trap takes: the timer before an event. -/
theorem kIntr_eq (hslot : (s.keeper h).slot = none) (hie : (s.keeper h).ie = true) (hexl : (s.keeper h).exl = false)
    (hdue : s.time ≥ ((s.keeper h).cr0 0x808).toNat
      ∨ (s.keeper h).held.any (fun x => x.pri ≥ ((s.keeper h).cr0 0x809).toNat % 16) = true) :
    s.kIntr (s.keeper h) = some (if s.time ≥ ((s.keeper h).cr0 0x808).toNat then 2 else 1) := by
  by_cases htimer : s.time ≥ ((s.keeper h).cr0 0x808).toNat
  · simp [State.kIntr, State.kTimer, hie, hexl, hslot, htimer]
  · have hheld := hdue.resolve_left htimer
    have hthr : bits ((s.keeper h).cr0 0x809).toNat 0 4 = ((s.keeper h).cr0 0x809).toNat % 16 := by simp [bits]
    simp only [State.kIntr, State.kTimer, hie, hexl, hslot, htimer, hthr, hheld]
    rfl

/-- R326: KSTATUS as an entry leaves it: the trap level on, enable and module mode saved and off. -/
def kEntryStat (st : W64) : W64 :=
  putBits (putBits (putBits (putBits (putBits st 1 1 (st.toNat % 2)) 3 1
    (bits (putBits st 1 1 (st.toNat % 2)).toNat 2 1)) 0 1 0) 2 1 0) 4 1 1

theorem getLsbD_kEntryStat (st : W64) : (kEntryStat st).getLsbD 0 = false ∧ (kEntryStat st).getLsbD 4 = true := by
  have h0 : 0 < 64 := by omega
  have h4 : 4 < 64 := by omega
  simp only [kEntryStat, getLsbD_putBits _ _ _ _ h0, getLsbD_putBits _ _ _ _ h4]
  exact ⟨rfl, rfl⟩

/-- R326, R328: the trap registers as the entry of an interrupt outside a delay slot writes them. -/
def kEntryRegs (k : Keeper) (cause : W64) : Keeper :=
  ((((k.setCr 0x802 k.pc).setCr 0x803 0).setCr 0x804 cause).setCr 0x805 0).setCr 0x800
    (kEntryStat (k.cr0 0x800))

theorem kEntryRegs_rest (k : Keeper) (cause : W64) :
    (kEntryRegs k cause).crP = k.crP ∧ (kEntryRegs k cause).recog = k.recog := by
  have hset (k : Keeper) (n : Nat) (v : W64) : (k.setCr n v).crP = k.crP ∧ (k.setCr n v).recog = k.recog := ⟨rfl, rfl⟩
  simp only [kEntryRegs, hset, and_self]

theorem kenter_eq (k : Keeper) (hslot : k.slot = none) (code : Nat) : k.enter { code := code, intr := true } false
    = { (kEntryRegs k (BitVec.ofNat 64 (code + 2 ^ 63))).applyPend with
          pc := (kEntryRegs k (BitVec.ofNat 64 (code + 2 ^ 63))).applyPend.cr0 0x801 &&& ~~~(3 : W64), slot := none, waitev := false, pq := [] } := by
  simp [Keeper.enter, hslot, kEntryRegs, kEntryStat, b2n]

/-- R326, R328: the entry of an interrupt outside a delay slot: pending writes apply, and the pc takes the vector. -/
theorem kenter_interrupt (k : Keeper) (hslot : k.slot = none) (code : Nat) :
    let k' := k.enter { code := code, intr := true } false
    k'.recog = k.recog ∧ k'.pq = [] ∧ k'.cr0 0x802 = k.pc ∧ k'.exl = true ∧ k'.ie = false
    ∧ k'.cr0 0x804 = BitVec.ofNat 64 (code + 2 ^ 63)
    ∧ k'.pc = ((Tbl.get none k.crP 0x801).getD (k.cr0 0x801)) &&& ~~~(3 : W64) := by
  have henter := kenter_eq k hslot code
  generalize hcause : BitVec.ofNat 64 (code + 2 ^ 63) = cause at henter ⊢
  intro k'
  obtain ⟨hoff, hon⟩ := getLsbD_kEntryStat (k.cr0 0x800)
  have hcr (n : Nat) : k'.cr0 n = (kEntryRegs k cause).applyPend.cr0 n := by simp only [k', henter]; rfl
  have hsaved {n : Nat} (hn : n ∉ kSyncRegs) : k'.cr0 n = (kEntryRegs k cause).cr0 n := by rw [hcr, cr0_applyPend, if_neg hn]
  have hstat : k'.cr0 0x800 = kEntryStat (k.cr0 0x800) := (hsaved (by decide)).trans (kcr0_setCr_same _ _ _)
  have hvec : (kEntryRegs k cause).cr0 0x801 = k.cr0 0x801 := by simp [kEntryRegs, kcr0_setCr_ne]
  obtain ⟨hpend, hrecog⟩ := kEntryRegs_rest k cause
  have hpc : k'.pc = (kEntryRegs k cause).applyPend.cr0 0x801 &&& ~~~(3 : W64) := by simp only [k', henter]
  refine ⟨?_, ?_, ?_, ?_, ?_, ?_, ?_⟩
  · simp only [k', henter]; rw [applyPend_frame, ← hrecog]
  · simp only [k', henter]
  · rw [hsaved (by decide)]; simp [kEntryRegs, kcr0_setCr_same, kcr0_setCr_ne]
  · rw [Keeper.exl, hstat, hon]
  · rw [Keeper.ie, hstat, hoff]
  · rw [hsaved (by decide)]; simp [kEntryRegs, kcr0_setCr_same, kcr0_setCr_ne]
  · rw [hpc, cr0_applyPend, if_pos (by decide), hvec, hpend]

/-! ### The obligation -/

/-- Settles O21: an arrival and a match wake their holder, recognition is a squash, and the entries set the trap registers. -/
theorem interruptsAndArrivals : Obligations.InterruptsAndArrivals := by
  unfold Obligations.InterruptsAndArrivals
  intro c h a m s
  refine ⟨?arrival, ?core, ?timer, ?keeper⟩
  case arrival =>
    intro ha
    exact ⟨eventArrival_core ha, eventArrival_keeper ha⟩
  case core =>
    intro hc hrun hk hs hw
    refine ⟨fun hr hi => ?_, fun code hr hcommit hwait hparked hmark hi => ?_⟩
    · have hsome : (s.intrOf c).isSome = true := Option.isSome_iff_ne_none.mpr hi
      have hexec : exec (.interruptRecognition c) s = .next (s.updCore c (fun k => { k.squash with recog := true })) := by
        simp [execInterruptRecognition, whenOk, hc, hrun, hk, hs, hw, hr, hsome]
      refine ⟨_, hexec, ?_⟩
      simpa only [squash_eq] using updCore_only s c (fun k => { k.squash with recog := true })
    · obtain ⟨t, hexec, hcore⟩ := interruptEntry_enters hc hrun hk hs hw hr hcommit hwait hparked hmark hi
      let k0 : Core := { s.core c with recog := false }
      obtain ⟨hcr, hpriv, hpc, hrecog, hg⟩ := enter_fields k0 m { code := code, intr := true } (s.core c).pc
      obtain ⟨htpc, hcause, hst⟩ := cr0_enter k0 m { code := code, intr := true } (s.core c).pc
      obtain ⟨hoff, hsaved⟩ := getLsbD_entryStat k0 m
      have hword : Cause.word { code := code, intr := true } = BitVec.ofNat 64 (code + 2 ^ 63) := by simp [Cause.word, Acc.code, b2n]
      have hmask (x : W64) : pcMask (x &&& ~~~(3 : W64)) = x &&& 0x0FFFFFFFFFFFFFFC := by rw [pcMask, BitVec.and_assoc]; rfl
      rw [hmask] at hpc
      rw [hword] at hcause
      rw [← hst] at hoff hsaved
      refine ⟨t, hexec, ?_⟩
      rw [hcore]
      cases m <;> exact ⟨hrecog, rfl, hpriv, hpc, htpc, hcause, hoff, hsaved, hg⟩
  case timer =>
    intro hc hrun hmatch
    have hwake : s.wakeable (s.core c) = true := by cases m <;> simp_all [State.wakeable, State.timerPend]
    obtain ⟨hframe, -, hwaitev, hpc⟩ := wakeCore_wakes hwake
    have hpend : s.timerPend (s.core c) m = true := by simpa [State.timerPend] using hmatch
    refine ⟨_, by simp only [exec_timerMatch, execTimerMatch, whenOk, hc, hrun, hpend]; rfl, hwaitev, hpc, ?_⟩
    rw [hframe]
  case keeper =>
    intro hh hrun k
    refine ⟨fun htimer => ?_, fun hwait hwaitev hslot hie hexl hfatal hdue => ?_⟩
    · have hk : s.kTimer (s.keeper h) = true := by simpa [State.kTimer] using htimer
      obtain ⟨hcsr, -, -, hwaitev, hregs⟩ := wakeKeeper_wakes (.inr hk)
      exact ⟨_, by simp only [exec_keeperTimerMatch, execKeeperTimerMatch, whenOk, hh, hrun, hk]; rfl, hwaitev, hregs, hcsr⟩
    · let k0 : Keeper := { s.keeper h with recog := false }
      have hintr := kIntr_eq hslot hie hexl hdue
      obtain ⟨hrecog, hpq, htpc, hexl', hie', hcause, hpc⟩ :=
        kenter_interrupt k0 hslot (if s.time ≥ ((s.keeper h).cr0 0x808).toNat then 2 else 1)
      have hexec : exec (.keeperInterrupt h) s = .next (s.setKeeper h
          (k0.enter { code := if s.time ≥ ((s.keeper h).cr0 0x808).toNat then 2 else 1, intr := true } false)) := by
        simp [execKeeperInterrupt, hh, hrun, hwait, hwaitev, hfatal, hintr, k, k0]
      refine ⟨_, hexec, rfl, ?_⟩
      rw [keeper_setKeeper_same]
      exact ⟨hrecog, hpq, htpc, hexl', hie', hcause, hpc⟩

end Sys2Proof.Laws
end

section
/-! PROOF. O16: P-core stores to Normal memory. One lemma says what a Normal store at its commit point does; each instruction is
then its address, its size and its data. -/
namespace Sys2Proof.Laws
open Sys2Proof Sys2Proof.Machine Sys2Proof.Safety

variable {s s1 : State} {c n pa : Nat} {ea : W64} {kind : SbKind} {data : W256} {rl : Bool}

/-! ### Asking for ownership -/

/-- R76, R244: asking for ownership touches the line's state at the tile and the messages. -/
theorem wantOwn_frame (s : State) (c L : Nat) :
    s.wantOwn c L = { s with caches := (s.wantOwn c L).caches, msgs := (s.wantOwn c L).msgs } := by
  unfold State.wantOwn
  dsimp only
  split
  · rfl
  · split <;> rfl

theorem l2_setL2_data {t L : Nat} {y : L2Line} (hy : y.d = (s.l2 t L).d) (g M : Nat) : ((s.setL2 t L y).l2 g M).d = (s.l2 g M).d := by
  by_cases hkey : cacheKey g M = cacheKey t L
  · simp only [State.l2] at hy
    simp [State.l2, State.setL2, hkey, hy]
  · rw [State.l2, State.setL2, Tbl_get_set_ne _ _ _ _ hkey]; rfl

/-- The data of every line stays as it is. -/
theorem wantOwn_data (s : State) (c L g M : Nat) : ((s.wantOwn c L).l2 g M).d = (s.l2 g M).d := by
  unfold State.wantOwn
  dsimp only
  split
  · rfl
  · split
    · rw [l2_send]; exact l2_setL2_data (by rfl) g M
    · rw [l2_send]; exact l2_setL2_data (by rfl) g M
    · rfl

/-! ### A Normal store at its commit point -/

/-- The entry that a Normal store leaves in the buffer, but for the locks that it met. -/
def normalEntry (s s1 : State) (c : Nat) (ea : W64) (n : Nat) (kind : SbKind) (data : W256) (rl : Bool) (pa : Nat) : SbE :=
  ⟨pa, false, kind, n, data, 0, if kind = .bytes then s1.lockReq c ea else { s1.lockReq c ea with mode := .off }, ea, (s.core c).pc,
    (s.core c).priv, rl⟩

def normalWait (s1 : State) (c : Nat) (ea : W64) (n : Nat) (kind : SbKind) (pa : Nat) : Wait :=
  ⟨0, 0, .store, ea, pa, n, .none, if kind = .bytes then s1.lockReq c ea else { s1.lockReq c ea with mode := .off }⟩

/-- R105, R175: a store that nothing holds back reaches its line. -/
theorem store_normal (hmay : s.mayStore c = true) (hrel : rl = true → (s.core c).posted.all (·.done) = true ∧ s.clDone c = true)
    (halign : ea.toNat % n = 0) (hx : s.xlate c ea .store = .ok pa .normal false s1) :
    s.store c ea n kind data rl
      = s1.storeCached s c false false (normalWait s1 c ea n kind pa) (normalEntry s s1 c ea n kind data rl pa) := by
  have hfree : (rl && !((s.core c).posted.all (·.done) && s.clDone c)) = false := by
    cases hrl : rl with
    | false => rfl
    | true => obtain ⟨hposted, hcl⟩ := hrel hrl; simp [hposted, hcl]
  simp only [State.store, halign, hx, hmay, hfree]
  rfl

/-- R75, R161: where the commit-point check passes, the store enters the buffer and the core goes on. -/
theorem storeCached_enters {s0 : State} {d : LineD} {w : Wait} {e : SbE} (hroom : (s.core c).sb.length < 64)
    (hcopy : s.tileCopy (c / 2) (w.pa / 64) = some d)
    (hok : checkRead { d with locks := commitLocks (s.core c).sb false w.pa d.locks } (if e.kind = .bytes then w.lk else lkOff)
      (w.pa % 64) w.size = .ok) :
    ∃ t locks, s.storeCached s0 c false false w e = .next t
      ∧ t.core c = Core.retire { s.core c with sb := (s.core c).sb ++ [{ e with locks := locks }] }
      ∧ t.dram = s.dram ∧ t.ksram = s.ksram ∧ t.csr = s.csr ∧ ∀ g M, (t.l2 g M).d = (s.l2 g M).d := by
  let locks := if e.kind = .bytes then commitLocks (s.core c).sb false w.pa d.locks else 0
  let u := s.updCore c (fun k => { k with sb := k.sb ++ [{ e with locks := locks }] })
  have hexec : s.storeCached s0 c false false w e = .next ((u.wantOwn c (w.pa / 64)).updCore c Core.retire) := by
    have hroom' : ¬ (s.core c).sb.length ≥ 64 := by omega
    simp only [State.storeCached, lineKey, Bool.false_eq_true, if_false, hroom', hcopy, hok, State.gate]
    rfl
  have hcore : (u.wantOwn c (w.pa / 64)).core c = u.core c := by rw [wantOwn_frame]; rfl
  refine ⟨_, locks, hexec, ?_, ?_, ?_, ?_, fun g M => wantOwn_data u c _ g M⟩
  · rw [State.updCore, core_setCore_same, hcore]; exact congrArg _ (core_setCore_same _ _ _)
  · show (u.wantOwn c (w.pa / 64)).dram = _; rw [wantOwn_frame]; rfl
  · show (u.wantOwn c (w.pa / 64)).ksram = _; rw [wantOwn_frame]; rfl
  · show (u.wantOwn c (w.pa / 64)).csr = _; rw [wantOwn_frame]; rfl

/-- notes/assumptions/109.md: where the tile holds no copy and none is on its way, the store waits for the line. -/
theorem storeCached_waits {s0 : State} {w : Wait} {e : SbE} (hroom : (s.core c).sb.length < 64)
    (hcopy : s.tileCopy (c / 2) (w.pa / 64) = none) (hst : (s.l2 (c / 2) (w.pa / 64)).st.transient = false) :
    s.storeCached s0 c false false w e = .next (s.waitLine c (w.pa / 64)) := by
  have hroom' : ¬ (s.core c).sb.length ≥ 64 := by omega
  simp only [State.storeCached, lineKey, Bool.false_eq_true, if_false, hroom', hcopy, hst]

/-! ### Offsets -/

/-- A scaled immediate is its product with the scale (R105, R120). -/
theorem signExtend_shiftLeft {w : Nat} (x : BitVec w) (k : Nat) : (x.signExtend 64) <<< k = BitVec.ofInt 64 (2 ^ k * x.toInt) := by
  have hscale : BitVec.ofInt 64 (2 ^ k) = BitVec.twoPow 64 k := by
    rw [show (2 : Int) ^ k = ((2 ^ k : Nat) : Int) by norm_cast, BitVec.ofInt_natCast]
    exact BitVec.eq_of_toNat_eq (by rw [BitVec.toNat_ofNat, BitVec.toNat_twoPow])
  rw [BitVec.shiftLeft_eq_mul_twoPow, BitVec.mul_comm, BitVec.ofInt_mul, hscale]; rfl

/-! ### The obligation -/

/-- Settles O16: each instruction is `State.store` of its address, size and data, which enters the buffer or waits for the line. -/
theorem normalStoresEnterTheBuffer : Obligations.NormalStoresEnterTheBuffer := by
  unfold Obligations.NormalStoresEnterTheBuffer
  intro c pr rd ra rb vd imm imm9 size sz sc rl pa d s s1 hready hmay k k1 stores cut ea a
  have storesOf {i : Instr} {ea : W64} {n : Nat} {kind : SbKind} {data : W256} {rl : Bool}
      (hexec : exec i s = s.store c ea n kind data rl) (hrel : rl = true → k.posted.all (·.done) = true ∧ s.clDone c = true) :
      stores i ea n kind data rl := by
    intro halign hx hroom
    rw [hexec, store_normal hmay hrel halign hx]
    refine ⟨fun hcopy hok => ?_, fun hcopy hst => storeCached_waits hroom hcopy hst⟩
    have hok' : checkRead { d with locks := commitLocks (s1.core c).sb false pa d.locks }
        (if (normalEntry s s1 c ea n kind data rl pa).kind = .bytes then (normalWait s1 c ea n kind pa).lk else lkOff) (pa % 64) n
        = .ok := by
      rw [← hok]; cases kind <;> rfl
    obtain ⟨t, locks, ht, hcore, hdram, hksram, hcsr, hdata⟩ :=
      storeCached_enters (s0 := s) (w := normalWait s1 c ea n kind pa) hroom hcopy hok'
    exact ⟨t, _, ht, hcore, rfl, rfl, rfl, rfl, rfl, rfl, rfl, rfl, hdram, hksram, hcsr, hdata⟩
  have norel (h : false = true) : k.posted.all (·.done) = true ∧ s.clDone c = true := absurd h Bool.false_ne_true
  have runs (f : State → Out) : pRun c pr true s f = f s := pRun_ready s c pr true f hready rfl
  have hvst : BitVec.ofInt 64 (32 * imm.toInt) = (imm.signExtend 64) <<< 5 := (signExtend_shiftLeft imm 5).symm
  have hvls : BitVec.ofInt 64 (2 ^ sz.toNat * imm9.toInt) = (imm9.signExtend 64) <<< sz.toNat := (signExtend_shiftLeft imm9 _).symm
  rw [hvst, hvls]
  refine ⟨?_, ?_, ?_, ?_, fun hrel => ?_, ?_, fun hsz => ?_, ?_, ?_⟩
  · exact storesOf (by simp only [exec_stB, execStB, stOp, a, agRun, runs]; rfl) norel
  · exact storesOf (by simp only [exec_stH, execStH, stOp, a, agRun, runs]; rfl) norel
  · exact storesOf (by simp only [exec_stW, execStW, stOp, a, agRun, runs]; rfl) norel
  · exact storesOf (by simp only [exec_stD, execStD, stOp, a, agRun, runs]; rfl) norel
  · exact storesOf (by simp only [exec_stx, execStx, stOp, a, agRun, runs]; rfl) hrel
  · exact storesOf (by simp only [exec_vst, execVst, runs]; rfl) norel
  · have hlegal : (sz != 0) = true := by simpa using hsz
    exact storesOf (by simp only [exec_vls, execVls, hlegal, runs]; rfl) norel
  · exact storesOf (by simp only [exec_stlkW, execStlkW, runs]; rfl) norel
  · exact storesOf (by simp only [exec_stlkL, execStlkL, runs]; rfl) norel

end Sys2Proof.Laws
end

section
/-! SUPPORT. What a fence holds back (R176, R177), and the queue a keeper fetches anew (R330). -/
namespace Sys2Proof.Laws
open Sys2Proof Sys2Proof.Machine Sys2Proof.Safety

variable {s t : State} {c h : Nat}

/-! ### Holds -/

/-- Whether a hold is over depends on the core's posted stores and on the tile's maintenance. -/
theorem holdOver_congr (ht : t = { s with cores := t.cores }) (hp : (t.core c).posted = (s.core c).posted) (x : Hold) :
    t.holdOver c x = s.holdOver c x := by
  have hcl : t.clDone c = s.clDone c := by rw [ht]; rfl
  rw [State.holdOver, State.holdOver, hp, hcl]

/-- The holds that a fence leaves: those whose older accesses are not complete, and its own where some are not. -/
def holdsAfter (s : State) (c : Nat) (l st : Bool) : List Hold :=
  (s.core c).holds.filter (fun x => !(s.holdOver c x)) ++
    if s.drained c then []
    else [⟨l, st, (s.core c).sb.length, ((s.core c).posted.filter (!·.done)).map (fun p => (p.fab, p.tag))⟩]

theorem addHold_eq (s : State) (c : Nat) (l st : Bool) :
    s.addHold c l st = s.setCore c { s.core c with holds := holdsAfter s c l st } := by
  unfold State.addHold holdsAfter
  cases s.drained c <;> simp

/-- R177: a fence's own hold is over exactly when what is older is complete. -/
theorem holdOver_own (s : State) (c : Nat) (l st : Bool) :
    s.holdOver c ⟨l, st, (s.core c).sb.length, ((s.core c).posted.filter (!·.done)).map (fun p => (p.fab, p.tag))⟩ = s.drained c := by
  have hposted : (s.core c).posted.any (fun p => !p.done &&
      (((s.core c).posted.filter (!·.done)).map (fun p => (p.fab, p.tag))).contains (p.fab, p.tag)) = !(s.core c).posted.all (·.done) := by
    rw [Bool.eq_iff_iff]
    simp only [List.any_eq_true, Bool.and_eq_true, Bool.not_eq_true', List.all_eq_false, List.contains_eq_mem, decide_eq_true_eq,
      List.mem_map, List.mem_filter]
    constructor
    · rintro ⟨p, hp, hdone, -⟩; exact ⟨p, hp, by simp [hdone]⟩
    · rintro ⟨p, hp, hdone⟩
      have hdone' : p.done = false := by simpa using hdone
      exact ⟨p, hp, hdone', p, ⟨hp, hdone'⟩, rfl⟩
  have hempty : ((s.core c).sb.length == 0) = (s.core c).sb.isEmpty := by cases (s.core c).sb <;> rfl
  rw [State.holdOver, State.drained, hposted, hempty, Bool.not_not]

/-- What a fence adds to the holds of kind `sel`: nothing where what is older is complete. -/
theorem holdsAfter_all (s : State) (c : Nat) (l st : Bool) (sel : Hold → Bool) (own : Bool)
    (hown : sel ⟨l, st, (s.core c).sb.length, ((s.core c).posted.filter (!·.done)).map (fun p => (p.fab, p.tag))⟩ = own) :
    (holdsAfter s c l st).all (fun x => !sel x || s.holdOver c x)
      = ((s.core c).holds.all (fun x => !sel x || s.holdOver c x) && (s.drained c || !own)) := by
  have hold : ((s.core c).holds.filter (fun x => !(s.holdOver c x))).all (fun x => !sel x || s.holdOver c x)
      = (s.core c).holds.all (fun x => !sel x || s.holdOver c x) := by
    rw [List.all_filter]
    refine congrArg _ (funext fun x => ?_)
    cases s.holdOver c x <;> cases sel x <;> rfl
  rw [holdsAfter, List.all_append, hold]
  cases hd : s.drained c with
  | true => simp
  | false => simp [hown, holdOver_own, hd]

/-- R177: what it means that everything older is complete. -/
theorem drained_facts (hd : s.drained c = true) : (s.core c).sb = [] ∧ (∀ p ∈ (s.core c).posted, p.done = true)
    ∧ (∀ r ∈ s.outReq, r.t = c / 2 → r.k ≠ .flush)
    ∧ ∀ L, L < 2 ^ 64 → (s.l2 (c / 2) L).st ≠ .WBP ∧ (s.l2 (c / 2) L).st ≠ .KP := by
  simp only [State.drained, State.clDone, Bool.and_eq_true, List.isEmpty_iff, List.all_eq_true, Bool.not_eq_true', List.any_eq_false,
    beq_iff_eq, Bool.or_eq_true, not_and, not_or] at hd
  obtain ⟨⟨hsb, hposted⟩, ⟨hreq, hlines⟩, -⟩ := hd
  refine ⟨hsb, hposted, hreq, fun L hL => ?_⟩
  obtain hdef | hmem := Tbl_get_default_or_mem ({} : L2Line) s.caches (cacheKey (c / 2) L)
  · rw [State.l2, hdef]; exact ⟨nofun, nofun⟩
  · exact hlines _ hmem (by simp only [cacheKey]; omega)

/-! ### A keeper's queue -/

/-- R315: a fetched word stands where its address says. -/
theorem kWords_self {a : Nat} : ∀ w ∈ s.kWords h a, w ∈ s.kWords h w.1 := by
  unfold State.kWords
  by_cases h8 : a % 8 = 0
  · have hmod : ¬ (a + 4) % 8 = 0 := by omega
    have hdiv : (a + 4) / 8 = a / 8 := by omega
    simp [h8, hmod, hdiv]
  · simp [h8]

theorem kAhead_words {k : Keeper} (hk : ∀ w ∈ k.pq, w ∈ s.kWords h w.1) : ∀ w ∈ (s.kAhead h k).pq, w ∈ s.kWords h w.1 := by
  have fetched {k : Keeper} (hk : ∀ w ∈ k.pq, w ∈ s.kWords h w.1) : ∀ w ∈ (s.kFetch1 h k).pq, w ∈ s.kWords h w.1 := by
    unfold State.kFetch1
    split
    · intro w hw
      exact (List.mem_append.mp hw).elim (hk w) (kWords_self w)
    · exact hk
  unfold State.kAhead
  dsimp only
  split
  · exact hk
  · split
    · exact fetched hk
    · exact fetched (fetched hk)

theorem kFill_frame (s : State) (h : Nat) : s.kFill h = { s with keepers := (s.kFill h).keepers } := by
  unfold State.kFill
  dsimp only
  split <;> rfl

end Sys2Proof.Laws
end

section
/-! PROOF. O18: fences, SYNC and cache maintenance. -/
namespace Sys2Proof.Laws
open Sys2Proof Sys2Proof.Machine Sys2Proof.Safety

variable {s s1 t u : State} {c h L pa : Nat} {pr : BitVec 4} {ra : BitVec 5}

/-! ### Fences of a core -/

/-- R176, R177: what a fence that leaves holds behind: of the core its holds, which hold back what it orders until older work is
complete. -/
theorem addHold_retires (s : State) (c : Nat) (l st : Bool) :
    let t := (s.addHold c l st).retireP c
    OnlyCore s t c (fun k => Core.retire { k with holds := (t.core c).holds })
      ∧ (s.drained c = true → ∀ x ∈ (t.core c).holds, x ∈ (s.core c).holds)
      ∧ t.mayLoad c = (s.mayLoad c && (s.drained c || !l)) ∧ t.mayStore c = (s.mayStore c && (s.drained c || !st)) := by
  intro t
  let k1 : Core := { s.core c with holds := holdsAfter s c l st }
  have ht : t = (s.setCore c k1).updCore c Core.retire := congrArg (State.updCore · c Core.retire) (addHold_eq s c l st)
  have hframe : t = { s with cores := t.cores } := by rw [ht]; rfl
  have hcore : t.core c = k1.retire := by rw [ht, State.updCore, core_setCore_same, core_setCore_same]
  have hholds : (t.core c).holds = holdsAfter s c l st := by rw [hcore, retire_holds]
  have hover (x : Hold) : t.holdOver c x = s.holdOver c x := holdOver_congr hframe (by rw [hcore, retire_posted]) x
  refine ⟨⟨hframe, ?_, fun d hd => ?_⟩, fun hdrained x hx => ?_, ?_, ?_⟩
  · rw [hholds, hcore]
  · rw [ht]; exact (core_setCore_ne (s.setCore c k1) c d _ hd).trans (core_setCore_ne s c d k1 hd)
  · rw [hholds, holdsAfter, if_pos hdrained, List.append_nil] at hx
    exact (List.mem_filter.mp hx).1
  · simp only [State.mayLoad, hholds, hover]
    exact holdsAfter_all s c l st Hold.l l rfl
  · simp only [State.mayStore, hholds, hover]
    exact holdsAfter_all s c l st Hold.s st rfl

/-! ### SYNC of a keeper -/

/-- R324, R330: pending writes apply, the queue is `q`, and the keeper goes on. -/
theorem keeperSync_ends (s : State) (h : Nat) (hslot : (s.keeper h).slot = none) {k2 : Keeper} {q : List (Nat × Nat)}
    (h2 : k2 = { ((s.kFill h).keeper h).applyPend with pq := q }) :
    let t := ((s.kFill h).setKeeper h k2).retireK h
    t = { s with keepers := t.keepers } ∧ (t.keeper h).pc = (s.keeper h).pc + 4 ∧ (t.keeper h).crP = []
      ∧ (t.keeper h).k = (s.keeper h).k ∧ (q = [] → ∀ w ∈ (t.keeper h).pq, w ∈ t.kWords h w.1)
      ∧ ∀ n v, n ∈ kSyncRegs → Tbl.get none (s.keeper h).crP n = some v → (t.keeper h).cr0 n = v := by
  intro t
  obtain ⟨p, hfill⟩ := kFill_keeper s h
  let k1 : Keeper := { s.keeper h with pq := p }
  have hk2 : k2 = { k1 with cr := k1.applyPend.cr, crP := [], pq := q } := by rw [h2, hfill, applyPend_frame]
  let u := (s.kFill h).setKeeper h k2
  have hretired : k2.retire = { k2 with pc := k2.pc + 4, pq := k2.pq.tail } := by
    have : k2.slot = none := by rw [hk2]; exact hslot
    simp only [Keeper.retire, this]
  have ht : t.keeper h = u.kAhead h k2.retire := by
    simp only [t, u, State.retireK, keeper_setKeeper_same]
  have hframe : t = { s with keepers := t.keepers } := by simp only [t]; rw [kFill_frame]; rfl
  obtain ⟨q', hahead⟩ := kAhead_eq u h k2.retire
  rw [hahead, hretired, hk2] at ht
  refine ⟨hframe, by rw [ht], by rw [ht], by rw [ht], fun hq w hw => ?_, fun n v hn hv => ?_⟩
  · have hwords : t.kWords h w.1 = u.kWords h w.1 := by
      have : t.ksram = u.ksram := rfl
      simp only [State.kWords, State.kword, this]
    rw [hwords]
    have hpq : (t.keeper h).pq = (u.kAhead h k2.retire).pq := by rw [ht, hahead]
    rw [hpq] at hw
    refine kAhead_words (fun w hw => ?_) w hw
    have hnil : k2.pq = [] := by rw [hk2, hq]
    simp [hretired, hnil] at hw
  · have hcr : (t.keeper h).cr0 n = k1.applyPend.cr0 n := by rw [ht]; rfl
    rw [hcr, cr0_applyPend, if_pos hn, show Tbl.get none k1.crP n = some v from hv]
    rfl

theorem keeper_sync (hready : ReadyK h s) (hslot : (s.keeper h).slot = none) : exec (.sync (.keeper h) 0) s
    = .next (((s.kFill h).setKeeper h ((s.kFill h).keeper h).applyPend).retireK h) := by
  rw [exec_sync, execSync, kRun_ready s h ((0 : BitVec 4) == 0) _ _ hready rfl (.inr hslot)]

theorem keeper_syncI (hready : ReadyK h s) (hslot : (s.keeper h).slot = none) : exec (.syncI (.keeper h) 0) s
    = .next (((s.kFill h).setKeeper h { ((s.kFill h).keeper h).applyPend with pq := [] }).retireK h) := by
  rw [exec_syncI, execSyncI, kRun_ready s h ((0 : BitVec 4) == 0) _ _ hready rfl (.inr hslot)]

/-! ### Cache maintenance -/

theorem cacheKey_ne {g M : Nat} (hne : (g, M) ≠ (c, L)) (hM : M < 2 ^ 64) (hL : L < 2 ^ 64) : cacheKey g M ≠ cacheKey c L := by
  intro heq
  simp only [cacheKey] at heq
  exact hne (Prod.ext (by omega) (by omega))

/-- R244: `u` is `s` with line `L` of tile `t` as `y`, the messages `ms` sent, and a FLUSH among them awaited. -/
structure ClEnds (s u : State) (t L : Nat) (y : L2Line) (ms : List Msg) : Prop where
  csr : u.csr = s.csr
  cores : u.cores = s.cores
  dram : u.dram = s.dram
  line : u.l2 t L = y
  msgs : u.msgs = s.msgs ++ ms
  others : ∀ g M, (g, M) ≠ (t, L) → M < 2 ^ 64 → L < 2 ^ 64 → u.l2 g M = s.l2 g M
  awaited : ∀ m ∈ ms, m.k = .flush → (⟨t, L, .flush, s.waitClock⟩ : Ask) ∈ u.outReq

theorem clEnds_nothing (s : State) (t L : Nat) : ClEnds s s t L (s.l2 t L) [] where
  csr := rfl
  cores := rfl
  dram := rfl
  line := rfl
  msgs := (List.append_nil _).symm
  others := fun _ _ _ _ _ => rfl
  awaited := fun _ hm => absurd hm List.not_mem_nil

/-- The line changes, and one message leaves: sent where no answer is awaited, asked where one is. -/
theorem clEnds_setL2_send (s : State) (t L : Nat) (y : L2Line) (m : Msg) (hm : m.k ≠ .flush) :
    ClEnds s ((s.setL2 t L y).send m) t L y [m] where
  csr := rfl
  cores := rfl
  dram := rfl
  line := l2_setL2_same s t L y
  msgs := rfl
  others := fun g M hne hM hL => Tbl_get_set_ne _ _ _ _ (cacheKey_ne hne hM hL)
  awaited := fun m' hm' hk => absurd hk (by rw [List.mem_singleton.mp hm']; exact hm)

theorem clEnds_setL2_ask (s : State) (t L : Nat) (y : L2Line) (m : Msg) (ht : m.agent = t) (hL : m.L = L) (hk : m.k = .flush) :
    ClEnds s ((s.setL2 t L y).ask m) t L y [m] where
  csr := rfl
  cores := rfl
  dram := rfl
  line := l2_setL2_same s t L y
  msgs := rfl
  others := fun g M hne hM hL => Tbl_get_set_ne _ _ _ _ (cacheKey_ne hne hM hL)
  awaited := fun m' hm' _ => by
    subst ht hL
    simp [State.ask, State.await, hk, State.send, State.setL2, State.waitClock]

theorem clEnds_ask (s : State) (t L : Nat) (m : Msg) (ht : m.agent = t) (hL : m.L = L) (hk : m.k = .flush) :
    ClEnds s (s.ask m) t L (s.l2 t L) [m] where
  csr := rfl
  cores := rfl
  dram := rfl
  line := rfl
  msgs := rfl
  others := fun _ _ _ _ _ => rfl
  awaited := fun m' hm' _ => by
    subst ht hL
    simp [State.ask, State.await, hk, State.send, State.waitClock]

/-- R244: cache maintenance of a Normal line that nothing holds up does at the tile what `clNormal` says, and the core goes on. -/
theorem clInstr_normal {o : ClOp} (hready : ReadyP c pr s) (hx : s.xlate c ((s.core c).rg ra.toNat) .load = .ok pa .normal false s1)
    (hl : s.mayLoad c = true) (hs : s.mayStore c = true)
    (hold : (s1.core c).sb.any (fun e => e.gc == false && e.pa / 64 == pa / 64) = false) (hu : s1.clNormal c (pa / 64) o = some u) :
    clInstr o c pr ra s = .next (u.retireP c) := by
  rw [clInstr, pRun_ready s c pr true _ hready rfl]
  simp only [hx, hl, hs, hold, State.gate, hu]
  rfl

/-- R244: a dirty line goes to its home. -/
theorem clNormal_dirty (s : State) (c L : Nat) (ho : s.lineOut (c / 2) L = false) (hst : (s.l2 (c / 2) L).st = .M) :
    let x := s.l2 (c / 2) L
    let msg := fun (kind : Kind) (drop : Bool) =>
      ({ k := .wb, L := L, agent := c / 2, core := s.cix c, dom := s.govDom c, kind := kind, drop := drop, d := some x.d } : Msg)
    s.clNormal c L .wb = some ((s.setL2 (c / 2) L { x with st := .KP, at_ := s.waitClock }).send (msg .keep false))
    ∧ ∀ o, o ≠ .wb → s.clNormal c L o = some ((s.setL2 (c / 2) L { st := .WBP, at_ := s.waitClock }).send (msg .memDrop true)) := by
  refine ⟨by simp [State.clNormal, ho, hst], fun o hne => ?_⟩
  cases o with
  | wb => exact absurd rfl hne
  | inv => simp [State.clNormal, ho, hst]
  | wbi => simp [State.clNormal, ho, hst]

/-- R244: of a clean line, or of none, the home is asked to flush, and CL.INV and CL.WBI drop it. -/
theorem clNormal_clean (s : State) (c L : Nat) (ho : s.lineOut (c / 2) L = false) {o : ClOp} (hne : o ≠ .wb)
    (hst : (s.l2 (c / 2) L).st = .S ∨ (s.l2 (c / 2) L).st = .E ∨ (s.l2 (c / 2) L).st = .I) :
    s.clNormal c L o = some ((s.setL2 (c / 2) L {}).ask
      { k := .flush, L := L, agent := c / 2, core := s.cix c, dom := s.govDom c, kind := .none, drop := true, d := none }) := by
  cases o with
  | wb => exact absurd rfl hne
  | inv => obtain hst | hst | hst := hst <;> simp [State.clNormal, ho, hst]
  | wbi => obtain hst | hst | hst := hst <;> simp [State.clNormal, ho, hst]

theorem clNormal_wb_clean (s : State) (c L : Nat) (ho : s.lineOut (c / 2) L = false)
    (hst : (s.l2 (c / 2) L).st = .S ∨ (s.l2 (c / 2) L).st = .E) :
    s.clNormal c L .wb = some (s.ask
      { k := .flush, L := L, agent := c / 2, core := s.cix c, dom := s.govDom c, kind := .none, drop := false, d := none }) := by
  obtain hst | hst := hst <;> simp [State.clNormal, ho, hst]

theorem clNormal_wb_absent (s : State) (c L : Nat) (ho : s.lineOut (c / 2) L = false) (hst : (s.l2 (c / 2) L).st = .I) :
    s.clNormal c L .wb = some s := by simp [State.clNormal, ho, hst]

/-- R110, R191: CL.INV drops the tile's copy of a GlobalCached line. -/
theorem clGlobal_inv (s : State) (c L : Nat) : s.clGlobal c L .inv = .inl (s.setL2 (c / 2) L {}) := by
  cases hst : (s.l2 (c / 2) L).st <;> simp [State.clGlobal, hst]

/-! ### The obligation -/

theorem coreFences (hready : ReadyP c pr s) :
    let a := Agent.core c
    let on := fun (i : Instr) => exec i s = .next (s.updCore c Core.retire)
    on (.fenceLl a pr) ∧ on (.fenceLs a pr)
    ∧ exec (.fenceSl a pr) s = .next ((s.addHold c true false).retireP c)
    ∧ exec (.fenceSs a pr) s = .next ((s.addHold c false true).retireP c)
    ∧ exec (.fence a pr) s = .next ((s.addHold c true true).retireP c)
    ∧ exec (.fenceIo a pr) s = (if s.drained c then .next (s.updCore c Core.retire) else .next s)
    ∧ exec (.sync a pr) s = (if s.drained c then .next (s.updCore c (fun k => k.squash.retire)) else .next s) := by
  have runs (f : State → Out) : pRun c pr true s f = f s := pRun_ready s c pr true f hready rfl
  refine ⟨?_, ?_, ?_, ?_, ?_, ?_, ?_⟩
  · simp only [exec_fenceLl, execFenceLl, fenceOp, agRun, runs]; rfl
  · simp only [exec_fenceLs, execFenceLs, fenceOp, agRun, runs]; rfl
  · simp only [exec_fenceSl, execFenceSl, fenceOp, agRun, runs]
  · simp only [exec_fenceSs, execFenceSs, fenceOp, agRun, runs]
  · simp only [exec_fence, execFence, fenceOp, agRun, runs]
  · simp only [exec_fenceIo, execFenceIo, fenceOp, agRun, runs]
    cases s.drained c <;> rfl
  · simp only [exec_sync, execSync, runs]; rfl

theorem keeperFences (hready : ReadyK h s) :
    let a := Agent.keeper h
    let on := fun (i : Instr) => exec i s = .next ((s.kFill h).retireK h)
    on (.fenceLl a 0) ∧ on (.fenceLs a 0) ∧ on (.fenceSl a 0) ∧ on (.fenceSs a 0) ∧ on (.fence a 0) ∧ on (.fenceIo a 0) := by
  have runs (go : State → Nat → Option State) : fenceOp go (.keeper h) 0 s = .next ((s.kFill h).retireK h) :=
    agRun_ready s (.keeper h) 0 [] _ ⟨hready, rfl, nofun⟩
  simp only [exec_fenceLl, execFenceLl, exec_fenceLs, execFenceLs, exec_fenceSl, execFenceSl, exec_fenceSs, execFenceSs, exec_fence,
    execFence, exec_fenceIo, execFenceIo, runs, and_self]

/-- Settles O18: a fence leaves its hold, SYNC what it squashes or fetches anew, and cache maintenance what it does to its line. -/
theorem fencesAndCacheMaintenance : Obligations.FencesAndCacheMaintenance := by
  unfold Obligations.FencesAndCacheMaintenance
  refine ⟨⟨?cores, ?keepers⟩, ?maintenance⟩
  case cores =>
    intro c pr s hready k a on holds
    obtain ⟨hll, hls, hsl, hss, hboth, hio, hsync⟩ := coreFences hready
    refine ⟨hll, hls, ⟨_, hsl, addHold_retires s c true false⟩, ⟨_, hss, addHold_retires s c false true⟩,
      ⟨_, hboth, addHold_retires s c true true⟩, fun hd => ?_, fun hd => ?_, fun hsb => ?_, drained_facts⟩
    · exact ⟨hio.trans (if_pos hd), hsync.trans (if_pos hd)⟩
    · have hnot : ¬ s.drained c = true := by simp [hd]
      exact ⟨hio.trans (if_neg hnot), hsync.trans (if_neg hnot)⟩
    · simp only [exec_syncI, execSyncI, a, pRun_ready s c pr true _ hready rfl, show (s.core c).sb = [] from hsb]
      rfl
  case keepers =>
    intro h s hready a on
    obtain ⟨hll, hls, hsl, hss, hboth, hio⟩ := keeperFences hready
    refine ⟨hll, hls, hsl, hss, hboth, hio, fun hslot i hi => ?_⟩
    obtain rfl | rfl := hi
    · obtain ⟨k2, hsync⟩ : ∃ k2, ((s.kFill h).keeper h).applyPend = k2 := ⟨_, rfl⟩
      have hexec := keeper_sync hready hslot
      rw [hsync] at hexec
      obtain ⟨hframe, hpc, hcrP, hk, -, hcr⟩ := keeperSync_ends s h hslot (k2 := k2) (q := k2.pq) (by rw [hsync])
      exact ⟨_, hexec, hframe, hpc, hcrP, hk, nofun, hcr⟩
    · obtain ⟨hframe, hpc, hcrP, hk, hpq, hcr⟩ := keeperSync_ends s h hslot (q := []) rfl
      exact ⟨_, keeper_syncI hready hslot, hframe, hpc, hcrP, hk, fun _ => hpq rfl, hcr⟩
  case maintenance =>
    intro c pr ra pa s s1 hready ea L x older msg leaves
    have runs (f : State → Out) : pRun c pr true s f = f s := pRun_ready s c pr true f hready rfl
    have ends {i : Instr} {u : State} {y : L2Line} {ms : List Msg} (hexec : exec i s = .next (u.retireP c))
        (hu : ClEnds s1 u (c / 2) L y ms) : leaves i y ms := by
      have hpair (n : Nat) : u.paired n = s1.paired n := by simp only [State.paired, State.f, hu.csr]
      have hcore : u.core c = s1.core c := by simp only [State.core, State.cix, hpair, hu.cores]
      refine ⟨_, hexec, hu.line, hu.msgs, ?_, hu.dram, hu.others, hu.awaited⟩
      rw [State.retireP, State.updCore, core_setCore_same, hcore]
    refine ⟨fun i hi => ?_, fun hx hl hs hold hout => ⟨fun hM => ?_, fun hclean => ?_, fun hI => ?_, fun hclean => ?_⟩,
      fun hx hl hs hold => ?_, fun hx i hi => ?_⟩
    · obtain rfl | rfl := hi
      · simp only [exec_prefR, execPrefR, runs]
      · simp only [exec_prefW, execPrefW, runs]
    · obtain ⟨hwb, hdrop⟩ := clNormal_dirty s1 c L hout hM
      exact ⟨ends (clInstr_normal hready hx hl hs hold hwb) (clEnds_setL2_send _ _ _ _ _ nofun),
        ends (clInstr_normal hready hx hl hs hold (hdrop .inv nofun)) (clEnds_setL2_send _ _ _ _ _ nofun),
        ends (clInstr_normal hready hx hl hs hold (hdrop .wbi nofun)) (clEnds_setL2_send _ _ _ _ _ nofun)⟩
    · exact ends (clInstr_normal hready hx hl hs hold (clNormal_wb_clean s1 c L hout hclean)) (clEnds_ask _ _ _ _ rfl rfl rfl)
    · exact ends (clInstr_normal hready hx hl hs hold (clNormal_wb_absent s1 c L hout hI)) (clEnds_nothing s1 (c / 2) L)
    · exact ⟨ends (clInstr_normal hready hx hl hs hold (clNormal_clean s1 c L hout nofun hclean)) (clEnds_setL2_ask _ _ _ _ _ rfl rfl rfl),
        ends (clInstr_normal hready hx hl hs hold (clNormal_clean s1 c L hout nofun hclean)) (clEnds_setL2_ask _ _ _ _ _ rfl rfl rfl)⟩
    · have hold' : (s1.core c).sb.any (fun e => e.gc == true && e.pa / 64 == pa / 64) = false := hold
      simp only [exec_clInv, execClInv, clInstr, runs, show s.xlate c ((s.core c).rg ra.toNat) .load = _ from hx, hl, hs, hold',
        State.gate, clGlobal_inv]
      rfl
    · have hgo (o : ClOp) : clInstr o c pr ra s = .next (s1.retireP c) := by
        simp only [clInstr, runs, show s.xlate c ((s.core c).rg ra.toNat) .load = _ from hx, State.gate]
        rfl
      obtain rfl | rfl | rfl := hi
      · exact hgo .wb
      · exact hgo .inv
      · exact hgo .wbi

end Sys2Proof.Laws
end

section
/-! SUPPORT. A tile's clock (R88, R89, R90): what a change of its target or its cap starts, and what it leaves. -/
namespace Sys2Proof.Laws
open Sys2Proof Sys2Proof.Machine Sys2Proof.Safety

variable {s : State} {n : Nat} {y : Fld}

theorem f_lt (s : State) (x : Fld) : s.f x < 2 ^ x.w := Nat.mod_lt _ (Nat.two_pow_pos _)
theorem bits_eq_self {v w : Nat} (h : v < 2 ^ w) : bits v 0 w = v := by
  rw [bits, Nat.pow_zero, Nat.div_one, Nat.mod_eq_of_lt h]

/-- What decides whether a change of tile `n`'s clock begins: its registers but TARGET and LIMIT, its cap, its fuse. -/
def clockInputs (n : Nat) : List Fld :=
  [R.TIL_CLK_STAT_CUR n, R.TIL_CLK_STAT_BUSY n, R.PWR_HCAP_CAP (n / 8), R.TIL_PWR_STAT_STATE n, R.TIL_PWR_STAT_PREP n,
    R.TIL_PWR_STAT_ENTERING n, R.CUF_STAT_HANDOVER n, R.BOOT_TILE_FUSE_DIS (n / 32)]

theorem clockInputs_ne_target : ∀ y ∈ clockInputs n, y.key ≠ (R.TIL_CLK_CTL_TARGET n).key := by
  simp only [clockInputs, List.forall_mem_cons, Fld.key, R.TIL_CLK_STAT_CUR, R.TIL_CLK_STAT_BUSY, R.PWR_HCAP_CAP, R.TIL_PWR_STAT_STATE,
    R.TIL_PWR_STAT_PREP, R.TIL_PWR_STAT_ENTERING, R.CUF_STAT_HANDOVER, R.BOOT_TILE_FUSE_DIS, R.TIL_CLK_CTL_TARGET, tileBase, hiveBase]
  refine ⟨?_, ?_, ?_, ?_, ?_, ?_, ?_, ?_, nofun⟩ <;> omega

theorem clockInputs_ne_limit : ∀ y ∈ clockInputs n, y.key ≠ (R.TIL_CLK_STAT_LIMIT n).key := by
  simp only [clockInputs, List.forall_mem_cons, Fld.key, R.TIL_CLK_STAT_CUR, R.TIL_CLK_STAT_BUSY, R.PWR_HCAP_CAP, R.TIL_PWR_STAT_STATE,
    R.TIL_PWR_STAT_PREP, R.TIL_PWR_STAT_ENTERING, R.CUF_STAT_HANDOVER, R.BOOT_TILE_FUSE_DIS, R.TIL_CLK_STAT_LIMIT, tileBase, hiveBase]
  refine ⟨?_, ?_, ?_, ?_, ?_, ?_, ?_, ?_, nofun⟩ <;> omega

theorem target_ne_limit : (R.TIL_CLK_CTL_TARGET n).key ≠ (R.TIL_CLK_STAT_LIMIT n).key := by
  simp only [Fld.key, R.TIL_CLK_CTL_TARGET, R.TIL_CLK_STAT_LIMIT]; omega
theorem target_ne_busy : (R.TIL_CLK_CTL_TARGET n).key ≠ (R.TIL_CLK_STAT_BUSY n).key := by
  simp only [Fld.key, R.TIL_CLK_CTL_TARGET, R.TIL_CLK_STAT_BUSY]; omega
theorem cur_ne_busy : (R.TIL_CLK_STAT_CUR n).key ≠ (R.TIL_CLK_STAT_BUSY n).key := by
  simp only [Fld.key, R.TIL_CLK_STAT_CUR, R.TIL_CLK_STAT_BUSY]; omega
theorem limit_ne_busy : (R.TIL_CLK_STAT_LIMIT n).key ≠ (R.TIL_CLK_STAT_BUSY n).key := by
  simp only [Fld.key, R.TIL_CLK_STAT_LIMIT, R.TIL_CLK_STAT_BUSY]; omega

/-- Tile `n`'s clock may change: it is not fused off, not changing, in T0 and not on its way out of it, and in no hand-over. -/
structure ClockFree (s : State) (n : Nat) : Prop where
  fused : s.fused n = false
  busy : s.f (R.TIL_CLK_STAT_BUSY n) = 0
  state : s.f (R.TIL_PWR_STAT_STATE n) = 0
  prep : s.f (R.TIL_PWR_STAT_PREP n) = 0
  entering : s.f (R.TIL_PWR_STAT_ENTERING n) = 0
  handover : s.f (R.CUF_STAT_HANDOVER n) = 0

/-- States that agree on the inputs agree on the fuse and on whether the clock may change. -/
theorem fused_congr {u : State} (h : ∀ y ∈ clockInputs n, u.f y = s.f y) : u.fused n = s.fused n := by
  rw [State.fused, State.fused, h _ (by simp [clockInputs])]

theorem ClockFree.congr {u : State} (h : ∀ y ∈ clockInputs n, u.f y = s.f y) (hs : ClockFree s n) : ClockFree u n where
  fused := (fused_congr h).trans hs.fused
  busy := (h _ (by simp [clockInputs])).trans hs.busy
  state := (h _ (by simp [clockInputs])).trans hs.state
  prep := (h _ (by simp [clockInputs])).trans hs.prep
  entering := (h _ (by simp [clockInputs])).trans hs.entering
  handover := (h _ (by simp [clockInputs])).trans hs.handover

/-! ### The start of a change -/

theorem tclk_setTclk_same (s : State) (t v : Nat) : (s.setTclk t v).tclk t = v := Tbl_get_set_same _ _ _ _
theorem f_setTclk (s : State) (t v : Nat) (y : Fld) : (s.setTclk t v).f y = s.f y := rfl
theorem f_setTpw (s : State) (t : Nat) (x : TilePwr) (y : Fld) : (s.setTpw t x).f y = s.f y := rfl

theorem f_clkLimit (hy : y.key ≠ (R.TIL_CLK_STAT_LIMIT n).key) : (s.clkLimit n).f y = s.f y := f_setF_ne s _ y _ hy

theorem clkWant_congr {u : State} (h : ∀ y ∈ clockInputs n, u.f y = s.f y)
    (ht : u.f (R.TIL_CLK_CTL_TARGET n) = s.f (R.TIL_CLK_CTL_TARGET n)) : u.clkWant n = s.clkWant n := by
  rw [State.clkWant, State.clkWant, ht, h _ (by simp [clockInputs])]

theorem clkLimit_inputs : ∀ y ∈ clockInputs n, (s.clkLimit n).f y = s.f y := fun y hy => f_clkLimit (clockInputs_ne_limit y hy)
theorem clkWant_clkLimit : (s.clkLimit n).clkWant n = s.clkWant n := clkWant_congr clkLimit_inputs (f_clkLimit target_ne_limit)

/-- A start leaves the state with its limit, or with its change begun. -/
theorem clkStart_cases (s : State) (n : Nat) : s.clkStart n = s.clkLimit n
    ∨ ∃ x v, s.clkStart n = (((s.clkLimit n).setTpw n x).setF (R.TIL_CLK_STAT_BUSY n) 1).setTclk n v := by
  unfold State.clkStart
  dsimp only
  split
  · exact .inl rfl
  · exact .inr ⟨_, _, rfl⟩

theorem f_clkStart (hl : y.key ≠ (R.TIL_CLK_STAT_LIMIT n).key) (hb : y.key ≠ (R.TIL_CLK_STAT_BUSY n).key) :
    (s.clkStart n).f y = s.f y := by
  obtain h | ⟨x, v, h⟩ := clkStart_cases s n
  · rw [h, f_clkLimit hl]
  · rw [h, f_setTclk, f_setF_ne _ _ y _ hb, f_setTpw, f_clkLimit hl]

/-- R90: LIMIT says whether the cap is below TARGET. -/
theorem f_clkStart_limit : (s.clkStart n).f (R.TIL_CLK_STAT_LIMIT n)
    = if s.f (R.PWR_HCAP_CAP (n / 8)) < s.f (R.TIL_CLK_CTL_TARGET n) then 1 else 0 := by
  have hlimit : (s.clkLimit n).f (R.TIL_CLK_STAT_LIMIT n)
      = if s.f (R.PWR_HCAP_CAP (n / 8)) < s.f (R.TIL_CLK_CTL_TARGET n) then 1 else 0 := by
    rw [State.clkLimit, f_setF_same, b2n]
    simp only [decide_eq_true_eq]
    split <;> rfl
  rw [← hlimit]
  obtain h | ⟨x, v, h⟩ := clkStart_cases s n
  · rw [h]
  · rw [h, f_setTclk, f_setF_ne _ _ _ _ limit_ne_busy, f_setTpw]

theorem clkStart_frame (s : State) (n : Nat) :
    s.clkStart n = { s with csr := (s.clkStart n).csr, tilePwr := (s.clkStart n).tilePwr, tileClk := (s.clkStart n).tileClk } := by
  obtain h | ⟨x, v, h⟩ := clkStart_cases s n
  · rw [h]; rfl
  · rw [h]; rfl

/-- R89: where the clock may change and is not what it should be, the change begins: the voltage first where it rises. -/
theorem clkStart_begins (hfree : ClockFree s n) (hne : s.clkWant n ≠ s.f (R.TIL_CLK_STAT_CUR n)) :
    (s.clkStart n).f (R.TIL_CLK_STAT_BUSY n) = 1 ∧ ((s.clkStart n).tpw n).clk = s.clkWant n
    ∧ (s.clkStart n).tclk n = if s.clkWant n > s.f (R.TIL_CLK_STAT_CUR n) then 1 else 2 := by
  have hfree' : ClockFree (s.clkLimit n) n := hfree.congr clkLimit_inputs
  have hcur : (s.clkLimit n).f (R.TIL_CLK_STAT_CUR n) = s.f (R.TIL_CLK_STAT_CUR n) := clkLimit_inputs _ (by simp [clockInputs])
  have hstart : s.clkStart n = (((s.clkLimit n).setTpw n { (s.clkLimit n).tpw n with clk := s.clkWant n }).setF
      (R.TIL_CLK_STAT_BUSY n) 1).setTclk n (if s.clkWant n > s.f (R.TIL_CLK_STAT_CUR n) then 1 else 2) := by
    simp [State.clkStart, clkWant_clkLimit, hcur, hne, hfree'.fused, hfree'.busy, hfree'.state, hfree'.prep, hfree'.entering,
      hfree'.handover]
  rw [hstart]
  refine ⟨by rw [f_setTclk, f_setF_same]; rfl, ?_, Tbl_get_set_same _ _ _ _⟩
  exact congrArg TilePwr.clk (Tbl_get_set_same _ _ _ _)

/-- Where the clock is what it should be nothing begins. -/
theorem clkStart_settled (heq : s.clkWant n = s.f (R.TIL_CLK_STAT_CUR n)) : s.clkStart n = s.clkLimit n := by
  have hcur : (s.clkLimit n).f (R.TIL_CLK_STAT_CUR n) = s.f (R.TIL_CLK_STAT_CUR n) := clkLimit_inputs _ (by simp [clockInputs])
  simp [State.clkStart, clkWant_clkLimit, hcur, heq]

/-! ### A write of the target -/

/-- R88: what is not a CODE is refused and reported. -/
theorem clkWrite_bad {v : Nat} (hf : s.fused n = false) (hv : 96 < bits v 0 7) : s.clkWrite n v = s.setF (R.TIL_CLK_STAT_BADCODE n) 1 := by
  simp [State.clkWrite, hf, hv]

theorem clkWrite_legal {v : Nat} (hf : s.fused n = false) (hv : bits v 0 7 ≤ 96) :
    s.clkWrite n v = (s.setF (R.TIL_CLK_CTL_TARGET n) (bits v 0 7)).clkStart n := by
  have hnot : ¬ bits v 0 7 > 96 := by omega
  simp [State.clkWrite, hf, hnot]

theorem setTarget_inputs (v : Nat) : ∀ y ∈ clockInputs n, (s.setF (R.TIL_CLK_CTL_TARGET n) v).f y = s.f y :=
  fun y hy => f_setF_ne s _ y _ (clockInputs_ne_target y hy)

/-- R88, R90: a legal CODE becomes TARGET, under LIMIT; CUR stays until the change is done. -/
theorem clkWrite_fields {v : Nat} (hf : s.fused n = false) (hv : bits v 0 7 ≤ 96) :
    let t := s.clkWrite n v
    t.f (R.TIL_CLK_CTL_TARGET n) = bits v 0 7 ∧ t.f (R.TIL_CLK_STAT_CUR n) = s.f (R.TIL_CLK_STAT_CUR n)
    ∧ t.f (R.TIL_CLK_STAT_LIMIT n) = (if s.f (R.PWR_HCAP_CAP (n / 8)) < bits v 0 7 then 1 else 0) := by
  have htarget : (s.setF (R.TIL_CLK_CTL_TARGET n) (bits v 0 7)).f (R.TIL_CLK_CTL_TARGET n) = bits v 0 7 := by
    rw [f_setF_same]; exact Nat.mod_eq_of_lt (Nat.mod_lt _ (by decide))
  have hinputs := setTarget_inputs (s := s) (n := n) (bits v 0 7)
  rw [clkWrite_legal hf hv]
  refine ⟨?_, ?_, ?_⟩
  · rw [f_clkStart target_ne_limit target_ne_busy, htarget]
  · rw [f_clkStart (clockInputs_ne_limit _ (by simp [clockInputs])) cur_ne_busy, hinputs _ (by simp [clockInputs])]
  · rw [f_clkStart_limit, htarget, hinputs _ (by simp [clockInputs])]

theorem clkWrite_begins {v : Nat} (hfree : ClockFree s n) (hv : bits v 0 7 ≤ 96)
    (hne : min (bits v 0 7) (s.f (R.PWR_HCAP_CAP (n / 8))) ≠ s.f (R.TIL_CLK_STAT_CUR n)) :
    let t := s.clkWrite n v
    t.f (R.TIL_CLK_STAT_BUSY n) = 1 ∧ (t.tpw n).clk = min (bits v 0 7) (s.f (R.PWR_HCAP_CAP (n / 8)))
    ∧ t.tclk n = if min (bits v 0 7) (s.f (R.PWR_HCAP_CAP (n / 8))) > s.f (R.TIL_CLK_STAT_CUR n) then 1 else 2 := by
  have hinputs := setTarget_inputs (s := s) (n := n) (bits v 0 7)
  have hwant : (s.setF (R.TIL_CLK_CTL_TARGET n) (bits v 0 7)).clkWant n = min (bits v 0 7) (s.f (R.PWR_HCAP_CAP (n / 8))) := by
    rw [State.clkWant, f_setF_same, hinputs _ (by simp [clockInputs])]
    exact congrArg (min · _) (Nat.mod_eq_of_lt (Nat.mod_lt _ (by decide)))
  have hcur := hinputs (R.TIL_CLK_STAT_CUR n) (by simp [clockInputs])
  rw [clkWrite_legal hfree.fused hv, ← hwant, ← hcur]
  exact clkStart_begins (hfree.congr hinputs) (by rwa [hwant, hcur])

/-! ### The end of a change -/

theorem clkDone_nothing (hc : s.cmds = []) : s.clkDone n = s := by
  unfold State.clkDone
  rw [hc]
  exact ite_self _

theorem clkDone_waits (hcur : s.f (R.TIL_CLK_STAT_CUR n) ≠ s.f (R.TIL_CLK_CTL_TARGET n)) (hl : s.f (R.TIL_CLK_STAT_LIMIT n) = 0) :
    s.clkDone n = s := by
  rw [State.clkDone, if_neg (by simp [hcur, hl])]

end Sys2Proof.Laws
end

section
/-! PROOF. O30, the tiles' clocks (R88, R89, R434, R492). -/
namespace Sys2Proof.Laws
open Sys2Proof Sys2Proof.Machine Sys2Proof.Safety

variable {s : State} {n r : Nat} {c : Cmd}

theorem tilClkCtlWrite_exec (hn : n < 256) (v : W32) : exec (.tilClkCtlWrite n v) s = .next (s.clkWrite n v.toNat) := by
  simp [execTilClkCtlWrite, whenOk, hn]

/-- R89 steps 4 and 5: the new CODE is current, and the change goes on to the voltage or ends. -/
theorem pllLock_ends (hn : n < 256) (ht : s.tclk n = 2) (hclk : (s.tpw n).clk = s.clkWant n) (hc : s.cmds = []) :
    ∃ t, exec (.pllLock n) s = .next t ∧ t.f (R.TIL_CLK_STAT_CUR n) = s.clkWant n ∧ t.f (R.TIL_CLK_STAT_BUSY n) = 0
      ∧ t.tclk n = if s.clkWant n < s.f (R.TIL_CLK_STAT_CUR n) then 3 else 0 := by
  let u := (s.setFs [(R.TIL_CLK_STAT_CUR n, s.clkWant n), (R.TIL_CLK_STAT_BUSY n, 0)]).setTclk n
    (if s.clkWant n < s.f (R.TIL_CLK_STAT_CUR n) then 3 else 0)
  have hwant : s.clkWant n < 2 ^ 7 := lt_of_le_of_lt (min_le_left _ _) (f_lt s (R.TIL_CLK_CTL_TARGET n))
  have hcur : u.f (R.TIL_CLK_STAT_CUR n) = s.clkWant n := by
    simp only [u, f_setTclk, setFs_cons, setFs_nil, f_setF_ne _ _ _ _ cur_ne_busy, f_setF_same]
    exact Nat.mod_eq_of_lt hwant
  have hwant' : u.clkWant n = s.clkWant n := by
    have hcap : (R.PWR_HCAP_CAP (n / 8)).key ≠ (R.TIL_CLK_STAT_CUR n).key ∧ (R.PWR_HCAP_CAP (n / 8)).key ≠ (R.TIL_CLK_STAT_BUSY n).key := by
      simp only [Fld.key, R.PWR_HCAP_CAP, R.TIL_CLK_STAT_CUR, R.TIL_CLK_STAT_BUSY, tileBase, hiveBase]; omega
    have htarget : (R.TIL_CLK_CTL_TARGET n).key ≠ (R.TIL_CLK_STAT_CUR n).key := by
      simp only [Fld.key, R.TIL_CLK_CTL_TARGET, R.TIL_CLK_STAT_CUR]; omega
    simp only [State.clkWant, u, f_setTclk, setFs_cons, setFs_nil, f_setF_ne _ _ _ _ target_ne_busy, f_setF_ne _ _ _ _ htarget,
      f_setF_ne _ _ _ _ hcap.1, f_setF_ne _ _ _ _ hcap.2]
  have hexec : exec (.pllLock n) s = .next (u.clkLimit n) := by
    have hdone : (u.clkLimit n).clkDone n = u.clkLimit n := clkDone_nothing hc
    simp only [exec_pllLock, execPllLock, whenOk, hn, ht, hclk]
    show Host.Outcome.next ((u.clkStart n).clkDone n) = _
    rw [clkStart_settled (hwant'.trans hcur.symm), hdone]
  refine ⟨_, hexec, ?_, ?_, ?_⟩
  · rw [clkLimit_inputs _ (by simp [clockInputs]), hcur]
  · rw [clkLimit_inputs _ (by simp [clockInputs])]
    simp only [u, f_setTclk, setFs_cons, setFs_nil, f_setF_same, Nat.zero_mod]
  · exact Tbl_get_set_same _ _ _ _

/-! ### POWER subop 0 -/

/-- R357, R429: a command that goes on changes its ring's and its domain's BUSY and the count of commands. -/
theorem begin_inputs (s : State) (c : Cmd) (n r : Nat) : ∀ y ∈ clockInputs n, (s.begin r c [n]).f y = s.f y := by
  have hother : ∀ y ∈ clockInputs n,
      y.key ≠ (R.CMD_RING_STAT_BUSY r).key ∧ y.key ≠ R.CMD_STAT_ACTIVE.key ∧ y.key ≠ (R.DOM_STATE_BUSY c.d.dom).key := by
    simp only [clockInputs, List.forall_mem_cons, Fld.key, R.TIL_CLK_STAT_CUR, R.TIL_CLK_STAT_BUSY, R.PWR_HCAP_CAP,
      R.TIL_PWR_STAT_STATE, R.TIL_PWR_STAT_PREP, R.TIL_PWR_STAT_ENTERING, R.CUF_STAT_HANDOVER, R.BOOT_TILE_FUSE_DIS,
      R.CMD_RING_STAT_BUSY, R.CMD_STAT_ACTIVE, R.DOM_STATE_BUSY, tileBase, hiveBase]
    refine ⟨?_, ?_, ?_, ?_, ?_, ?_, ?_, ?_, nofun⟩ <;> omega
  intro y hy
  obtain ⟨h1, h2, h3⟩ := hother y hy
  simp only [State.begin, State.setCmd, State.cmdCount]
  rw [f_setF_ne _ _ _ _ h3, f_setF_ne _ _ _ _ h2, f_setF_ne _ _ _ _ h1]
  rfl

theorem powerClockTarget_exec (hord : Ordered s r 0x21 c) (hp : c.d.par 0 = 0) : exec (.powerClockTarget r) s =
    if c.phase ≠ 0 then .next (s.clkDone c.d.tile)
    else if !(c.d.okP false true [0xFF, 0x7F]) then done s r stPARAM 0
    else if s.clash r 0 [c.d.tile] then turnedAway s
    else if s.fused c.d.tile then done s r stDISABLED 0
    else if c.d.par 1 > 96 then done (s.clkWrite c.d.tile (c.d.par 1)) r stPARAM 0
    else .next (((s.begin r c [c.d.tile]).clkWrite c.d.tile (c.d.par 1)).clkDone c.d.tile) := by
  obtain ⟨-, -, -, hcmd, hop, hready, hfatal⟩ := hord
  by_cases hphase : c.phase = 0
  · simp [execPowerClockTarget, tilePower, onCmd, hcmd, hop, hp, hready, hfatal, hphase]
  · simp [execPowerClockTarget, tilePower, onCmd, hcmd, hop, hp, hready, hfatal, hphase]

/-- A parameter that passes its mask lies under it. -/
theorem par1_lt (hok : c.d.okP false true [0xFF, 0x7F] = true) : c.d.par 1 < 2 ^ 7 := by
  simp only [Desc.okP, Bool.and_eq_true, List.all_eq_true, beq_iff_eq] at hok
  have hmask := hok.2 1 (by simp)
  have hmod : c.d.par 1 &&& 0x7F = c.d.par 1 % 2 ^ 7 := Nat.and_two_pow_sub_one_eq_mod _ 7
  have hself : c.d.par 1 % 2 ^ 7 = c.d.par 1 := hmod.symm.trans hmask
  exact hself ▸ Nat.mod_lt _ (by decide)

/-- R434 subop 0: the command starts: it holds its tile, whose TARGET is written, and waits while CUR is another. -/
theorem powerClockTarget_starts (hord : Ordered s r 0x21 c) (htile : c.d.tile = n) (hp : c.d.par 0 = 0)
    (hf : s.fused n = false) (hphase : c.phase = 0) (hok : c.d.okP false true [0xFF, 0x7F] = true) (hclash : s.clash r 0 [n] = false)
    (hlegal : c.d.par 1 ≤ 96) (hcur : c.d.par 1 ≠ s.f (R.TIL_CLK_STAT_CUR n)) (hcap : c.d.par 1 ≤ s.f (R.PWR_HCAP_CAP (n / 8))) :
    ∃ t, exec (.powerClockTarget r) s = .next t ∧ t.f (R.TIL_CLK_CTL_TARGET n) = c.d.par 1
      ∧ t.cmd r = some { c with phase := 1, at_ := s.ns, aux := [n] } := by
  let u := s.begin r c [n]
  have hinputs := begin_inputs s c n r
  have hbits : bits (c.d.par 1) 0 7 = c.d.par 1 := bits_eq_self (by omega)
  have hfu : u.fused n = false := (fused_congr hinputs).trans hf
  obtain ⟨htarget, hcur', hlimit⟩ := clkWrite_fields (v := c.d.par 1) hfu (by rw [hbits]; exact hlegal)
  rw [hbits] at htarget hlimit
  rw [hinputs _ (by simp [clockInputs])] at hcur' hlimit
  rw [if_neg (by omega)] at hlimit
  have hdone : (u.clkWrite n (c.d.par 1)).clkDone n = u.clkWrite n (c.d.par 1) :=
    clkDone_waits (by rw [hcur', htarget]; exact hcur.symm) hlimit
  have hexec : exec (.powerClockTarget r) s = .next (u.clkWrite n (c.d.par 1)) := by
    have hnot : ¬ c.d.par 1 > 96 := by omega
    rw [powerClockTarget_exec hord hp, htile]
    simp only [hphase, hok, hclash, hf, hnot, ne_eq, not_true_eq_false, Bool.not_true, Bool.false_eq_true, if_false]
    exact congrArg _ hdone
  refine ⟨_, hexec, htarget, ?_⟩
  have hcmds : (u.clkWrite n (c.d.par 1)).cmds = u.cmds := by
    rw [clkWrite_legal hfu (by rw [hbits]; exact hlegal), clkStart_frame]; rfl
  have hset : u.cmds = Tbl.set none s.cmds r (some { c with phase := 1, at_ := s.ns, aux := [n] }) := rfl
  rw [State.cmd, hcmds, hset, Tbl_get_set_same]

/-- R88, R434: a parameter that is no CODE is refused as a direct write of it is. -/
theorem powerClockTarget_refuses (hord : Ordered s r 0x21 c) (htile : c.d.tile = n) (hp : c.d.par 0 = 0)
    (hf : s.fused n = false) (hphase : c.phase = 0) (hok : c.d.okP false true [0xFF, 0x7F] = true) (hclash : s.clash r 0 [n] = false)
    (hbad : 96 < c.d.par 1) : exec (.powerClockTarget r) s = .next ((s.setF (R.TIL_CLK_STAT_BADCODE n) 1).finish r stPARAM 0) := by
  have hbits : bits (c.d.par 1) 0 7 = c.d.par 1 := bits_eq_self (par1_lt hok)
  rw [powerClockTarget_exec hord hp, htile]
  simp only [hphase, hok, hclash, hf, hbad, clkWrite_bad hf (show 96 < bits (c.d.par 1) 0 7 by rw [hbits]; exact hbad)]
  rfl

/-- R434: the command that waits for its tile completes once CUR is TARGET. -/
theorem powerClockTarget_completes (hord : Ordered s r 0x21 c) (htile : c.d.tile = n) (hp : c.d.par 0 = 0) (hphase : c.phase = 1)
    (hcmds : s.cmds = [(r, some c)]) (hcur : s.f (R.TIL_CLK_STAT_CUR n) = s.f (R.TIL_CLK_CTL_TARGET n)) :
    exec (.powerClockTarget r) s = .next (s.finish r stOK 0) := by
  have hop : c.d.op = 0x21 := hord.2.2.2.2.1
  have hne : c.phase ≠ 0 := by omega
  rw [powerClockTarget_exec hord hp, if_pos hne, htile, State.clkDone, if_pos (.inl hcur), hcmds]
  simp [hop, hp, hphase, htile]

/-! ### A write of TIL_CLK_CTL -/

/-- R88 to R90: a legal CODE is the target, under its limit; a clock that may change starts towards the lower of it and the cap. -/
theorem tilClkCtlWrite_legal (hn : n < 256) (v : W32) (hf : s.fused n = false) (hcode : bits v.toNat 0 7 ≤ 96) :
    let code := bits v.toNat 0 7
    let want := min code (s.f (R.PWR_HCAP_CAP (n / 8)))
    let cur := s.f (R.TIL_CLK_STAT_CUR n)
    let still := s.f (R.TIL_CLK_STAT_BUSY n) = 0 ∧ s.f (R.TIL_PWR_STAT_STATE n) = 0 ∧ s.f (R.TIL_PWR_STAT_PREP n) = 0
      ∧ s.f (R.TIL_PWR_STAT_ENTERING n) = 0 ∧ s.f (R.CUF_STAT_HANDOVER n) = 0
    Completes (.tilClkCtlWrite n v) s (fun t => t.f (R.TIL_CLK_CTL_TARGET n) = code
      ∧ t.f (R.TIL_CLK_STAT_CUR n) = cur ∧ t.f (R.TIL_CLK_STAT_LIMIT n) = (if s.f (R.PWR_HCAP_CAP (n / 8)) < code then 1 else 0)
      ∧ (still → want ≠ cur → t.f (R.TIL_CLK_STAT_BUSY n) = 1 ∧ (t.tpw n).clk = want ∧ t.tclk n = if want > cur then 1 else 2)
      ∧ SameCore s t) := by
  intro code want cur still
  obtain ⟨htarget, hcur, hlimit⟩ := clkWrite_fields (v := v.toNat) hf hcode
  refine ⟨_, tilClkCtlWrite_exec hn v, htarget, hcur, hlimit, ?_, ?_⟩
  · rintro ⟨hbusy, hstate, hprep, hentering, hhandover⟩ hne
    exact clkWrite_begins ⟨hf, hbusy, hstate, hprep, hentering, hhandover⟩ hcode hne
  · rw [clkWrite_legal hf hcode, clkStart_frame]
    exact ⟨rfl, rfl, rfl, rfl, rfl, rfl, rfl⟩

end Sys2Proof.Laws
end

section
/-! SUPPORT. A hive's cap (R540): what a step of it changes, and what it leaves of the other hives, the readings and the pins. -/
namespace Sys2Proof.Laws
open Sys2Proof Sys2Proof.Machine Sys2Proof.Safety

variable {s t u : State} {h g n v : Nat} {y : Fld}

/-! ### What a step leaves -/

/-- `t` is `s` but for registers, tile clocks, the times of the caps' steps and the recorder's staging. -/
def CapFrame (s t : State) : Prop :=
  t = { s with csr := t.csr, tilePwr := t.tilePwr, tileClk := t.tileClk, capAt := t.capAt, clearAt := t.clearAt, er := t.er }

theorem CapFrame.refl (s : State) : CapFrame s s := rfl
theorem CapFrame.trans (h : CapFrame s t) (g : CapFrame t u) : CapFrame s u := by
  unfold CapFrame at h g ⊢; rw [g, h]
theorem CapFrame.cores (h : CapFrame s t) : t.cores = s.cores := by unfold CapFrame at h; rw [h]
theorem CapFrame.temps (h : CapFrame s t) : t.temps = s.temps := by unfold CapFrame at h; rw [h]
theorem CapFrame.pins (h : CapFrame s t) : t.pins = s.pins := by unfold CapFrame at h; rw [h]
theorem RegsOnly.capFrame (h : RegsOnly s t) : CapFrame s t := by
  unfold RegsOnly at h; unfold CapFrame; rw [h]

theorem capFrame_record (s : State) (cls unit sev code d0 d1 : Nat) : CapFrame s (s.record cls unit sev code d0 d1) := by
  unfold State.record; dsimp only; split <;> rfl
theorem capFrame_trigger (s : State) (src : Nat) : CapFrame s (s.trigger src) :=
  ((regsOnly_trigFlags s src).trans (regsOnly_dpend _ _)).capFrame
theorem capFrame_clkStart (s : State) (n : Nat) : CapFrame s (s.clkStart n) := by
  unfold CapFrame; rw [clkStart_frame]

/-! ### Registers that a step leaves -/

/-- A register of the power controller or of a hive, above every other block that a step reports to. -/
def InPower (y : Fld) : Prop := 0x800000 * 128 ≤ y.key ∧ (y.key < tileBase 0 * 128 ∨ hiveBase 0 * 128 ≤ y.key)

theorem InPower.above (hy : InPower y) : evtEnd ≤ y.key := le_trans (by decide) hy.1

theorem f_record_power (hy : InPower y) (cls unit sev code d0 d1 : Nat) : (s.record cls unit sev code d0 d1).f y = s.f y := by
  unfold State.record
  dsimp only
  split
  · rfl
  · exact f_incSat_ne s _ y (by have := hy.1; simp only [Fld.key, R.ER_LOST_COUNT] at this ⊢; omega)

theorem f_trigger_power (hy : InPower y) (src : Nat) : (s.trigger src).f y = s.f y := by
  rw [State.trigger, f_dpend_above _ (f_lt _ (R.EVT_OWN_OWNER src)) hy.above, f_trigFlags_above _ _ hy.above]

theorem f_clkStart_power (hy : InPower y) (hn : n < 256) : (s.clkStart n).f y = s.f y := by
  obtain ⟨-, hy⟩ := hy
  simp only [tileBase, hiveBase] at hy
  refine f_clkStart ?_ ?_
  · simp only [Fld.key, R.TIL_CLK_STAT_LIMIT, tileBase] at hy ⊢; omega
  · simp only [Fld.key, R.TIL_CLK_STAT_BUSY, tileBase] at hy ⊢; omega

/-- The step's effects but for the cap itself: its time, its report, the flags once every cap is back, and the tiles. -/
def capEffects (s : State) (h v old : Nat) : State :=
  let s := { s with capAt := Tbl.set 0 s.capAt h s.ns }
  let s := if old = 96 ∨ v = 96 then (s.record 10 h 0 0x0800 (v + (if v < 96 then 128 else 0)) s.time).trigger 1005 else s
  let s := if (List.range 32).all (fun h => s.f (R.PWR_HCAP_CAP h) == 96) then
      s.setFs [(R.PWR_LIMSTAT_THERM, 0), (R.PWR_LIMSTAT_MEM, 0), (R.PWR_LIMSTAT_CURR, 0)]
    else s
  (List.range 8).foldl (fun s j => s.clkStart (8 * h + j)) s

theorem setCap_eq (s : State) (h v : Nat) : s.setCap h v = if v = s.f (R.PWR_HCAP_CAP h) then s
    else capEffects (s.setFs [(R.PWR_HCAP_CAP h, v), (R.PWR_HCAP_CAPPED h, b2n (decide (v < 96)))]) h v (s.f (R.PWR_HCAP_CAP h)) := rfl

/-- The limit flags that go out once every cap is back at 96. -/
def limitFlags : List Fld := [R.PWR_LIMSTAT_THERM, R.PWR_LIMSTAT_MEM, R.PWR_LIMSTAT_CURR]

theorem inPower_cap (g : Nat) : InPower (R.PWR_HCAP_CAP g) := by
  simp only [InPower, Fld.key, R.PWR_HCAP_CAP, tileBase, hiveBase]; omega

/-- A power register other than a limit flag stays, and a limit flag does while some hive is capped. -/
theorem f_capEffects (hy : InPower y) (hh : h < 32) (old : Nat)
    (hfl : (∀ x ∈ limitFlags, y.key ≠ x.key) ∨ ∃ g, g < 32 ∧ s.f (R.PWR_HCAP_CAP g) ≠ 96) : (capEffects s h v old).f y = s.f y := by
  let s1 : State := { s with capAt := Tbl.set 0 s.capAt h s.ns }
  let s2 : State := if old = 96 ∨ v = 96 then
    (s1.record 10 h 0 0x0800 (v + (if v < 96 then 128 else 0)) s1.time).trigger 1005 else s1
  let s3 : State := if (List.range 32).all (fun h => s2.f (R.PWR_HCAP_CAP h) == 96) then
      s2.setFs [(R.PWR_LIMSTAT_THERM, 0), (R.PWR_LIMSTAT_MEM, 0), (R.PWR_LIMSTAT_CURR, 0)] else s2
  have hreport {x : Fld} (hx : InPower x) : s2.f x = s.f x := by
    simp only [s2]
    split
    · rw [f_trigger_power hx, f_record_power hx]; rfl
    · rfl
  have hflags : s3.f y = s2.f y := by
    simp only [s3]
    split
    · next hall =>
      obtain hne | ⟨g, hg, hcap⟩ := hfl
      · exact f_setFs_ne s2 _ y (by simpa [limitFlags] using hne)
      · simp only [List.all_eq_true, List.mem_range, beq_iff_eq] at hall
        exact absurd ((hreport (inPower_cap g)).symm.trans (hall g hg)) hcap
    · rfl
  have htiles : ((List.range 8).foldl (fun s j => s.clkStart (8 * h + j)) s3).f y = s3.f y :=
    List.foldlRecOn (motive := fun u : State => u.f y = s3.f y) (List.range 8) _ rfl fun u hu j hj =>
      (f_clkStart_power hy (by have := List.mem_range.mp hj; omega)).trans hu
  exact htiles.trans (hflags.trans (hreport hy))

theorem capFrame_capEffects (s : State) (h v old : Nat) : CapFrame s (capEffects s h v old) := by
  let s1 : State := { s with capAt := Tbl.set 0 s.capAt h s.ns }
  let s2 : State := if old = 96 ∨ v = 96 then
    (s1.record 10 h 0 0x0800 (v + (if v < 96 then 128 else 0)) s1.time).trigger 1005 else s1
  let s3 : State := if (List.range 32).all (fun h => s2.f (R.PWR_HCAP_CAP h) == 96) then
      s2.setFs [(R.PWR_LIMSTAT_THERM, 0), (R.PWR_LIMSTAT_MEM, 0), (R.PWR_LIMSTAT_CURR, 0)] else s2
  have hreport : CapFrame s1 s2 := by
    simp only [s2]
    split
    · exact (capFrame_record _ _ _ _ _ _ _).trans (capFrame_trigger _ _)
    · exact CapFrame.refl _
  have hflags : CapFrame s2 s3 := by
    simp only [s3]
    split
    · exact (regsOnly_setFs _ _).capFrame
    · exact CapFrame.refl _
  have htiles : CapFrame s3 ((List.range 8).foldl (fun s j => s.clkStart (8 * h + j)) s3) :=
    foldl_related CapFrame.refl CapFrame.trans (fun u j => capFrame_clkStart u (8 * h + j)) _ _
  exact ((show CapFrame s s1 from rfl).trans hreport).trans (hflags.trans htiles)

/-! ### A step -/

theorem capFrame_setCap (s : State) (h v : Nat) : CapFrame s (s.setCap h v) := by
  rw [setCap_eq]
  split
  · exact CapFrame.refl s
  · exact (regsOnly_setFs s _).capFrame.trans (capFrame_capEffects _ _ _ _)

theorem cap_ne_capped (g h : Nat) : (R.PWR_HCAP_CAP g).key ≠ (R.PWR_HCAP_CAPPED h).key := by
  simp only [Fld.key, R.PWR_HCAP_CAP, R.PWR_HCAP_CAPPED]; omega
theorem cap_ne_cap (hne : g ≠ h) : (R.PWR_HCAP_CAP g).key ≠ (R.PWR_HCAP_CAP h).key := by
  simp only [Fld.key, R.PWR_HCAP_CAP, hiveBase]; omega
theorem cap_ne_flags (g : Nat) : ∀ x ∈ limitFlags, (R.PWR_HCAP_CAP g).key ≠ x.key := by
  simp only [limitFlags, List.forall_mem_cons, Fld.key, R.PWR_HCAP_CAP, R.PWR_LIMSTAT_THERM, R.PWR_LIMSTAT_MEM, R.PWR_LIMSTAT_CURR,
    hiveBase]
  refine ⟨?_, ?_, ?_, nofun⟩ <;> omega

/-- R540: the hive's cap is what the step makes it. -/
theorem cap_setCap_same (hh : h < 32) (hv : v < 128) : (s.setCap h v).f (R.PWR_HCAP_CAP h) = v := by
  rw [setCap_eq]
  split
  · next heq => exact heq.symm
  · rw [f_capEffects (inPower_cap h) hh _ (.inl (cap_ne_flags h)), setFs_cons, setFs_cons, setFs_nil, f_setF_ne _ _ _ _ (cap_ne_capped h h),
      f_setF_same]
    exact Nat.mod_eq_of_lt hv

/-- A power register other than the hive's cap and the limit flags stays; a limit flag does where the hive is left capped. -/
theorem f_setCap (hy : InPower y) (hh : h < 32) (hcap : y.key ≠ (R.PWR_HCAP_CAP h).key) (hcapped : y.key ≠ (R.PWR_HCAP_CAPPED h).key)
    (hfl : (∀ x ∈ limitFlags, y.key ≠ x.key) ∨ v < 96) : (s.setCap h v).f y = s.f y := by
  rw [setCap_eq]
  split
  · rfl
  · rw [f_capEffects hy hh]
    · rw [setFs_cons, setFs_cons, setFs_nil, f_setF_ne _ _ _ _ hcapped, f_setF_ne _ _ _ _ hcap]
    · refine hfl.imp_right fun hv => ⟨h, hh, ?_⟩
      rw [setFs_cons, setFs_cons, setFs_nil, f_setF_ne _ _ _ _ (cap_ne_capped h h), f_setF_same]
      have : v % 2 ^ (R.PWR_HCAP_CAP h).w = v := Nat.mod_eq_of_lt (Nat.lt_trans hv (by simp [R.PWR_HCAP_CAP]))
      rw [this]; omega

theorem cap_setCap_ne (hh : h < 32) (hne : g ≠ h) : (s.setCap h v).f (R.PWR_HCAP_CAP g) = s.f (R.PWR_HCAP_CAP g) :=
  f_setCap (inPower_cap g) hh (cap_ne_cap hne) (cap_ne_capped g h) (.inl (cap_ne_flags g))

end Sys2Proof.Laws
end

section
/-! PROOF. O30, the limits (R90, R540, R542): sensors, the caps' steps and the power-limit contact. -/
namespace Sys2Proof.Laws
open Sys2Proof Sys2Proof.Machine Sys2Proof.Safety

variable {s t u : State} {h g v : Nat} {y fl : Fld}

/-! ### What the rules of R540 read and never write -/

/-- The sensors' registers and the power-limit contact's. -/
def readings : List Fld := [R.PWR_TEMP_TMEM, R.PWR_IMAIN_DA, R.PWR_LIMSTAT_PIN, R.PWR_PWRLIM_CODE]

theorem readings_inPower : ∀ y ∈ readings, InPower y := by
  simp only [readings, List.forall_mem_cons, InPower, Fld.key, R.PWR_TEMP_TMEM, R.PWR_IMAIN_DA, R.PWR_LIMSTAT_PIN, R.PWR_PWRLIM_CODE,
    tileBase]
  refine ⟨?_, ?_, ?_, ?_, nofun⟩ <;> omega

theorem readings_ne_flags : ∀ y ∈ readings, ∀ x ∈ limitFlags, y.key ≠ x.key := by decide

theorem readings_ne_hive (h : Nat) :
    ∀ y ∈ readings, y.key ≠ (R.PWR_HCAP_CAP h).key ∧ y.key ≠ (R.PWR_HCAP_CAPPED h).key := by
  simp only [readings, List.forall_mem_cons, Fld.key, R.PWR_TEMP_TMEM, R.PWR_IMAIN_DA, R.PWR_LIMSTAT_PIN, R.PWR_PWRLIM_CODE,
    R.PWR_HCAP_CAP, R.PWR_HCAP_CAPPED, hiveBase]
  refine ⟨?_, ?_, ?_, ?_, nofun⟩ <;> omega

/-- `t` is `s` but for what the rules of R540 change; what they read stays. -/
structure LimitsFrame (s t : State) : Prop where
  frame : CapFrame s t
  regs : ∀ y ∈ readings, t.f y = s.f y

theorem LimitsFrame.refl (s : State) : LimitsFrame s s := ⟨CapFrame.refl s, fun _ _ => rfl⟩
theorem LimitsFrame.trans (h : LimitsFrame s t) (g : LimitsFrame t u) : LimitsFrame s u :=
  ⟨h.frame.trans g.frame, fun y hy => (g.regs y hy).trans (h.regs y hy)⟩
theorem LimitsFrame.ite {p : Prop} [Decidable p] (hg : LimitsFrame t u) : LimitsFrame t (if p then u else t) := by
  split
  · exact hg
  · exact .refl t

theorem limitsFrame_setCap (hh : h < 32) : LimitsFrame s (s.setCap h v) where
  frame := capFrame_setCap s h v
  regs y hy := f_setCap (readings_inPower y hy) hh (readings_ne_hive h y hy).1 (readings_ne_hive h y hy).2 (.inl (readings_ne_flags y hy))

theorem limitsFrame_firstStep (hfl : fl ∈ limitFlags) (hh : h < 32) : LimitsFrame s (s.firstStep fl h) :=
  LimitsFrame.trans ⟨(regsOnly_setF s fl 1).capFrame, fun y hy => f_setF_ne _ _ _ _ (readings_ne_flags y hy fl hfl)⟩
    (limitsFrame_setCap hh)

/-- A rule that steps every hive. -/
theorem limitsFrame_foldl {f : State → Nat → State} (hf : ∀ u h, h < 32 → LimitsFrame u (f u h)) (s : State) :
    LimitsFrame s ((List.range 32).foldl f s) :=
  List.foldlRecOn (motive := LimitsFrame s) _ _ (.refl s) fun u hu h hh => hu.trans (hf u h (List.mem_range.mp hh))

/-! ### The sensors -/

/-- The readings are kept. -/
def sensed (s : State) (h tj tmem da : Nat) : State :=
  let s1 : State := { s with temps := Tbl.set 0 s.temps h (tj % 256) }
  let hot := (List.range 32).foldl (fun (m : Nat) i => if degC (Tbl.get 0 s1.temps i) > degC m then Tbl.get 0 s1.temps i else m)
    (Tbl.get 0 s1.temps 0)
  s1.setFs [(R.PWR_TEMP_TJ, hot), (R.PWR_TEMP_TMEM, tmem % 256), (R.PWR_IMAIN_DA, da)]

/-- What the rules do with them: `s` was before the reading and `s1` is after it. -/
def limited (s s1 : State) (h : Nat) : State :=
  let s2 : State := if s.hiveTemp h < (102 : Int) ∧ s1.hiveTemp h ≥ (102 : Int) then s1.firstStep R.PWR_LIMSTAT_THERM h else s1
  let s3 : State := if s1.hiveTemp h ≥ (105 : Int) then s2.setCap h (min (s2.f (R.PWR_HCAP_CAP h)) 32) else s2
  let s4 := if !s.memHot ∧ s1.memHot then (List.range 32).foldl (fun s h => s.firstStep R.PWR_LIMSTAT_MEM h) s3 else s3
  let s5 := if !s.curHot ∧ s1.curHot then (List.range 32).foldl (fun s h => s.firstStep R.PWR_LIMSTAT_CURR h) s4 else s4
  if s5.allClear && !s.allClear then { s5 with clearAt := s5.ns } else s5

theorem sensorRead_exec (hh : h < 32) (tj tmem da : Nat) :
    exec (.sensorRead h tj tmem da) s = .next (limited s (sensed s h tj tmem da) h) :=
  whenOk_true s _ _ (decide_eq_true hh)

theorem limitsFrame_limited (hh : h < 32) (s1 : State) : LimitsFrame s1 (limited s s1 h) := by
  have hmem (u : State) : LimitsFrame u ((List.range 32).foldl (fun s h => s.firstStep R.PWR_LIMSTAT_MEM h) u) :=
    limitsFrame_foldl (fun u g hg => limitsFrame_firstStep (fl := R.PWR_LIMSTAT_MEM) (by simp [limitFlags]) hg) u
  have hcurr (u : State) : LimitsFrame u ((List.range 32).foldl (fun s h => s.firstStep R.PWR_LIMSTAT_CURR h) u) :=
    limitsFrame_foldl (fun u g hg => limitsFrame_firstStep (fl := R.PWR_LIMSTAT_CURR) (by simp [limitFlags]) hg) u
  have htherm : LimitsFrame s1 (s1.firstStep R.PWR_LIMSTAT_THERM h) := limitsFrame_firstStep (by simp [limitFlags]) hh
  have hclear (u : State) : LimitsFrame u { u with clearAt := u.ns } := ⟨rfl, fun _ _ => rfl⟩
  exact htherm.ite.trans ((limitsFrame_setCap hh).ite.trans ((hmem _).ite.trans ((hcurr _).ite.trans (hclear _).ite)))

theorem hiveTemp_sensed (s : State) (h tj tmem da : Nat) : (sensed s h tj tmem da).hiveTemp h = degC (tj % 256) :=
  congrArg degC (Tbl_get_set_same _ _ _ _)

theorem f_sensed (s : State) (h tj tmem da : Nat)
    (hy : ∀ x ∈ [R.PWR_TEMP_TJ, R.PWR_TEMP_TMEM, R.PWR_IMAIN_DA], y.key ≠ x.key) : (sensed s h tj tmem da).f y = s.f y :=
  f_setFs_ne _ _ y (by simpa using hy)

theorem tmem_sensed (s : State) (h tj tmem da : Nat) : (sensed s h tj tmem da).f R.PWR_TEMP_TMEM = tmem % 256 := by
  simp only [sensed, setFs_cons, setFs_nil]
  rw [f_setF_ne _ _ _ _ (by decide), f_setF_same]
  exact Nat.mod_mod _ _

theorem imain_sensed (s : State) (h tj tmem da : Nat) : (sensed s h tj tmem da).f R.PWR_IMAIN_DA = da % 2 ^ 16 := by
  simp only [sensed, setFs_cons, setFs_nil]
  exact f_setF_same _ _ _

theorem cap_sensed (s : State) (h tj tmem da g : Nat) : (sensed s h tj tmem da).f (R.PWR_HCAP_CAP g) = s.f (R.PWR_HCAP_CAP g) := by
  refine f_sensed s h tj tmem da ?_
  simp only [List.forall_mem_cons, Fld.key, R.PWR_HCAP_CAP, R.PWR_TEMP_TJ, R.PWR_TEMP_TMEM, R.PWR_IMAIN_DA, hiveBase]
  refine ⟨?_, ?_, ?_, nofun⟩ <;> omega

/-- The hive's fastest tile is no matter of the sensors. -/
theorem maxCur_sensed (s : State) (hh : h < 32) (tj tmem da : Nat) : (sensed s h tj tmem da).maxCur h = s.maxCur h := by
  have hcur (n : Nat) : (sensed s h tj tmem da).f (R.TIL_CLK_STAT_CUR n) = s.f (R.TIL_CLK_STAT_CUR n) := by
    refine f_sensed s h tj tmem da ?_
    simp only [List.forall_mem_cons, Fld.key, R.TIL_CLK_STAT_CUR, R.PWR_TEMP_TJ, R.PWR_TEMP_TMEM, R.PWR_IMAIN_DA, tileBase]
    refine ⟨?_, ?_, ?_, nofun⟩ <;> omega
  have hfused (j : Nat) (hj : j ∈ List.range 8) : (sensed s h tj tmem da).fused (8 * h + j) = s.fused (8 * h + j) := by
    rw [State.fused, State.fused, f_sensed s h tj tmem da]
    have := List.mem_range.mp hj
    simp only [List.forall_mem_cons, Fld.key, R.BOOT_TILE_FUSE_DIS, R.PWR_TEMP_TJ, R.PWR_TEMP_TMEM, R.PWR_IMAIN_DA]
    refine ⟨?_, ?_, ?_, nofun⟩ <;> omega
  unfold State.maxCur
  refine List.foldl_ext _ _ _ fun m j hj => ?_
  rw [hfused j hj, hcur]

/-- R540: a reading that reaches 102 °C with every other rule quiet is the hive's first step, and no more. -/
theorem f_limited_firstStep {s1 : State} (hcold : s.hiveTemp h < 102) (hhot : 102 ≤ s1.hiveTemp h) (hnot : s1.hiveTemp h < 105)
    (hmem : s1.memHot = false) (hcurr : s1.curHot = false) (y : Fld) :
    (limited s s1 h).f y = (s1.firstStep R.PWR_LIMSTAT_THERM h).f y := by
  have hstep : (limited s s1 h) = if (s1.firstStep R.PWR_LIMSTAT_THERM h).allClear && !s.allClear then
      { s1.firstStep R.PWR_LIMSTAT_THERM h with clearAt := (s1.firstStep R.PWR_LIMSTAT_THERM h).ns }
      else s1.firstStep R.PWR_LIMSTAT_THERM h := by
    simp [limited, hcold, hhot, not_le.mpr hnot, hmem, hcurr]
  rw [hstep]
  split <;> rfl

theorem cap_setF_flag (s : State) (hfl : fl ∈ limitFlags) (g w : Nat) : (s.setF fl w).f (R.PWR_HCAP_CAP g) = s.f (R.PWR_HCAP_CAP g) :=
  f_setF_ne _ _ _ _ (cap_ne_flags g fl hfl)

theorem cap_firstStep_same (fl : Fld) (hh : h < 32) :
    (s.firstStep fl h).f (R.PWR_HCAP_CAP h) = min (s.f (R.PWR_HCAP_CAP h)) (s.maxCur h - 4) :=
  cap_setCap_same hh (lt_of_le_of_lt (min_le_left _ _) (f_lt s (R.PWR_HCAP_CAP h)))

theorem cap_firstStep_ne (hfl : fl ∈ limitFlags) (hh : h < 32) (hne : g ≠ h) :
    (s.firstStep fl h).f (R.PWR_HCAP_CAP g) = s.f (R.PWR_HCAP_CAP g) :=
  (cap_setCap_ne hh hne).trans (cap_setF_flag s hfl g 1)

theorem flag_inPower : ∀ x ∈ limitFlags, InPower x := by
  simp only [limitFlags, List.forall_mem_cons, InPower, Fld.key, R.PWR_LIMSTAT_THERM, R.PWR_LIMSTAT_MEM, R.PWR_LIMSTAT_CURR, tileBase]
  refine ⟨?_, ?_, ?_, nofun⟩ <;> omega

/-- R540: the first step sets its rule's flag: a cap that it lowers is below 96, so that no flag goes out with it. -/
theorem flag_firstStep (hh : h < 32) (hcap : s.f (R.PWR_HCAP_CAP h) ≤ 96) :
    (s.firstStep R.PWR_LIMSTAT_THERM h).f R.PWR_LIMSTAT_THERM = 1 := by
  have hmem : R.PWR_LIMSTAT_THERM ∈ limitFlags := by simp [limitFlags]
  have hset : (s.setF R.PWR_LIMSTAT_THERM 1).f R.PWR_LIMSTAT_THERM = 1 := f_setF_same _ _ _
  unfold State.firstStep
  by_cases hv : min (s.f (R.PWR_HCAP_CAP h)) (s.maxCur h - 4) = s.f (R.PWR_HCAP_CAP h)
  · rw [setCap_eq, if_pos (hv.trans (cap_setF_flag s hmem h 1).symm), hset]
  · refine (f_setCap (flag_inPower _ hmem) hh ?_ ?_ (.inr (by omega))).trans hset
    · exact (cap_ne_flags h _ hmem).symm
    · simp only [Fld.key, R.PWR_HCAP_CAPPED, R.PWR_LIMSTAT_THERM, hiveBase]; omega

/-- R540, R548: SMBALERT_N is low while some hive is capped. -/
theorem smbAlertN_of_capped (hh : h < 32) (hcap : s.f (R.PWR_HCAP_CAP h) < 96) : s.smbAlertN = false := by
  simp only [State.smbAlertN, List.all_eq_false, List.mem_range, beq_iff_eq]
  exact ⟨h, hh, by omega⟩

theorem sensorRead_keeps (hh : h < 32) (tj tmem da : Nat) : Completes (.sensorRead h tj tmem da) s (fun t =>
    t.hiveTemp h = degC (tj % 256) ∧ t.f R.PWR_TEMP_TMEM = tmem % 256 ∧ t.f R.PWR_IMAIN_DA = da % 2 ^ 16 ∧ t.cores = s.cores) := by
  have hframe := limitsFrame_limited (s := s) hh (sensed s h tj tmem da)
  have hcores : (sensed s h tj tmem da).cores = s.cores := rfl
  refine ⟨_, sensorRead_exec hh tj tmem da, ?_, ?_, ?_, ?_⟩
  · rw [State.hiveTemp, hframe.frame.temps]; exact hiveTemp_sensed s h tj tmem da
  · rw [hframe.regs _ (by simp [readings]), tmem_sensed]
  · rw [hframe.regs _ (by simp [readings]), imain_sensed]
  · rw [hframe.frame.cores, hcores]

/-- R540: a hive that reaches 102 °C for the first time. -/
theorem sensorRead_firstStep (hh : h < 32) (tj tmem da : Nat) (hcold : s.hiveTemp h < 102) (hhot : 102 ≤ degC (tj % 256))
    (hnot : degC (tj % 256) < 105) (hmem : degC (tmem % 256) < 95) (hda : da < 6000) (hcap : s.f (R.PWR_HCAP_CAP h) ≤ 96) :
    Completes (.sensorRead h tj tmem da) s (fun t => t.f (R.PWR_HCAP_CAP h) = min (s.f (R.PWR_HCAP_CAP h)) (s.maxCur h - 4)
      ∧ t.f R.PWR_LIMSTAT_THERM = 1 ∧ (s.maxCur h < 100 → t.smbAlertN = false)
      ∧ ∀ g, g < 32 → g ≠ h → t.f (R.PWR_HCAP_CAP g) = s.f (R.PWR_HCAP_CAP g)) := by
  let s1 := sensed s h tj tmem da
  have hflag : R.PWR_LIMSTAT_THERM ∈ limitFlags := by simp [limitFlags]
  have htemp : s1.hiveTemp h = degC (tj % 256) := hiveTemp_sensed s h tj tmem da
  have hmem1 : s1.memHot = false := by
    rw [State.memHot, tmem_sensed]; exact decide_eq_false (not_le.mpr hmem)
  have hcurr1 : s1.curHot = false := by
    rw [State.curHot, imain_sensed]; exact decide_eq_false (by omega)
  have hf := f_limited_firstStep hcold (htemp ▸ hhot) (htemp ▸ hnot) hmem1 hcurr1
  have hsame : (limited s s1 h).f (R.PWR_HCAP_CAP h) = min (s.f (R.PWR_HCAP_CAP h)) (s.maxCur h - 4) := by
    rw [hf, cap_firstStep_same _ hh, cap_sensed, maxCur_sensed s hh]
  refine ⟨_, sensorRead_exec hh tj tmem da, hsame, ?_, fun hmax => ?_, fun g _ hne => ?_⟩
  · exact (hf _).trans (flag_firstStep hh (by rw [cap_sensed]; exact hcap))
  · exact smbAlertN_of_capped hh (by rw [hsame]; omega)
  · rw [hf, cap_firstStep_ne hflag hh hne, cap_sensed]

/-! ### The caps' steps -/

theorem capStep_down (hh : h < 32) (hnow : s.stepsNow h = true) (hlast : Tbl.get 0 s.capAt h + 100000 ≤ s.ns) :
    exec (.capStep h) s = .next (s.setCap h (s.f (R.PWR_HCAP_CAP h) - 4)) := by
  simp [execCapStep, whenOk, not_le.mpr hh, hnow, hlast]

/-- Once every condition is clear, no rule steps a hive. -/
theorem stepsNow_of_allClear (hh : h < 32) (hclear : s.allClear = true) : s.stepsNow h = false := by
  simp only [State.allClear, Bool.and_eq_true, List.all_eq_true, List.mem_range, decide_eq_true_eq, Bool.not_eq_true'] at hclear
  obtain ⟨⟨⟨htemps, hmem⟩, hcurr⟩, -⟩ := hclear
  have htemp := htemps h hh
  simp only [State.stepsNow, State.memHot, hcurr, Bool.or_false, Bool.or_eq_false_iff, decide_eq_false_iff_not]
  omega

theorem capStep_up (hh : h < 32) (hclear : s.allClear = true) (hcap : s.f (R.PWR_HCAP_CAP h) < 96) (hsince : s.clearAt + 1000000 ≤ s.ns)
    (hlast : Tbl.get 0 s.capAt h + 1000000 ≤ s.ns) :
    exec (.capStep h) s = .next (s.setCap h (min 96 (s.f (R.PWR_HCAP_CAP h) + 4))) := by
  simp [execCapStep, whenOk, not_le.mpr hh, stepsNow_of_allClear hh hclear, hclear, hcap, hsince, hlast]

/-- A step of one hive's cap, whichever way it goes. -/
theorem capStep_completes (hh : h < 32) (hv : v < 128) (hexec : exec (.capStep h) s = .next (s.setCap h v)) :
    Completes (.capStep h) s (fun t => t.f (R.PWR_HCAP_CAP h) = v
      ∧ ∀ g, g < 32 → g ≠ h → t.f (R.PWR_HCAP_CAP g) = s.f (R.PWR_HCAP_CAP g)) :=
  ⟨_, hexec, cap_setCap_same hh hv, fun _ _ hne => cap_setCap_ne hh hne⟩

/-! ### The power-limit contact -/

/-- Hive `h`'s cap, no higher than PWR_PWRLIM. -/
def pinCap (s : State) (h : Nat) : State := s.setCap h (min (s.f (R.PWR_HCAP_CAP h)) (min 96 (s.f R.PWR_PWRLIM_CODE)))

theorem limitsFrame_pinCap (s : State) (h : Nat) (hh : h < 32) : LimitsFrame s (pinCap s h) := limitsFrame_setCap hh

theorem cap_pinCap_same (hh : h < 32) :
    (pinCap s h).f (R.PWR_HCAP_CAP h) = min (s.f (R.PWR_HCAP_CAP h)) (min 96 (s.f R.PWR_PWRLIM_CODE)) :=
  cap_setCap_same hh (lt_of_le_of_lt (min_le_left _ _) (f_lt s (R.PWR_HCAP_CAP h)))

/-- After the first `n` hives, theirs are capped and the others' are as before. -/
theorem cap_pinCaps (s : State) {n : Nat} (hn : n ≤ 32) : let t := (List.range n).foldl pinCap s
    t.f R.PWR_PWRLIM_CODE = s.f R.PWR_PWRLIM_CODE ∧ ∀ g, t.f (R.PWR_HCAP_CAP g)
      = if g < n then min (s.f (R.PWR_HCAP_CAP g)) (min 96 (s.f R.PWR_PWRLIM_CODE)) else s.f (R.PWR_HCAP_CAP g) := by
  induction n with
  | zero => exact ⟨rfl, fun g => rfl⟩
  | succ n ih =>
    obtain ⟨hcode, hcaps⟩ := ih (by omega)
    have hn32 : n < 32 := by omega
    simp only [List.range_succ, List.foldl_append, List.foldl_cons, List.foldl_nil]
    refine ⟨((limitsFrame_pinCap _ n hn32).regs _ (by simp [readings])).trans hcode, fun g => ?_⟩
    obtain rfl | hne := eq_or_ne g n
    · rw [cap_pinCap_same hn32, hcode, hcaps]; simp
    · rw [pinCap, cap_setCap_ne hn32 hne, hcaps]
      simp only [show g < n + 1 ↔ g < n by omega]

/-- The contact's level is kept. -/
def pinned (s : State) (low : Bool) : State := State.setF { s with pins := { s.pins with limN := !low } } R.PWR_LIMSTAT_PIN (b2n low)

theorem pin_pinned (s : State) (low : Bool) : (pinned s low).f R.PWR_LIMSTAT_PIN = b2n low := by
  cases low <;> exact f_setF_same _ _ _

theorem cap_pinned (s : State) (low : Bool) (g : Nat) : (pinned s low).f (R.PWR_HCAP_CAP g) = s.f (R.PWR_HCAP_CAP g) := by
  refine f_setF_ne _ _ _ _ ?_
  simp only [Fld.key, R.PWR_HCAP_CAP, R.PWR_LIMSTAT_PIN, hiveBase]; omega

theorem code_pinned (s : State) (low : Bool) : (pinned s low).f R.PWR_PWRLIM_CODE = s.f R.PWR_PWRLIM_CODE :=
  f_setF_ne _ _ _ _ (by decide)

theorem pwrlimN_low : exec (.pwrlimN true) s = .next ((List.range 32).foldl pinCap (pinned s true)) := rfl

theorem pwrlimN_high : ∃ at_, exec (.pwrlimN false) s = .next { pinned s false with clearAt := at_ } := by
  by_cases hclear : ((pinned s false).allClear && !s.allClear) = true
  · exact ⟨s.ns, congrArg Host.Outcome.next (if_pos hclear)⟩
  · exact ⟨s.clearAt, congrArg Host.Outcome.next (if_neg hclear)⟩

theorem pwrlimN_completes (s : State) (low : Bool) : Completes (.pwrlimN low) s (fun t =>
    t.pins = { s.pins with limN := !low } ∧ t.f R.PWR_LIMSTAT_PIN = b2n low
      ∧ ∀ g, g < 32 → t.f (R.PWR_HCAP_CAP g)
        = if low then min (s.f (R.PWR_HCAP_CAP g)) (min 96 (s.f R.PWR_PWRLIM_CODE)) else s.f (R.PWR_HCAP_CAP g)) := by
  cases low with
  | true =>
    have hframe := limitsFrame_foldl limitsFrame_pinCap (pinned s true)
    obtain ⟨-, hcaps⟩ := cap_pinCaps (pinned s true) (le_refl 32)
    refine ⟨_, pwrlimN_low, hframe.frame.pins, ?_, fun g hg => ?_⟩
    · rw [hframe.regs _ (by simp [readings]), pin_pinned]
    · rw [hcaps, if_pos hg, if_pos rfl, cap_pinned, code_pinned]
  | false =>
    obtain ⟨at_, hexec⟩ := pwrlimN_high (s := s)
    exact ⟨_, hexec, rfl, pin_pinned s false, fun g _ => cap_pinned s false g⟩

/-! ### O30 -/

/-- Settles O30: a change of a clock starts from what its write leaves (`clkStart_begins`), POWER subop 0 writes TARGET as a direct
write does, and a step of one hive's cap changes that cap alone (`f_setCap`). -/
theorem tileClocksAndLimits : Obligations.TileClocksAndLimits := by
  unfold Obligations.TileClocksAndLimits
  refine ⟨?_, ?_⟩
  · intro r n v c s hn code want cur still
    refine ⟨fun hf => ?_, fun hf hbad => ?_, fun hf hlegal => tilClkCtlWrite_legal hn v hf hlegal, fun ht => ?_,
      fun ht hclk hc => pllLock_ends hn ht hclk hc, fun ht => ?_, fun hord htile hp hf => ⟨?_, ?_, ?_⟩⟩
    · rw [tilClkCtlWrite_exec hn, State.clkWrite, if_pos hf]
    · refine ⟨_, tilClkCtlWrite_exec hn v, ?_⟩
      rw [clkWrite_bad hf hbad]
      exact ⟨setF_only s _ 1, f_setF_same _ _ _⟩
    · exact ⟨s.setTclk n 2, by simp [execVoltageReached, ht], tclk_setTclk_same s n _, rfl⟩
    · exact ⟨s.setTclk n 0, by simp [execVoltageReached, ht], tclk_setTclk_same s n _, rfl⟩
    · exact powerClockTarget_starts hord htile hp hf
    · intro hphase hok hclash hbad
      exact ⟨_, powerClockTarget_refuses hord htile hp hf hphase hok hclash hbad, setF_only s _ 1, f_setF_same _ _ _⟩
    · intro hphase hcmds hcur
      exact ⟨s, powerClockTarget_completes hord htile hp hphase hcmds hcur, rfl⟩
  · intro h tj tmem da low s hh cap after
    refine ⟨sensorRead_keeps hh tj tmem da, sensorRead_firstStep hh tj tmem da, fun hnow hlast => ?_,
      fun hclear hcap hsince hlast => ?_, pwrlimN_completes s low⟩
    · have hlt : cap s h < 2 ^ 7 := f_lt s (R.PWR_HCAP_CAP h)
      exact capStep_completes hh (by omega) (capStep_down hh hnow hlast)
    · exact capStep_completes hh (by omega) (capStep_up hh hclear hcap hsince hlast)

end Sys2Proof.Laws
end

section
/-! SUPPORT. Values of the integer operations of chapter 4 as their tables state them (R101 to R103, R106). -/
namespace Sys2Proof.Laws
open Sys2Proof Sys2Proof.Machine Sys2Proof.Safety

/-! ### Extension of the low bytes (R106) -/

/-- R106: sign extension of the low `n` bytes. -/
theorem extend_signed {n : Nat} (hn : 0 < n) (v : Nat) : extend n true v = (BitVec.ofNat (8 * n) v).signExtend 64 := by
  have hpow : 2 ^ (8 * n) = 2 * 2 ^ (8 * n - 1) := by rw [← pow_succ']; congr 1; omega
  rw [BitVec.signExtend, BitVec.toInt_eq_toNat_cond, BitVec.toNat_ofNat]
  unfold extend
  simp only [Bool.true_and, decide_eq_true_eq]
  by_cases hneg : v % 2 ^ (8 * n) ≥ 2 ^ (8 * n - 1)
  · rw [if_pos hneg, if_neg (by omega)]; norm_cast
  · rw [if_neg hneg, if_pos (by omega), BitVec.ofInt_natCast]

/-- R106: zero extension of the low `n` bytes. -/
theorem extend_unsigned (n v : Nat) : extend n false v = BitVec.ofNat 64 (v % 2 ^ (8 * n)) := rfl

theorem extend_toNat {n : Nat} (hn : 0 < n) (x : W64) : extend n true x.toNat = (x.setWidth (8 * n)).signExtend 64 := by
  rw [extend_signed hn, BitVec.ofNat_toNat]

/-! ### Counts (R101, R102) -/

/-- R102: the zero bits that stand before the first one bit, from the top. -/
def leadingZeros (x : W64) : Nat := 64 - bitLen x.toNat

theorem bitLen_le {n w : Nat} (h : n < 2 ^ w) : bitLen n ≤ w := by
  unfold bitLen
  split
  · omega
  · next hn => exact (Nat.log2_lt hn).mpr h

theorem getLsbD_above_bitLen (x : W64) {i : Nat} (hi : bitLen x.toNat ≤ i) : x.getLsbD i = false := by
  refine Nat.testBit_lt_two_pow ?_
  unfold bitLen at hi
  split at hi
  · next hx => rw [hx]; exact Nat.two_pow_pos i
  · next hx => exact (Nat.log2_lt hx).mp hi

theorem getLsbD_top (x : W64) (hx : 0 < bitLen x.toNat) : x.getLsbD (bitLen x.toNat - 1) = true := by
  unfold bitLen at hx ⊢
  split at hx
  · omega
  · next hne => rw [if_neg hne]; exact Nat.testBit_log2 hne

theorem clz64_leadingZeros (x : W64) : clz64 x = BitVec.ofNat 64 (leadingZeros x) := rfl

theorem leadingZeros_spec (x : W64) : leadingZeros x ≤ 64 ∧ (∀ i, 64 - leadingZeros x ≤ i → i < 64 → x.getLsbD i = false)
    ∧ (leadingZeros x < 64 → x.getLsbD (63 - leadingZeros x) = true) := by
  have hlen : bitLen x.toNat ≤ 64 := bitLen_le x.isLt
  unfold leadingZeros
  refine ⟨Nat.sub_le _ _, fun i hi _ => getLsbD_above_bitLen x (by omega), fun hlt => ?_⟩
  have htop := getLsbD_top x (by omega)
  rwa [show bitLen x.toNat - 1 = 63 - (64 - bitLen x.toNat) by omega] at htop

/-- The lowest one bit of `x` is the one bit of `x &&& -x`. -/
theorem and_neg_eq_twoPow {x : W64} (hx : x ≠ 0) : x &&& (0 - x) = BitVec.twoPow 64 x.ctz.toNat := by
  have hset : x.getLsbD x.ctz.toNat = true := BitVec.getLsbD_true_ctz_of_ne_zero hx
  have hlow {j : Nat} (hj : j < x.ctz.toNat) : x.getLsbD j = false := BitVec.getLsbD_false_of_lt_ctz hj
  refine BitVec.eq_of_getLsbD_eq fun i hi => ?_
  rw [show (0 : W64) - x = -x from BitVec.zero_sub x, BitVec.getLsbD_and, BitVec.getLsbD_neg, BitVec.getLsbD_twoPow]
  rcases Nat.lt_trichotomy i x.ctz.toNat with hlt | heq | hgt
  · rw [hlow hlt]; simp; omega
  · subst heq
    have hnone : ¬ ∃ j < x.ctz.toNat, x.getLsbD j = true := fun ⟨j, hj, hb⟩ => by simp [hlow hj] at hb
    simp [hset, hnone, hi]
  · have hsome : ∃ j < i, x.getLsbD j = true := ⟨_, hgt, hset⟩
    have hne : ¬ x.ctz.toNat = i := by omega
    simp [hsome, hi, hne]

/-- R102: the zero bits that stand before the first one bit, from the bottom. -/
def trailingZeros (x : W64) : Nat := if x = 0 then 64 else x.ctz.toNat

theorem ctz64_trailingZeros (x : W64) : ctz64 x = BitVec.ofNat 64 (trailingZeros x) := by
  unfold ctz64 trailingZeros
  by_cases hx : x = 0
  · rw [if_pos hx, if_pos hx]; rfl
  · have hlt : x.ctz.toNat < 64 := BitVec.ctz_lt_iff_ne_zero.mpr hx
    rw [if_neg hx, if_neg hx, and_neg_eq_twoPow hx, BitVec.toNat_twoPow, Nat.mod_eq_of_lt (Nat.pow_lt_pow_right (by omega) hlt),
      Nat.log2_two_pow]

theorem trailingZeros_spec (x : W64) : trailingZeros x ≤ 64 ∧ (∀ i, i < trailingZeros x → x.getLsbD i = false)
    ∧ (trailingZeros x < 64 → x.getLsbD (trailingZeros x) = true) := by
  unfold trailingZeros
  by_cases hx : x = 0
  · subst hx; simp
  · have hlt : x.ctz.toNat < 64 := BitVec.ctz_lt_iff_ne_zero.mpr hx
    rw [if_neg hx]
    exact ⟨hlt.le, fun i hi => BitVec.getLsbD_false_of_lt_ctz hi, fun _ => BitVec.getLsbD_true_ctz_of_ne_zero hx⟩

/-! ### Byte reversal (R101) and inserted immediates (R103) -/

/-- Byte `i` of a word, moved to byte `7 - i`. -/
def movedByte (x : W64) (i : Nat) : W64 := ((x >>> (8 * i)) &&& 0xFF) <<< (8 * (7 - i))

theorem getLsbD_ones (w j : Nat) (hw : w ≤ 64) : (BitVec.ofNat 64 (2 ^ w - 1)).getLsbD j = decide (j < w) := by
  rw [BitVec.getLsbD_ofNat, Nat.testBit_two_pow_sub_one]
  by_cases hj : j < w <;> simp [hj]; omega

theorem getLsbD_movedByte (x : W64) (i : Nat) {p j : Nat} (hp : p < 8) (hj : j < 8) :
    (movedByte x i).getLsbD (8 * p + j) = (decide (p = 7 - i) && x.getLsbD (8 * i + j)) := by
  rw [movedByte, show (0xFF : W64) = BitVec.ofNat 64 (2 ^ 8 - 1) from rfl, BitVec.getLsbD_shiftLeft, BitVec.getLsbD_and,
    BitVec.getLsbD_ushiftRight, getLsbD_ones 8 _ (by omega)]
  rcases Nat.lt_trichotomy p (7 - i) with hlt | heq | hgt
  · have hbelow : 8 * p + j < 8 * (7 - i) := by omega
    simp [hbelow, hlt.ne]
  · subst heq
    have hin : 8 * (7 - i) + j < 64 := by omega
    simp [hj, hin]
  · have habove : ¬ 8 * p + j - 8 * (7 - i) < 8 := by omega
    simp [habove, hgt.ne']

/-- R101: byte `p` of the reversed word is byte `7 - p`. -/
theorem getLsbD_bswap64 (x : W64) {p j : Nat} (hp : p < 8) (hj : j < 8) :
    (bswap64 x).getLsbD (8 * p + j) = x.getLsbD (8 * (7 - p) + j) := by
  have hbytes : bswap64 x = 0 ||| movedByte x 0 ||| movedByte x 1 ||| movedByte x 2 ||| movedByte x 3 ||| movedByte x 4
      ||| movedByte x 5 ||| movedByte x 6 ||| movedByte x 7 := rfl
  rw [hbytes]
  simp only [BitVec.getLsbD_or, getLsbD_movedByte x _ hp hj]
  interval_cases p <;> simp

theorem getLsbD_insert16 (old : W64) (lo : Nat) (imm : BitVec 16) {j : Nat} (hj : j < 64) :
    (insert16 old lo imm).getLsbD j = if lo ≤ j ∧ j < lo + 16 then imm.getLsbD (j - lo) else old.getLsbD j := by
  have hmask : (0xFFFF : W64).getLsbD (j - lo) = decide (j - lo < 16) := getLsbD_ones 16 _ (by omega)
  have hbit : (imm.zeroExtend 64).getLsbD (j - lo) = imm.getLsbD (j - lo) := by
    rw [BitVec.getLsbD_setWidth]; simp; omega
  simp only [insert16, BitVec.getLsbD_or, BitVec.getLsbD_and, BitVec.getLsbD_not, BitVec.getLsbD_shiftLeft, hmask, hbit, hj]
  by_cases hlo : lo ≤ j
  · by_cases hhi : j < lo + 16
    · have : j - lo < 16 := by omega
      simp [hlo, hhi, this, Nat.not_lt.mpr hlo]
    · have : imm.getLsbD (j - lo) = false := BitVec.getLsbD_of_ge _ _ (by omega)
      simp [hlo, hhi, this]; omega
  · have : j < lo := by omega
    simp [hlo, this]

theorem wideImm_eq (h : Bool) (imm : BitVec 16) : wideImm h imm = BitVec.ofNat 64 (imm.toNat * 2 ^ (if h then 16 else 0)) := by
  apply BitVec.eq_of_toNat_eq
  simp only [wideImm, BitVec.toNat_shiftLeft, BitVec.toNat_setWidth, BitVec.toNat_ofNat, Nat.shiftLeft_eq]
  rw [Nat.mod_eq_of_lt (a := imm.toNat) (by omega)]

end Sys2Proof.Laws
end

section
/-! PROOF. O3, O4: the integer instructions of both profiles. Each writes a function of its operands, and goes on. -/
namespace Sys2Proof.Laws
open Sys2Proof Sys2Proof.Machine Sys2Proof.Safety

variable {s : State} {a : Agent} {pr : BitVec 4} {rd ra rb : BitVec 5}

/-- A ready two-operand operation writes the function's value of its operands. -/
theorem op2_ready (hready : Ready a pr [rd, ra, rb] s) (f : W64 → W64 → W64) :
    op2 f a pr rd ra rb s = .next (((s.fillA a).wgA a rd (f (s.rgA a ra) (s.rgA a rb))).retireA a) := by
  rw [op2, regOp_ready s a pr rd [ra, rb] _ hready, rgA_fillA, rgA_fillA]

/-- A ready one-operand operation writes the function's value of its operand. -/
theorem op1_ready (hready : Ready a pr [rd, ra] s) (f : W64 → W64) :
    op1 f a pr rd ra s = .next (((s.fillA a).wgA a rd (f (s.rgA a ra))).retireA a) := by
  rw [op1, regOp_ready s a pr rd [ra] _ hready, rgA_fillA]

theorem lo32_signExtend {w : Nat} (x : BitVec w) : lo32 (x.signExtend 64) = x.signExtend 32 := by
  refine BitVec.eq_of_getLsbD_eq fun i hi => ?_
  have hi' : i < 64 := by omega
  have hlo : (lo32 (x.signExtend 64)).getLsbD i = (x.signExtend 64).getLsbD i := by simp [lo32, hi]
  rw [hlo, BitVec.getLsbD_signExtend, BitVec.getLsbD_signExtend]
  simp [hi, hi']

/-- R102: the count of a .W shift is the low 5 bits of the register. -/
theorem lo32_mod (y : W64) : (lo32 y).toNat % 32 = y.toNat % 32 := by
  rw [lo32, BitVec.truncate, BitVec.toNat_setWidth]; omega

/-- Settles O3: each instruction is `op2` of one function, whose value the tables state. -/
theorem integerRegisterResults : Obligations.IntegerRegisterResults := by
  unfold Obligations.IntegerRegisterResults
  intro a pr rd ra rb s hready x y n m xw yw ones gives
  have givesOf {i : Instr} {f : W64 → W64 → W64} {v : W64} (hexec : exec i s = op2 f a pr rd ra rb s) (hv : f x y = v) :
      gives i v := by
    show exec i s = _
    rw [hexec, op2_ready hready, ← hv]
  have hcount : (lo32 y).toNat % 32 = m := lo32_mod y
  refine ⟨givesOf (exec_add ..) rfl, givesOf (exec_sub ..) rfl, givesOf (exec_and ..) rfl, givesOf (exec_or ..) rfl,
    givesOf (exec_xor ..) rfl, givesOf (exec_andn ..) rfl, givesOf (exec_orn ..) rfl, givesOf (exec_sll ..) rfl,
    givesOf (exec_srl ..) rfl, givesOf (exec_sra ..) rfl, givesOf (exec_ror ..) rfl, givesOf (exec_addW ..) rfl,
    givesOf (exec_subW ..) rfl,
    givesOf (exec_sllW ..) (congrArg (fun k => sext32 (lo32 x <<< k)) hcount),
    givesOf (exec_srlW ..) (congrArg (fun k => sext32 (lo32 x >>> k)) hcount),
    givesOf (exec_sraW ..) (congrArg (fun k => sext32 ((lo32 x).sshiftRight k)) hcount),
    givesOf (exec_mul ..) (value_mul x y), givesOf (exec_mulh ..) (value_mulh x y), givesOf (exec_mulhu ..) (value_mulhu x y),
    givesOf (exec_div ..) (value_div x y), givesOf (exec_divu ..) (value_divu x y), givesOf (exec_rem ..) (value_rem x y),
    givesOf (exec_remu ..) (value_remu x y), givesOf (exec_min ..) (value_min x y), givesOf (exec_max ..) (value_max x y),
    givesOf (exec_minu ..) (value_minu x y), givesOf (exec_maxu ..) (value_maxu x y), fun hx hy =>
    ⟨givesOf (exec_div ..) ?div, givesOf (exec_rem ..) ?rem⟩⟩
  case div => rw [hx, hy]; decide
  case rem => rw [hx, hy]; decide

/-- Settles O4: each instruction is `op1` or `regOp` of one function, whose value the tables state. -/
theorem integerUnaryAndImmediateResults : Obligations.IntegerUnaryAndImmediateResults := by
  unfold Obligations.IntegerUnaryAndImmediateResults
  refine ⟨?unary, ?immediate⟩
  case unary =>
    intro a pr rd ra s hready x gives
    have givesOf {i : Instr} {f : W64 → W64} {v : W64} (hexec : exec i s = op1 f a pr rd ra s) (hv : f x = v) : gives i v := by
      show exec i s = _
      rw [hexec, op1_ready hready, ← hv]
    obtain ⟨hlz, hlead, hlast⟩ := leadingZeros_spec x
    obtain ⟨htz, htrail, hfirst⟩ := trailingZeros_spec x
    exact ⟨⟨_, hlz, givesOf (exec_clz ..) (clz64_leadingZeros x), hlead, hlast⟩,
      ⟨_, htz, givesOf (exec_ctz ..) (ctz64_trailingZeros x), htrail, hfirst⟩, givesOf (exec_popc ..) (value_popc x),
      givesOf (exec_sextB ..) (extend_toNat Nat.one_pos x), givesOf (exec_sextH ..) (extend_toNat Nat.two_pos x),
      givesOf (exec_sextW ..) (extend_toNat (by omega) x),
      givesOf (exec_zextW ..) (value_zext x), _, givesOf (exec_bswap ..) rfl, fun p j hp hj => getLsbD_bswap64 x hp hj⟩
  case immediate =>
    intro a pr rd ra imm sh shw h imm16 imm17 s hready x i12 xw at16 gives inserts
    have hready1 : Ready a pr [rd] s := by
      cases a with
      | core c => exact hready
      | keeper g => exact ⟨hready.1, hready.2.1, fun r hr => hready.2.2 r (List.mem_cons.mpr (.inl (List.mem_singleton.mp hr)))⟩
    have givesOf {i : Instr} {f : W64 → W64} {v : W64} (hexec : exec i s = op1 f a pr rd ra s) (hv : f x = v) : gives i v := by
      show exec i s = _
      rw [hexec, op1_ready hready, ← hv]
    have givesImm {i : Instr} {f : State → W64} {v : W64} (hexec : exec i s = regOp a pr rd [] f s) (hv : f (s.fillA a) = v) :
        gives i v := by
      show exec i s = _
      rw [hexec, regOp_ready s a pr rd [] f hready1, hv]
    have hlow : lo32 i12 = imm.signExtend 32 := lo32_signExtend imm
    have hku : (if h then 48 else 32) = 32 + at16 := by cases h <;> rfl
    refine ⟨givesOf (exec_addi ..) rfl, givesOf (exec_andi ..) rfl, givesOf (exec_ori ..) rfl, givesOf (exec_xori ..) rfl,
      givesOf (exec_addiW ..) (congrArg (fun y => sext32 (lo32 x + y)) hlow), givesOf (exec_slli ..) rfl, givesOf (exec_srli
      ..) rfl, givesOf (exec_srai ..) rfl, givesOf (exec_rori ..) rfl, givesOf (exec_slliW ..) rfl, givesOf (exec_srliW ..)
      rfl, givesOf (exec_sraiW ..) rfl, givesImm (exec_liz ..) (wideImm_eq h imm16), givesImm (exec_lin ..) (congrArg (~~~ ·)
      (wideImm_eq h imm16)), ⟨_, givesImm (exec_lik ..) rfl, fun j hj => ?lik⟩, ⟨_, givesImm (exec_liku ..) rfl, fun j hj =>
      ?liku⟩, givesImm (exec_addpc ..) ?addpc⟩
    case lik => rw [rgA_fillA, getLsbD_insert16 _ _ _ hj]
    case liku => rw [rgA_fillA, getLsbD_insert16 _ _ _ hj, hku]
    case addpc => rw [pcA_fillA]

end Sys2Proof.Laws
end

section
/-! SUPPORT. What the retirement of a P-core instruction leaves (R55, R66, R69), and the fetch of a keeper's word (R315). -/
namespace Sys2Proof.Laws
open Sys2Proof Sys2Proof.Machine Sys2Proof.Safety

/-! ### Retirement of a P-core instruction -/

/-- `k` with the translation buffers of `k'`. -/
def buffersFrom (k k' : Core) : Core :=
  { k with itlb := k'.itlb, dtlb := k'.dtlb, l2tlb := k'.l2tlb, l2big := k'.l2big, walkC := k'.walkC, s2C := k'.s2C }

/-- R219: installing a walk changes the translation buffers only. -/
theorem install_frame (k : Core) (free : Nat) (w : WalkOut) (fetch : Bool) (va : W64) :
    k.install free w fetch va = buffersFrom k (k.install free w fetch va) := by
  unfold Core.install
  by_cases hbig : w.e.sz ≥ 21 <;> cases fetch <;> simp only [hbig, if_true, if_false, Bool.false_eq_true] <;> rfl

theorem installs_frame (l : List WalkB) (k : Core) :
    l.foldl (fun (k : Core) b => k.install b.free b.w b.fetch b.va) k
      = buffersFrom k (l.foldl (fun (k : Core) b => k.install b.free b.w b.fetch b.va) k) := by
  induction l generalizing k with
  | nil => rfl
  | cons b l ih => rw [List.foldl_cons, ih, install_frame]; rfl

/-- R69: the walks that an instruction used enter the translation buffers. -/
theorem settle_frame (k : Core) : k.settle = { buffersFrom k k.settle with fill := [], commit := false } := by
  unfold Core.settle
  rw [installs_frame]
  rfl

theorem settle_of_no_walk (k : Core) (hk : k.fill = []) : k.settle = { k with fill := [], commit := false } := by
  unfold Core.settle
  rw [hk]
  rfl

/-- R55, R57: control goes to `next` with a rest of the window, or everything younger is squashed. -/
theorem leave_cases (k : Core) (next : W64) :
    (∃ win, win <:+ k.win ∧ k.leave next = Core.dropUnused { k.settle with pc := next, win := win })
      ∨ k.leave next = Core.squash { k.settle with pc := next } := by
  have hrest : k.win.dropWhile (fun e => !e.isBranch && e.pc == k.pc) <:+ k.win := List.dropWhile_suffix _
  unfold Core.leave
  dsimp only
  split
  · next p n rest heq =>
    split
    · exact .inl ⟨_, hrest, rfl⟩
    · split
      · exact .inl ⟨_, (List.suffix_cons _ _).trans (heq ▸ hrest), rfl⟩
      · exact .inr rfl
  · exact .inl ⟨_, hrest, rfl⟩

/-- R66, R69: what stays in the buffers of speculative work was there. -/
theorem dropUnused_sub (k : Core) : (∀ e ∈ k.dropUnused.sfb, e ∈ k.sfb) ∧ (∀ e ∈ k.sfb, e.prom = true → e ∈ k.dropUnused.sfb)
    ∧ ∀ b ∈ k.dropUnused.walkB, b ∈ k.walkB := by
  refine ⟨fun e he => (List.mem_filter.mp he).1, fun e he hp => List.mem_filter.mpr ⟨he, ?_⟩, fun b hb => (List.mem_filter.mp hb).1⟩
  rw [hp, Bool.true_or]

/-- R55, R66, R69: what retirement leaves. -/
theorem leave_frame (k : Core) (next : W64) : let k' := k.leave next
    k' = { k with pc := next, commit := false, fill := [], itlb := k'.itlb, dtlb := k'.dtlb, l2tlb := k'.l2tlb, l2big := k'.l2big,
                  walkC := k'.walkC, s2C := k'.s2C, walkB := k'.walkB, sfb := k'.sfb, win := k'.win, retS := k'.retS }
    ∧ (k.fill = [] → k'.itlb = k.itlb ∧ k'.dtlb = k.dtlb ∧ k'.l2tlb = k.l2tlb ∧ k'.l2big = k.l2big
        ∧ k'.walkC = k.walkC ∧ k'.s2C = k.s2C)
    ∧ (∀ e ∈ k'.sfb, e ∈ k.sfb) ∧ (∀ e ∈ k.sfb, e.prom = true → e ∈ k'.sfb) ∧ (∀ b ∈ k'.walkB, b ∈ k.walkB)
    ∧ k'.win <:+ k.win ∧ (k'.retS = k.retS ∨ k'.retS = k.retR) := by
  have hsettle := settle_frame k
  rcases leave_cases k next with ⟨win, hwin, heq⟩ | heq
  · rw [heq]
    obtain ⟨hsub, hprom, hwalk⟩ := dropUnused_sub { k.settle with pc := next, win := win }
    rw [hsettle] at hsub hprom hwalk ⊢
    refine ⟨rfl, fun hfill => ?_, hsub, hprom, hwalk, hwin, .inl rfl⟩
    rw [settle_of_no_walk k hfill]
    exact ⟨rfl, rfl, rfl, rfl, rfl, rfl⟩
  · rw [heq]
    obtain ⟨hsub, hprom, hwalk⟩ := dropUnused_sub { k.settle with pc := next, win := k.settle.win.take 0, retS := k.settle.retR }
    rw [hsettle] at hsub hprom hwalk ⊢
    refine ⟨rfl, fun hfill => ?_, hsub, hprom, hwalk, List.nil_suffix, .inr rfl⟩
    rw [settle_of_no_walk k hfill]
    exact ⟨rfl, rfl, rfl, rfl, rfl, rfl⟩

@[simp] theorem retire_g (k : Core) : k.retire.g = k.g := by rw [retire_sameBack k]; rfl
theorem retire_rg (k : Core) (r : Nat) : k.retire.rg r = k.rg r := by rw [Core.rg, retire_g]; rfl

/-! ### A keeper's retirement and its fetch -/

theorem krg_retire (k : Keeper) (r : Nat) : k.retire.rg r = k.rg r := by
  unfold Keeper.retire; split <;> rfl

theorem keeper_retireK (s : State) (h : Nat) :
    ∃ q, (s.retireK h).keeper h = { (s.keeper h).retire with pq := q, issued := (s.keeper h).retire.issued + 1 } := by
  obtain ⟨q, hq⟩ := kAhead_eq s h (s.keeper h).retire
  exact ⟨q, by rw [State.retireK, keeper_setKeeper_same, hq]⟩

theorem kFill_of_queued {s : State} {h : Nat} (hq : (s.keeper h).queued = true) : s.kFill h = s := by
  simp only [State.kFill, hq, if_true]

theorem kFill_fetches {s : State} {h : Nat} (hq : (s.keeper h).queued = false) :
    s.kFill h = s.setKeeper h { s.keeper h with pq := s.kWords h (s.keeper h).pc.toNat } := by
  simp only [State.kFill, hq, Bool.false_eq_true, if_false]

theorem keeper_kFill_ne (s : State) {h g : Nat} (hne : g ≠ h) : (s.kFill h).keeper g = s.keeper g := by
  unfold State.kFill
  dsimp only
  split
  · rfl
  · exact keeper_setKeeper_ne s h g _ hne

/-- R315: a fetch at an aligned address begins with the word there. -/
theorem kWords_head (s : State) (h : Nat) {a : Nat} (ha : a % 4 = 0) :
    ∃ l, s.kWords h a = (a, s.kword (h * 2 ^ 15 + a / 8) / 2 ^ (8 * (a % 8)) % 2 ^ 32) :: l := by
  unfold State.kWords
  dsimp only
  by_cases h8 : a % 8 = 0
  · rw [if_pos h8, h8, Nat.mul_zero, Nat.pow_zero, Nat.div_one]; exact ⟨_, rfl⟩
  · have h4 : a % 8 = 4 := by omega
    rw [if_neg h8, h4]; exact ⟨_, rfl⟩

end Sys2Proof.Laws
end

section
/-! PROOF. O5: register writes, retirement and keeper fetch. -/
namespace Sys2Proof.Laws
open Sys2Proof Sys2Proof.Machine Sys2Proof.Safety

theorem toNat_ne_zero {r : BitVec 5} (hr : r ≠ 0) : r.toNat ≠ 0 := fun h => hr (BitVec.eq_of_toNat_eq h)

/-- R92, R93: a write reads back from its own register, unless that is register 0, and every other register stays. -/
theorem rgA_wgA (a : Agent) (r q : BitVec 5) (v : W64) (s : State) :
    (s.wgA a r v).rgA a q = if q = r ∧ r ≠ 0 then v else s.rgA a q := by
  have hne (hq : q ≠ r) : q.toNat ≠ r.toNat := fun h => hq (BitVec.eq_of_toNat_eq h)
  cases a with
  | core c =>
    show ((s.updCore c (fun k => k.wg r.toNat v)).core c).rg q.toNat = _
    rw [State.updCore, core_setCore_same]
    by_cases hq : q = r
    · subst hq
      by_cases h0 : q = 0
      · subst h0; rfl
      · rw [if_pos ⟨rfl, h0⟩, rg_wg_same _ _ _ (toNat_ne_zero h0)]
    · rw [if_neg (fun h => hq h.1), rg_wg_ne _ _ _ _ (hne hq)]; rfl
  | keeper h =>
    show ((s.setKeeper h ((s.keeper h).wg r.toNat v)).keeper h).rg q.toNat = _
    rw [keeper_setKeeper_same]
    by_cases hq : q = r
    · subst hq
      by_cases h0 : q = 0
      · subst h0; rfl
      · rw [if_pos ⟨rfl, h0⟩, krg_kwg_same _ _ _ (toNat_ne_zero h0)]
    · rw [if_neg (fun h => hq h.1), krg_kwg_ne _ _ _ _ (hne hq)]; rfl

theorem wg_frame (k : Core) (r : Nat) (v : W64) : k.wg r v = { k with g := (k.wg r v).g } := by
  unfold Core.wg; split <;> rfl

theorem kwg_frame (k : Keeper) (r : Nat) (v : W64) : k.wg r v = { k with k := (k.wg r v).k } := by
  unfold Keeper.wg; split <;> rfl

theorem rgA_zero (a : Agent) (s : State) : s.rgA a 0 = 0 := by cases a <;> rfl

theorem pcA_wgA (a : Agent) (r : BitVec 5) (v : W64) (s : State) : (s.wgA a r v).pcA a = s.pcA a := by
  cases a with
  | core c =>
    show ((s.updCore c (fun k => k.wg r.toNat v)).core c).pc = _
    rw [State.updCore, core_setCore_same, wg_frame]; rfl
  | keeper h =>
    show ((s.setKeeper h ((s.keeper h).wg r.toNat v)).keeper h).pc = _
    rw [keeper_setKeeper_same, kwg_frame]; rfl

theorem rgA_retireA (a : Agent) (q : BitVec 5) (s : State) : (s.retireA a).rgA a q = s.rgA a q := by
  cases a with
  | core c =>
    show ((s.updCore c Core.retire).core c).rg q.toNat = _
    rw [State.updCore, core_setCore_same, retire_rg]; rfl
  | keeper h =>
    obtain ⟨pq, hk⟩ := keeper_retireK s h
    show ((s.retireK h).keeper h).rg q.toNat = _
    rw [hk]; exact krg_retire _ _

/-- Settles O5: reads after writes, the frame of retirement, and the fetch of a keeper's word. -/
theorem registerWriteFrame : Obligations.RegisterWriteFrame := by
  unfold Obligations.RegisterWriteFrame
  intro a r q v s
  refine ⟨rgA_wgA a r q v s, rgA_zero a s, pcA_wgA a r v s, rgA_retireA a q _, ?_, leave_frame⟩
  cases a with
  | core c =>
    refine ⟨?_, rfl, ?_, fun d hd => core_setCore_ne s c d _ hd⟩
    · rw [← pcA_wgA (.core c) r v s]
      show (((s.wgA (.core c) r v).updCore c Core.retire).core c).pc = _
      rw [State.updCore, core_setCore_same, retire_pc]; rfl
    · show (s.updCore c (fun k => k.wg r.toNat v)).core c = { s.core c with g := ((s.updCore c (fun k => k.wg r.toNat v)).core c).g }
      rw [State.updCore, core_setCore_same]
      exact wg_frame _ _ _
  | keeper h =>
    refine ⟨fun hslot => ?_, rfl, ?_, fun g hg => keeper_setKeeper_ne s h g _ hg, kFill_frame s h, fun g hg => keeper_kFill_ne s hg,
      ?_, kFill_of_queued, fun hq ha => ?_⟩
    · have hwg : ((s.wgA (.keeper h) r v).keeper h) = (s.keeper h).wg r.toNat v := keeper_setKeeper_same s h _
      obtain ⟨pq, hk⟩ := keeper_retireK (s.wgA (.keeper h) r v) h
      show (((s.wgA (.keeper h) r v).retireK h).keeper h).pc = _
      rw [hk, hwg, kwg_frame]
      simp only [Keeper.retire, hslot]
      rfl
    · show (s.setKeeper h ((s.keeper h).wg r.toNat v)).keeper h
        = { s.keeper h with k := ((s.setKeeper h ((s.keeper h).wg r.toNat v)).keeper h).k }
      rw [keeper_setKeeper_same]
      exact kwg_frame _ _ _
    · obtain ⟨pq, hk⟩ := kFill_keeper s h
      show (s.kFill h).keeper h = { s.keeper h with pq := ((s.kFill h).keeper h).pq }
      rw [hk]
    · show ∃ l, ((s.kFill h).keeper h).pq = _
      rw [kFill_fetches hq, keeper_setKeeper_same]
      exact kWords_head s h ha

end Sys2Proof.Laws
end

section
/-! PROOF. O6: compares and predicate operations. Each enters one condition into predicate PD (R99). -/
namespace Sys2Proof.Laws
open Sys2Proof Sys2Proof.Machine Sys2Proof.Safety

variable {s : State} {c : Nat} {pr : BitVec 4}

/-! ### Predicate writes (R92, R99) -/

theorem wp_frame (k : Core) (i : Nat) (b : Bool) : k.wp i b = { k with p := (k.wp i b).p } := by
  unfold Core.wp; split <;> rfl

/-- R92: a predicate write reads back from its own predicate, unless that is p0, and every other predicate stays. -/
theorem rp_wp (k : Core) (i : Nat) (b : Bool) {j : Nat} (hj : j < 8) :
    (k.wp i b).rp j = if j = i ∧ j ≠ 0 then b else k.rp j := by
  by_cases hj0 : j = 0
  · subst hj0; simp [rp_zero]
  · by_cases hi0 : i = 0
    · subst hi0; simp [Core.wp, hj0]
    · have hnew : (((if b = true then 1 else 0) <<< i : Nat) : BitVec 8).getLsbD j = (decide (j = i) && b) := by
        rw [show (((if b = true then 1 else 0) <<< i : Nat) : BitVec 8) = BitVec.ofNat 8 ((if b = true then 1 else 0) <<< i) from rfl,
          BitVec.getLsbD_ofNat, Nat.testBit_shiftLeft]
        rcases Nat.lt_trichotomy j i with hlt | heq | hgt
        · simp [hlt, hlt.ne]
        · subst heq; cases b <;> simp [hj]
        · have hbit : Nat.testBit (2 ^ 0) (j - i) = false := Nat.testBit_two_pow_of_ne (by omega)
          cases b <;> simp_all [hgt.ne']
      have hold : ((1 : BitVec 8) <<< i).getLsbD j = decide (j = i) := by
        rw [show (1 : BitVec 8) <<< i = BitVec.twoPow 8 i from rfl, BitVec.getLsbD_twoPow]
        simp [eq_comm]; omega
      simp only [Core.wp, hi0, if_false, Core.rp, beq_eq_false_iff_ne.mpr hj0, Bool.false_or, BitVec.getLsbD_or, BitVec.getLsbD_and,
        BitVec.getLsbD_not, hold, hnew, hj, decide_true, Bool.true_and]
      by_cases heq : j = i <;> simp [heq, hi0]

theorem retire_p (k : Core) : k.retire.p = k.p := by rw [retire_sameBack k]; rfl
theorem retire_rp (k : Core) (j : Nat) : k.retire.rp j = k.rp j := by rw [Core.rp, retire_p]; rfl

/-! ### Conditions (R104) -/

/-- R104: the bits of an operand that a compare uses. -/
def cutTo (w : Bool) (x : W64) : W64 := if w then x.setWidth 32 |>.setWidth 64 else x
/-- R104: the operand of a signed compare. -/
def signedTo (w : Bool) (x : W64) : Int := if w then (x.setWidth 32).toInt else x.toInt

theorem holdsW_unsigned (w : Bool) (x y : W64) {cond : Cond} (hcond : cond ≠ .lt ∧ cond ≠ .ge) :
    cond.holdsW w x y = cond.holds (cutTo w x) (cutTo w y) := by
  obtain ⟨hlt, hge⟩ := hcond
  cases w <;> cases cond <;> first | rfl | contradiction

theorem holdsW_lt (w : Bool) (x y : W64) : Cond.lt.holdsW w x y = decide (signedTo w x < signedTo w y) := by
  cases w with
  | false => rfl
  | true =>
    show ((lo32 x).signExtend 64).slt ((lo32 y).signExtend 64) = _
    rw [BitVec.slt, BitVec.toInt_signExtend_of_le (by omega), BitVec.toInt_signExtend_of_le (by omega)]; rfl

theorem holdsW_ge (w : Bool) (x y : W64) : Cond.ge.holdsW w x y = decide (signedTo w x ≥ signedTo w y) := by
  have hnot : Cond.ge.holdsW w x y = !(Cond.lt.holdsW w x y) := by cases w <;> rfl
  rw [hnot, holdsW_lt, ← decide_not]; exact decide_eq_decide.mpr Int.not_lt

/-- R104: the eight conditions, on 64 or 32 bits. -/
theorem holdsW_eq (cond : Cond) (w : Bool) (x y : W64) : cond.holdsW w x y = match cond with
    | .eq => decide (cutTo w x = cutTo w y)
    | .ne => decide (cutTo w x ≠ cutTo w y)
    | .lt => decide (signedTo w x < signedTo w y)
    | .ge => decide (signedTo w x ≥ signedTo w y)
    | .ltu => decide ((cutTo w x).toNat < (cutTo w y).toNat)
    | .geu => decide ((cutTo w x).toNat ≥ (cutTo w y).toNat)
    | .tst => decide (cutTo w x &&& cutTo w y ≠ 0)
    | .tstn => decide (cutTo w x &&& cutTo w y = 0) := by
  have hne (x y : W64) : (x != y) = decide (x ≠ y) := by rw [Bool.eq_iff_iff]; simp
  cases cond with
  | lt => exact holdsW_lt w x y
  | ge => exact holdsW_ge w x y
  | eq => exact holdsW_unsigned w x y (by decide)
  | ne => rw [holdsW_unsigned w x y (by decide)]; exact hne _ _
  | ltu => exact holdsW_unsigned w x y (by decide)
  | geu =>
    rw [holdsW_unsigned w x y (by decide), Cond.holds, BitVec.ult, ← decide_not]; exact decide_eq_decide.mpr Nat.not_lt
  | tst => rw [holdsW_unsigned w x y (by decide)]; exact hne _ _
  | tstn => exact holdsW_unsigned w x y (by decide)

/-! ### The obligation -/

/-- A ready predicate operation writes its condition into PD and goes on. -/
theorem predOp_ready (hready : ReadyP c pr s) (pd : BitVec 3) (v : Core → Bool) :
    ∃ t, predOp c pr pd v s = .next t ∧ OnlyCore s t c (fun k => Core.retire { k with p := (t.core c).p })
      ∧ ∀ j, j < 8 → (t.core c).rp j = if j = pd.toNat ∧ j ≠ 0 then v (s.core c) else (s.core c).rp j := by
  obtain ⟨hstate, hcore, hothers⟩ := updCore_only s c (fun k => (k.wp pd.toNat (v k)).retire)
  refine ⟨_, pRun_ready s c pr true _ hready rfl, ⟨hstate, ?_, hothers⟩, fun j hj => ?_⟩
  · rw [hcore]
    show Core.retire _ = Core.retire { s.core c with p := (Core.retire _).p }
    rw [retire_p]
    exact congrArg Core.retire (wp_frame _ _ _)
  · rw [hcore]; exact (retire_rp _ _).trans (rp_wp _ _ _ hj)

theorem exec_cmpi_legal {cond : Cond} (htst : cond ≠ .tst) (htstn : cond ≠ .tstn) {pd : BitVec 3} {cm : CMode} {ra : BitVec 5}
    {imm : BitVec 12} : exec (.cmpi c pr pd cm ra imm cond) s
      = predOp c pr pd (fun k => cm.apply (k.rp pd.toNat) (cond.holds (k.rg ra.toNat) (imm.signExtend 64))) s := by
  rw [exec_cmpi, execCmpi, if_neg (by simp [htst, htstn])]

/-- Settles O6: each instruction is `predOp` of one condition, or moves the predicate file. -/
theorem compareAndPredicateResults : Obligations.CompareAndPredicateResults := by
  unfold Obligations.CompareAndPredicateResults
  intro c pr pd pa pb cm ra rb rd w na nb cond imm s hready k cut int c2 into writes p q
  have writesOf {i : Instr} {f : Core → Bool} {v : Bool} (hexec : exec i s = predOp c pr pd f s) (hv : f k = v) : writes i v := by
    show ∃ t, exec i s = .next t ∧ _
    rw [hexec, ← hv]
    exact predOp_ready hready pd f
  have hinto (v : Bool) : cm.apply (k.rp pd.toNat) v = into v := by cases cm <;> rfl
  have hcond (x y : W64) : cond.holdsW w x y = c2 x y := by rw [holdsW_eq]; cases cond <;> rfl
  refine ⟨writesOf (exec_cmp ..) ?cmp, fun hw htst htstn => writesOf (exec_cmpi_legal htst htstn) ?cmpi,
    writesOf (exec_pand ..) rfl, writesOf (exec_por ..) rfl,
    writesOf (exec_pxor ..) rfl, (exec_ptog ..).trans (pRun_ready s c pr true _ hready rfl),
    (exec_gtop ..).trans (pRun_ready s c pr true _ hready rfl)⟩
  case cmp => rw [← hcond, ← hinto]
  case cmpi => rw [← hcond, ← hinto, hw]; rfl

end Sys2Proof.Laws
end

section
/-! PROOF. O7: branches of both profiles. -/
namespace Sys2Proof.Laws
open Sys2Proof Sys2Proof.Machine Sys2Proof.Safety

variable {s : State} {c h : Nat} {pr : BitVec 4}

/-! ### What a retired branch trains (R58 to R61) -/

/-- `k` with the predictor tables of `k'`. -/
def predictorsFrom (k k' : Core) : Core := { k with dirT := k'.dirT, btb := k'.btb, btbLru := k'.btbLru }

theorem install_predictorsFrom (k k' : Core) (free : Nat) (w : WalkOut) (fetch : Bool) (va : W64) :
    (predictorsFrom k k').install free w fetch va = predictorsFrom (k.install free w fetch va) k' := by
  unfold Core.install
  by_cases hbig : w.e.sz ≥ 21 <;> cases fetch <;> simp only [hbig, if_true, if_false, Bool.false_eq_true] <;> rfl

theorem settle_predictorsFrom (k k' : Core) : (predictorsFrom k k').settle = predictorsFrom k.settle k' := by
  have hfold (l : List WalkB) (k : Core) : l.foldl (fun (k : Core) b => k.install b.free b.w b.fetch b.va) (predictorsFrom k k')
      = predictorsFrom (l.foldl (fun (k : Core) b => k.install b.free b.w b.fetch b.va) k) k' := by
    induction l generalizing k with
    | nil => rfl
    | cons b l ih => rw [List.foldl_cons, install_predictorsFrom, ih]; rfl
  have hfill : (predictorsFrom k k').fill = k.fill := rfl
  unfold Core.settle
  rw [hfill, hfold]
  rfl

/-- Retirement does not look at the predictor tables. -/
theorem leave_predictorsFrom (k k' : Core) (next : W64) : (predictorsFrom k k').leave next = predictorsFrom (k.leave next) k' := by
  have hwin : (predictorsFrom k k').win = k.win := rfl
  have hpc : (predictorsFrom k k').pc = k.pc := rfl
  unfold Core.leave
  dsimp only
  rw [settle_predictorsFrom, hwin, hpc]
  split
  · split
    · rfl
    · split <;> rfl
  · rfl

theorem leave_retR (k : Core) (next : W64) : (k.leave next).retR = k.retR := by rw [leave_sameBack k next]; rfl

/-- R60: the retired return stack after a taken branch. -/
def retiredStack (kind : BrK) (k : Core) : List W64 :=
  match kind with
  | .call => pushStack k.retR (pcNext k.pc)
  | .ret => k.retR.dropLast
  | _ => k.retR

/-- R57, R60, R61: a taken branch goes to its target with its return stack; beside these only predictor state changes. -/
theorem branch_taken (k : Core) (kind : BrK) (tgt : W64) : let k' := k.branch kind (some tgt)
    k' = { Core.leave { k with retR := retiredStack kind k } tgt with dirT := k'.dirT, btb := k'.btb, btbLru := k'.btbLru, retS := k'.retS }
    ∧ k'.pc = tgt ∧ (k'.win.any WinE.isBranch = false → k'.retS = retiredStack kind k) := by
  obtain ⟨trained, htrained⟩ : ∃ trained, Core.branch k kind (some tgt)
      = let k3 := Core.leave (predictorsFrom { k with retR := retiredStack kind k } trained) tgt
        if k3.win.any WinE.isBranch then k3 else { k3 with retS := k3.retR } :=
    ⟨(k.trainDir k.pc true).trainBtb k.pc kind tgt, by cases kind <;> rfl⟩
  intro k'
  rw [leave_predictorsFrom] at htrained
  have hk' : k' = _ := htrained
  have hstack := leave_retR { k with retR := retiredStack kind k } tgt
  have hpc := leave_pc { k with retR := retiredStack kind k } tgt
  generalize Core.leave { k with retR := retiredStack kind k } tgt = k3 at hk' hstack hpc ⊢
  dsimp only at hk'
  by_cases hwin : (predictorsFrom k3 trained).win.any WinE.isBranch = true
  · rw [if_pos hwin] at hk'
    rw [hk']
    exact ⟨rfl, hpc, fun hnone => absurd hwin (by rw [hnone]; decide)⟩
  · rw [if_neg hwin] at hk'
    rw [hk']
    exact ⟨rfl, hpc, fun _ => hstack⟩

theorem retire_trainDir (k : Core) (pc : W64) (taken : Bool) :
    (k.trainDir pc taken).retire = { k.retire with dirT := (k.trainDir pc taken).dirT } := by
  obtain ⟨hbtb, hlru⟩ : k.retire.btb = k.btb ∧ k.retire.btbLru = k.btbLru := by rw [retire_sameBack k]; exact ⟨rfl, rfl⟩
  refine (leave_predictorsFrom k (k.trainDir pc taken) (pcNext k.pc)).trans ?_
  show { k.retire with dirT := (k.trainDir pc taken).dirT, btb := k.btb, btbLru := k.btbLru } = _
  rw [← hbtb, ← hlru]

/-- R58, R61: a branch that is not taken steps its direction counter down and retires. -/
theorem branch_not_taken (k : Core) (kind : BrK) : let k' := k.branch kind none
    k' = { k.retire with dirT := k'.dirT, retS := k'.retS } ∧ k'.dirT = (k.trainDir k.pc false).dirT := by
  intro k'
  have hk' : k' = let k3 := (k.trainDir k.pc false).retire
      if k3.win.any WinE.isBranch then k3 else { k3 with retS := k3.retR } := rfl
  rw [retire_trainDir] at hk'
  rw [hk']
  dsimp only
  split <;> exact ⟨rfl, rfl⟩

/-- R61: the counter of a branch that is not taken, one step down from its value. -/
theorem dirT_not_taken (k : Core) (pc : W64) :
    (Tbl.get (1 : BitVec 2) (k.trainDir pc false).dirT (dirIdx pc)).toNat = (Tbl.get (1 : BitVec 2) k.dirT (dirIdx pc)).toNat - 1
    ∧ ∀ j, j ≠ dirIdx pc → Tbl.get (1 : BitVec 2) (k.trainDir pc false).dirT j = Tbl.get 1 k.dirT j := by
  refine ⟨?_, fun j hj => Tbl_get_set_ne _ _ _ _ hj⟩
  have hlt := (Tbl.get (1 : BitVec 2) k.dirT (dirIdx pc)).isLt
  simp only [Core.trainDir, Tbl_get_set_same, Bool.false_eq_true, if_false, BitVec.toNat_ofNat]
  omega

/-! ### Branches of a P-core -/

theorem retiredStack_wg (kind : BrK) (k : Core) (r : Nat) (v : W64) : retiredStack kind (k.wg r v) = retiredStack kind k := by
  rw [wg_frame]; cases kind <;> rfl

/-- R113: a taken P-core branch writes its link and goes to its target. -/
theorem pBranch_taken (hready : ReadyP c pr s) {legal : Bool} (hlegal : legal = true) (kind : BrK) (link : Option Nat) (tgt : Core → W64) :
    let k := s.core c
    let retR := retiredStack kind k
    ∃ t, pBranch c pr legal kind link tgt s = .next t
      ∧ OnlyCore s t c (fun k => { Core.leave { k.wg (link.getD 0) (pcNext k.pc) with retR := retR } (tgt k) with
          dirT := (t.core c).dirT, btb := (t.core c).btb, btbLru := (t.core c).btbLru, retS := (t.core c).retS })
      ∧ (t.core c).pc = tgt k ∧ ((t.core c).win.any WinE.isBranch = false → (t.core c).retS = retR) := by
  obtain ⟨hissue, hpr, hpred⟩ := hready
  intro k retR
  let k1 := k.wg (link.getD 0) (pcNext k.pc)
  have hexec : pBranch c pr legal kind link tgt s = .next (s.setCore c (k1.branch kind (some (tgt k)))) := by
    have hpr' : (pr == 8) = false := by simpa using hpr
    simp only [pBranch, hlegal, hpr', hissue, Bool.not_true, Bool.or_false, Bool.false_eq_true, if_false, hpred, if_true]
    cases link <;> rfl
  have hstack : retiredStack kind k1 = retR := retiredStack_wg kind k _ _
  obtain ⟨hcore, hpc, hretS⟩ := branch_taken k1 kind (tgt k)
  rw [hstack] at hcore hretS
  refine ⟨_, hexec, ⟨rfl, ?_, fun d hd => core_setCore_ne s c d _ hd⟩, ?_, ?_⟩
  · rw [core_setCore_same]; exact hcore
  · rw [core_setCore_same]; exact hpc
  · rw [core_setCore_same]; exact hretS

/-- R58, R98: a P-core branch whose predicate is false counts as not taken. -/
theorem pBranch_false (hissue : s.canIssue c = true) (hpr : pr ≠ 8) (hpred : (s.core c).predOk pr = false) {legal : Bool}
    (hlegal : legal = true) (kind : BrK) (link : Option Nat) (tgt : Core → W64) :
    pBranch c pr legal kind link tgt s = .next (s.setCore c ((s.core c).branch kind none)) := by
  have hpr' : (pr == 8) = false := by simpa using hpr
  simp only [pBranch, hlegal, hpr', hissue, Bool.not_true, Bool.or_false, Bool.false_eq_true, if_false, hpred]

/-! ### Branches of a keeper -/

theorem kbranch_withQueue (k : Keeper) (q : List (Nat × Nat)) (r : Nat) (v : W64) (sk : Bool) (tgt : Option W64) :
    ∃ q', (({ k with pq := q } : Keeper).wg r v).branch sk tgt = { (k.wg r v).branch sk tgt with pq := q' } := by
  have hwg : ({ k with pq := q } : Keeper).wg r v = { k.wg r v with pq := q } := by unfold Keeper.wg; split <;> rfl
  rw [hwg]
  cases tgt with
  | none => exact ⟨_, rfl⟩
  | some t => cases sk <;> exact ⟨_, rfl⟩

/-- R125: a keeper's branch that stands in no delay slot, to the target `to` or on. -/
theorem kBranch_ends (hready : ReadyK h s) (hslot : (s.keeper h).slot = none) {legal : Bool} (hlegal : legal = true) (word : Nat)
    (sk : Bool) (link : Nat) {tgt : Keeper → Option W64} {dest : Option W64} (hdest : ∀ q, tgt { s.keeper h with pq := q } = dest) :
    ∃ t, kBranch h legal word sk link tgt s = .next t ∧ t = { s with keepers := t.keepers } ∧ (∀ g, g ≠ h → t.keeper g = s.keeper g)
      ∧ t.keeper h = { ((s.keeper h).wg link ((s.keeper h).pc + 8)).branch sk dest with
          pq := (t.keeper h).pq, issued := (s.keeper h).issued + 1 } := by
  obtain ⟨q, hfill⟩ := kFill_keeper s h
  obtain ⟨q1, hbranch⟩ := kbranch_withQueue (s.keeper h) q link ((s.keeper h).pc + 8) sk dest
  obtain ⟨q2, hahead⟩ := kAhead_eq (s.kFill h) h ((({ s.keeper h with pq := q } : Keeper).wg link ((s.keeper h).pc + 8)).branch sk dest)
  have hexec : kBranch h legal word sk link tgt s = .next ((s.kFill h).setKeeper h ((s.kFill h).kAhead h
      ((({ s.keeper h with pq := q } : Keeper).wg link ((s.keeper h).pc + 8)).branch sk dest))) := by
    rw [kBranch, kRun_ready s h legal (some word) _ hready hlegal (.inr hslot)]
    dsimp only
    rw [hfill, hdest]
  have hissued : (((s.keeper h).wg link ((s.keeper h).pc + 8)).branch sk dest).issued = (s.keeper h).issued := by
    rw [kwg_frame]
    cases dest with
    | none => rfl
    | some t => cases sk <;> rfl
  refine ⟨_, hexec, ?_, fun g hg => ?_, ?_⟩
  · rw [kFill_frame]; rfl
  · rw [keeper_setKeeper_ne _ _ _ _ hg, keeper_kFill_ne s hg]
  · rw [keeper_setKeeper_same, hahead, hbranch, ← hissued]

/-- R125: what a transfer leaves of a keeper that is in no delay slot. -/
theorem kbranch_transfer {k : Keeper} (hslot : k.slot = none) (r : Nat) (v : W64) (sk : Bool) (dest : W64) (q : List (Nat × Nat))
    (n : Nat) : ({ (k.wg r v).branch sk (some dest) with pq := q, issued := n } : Keeper)
      = { (if sk then { k.wg r v with pc := dest } else { k.wg r v with pc := k.pc + 4, slot := some (k.pc, dest) } : Keeper) with
          pq := q, issued := n } := by
  have hpc : (k.wg r v).pc = k.pc := by rw [kwg_frame]
  have hslot' : (k.wg r v).slot = none := by rw [kwg_frame]; exact hslot
  cases sk with
  | true => simp only [Keeper.branch, if_true, hslot']
  | false => simp only [Keeper.branch, Bool.false_eq_true, if_false, hpc]

/-! ### The obligation -/

/-- Settles O7: each instruction is `pBranch` or `kBranch` of its target and link. -/
theorem branchesTransfer : Obligations.BranchesTransfer := by
  unfold Obligations.BranchesTransfer
  refine ⟨?taken, ?untaken, ?keeper⟩
  case taken =>
    intro c pr imm rd ra s hready k link rel target push jumps
    have hrel : relTgt k.pc imm = rel := by rw [relTgt, signExtend_shiftLeft]; rfl
    have jumpsOf {i : Instr} {legal : Bool} (hlegal : legal = true) {kind : BrK} {l : Option Nat} {tgt : Core → W64} {dest : W64}
        (hexec : exec i s = pBranch c pr legal kind l tgt s) (hdest : tgt k = dest) :
        jumps i dest (l.getD 0) (retiredStack kind k) := by
      show ∃ t, exec i s = .next t ∧ _
      rw [hexec, ← hdest]
      exact pBranch_taken hready hlegal kind l tgt
    exact ⟨jumpsOf rfl (exec_b ..) hrel, jumpsOf rfl (exec_bl ..) hrel, jumpsOf rfl (exec_jr ..) rfl,
      fun hrd => jumpsOf (by simpa using hrd) (exec_jalr ..) rfl, jumpsOf rfl (exec_ret ..) rfl⟩
  case untaken =>
    intro c pr imm rd ra s hissue hpr hpred hrd k i x hx
    obtain ⟨kind, hexec⟩ : ∃ kind, exec x s = .next (s.setCore c (k.branch kind none)) := by
      have hlegal : (rd != 0) = true := by simpa using hrd
      rcases hx with rfl | rfl | rfl | rfl | rfl
      · exact ⟨_, (exec_b ..).trans (pBranch_false hissue hpr hpred rfl ..)⟩
      · exact ⟨_, (exec_bl ..).trans (pBranch_false hissue hpr hpred rfl ..)⟩
      · exact ⟨_, (exec_jr ..).trans (pBranch_false hissue hpr hpred rfl ..)⟩
      · exact ⟨_, (exec_jalr ..).trans (pBranch_false hissue hpr hpred hlegal ..)⟩
      · exact ⟨_, (exec_ret ..).trans (pBranch_false hissue hpr hpred rfl ..)⟩
    obtain ⟨hcore, hdir⟩ := branch_not_taken k kind
    obtain ⟨hdown, hothers⟩ := dirT_not_taken k k.pc
    refine ⟨_, hexec, ⟨rfl, ?_, fun d hd => core_setCore_ne s c d _ hd⟩, ?_, ?_⟩
    · rw [core_setCore_same]; exact hcore
    · rw [core_setCore_same, hdir]; exact hdown
    · rw [core_setCore_same, hdir]; exact hothers
  case keeper =>
    intro h sk cond ka kb kd o12 o22 s hready hslot hka hkb hkd k ends goes
    have goesOf {i : Instr} {legal : Bool} (hlegal : legal = true) {word l : Nat} {tgt : Keeper → Option W64} {dest : W64}
        (hexec : exec i s = kBranch h legal word sk l tgt s) (hdest : ∀ q, tgt { k with pq := q } = some dest) : goes i l dest := by
      show ∃ t, exec i s = .next t ∧ _
      rw [hexec]
      obtain ⟨t, ht, hframe, hothers, hk⟩ := kBranch_ends hready hslot hlegal word sk l hdest
      refine ⟨t, ht, hframe, hothers, ?_⟩
      rw [hk]
      exact kbranch_transfer hslot ..
    have hlow {r : BitVec 5} (hr : r.toNat < 16) : low16 r = true := by simpa [low16] using hr
    have hkab : (low16 ka && low16 kb) = true := by rw [hlow hka, hlow hkb]; rfl
    have hrel {w : Nat} (o : BitVec w) : k.pc + (o.signExtend 64) <<< 2 = k.pc + BitVec.ofInt 64 (4 * o.toInt) := by
      rw [signExtend_shiftLeft]; rfl
    refine ⟨fun hcond => goesOf hkab (exec_bc ..) fun q => ?bcTaken, fun hcond => ?bcFails, goesOf rfl (exec_j ..) fun q => ?j,
      goesOf rfl (exec_jl ..) fun q => ?jl, fun hk => goesOf ?jxLegal (exec_jx ..) fun q => rfl⟩
    case bcTaken => exact (if_pos hcond).trans (congrArg some (hrel o12))
    case bcFails =>
      obtain ⟨t, ht, hframe, hothers, hk⟩ := kBranch_ends hready hslot hkab (encKB sk cond ka kb o12) sk 0
        (tgt := fun k => if cond.holds (k.rg ka.toNat) (k.rg kb.toNat) then some (k.pc + (o12.signExtend 64) <<< 2) else none)
        (dest := none) (fun q => if_neg fun hholds => Bool.false_ne_true (hcond.symm.trans hholds))
      exact ⟨t, (exec_bc ..).trans ht, hframe, hothers, hk⟩
    case j => exact congrArg some (hrel o22)
    case jl => exact congrArg some (hrel o22)
    case jxLegal =>
      rw [hlow hkd, hlow hka]
      simpa using hk

end Sys2Proof.Laws
end

section
/-! SUPPORT. Lanes of a vector register (R118), and VINT's operations on one lane (R119). -/
namespace Sys2Proof.Laws
open Sys2Proof Sys2Proof.Machine Sys2Proof.Safety

/-! ### Lanes as bit vectors -/

/-- R118: lane `i` of width `w`. -/
def laneOf (w : Nat) (v : W256) (i : Nat) : BitVec w := BitVec.ofNat w (v.toNat / 2 ^ (w * i))

theorem getLsbD_laneOf {w : Nat} (v : W256) (i : Nat) {b : Nat} (hb : b < w) : (laneOf w v i).getLsbD b = v.getLsbD (w * i + b) := by
  rw [laneOf, BitVec.getLsbD_ofNat, Nat.testBit_div_two_pow, Nat.add_comm]; simp [hb]; rfl

theorem lane_eq (v : W256) (w i : Nat) : lane v w i = (laneOf w v i).toNat := by
  rw [lane, laneOf, BitVec.toNat_ofNat, BitVec.toNat_ushiftRight, Nat.shiftRight_eq_div_pow]

/-- A value placed as lane `i`. -/
def placed (w i x : Nat) : W256 := BitVec.ofNat 256 (x % 2 ^ w) <<< (w * i)

theorem getLsbD_placed {w i j n b : Nat} (x : Nat) (hn : w * n ≤ 256) (hj : j < n) (hb : b < w) :
    (placed w i x).getLsbD (w * j + b) = (decide (i = j) && x.testBit b) := by
  have hin : w * j + b < w * n := by
    calc w * j + b < w * j + w := by omega
      _ = w * (j + 1) := by ring
      _ ≤ w * n := Nat.mul_le_mul_left w hj
  rw [placed, BitVec.getLsbD_shiftLeft, BitVec.getLsbD_ofNat, Nat.testBit_mod_two_pow]
  rcases Nat.lt_trichotomy i j with hlt | heq | hgt
  · have hbeyond : w * i + w ≤ w * j := by
      calc w * i + w = w * (i + 1) := by ring
        _ ≤ w * j := Nat.mul_le_mul_left w hlt
    have hout : ¬ w * j + b - w * i < w := by omega
    simp [hout, hlt.ne]
  · subst heq
    have h256 : w * i + b < 256 := by omega
    have hb256 : b < 256 := by omega
    simp [hb, h256, hb256]
  · have hbelow : w * j + b < w * i := by
      calc w * j + b < w * j + w := by omega
        _ = w * (j + 1) := by ring
        _ ≤ w * i := Nat.mul_le_mul_left w hgt
    simp [hbelow, hgt.ne']

/-- R118: a register built lane by lane. -/
theorem laneOf_lanesOf {w n j : Nat} (f : Nat → Nat) (hn : w * n ≤ 256) (hj : j < n) :
    laneOf w (lanesOf w n f) j = BitVec.ofNat w (f j) := by
  have hfold (l : List Nat) (v : W256) {b : Nat} (hb : b < w) : (l.foldl (fun acc i => acc ||| placed w i (f i)) v).getLsbD (w * j + b)
      = (v.getLsbD (w * j + b) || (decide (j ∈ l) && (f j).testBit b)) := by
    induction l generalizing v with
    | nil => simp
    | cons i l ih =>
      rw [List.foldl_cons, ih, BitVec.getLsbD_or, getLsbD_placed _ hn hj hb, Bool.or_assoc]
      by_cases hi : i = j
      · subst hi; cases (f i).testBit b <;> simp
      · have hji : ¬ j = i := fun h => hi h.symm
        simp [hi, hji]
  refine BitVec.eq_of_getLsbD_eq fun b hb => ?_
  rw [getLsbD_laneOf _ _ hb, BitVec.getLsbD_ofNat]
  refine (hfold (List.range n) 0 hb).trans ?_
  simp [hj, hb]

/-- Lanes that raise no flag. -/
theorem lanesFF_quiet (w n : Nat) (f : Nat → Nat) : lanesFF w n (fun i => (f i, 0)) = (lanesOf w n f, 0) := by
  have hfold (l : List Nat) (v : W256) : l.foldl (fun (acc : W256 × FF) i =>
      (acc.1 ||| (BitVec.ofNat 256 (f i % 2 ^ w) <<< (w * i)), acc.2 ||| 0)) (v, 0)
      = (l.foldl (fun acc i => acc ||| (BitVec.ofNat 256 (f i % 2 ^ w) <<< (w * i))) v, 0) := by
    induction l generalizing v with
    | nil => rfl
    | cons i l ih =>
      rw [List.foldl_cons, List.foldl_cons]
      show List.foldl _ (_, (0 : FF) ||| 0) l = _
      rw [BitVec.or_self]
      exact ih _
  exact hfold (List.range n) 0

/-- R119 VINS: one lane is replaced. -/
theorem laneOf_setLane {w n i j : Nat} (v : W256) (x : Nat) (hn : w * n ≤ 256) (hj : j < n) :
    laneOf w (setLane v w i x) j = if j = i then BitVec.ofNat w x else laneOf w v j := by
  have hmask {b : Nat} (hb : b < w) : (BitVec.ofNat 256 (2 ^ w - 1) <<< (w * i)).getLsbD (w * j + b) = decide (i = j) := by
    have hall := getLsbD_placed (i := i) (2 ^ w - 1) hn hj hb
    rw [placed, Nat.mod_eq_of_lt (by have := Nat.two_pow_pos w; omega), Nat.testBit_two_pow_sub_one] at hall
    rw [hall]; simp [hb]
  have hin {b : Nat} (hb : b < w) : w * j + b < 256 := by
    calc w * j + b < w * j + w := by omega
      _ = w * (j + 1) := by ring
      _ ≤ w * n := Nat.mul_le_mul_left w hj
      _ ≤ 256 := hn
  refine BitVec.eq_of_getLsbD_eq fun b hb => ?_
  rw [getLsbD_laneOf _ _ hb, setLane, BitVec.getLsbD_or, BitVec.getLsbD_and, BitVec.getLsbD_not, hmask hb]
  rw [show BitVec.ofNat 256 (x % 2 ^ w) <<< (w * i) = placed w i x from rfl, getLsbD_placed _ hn hj hb]
  by_cases heq : j = i
  · subst heq; rw [if_pos rfl, BitVec.getLsbD_ofNat]; simp [hb]
  · have hne : ¬ i = j := fun h => heq h.symm
    simp [heq, hne, hin hb, getLsbD_laneOf v j hb]

/-! ### VINT on one lane -/

/-- R119: VINT's operations. -/
def vintLane {w : Nat} (op : Nat) (x y : BitVec w) : BitVec w :=
  match op with
  | 0 => x + y | 1 => x - y | 2 => x * y
  | 3 => if x.toInt ≤ y.toInt then x else y | 4 => if x.toInt ≤ y.toInt then y else x
  | 5 => if x.toNat ≤ y.toNat then x else y | 6 => if x.toNat ≤ y.toNat then y else x
  | 7 => x &&& y | 8 => x ||| y | 9 => x ^^^ y | 10 => x &&& ~~~y
  | 11 => x <<< (y.toNat % w) | 12 => x >>> (y.toNat % w) | 13 => x.sshiftRight (y.toNat % w)
  | 14 => if x = y then BitVec.allOnes w else 0
  | _ => if x.toInt > y.toInt then BitVec.allOnes w else 0

theorem laneInt_toNat {w : Nat} (hw : 0 < w) (x : BitVec w) : laneInt w x.toNat = x.toInt := by
  have hpow : 2 ^ w = 2 * 2 ^ (w - 1) := by rw [← pow_succ']; congr 1; omega
  rw [laneInt, BitVec.toInt_eq_toNat_cond]
  by_cases hneg : x.toNat ≥ 2 ^ (w - 1)
  · rw [if_pos hneg, if_neg (by omega)]; norm_cast
  · rw [if_neg hneg, if_pos (by omega)]

theorem toNat_sshiftRight_eq {w : Nat} (x : BitVec w) (k : Nat) :
    (x.sshiftRight k).toNat = ((x.toInt / 2 ^ k) % (2 ^ w : Nat)).toNat := by
  rw [← BitVec.ofInt_toInt (x := x.sshiftRight k), BitVec.toInt_sshiftRight, BitVec.toNat_ofInt, Int.shiftRight_eq_div_pow]
  norm_cast

/-- R119: VINT's operation on numbers is its operation on lanes. -/
theorem vintOp_toNat {w : Nat} (hw : 0 < w) (op : Nat) (x y : BitVec w) : vintOp op w x.toNat y.toNat = (vintLane op x y).toNat := by
  have hx := x.isLt
  have hy := y.isLt
  have hint (z : BitVec w) := laneInt_toNat hw z
  match op with
  | 0 => rfl
  | 1 =>
    show (x.toNat + 2 ^ w - y.toNat) % 2 ^ w = (x - y).toNat
    rw [BitVec.toNat_sub]; congr 1; omega
  | 2 => exact (BitVec.toNat_mul x y).symm
  | 3 =>
    show (if laneInt w y.toNat < laneInt w x.toNat then y.toNat else x.toNat) = BitVec.toNat (if x.toInt ≤ y.toInt then x else y)
    rw [hint, hint]
    by_cases hle : x.toInt ≤ y.toInt
    · rw [if_pos hle, if_neg (by omega)]
    · rw [if_neg hle, if_pos (by omega)]
  | 4 =>
    show (if laneInt w x.toNat < laneInt w y.toNat then y.toNat else x.toNat) = BitVec.toNat (if x.toInt ≤ y.toInt then y else x)
    rw [hint, hint]
    rcases Int.lt_trichotomy x.toInt y.toInt with hlt | heq | hgt
    · rw [if_pos hlt, if_pos hlt.le]
    · rw [if_neg (by omega), if_pos heq.le, BitVec.eq_of_toInt_eq heq]
    · rw [if_neg (by omega), if_neg (by omega)]
  | 5 => show min x.toNat y.toNat = BitVec.toNat (if x.toNat ≤ y.toNat then x else y); split <;> omega
  | 6 => show max x.toNat y.toNat = BitVec.toNat (if x.toNat ≤ y.toNat then y else x); split <;> omega
  | 7 => exact (BitVec.toNat_and x y).symm
  | 8 => exact (BitVec.toNat_or x y).symm
  | 9 => exact (BitVec.toNat_xor x y).symm
  | 10 =>
    show x.toNat &&& (2 ^ w - 1 - y.toNat) = (x &&& ~~~y).toNat
    rw [BitVec.toNat_and, BitVec.toNat_not]
  | 11 =>
    show x.toNat * 2 ^ (y.toNat % w) % 2 ^ w = (x <<< (y.toNat % w)).toNat
    rw [BitVec.toNat_shiftLeft, Nat.shiftLeft_eq]
  | 12 =>
    show x.toNat / 2 ^ (y.toNat % w) = (x >>> (y.toNat % w)).toNat
    rw [BitVec.toNat_ushiftRight, Nat.shiftRight_eq_div_pow]
  | 13 =>
    show ((laneInt w x.toNat / 2 ^ (y.toNat % w)) % (2 ^ w : Nat)).toNat = (x.sshiftRight (y.toNat % w)).toNat
    rw [hint, toNat_sshiftRight_eq]
  | 14 =>
    show (if (x.toNat == y.toNat) = true then 2 ^ w - 1 else 0) = BitVec.toNat (if x = y then BitVec.allOnes w else 0)
    by_cases heq : x = y
    · simp [heq]
    · have hne : x.toNat ≠ y.toNat := fun h => heq (BitVec.eq_of_toNat_eq h)
      simp [heq, hne]
  | n + 15 =>
    show (if decide (laneInt w y.toNat < laneInt w x.toNat) = true then 2 ^ w - 1 else 0)
      = BitVec.toNat (if x.toInt > y.toInt then BitVec.allOnes w else 0)
    rw [hint, hint]
    by_cases hgt : x.toInt > y.toInt
    · simp [hgt]
    · simp [hgt]

/-! ### Pointer keys (R108, R161) -/

theorem keyed_eq (k : BitVec 4) (x : W64) : keyed k.toNat x = (k ++ x.setWidth 60 : BitVec 64) := by
  refine BitVec.eq_of_getLsbD_eq fun j hj => ?_
  rw [keyed, getLsbD_putBits x 60 4 _ hj, BitVec.getLsbD_append]
  by_cases hlow : j < 60
  · have hout : ¬ (60 ≤ j ∧ j < 60 + 4) := by omega
    rw [if_neg hout, if_pos hlow, BitVec.getLsbD_setWidth]; simp [hlow]
  · have hin : 60 ≤ j ∧ j < 60 + 4 := by omega
    rw [if_pos hin, if_neg hlow]; rfl

end Sys2Proof.Laws
end

section
/-! PROOF. O12: vector operations on integers and bit patterns, lane by lane, and pointer keys. -/
namespace Sys2Proof.Laws
open Sys2Proof Sys2Proof.Machine Sys2Proof.Safety

variable {s : State} {c : Nat} {pr : BitVec 4}

/-! ### Vector registers (R92) -/

theorem rv_wv_same (k : Core) (i : Nat) (x : W256) : (k.wv i x).rv i = x := Tbl_get_set_same _ _ _ _
theorem rv_wv_ne (k : Core) {i j : Nat} (x : W256) (hne : j ≠ i) : (k.wv i x).rv j = k.rv j := Tbl_get_set_ne _ _ _ _ hne

theorem width_mul_lanes (ty : VTy) : ty.width * ty.lanes = 256 := by cases ty <;> rfl
theorem width_pos (ty : VTy) : 0 < ty.width := by cases ty <;> decide

/-- R118: a ready vector operation that raises no flag: the destination takes its value, and the core goes on. -/
theorem vecOp_quiet (hready : ReadyP c pr s) {legal : Bool} (hlegal : legal = true) (vd : BitVec 5) {f : Core → W256 × FF} {x : W256}
    (hf : f (s.core c) = (x, 0)) : ∃ t, vecOp c pr legal vd f s = .next t
      ∧ OnlyCore s t c (fun k => Core.retire { k with v := (t.core c).v, cr := (t.core c).cr })
      ∧ (∀ m, (t.core c).cr0 m = (s.core c).cr0 m) ∧ (∀ q, q ≠ vd.toNat → (t.core c).rv q = (s.core c).rv q)
      ∧ (t.core c).rv vd.toNat = x := by
  let k := s.core c
  let k1 := (k.wv vd.toNat x).addFF 0
  have hexec : vecOp c pr legal vd f s = .next (s.setCore c k1.retire) := by
    rw [vecOp, pRun_ready s c pr legal _ hready hlegal, State.updCore, hf]
  have hv : k1.retire.v = k1.v := by rw [retire_sameBack k1]; rfl
  have hcr : k1.retire.cr = k1.cr := by rw [retire_sameBack k1]; rfl
  have hcr0 (m : Nat) : k1.cr0 m = k.cr0 m := by
    show ((k.wv vd.toNat x).setCr 0 (k.cr0 0 ||| ((0 : FF).zeroExtend 64 <<< 2))).cr0 m = _
    rw [show k.cr0 0 ||| ((0 : FF).zeroExtend 64 <<< 2) = k.cr0 0 from BitVec.or_zero]
    by_cases hm : m = 0
    · rw [hm, cr0_setCr_same]
    · rw [cr0_setCr_ne _ _ _ _ hm]; rfl
  refine ⟨_, hexec, ⟨rfl, ?_, fun d hd => core_setCore_ne s c d _ hd⟩, fun m => ?_, fun q hq => ?_, ?_⟩
  · rw [core_setCore_same, hv, hcr]; rfl
  · rw [core_setCore_same, Core.cr0, hcr]; exact hcr0 m
  · rw [core_setCore_same, Core.rv, hv]; exact rv_wv_ne k x hq
  · rw [core_setCore_same, Core.rv, hv]; exact rv_wv_same k _ x

/-- A ready instruction that writes one general register and goes on. -/
theorem pRun_writes (hready : ReadyP c pr s) {legal : Bool} (hlegal : legal = true) (rd : BitVec 5) (f : Core → W64) :
    ∃ t, pRun c pr legal s (fun s => .next (s.updCore c (fun k => (k.wg rd.toNat (f k)).retire))) = .next t
      ∧ OnlyCore s t c (fun k => Core.retire { k with g := (k.wg rd.toNat (f (s.core c))).g }) := by
  refine ⟨_, pRun_ready s c pr legal _ hready hlegal, rfl, ?_, fun d hd => core_setCore_ne s c d _ hd⟩
  rw [State.updCore, core_setCore_same]
  exact congrArg Core.retire (wg_frame _ _ _)

/-! ### The obligation -/

/-- Settles O12: each vector operation is `vecOp` of a register built lane by lane. -/
theorem vectorIntegerMovesAndKeys : Obligations.VectorIntegerMovesAndKeys := by
  unfold Obligations.VectorIntegerMovesAndKeys
  refine ⟨?vector, ?scalar⟩
  case vector =>
    intro c pr op vd va vb ra n ty s hready k w ln lanes ones
    have hw : w * ty.lanes ≤ 256 := (width_mul_lanes ty).le
    have hlane (r : BitVec 5) (i : Nat) : lane (k.rv r.toNat) w i = (ln r i).toNat := lane_eq _ _ _
    have lanesOf' {i : Instr} {legal : Bool} {g : Core → W256 × FF} {x : W256} {f : Nat → BitVec w} (hlegal : legal = true)
        (hexec : exec i s = vecOp c pr legal vd g s) (hx : g k = (x, 0)) (hf : ∀ j, j < 256 / w → laneOf w x j = f j) : lanes i f := by
      obtain ⟨t, ht, honly, hcr, hrest, hval⟩ := vecOp_quiet hready hlegal vd hx
      refine ⟨t, hexec.trans ht, honly, hcr, hrest, fun j hj => ?_⟩
      rw [hval]
      exact hf j hj
    have built (f : Nat → Nat) (g : Nat → BitVec w) (hfg : ∀ j, BitVec.ofNat w (f j) = g j) :
        ∀ j, j < 256 / w → laneOf w (lanesOf w ty.lanes f) j = g j := fun j hj => by
      rw [laneOf_lanesOf f hw hj, hfg]
    have hones (x : BitVec w) : x.toNat = 2 ^ w - 1 ↔ x = ones := by
      rw [← BitVec.toNat_allOnes]; exact BitVec.toNat_inj
    have hvint : lanes2 ty (fun x y => (vintOp op.toNat ty.width x y, 0)) (k.rv va.toNat) (k.rv vb.toNat)
        = (lanesOf w ty.lanes (fun i => vintOp op.toNat w (lane (k.rv va.toNat) w i) (lane (k.rv vb.toNat) w i)), 0) :=
      lanesFF_quiet w ty.lanes _
    have hvsel : exec (.vsel c pr vd va vb ty) s = vecOp c pr true vd (fun k => (lanesOf w ty.lanes (fun i =>
        if lane (k.rv vd.toNat) w i = 2 ^ w - 1 then lane (k.rv va.toNat) w i else lane (k.rv vb.toNat) w i), 0)) s := exec_vsel ..
    have hvperm : exec (.vperm c pr vd va vb ty) s = vecOp c pr true vd (fun k => (lanesOf w ty.lanes (fun i =>
        lane (k.rv va.toNat) w (lane (k.rv vb.toNat) w i % ty.lanes)), 0)) s := exec_vperm ..
    refine ⟨fun hty => ?vint, ?vsel, ?vperm, ?vbcast, fun hn => ?vins, ?vmov⟩
    case vint =>
      refine lanesOf' (by simp [isI, hty]) (exec_vint ..) hvint (built _ _ fun j => ?_)
      rw [hlane, hlane, vintOp_toNat (width_pos ty), BitVec.ofNat_toNat, BitVec.setWidth_eq]
      rfl
    case vsel =>
      refine lanesOf' rfl hvsel rfl (built _ _ fun j => ?_)
      rw [hlane, hlane, hlane]
      by_cases hall : ln vd j = ones
      · rw [if_pos ((hones _).mpr hall), if_pos hall, BitVec.ofNat_toNat, BitVec.setWidth_eq]
      · rw [if_neg (fun h => hall ((hones _).mp h)), if_neg hall, BitVec.ofNat_toNat, BitVec.setWidth_eq]
    case vperm =>
      refine lanesOf' rfl hvperm rfl (built _ _ fun j => ?_)
      rw [hlane, hlane, BitVec.ofNat_toNat, BitVec.setWidth_eq]; rfl
    case vbcast => exact lanesOf' rfl (exec_vbcast ..) rfl (built _ _ fun j => BitVec.ofNat_toNat ..)
    case vins =>
      refine lanesOf' (decide_eq_true hn) (exec_vins ..) rfl fun j hj => ?_
      rw [laneOf_setLane _ _ hw hj, BitVec.ofNat_toNat]; rfl
    case vmov => exact lanesOf' rfl (exec_vmov ..) rfl fun j hj => rfl
  case scalar =>
    intro c pr kk rd va n ra rb pd ty s hready k w lane0 writes
    have hlane (i : Nat) : lane (k.rv va.toNat) w i = lane0 i := by
      rw [lane, BitVec.toNat_ushiftRight, Nat.shiftRight_eq_div_pow]
    have writesOf {i : Instr} {legal : Bool} {f : Core → W64} {v : W64} (hlegal : legal = true)
        (hexec : exec i s = pRun c pr legal s (fun s => .next (s.updCore c (fun k => (k.wg rd.toNat (f k)).retire)))) (hv : f k = v) :
        writes i v := by
      obtain ⟨t, ht, honly⟩ := pRun_writes hready hlegal rd f
      exact ⟨t, hexec.trans ht, hv ▸ honly⟩
    refine ⟨fun hn => writesOf (decide_eq_true hn) (exec_vext ..) (congrArg _ (hlane _)), ?vpred,
      writesOf rfl (exec_key ..) ?key, writesOf rfl (exec_keyi ..) (keyed_eq kk _)⟩
    case vpred =>
      have hne : (lane (k.rv va.toNat) w 0 != 0) = decide (lane0 0 ≠ 0) := by rw [hlane, Bool.eq_iff_iff]; simp
      obtain ⟨t, ht, honly, hval⟩ := predOp_ready hready pd (fun k => lane (k.rv va.toNat) ty.width 0 != 0)
      refine ⟨t, (exec_vpred ..).trans ht, honly, fun j hj => ?_⟩
      rw [hval j hj, ← hne]
    case key =>
      have h4 : (k.rg rb.toNat).toNat % 16 = ((k.rg rb.toNat).setWidth 4).toNat := by rw [BitVec.toNat_setWidth]
      show keyed ((k.rg rb.toNat).toNat % 16) (k.rg ra.toNat) = _
      rw [h4]
      exact keyed_eq _ _

end Sys2Proof.Laws
end

section
/-! SUPPORT. The value of each atomic (R109), and a keeper's accesses to its own SRAM (R105, R314, R320). -/
namespace Sys2Proof.Laws
open Sys2Proof Sys2Proof.Machine Sys2Proof.Safety

/-! ### Atomics (R109) -/

/-- R109: what an atomic leaves in memory, `x` being there, `y` its operand and `z` what CAS compares. -/
def atomBits {w : Nat} (op : AtomOp) (x y z : BitVec w) : BitVec w :=
  match op with
  | .swap => y | .cas => if x = z then y else x | .add => x + y | .and => x &&& y | .or => x ||| y | .xor => x ^^^ y
  | .min => if x.toInt ≤ y.toInt then x else y | .max => if x.toInt ≤ y.toInt then y else x
  | .minu => if x.toNat ≤ y.toNat then x else y | .maxu => if x.toNat ≤ y.toNat then y else x

/-- The reading of a word as a signed integer that `atomNew` makes. -/
theorem toInt_of_toNat {w : Nat} (hw : 0 < w) (x : BitVec w) :
    (if x.toNat ≥ 2 ^ w / 2 then (x.toNat : Int) - (2 ^ w : Nat) else x.toNat) = x.toInt := by
  have hpow : 2 ^ w = 2 * 2 ^ (w - 1) := by rw [← pow_succ']; congr 1; omega
  rw [BitVec.toInt_eq_toNat_cond]
  split <;> split <;> omega

theorem atomNew_eq {n : Nat} (hn : 0 < n) (op : AtomOp) (old opnd cmp : Nat) : atomNew op n old opnd cmp
    = (atomBits op (BitVec.ofNat (8 * n) old) (BitVec.ofNat (8 * n) opnd) (BitVec.ofNat (8 * n) cmp)).toNat := by
  have hw : 0 < 8 * n := by omega
  have hsigned (v : Nat) : (if v % 2 ^ (8 * n) ≥ 2 ^ (8 * n) / 2 then ((v % 2 ^ (8 * n) : Nat) : Int) - (2 ^ (8 * n) : Nat)
      else (v % 2 ^ (8 * n) : Nat)) = (BitVec.ofNat (8 * n) v).toInt := by
    rw [← toInt_of_toNat hw, BitVec.toNat_ofNat]
  unfold atomNew atomBits
  simp only [hsigned]
  cases op with
  | swap => rfl
  | cas => simp only [← BitVec.toNat_inj, BitVec.toNat_ofNat, apply_ite BitVec.toNat]
  | add => rfl
  | and => rfl
  | or => rfl
  | xor => rfl
  | min => simp only [apply_ite BitVec.toNat, BitVec.toNat_ofNat, ← not_lt, ite_not]
  | max =>
    rcases lt_trichotomy (BitVec.ofNat (8 * n) old).toInt (BitVec.ofNat (8 * n) opnd).toInt with hlt | heq | hgt
    · simp only [hlt, hlt.le, if_true, BitVec.toNat_ofNat]
    · have hsame := BitVec.eq_of_toInt_eq heq
      have hmod : old % 2 ^ (8 * n) = opnd % 2 ^ (8 * n) := by simpa [← BitVec.toNat_inj] using hsame
      simp only [heq, le_refl, if_true, lt_irrefl, if_false, hmod, BitVec.toNat_ofNat]
    · simp only [hgt.not_gt, hgt.not_ge, if_false, BitVec.toNat_ofNat]
  | minu => simp only [apply_ite BitVec.toNat, BitVec.toNat_ofNat, ← not_lt, ite_not]
  | maxu => simp only [apply_ite BitVec.toNat, BitVec.toNat_ofNat]; split <;> split <;> omega

/-! ### A keeper's own SRAM -/

/-- An aligned access of `n` bytes at offset `o` of its own SRAM, within the pages that keeper `h`'s mode opens (R314, R331). -/
structure OwnSram (s : State) (h n o : Nat) (ea : W64) : Prop where
  hive : h < 32
  size : n = 1 ∨ n = 2 ∨ n = 4 ∨ n = 8
  addr : ea.toNat = 0x3F0100000000 + h * 2 ^ 20 + o
  bound : o < 0x40000
  aligned : o % n = 0
  page : (s.keeper h).modMode = true → bits ((s.keeper h).cr0 0x80C).toNat 0 6 ≤ o / 4096
    ∧ o / 4096 ≤ bits ((s.keeper h).cr0 0x80C).toNat 8 6

theorem hive_of_canIssue {s : State} {h : Nat} (hk : s.kCanIssue h = true) : h < 32 := by
  simp only [State.kCanIssue, Bool.and_eq_true, decide_eq_true_eq] at hk
  exact hk.1.1.1.1.1

theorem regionOf_ownSram {h o a : Nat} (hh : h < 32) (ho : o < 0x40000) (ha : a = 0x3F0100000000 + h * 2 ^ 20 + o) :
    regionOf a = .ksram := by
  unfold regionOf dramEnd dramLines
  rw [if_neg (by omega), if_neg (by omega), if_neg (by omega), if_pos (by omega)]

theorem kRegion_ownSram {h o a : Nat} (hh : h < 32) (ho : o < 0x40000) (ha : a = 0x3F0100000000 + h * 2 ^ 20 + o) :
    kRegion h a = .sram o := by
  have hoff : kwinOff a = h * 2 ^ 20 + o := by unfold kwinOff; omega
  have hown : (h * 2 ^ 20 + o) / 2 ^ 20 = h := by omega
  have hlow : (h * 2 ^ 20 + o) % 2 ^ 20 = o := by omega
  unfold kRegion
  rw [regionOf_ownSram hh ho ha]
  dsimp only
  rw [hoff, hown, hlow, if_neg (not_not.mpr rfl), if_pos ho]

/-- A name for a window's read behind which the kernel does not compute the address. -/
theorem windowRead_opaque : ∃ read, read = State.kwinRead := ⟨_, rfl⟩

namespace OwnSram
variable {s : State} {h n o : Nat} {ea : W64}

theorem region (a : OwnSram s h n o ea) : kRegion h ea.toNat = .sram o := by
  exact kRegion_ownSram a.hive a.bound a.addr

/-- The last byte of the access stands in the page of its first. -/
theorem lastPage (a : OwnSram s h n o ea) : (o + n - 1) / 4096 = o / 4096 := by
  have := a.aligned
  obtain rfl | rfl | rfl | rfl := a.size <;> omega

/-- The access meets none of the checks that a keeper makes first. -/
theorem check (a : OwnSram s h n o ea) (acc : Nat) (w : Bool) : s.kCheck h ea n acc w = none := by
  have hopen : (s.keeper h).modOk h ea.toNat n w = true := by
    unfold Keeper.modOk
    rw [a.region]
    simp only [Keeper.pageOk, a.lastPage]
    cases hm : (s.keeper h).modMode with
    | false => rfl
    | true => obtain ⟨hlo, hhi⟩ := a.page hm; simp [hlo, hhi]
  have halign : ea.toNat % n = 0 := by
    have := a.aligned
    rw [a.addr]
    obtain rfl | rfl | rfl | rfl := a.size <;> omega
  have hregion : regionOf ea.toNat = .ksram := regionOf_ownSram a.hive a.bound a.addr
  have hlow : ¬ ea.toNat ≥ 2 ^ 46 := by
    have := a.hive; have := a.bound; have := a.addr
    omega
  unfold State.kCheck
  dsimp only
  rw [if_neg (by simp [halign, hregion]), if_neg ?_]
  rw [a.region, hopen]
  simp only [hlow, reduceCtorEq, Bool.not_true, Bool.false_eq_true, or_self, not_false_eq_true]

/-- The fetch of the instruction leaves the access as it is. -/
theorem filled (a : OwnSram s h n o ea) : OwnSram (s.kFill h) h n o ea := by
  obtain ⟨q, hq⟩ := kFill_keeper s h
  refine { a with page := ?_ }
  rw [hq]
  exact a.page

theorem key (a : OwnSram s h n o ea) : kwinKey (h * 2 ^ 20 + o) = some (h * 2 ^ 15 + o / 8) := kwinKey_sram a.bound

theorem read (a : OwnSram s h n o ea) (hgood : h * 2 ^ 15 + o / 8 ∉ s.ksramBad) : s.kwinRead (h * 2 ^ 20 + o) n
    = (s.kword (h * 2 ^ 15 + o / 8) / 2 ^ (8 * (o % 8)) % 2 ^ (8 * n), false) := by
  rw [kwinRead_of_key s a.key, show (h * 2 ^ 20 + o) % 8 = o % 8 by omega, List.contains_eq_mem, decide_eq_false hgood]

theorem kLoad_eq (a : OwnSram s h n o ea) (hgood : h * 2 ^ 15 + o / 8 ∉ s.ksramBad) (rd : Nat) (sx : Bool) :
    s.kLoad h ea n rd sx
      = .next (s.kDeliver h rd n sx (s.kword (h * 2 ^ 15 + o / 8) / 2 ^ (8 * (o % 8)) % 2 ^ (8 * n))) := by
  have hread := a.read hgood
  obtain ⟨read, hdef⟩ := windowRead_opaque
  rw [State.kLoad, a.check, a.region]
  rw [← hdef] at hread ⊢
  simp only [hread, Bool.false_eq_true, if_false]

theorem kStore_eq (a : OwnSram s h n o ea) (v : W64) :
    s.kStore h ea n v = .next ((s.kwinWrite (h * 2 ^ 20 + o) n v.toNat).retireK h) := by
  unfold State.kStore
  simp only [a.check, a.region]

theorem kAtomic_eq (a : OwnSram s h n o ea) (hgood : h * 2 ^ 15 + o / 8 ∉ s.ksramBad) (op : AtomOp) (rd : Nat)
    (opnd cmp : W64) : s.kAtomic h ea n op rd opnd cmp
      = .next ((s.kwinWrite (h * 2 ^ 20 + o) n (atomNew op n (s.kword (h * 2 ^ 15 + o / 8) / 2 ^ (8 * (o % 8)) % 2 ^ (8 * n))
          opnd.toNat cmp.toNat)).kDeliver h rd n true (s.kword (h * 2 ^ 15 + o / 8) / 2 ^ (8 * (o % 8)) % 2 ^ (8 * n))) := by
  have hread := a.read hgood
  obtain ⟨read, hdef⟩ := windowRead_opaque
  rw [State.kAtomic, a.check, a.region]
  rw [← hdef] at hread ⊢
  simp only [hread, Bool.false_eq_true, if_false]
end OwnSram

/-! ### What an access to its own SRAM leaves of the machine -/

/-- What retires does not depend on the prefetch queue, but for the queue itself. -/
theorem retire_withPq (k : Keeper) (p q : List (Nat × Nat)) (i : Nat) :
    { Keeper.retire { k with pq := p } with pq := q, issued := i } = { k.retire with pq := q, issued := i } := by
  unfold Keeper.retire
  cases k.slot <;> rfl

theorem wg_withPq (k : Keeper) (p : List (Nat × Nat)) (r : Nat) (v : W64) :
    Keeper.wg { k with pq := p } r v = { k.wg r v with pq := p } := by
  unfold Keeper.wg
  split <;> rfl

theorem retire_issued (k : Keeper) : k.retire.issued = k.issued := by
  unfold Keeper.retire
  split <;> rfl

theorem wg_issued (k : Keeper) (r : Nat) (v : W64) : (k.wg r v).issued = k.issued := by rw [kwg_frame]

/-- A retirement of keeper `h`, which had fetched and whose registers then were those of `k`. -/
theorem keeper_retireK_of {t : State} {h : Nat} {k : Keeper} {q : List (Nat × Nat)} (hk : t.keeper h = { k with pq := q }) :
    (t.retireK h).keeper h = { k.retire with pq := ((t.retireK h).keeper h).pq, issued := k.issued + 1 } := by
  obtain ⟨p, hp⟩ := keeper_retireK t h
  rw [hp, hk, retire_issued]
  exact retire_withPq k q p _

theorem retireK_frame (t : State) (h : Nat) : t.retireK h = { t with keepers := (t.retireK h).keepers } := rfl

theorem keeper_retireK_ne (t : State) {h g : Nat} (hne : g ≠ h) : (t.retireK h).keeper g = t.keeper g :=
  keeper_setKeeper_ne t h g _ hne

theorem keeper_kwinWrite (s : State) (o n v g : Nat) : (s.kwinWrite o n v).keeper g = s.keeper g := by
  rw [kwinWrite_only]; rfl

theorem kword_kFill (s : State) (h w : Nat) : (s.kFill h).kword w = s.kword w := by rw [kFill_frame]; rfl

theorem ksramBad_kFill (s : State) (h : Nat) : (s.kFill h).ksramBad = s.ksramBad := by rw [kFill_frame]

theorem ksramBad_kwinWrite_ne (s : State) {o key : Nat} (hk : kwinKey o = some key) (n v : Nat) {w : Nat} (hw : w ≠ key) :
    w ∈ (s.kwinWrite o n v).ksramBad ↔ w ∈ s.ksramBad := by
  rw [kwinWrite_of_key s hk]
  dsimp only
  split
  · simp [hw]
  · rfl

end Sys2Proof.Laws
end

section
/-! PROOF. O14: a keeper's loads, stores and atomics on its own SRAM. -/
namespace Sys2Proof.Laws
open Sys2Proof Sys2Proof.Machine Sys2Proof.Safety

/-- After a fetch, a write of keeper SRAM and a retirement nothing but keepers and keeper SRAM has changed. -/
theorem only_keeperAndSram {s u w t : State} (hu : u = { s with keepers := u.keepers })
    (hw : w = { u with ksram := w.ksram, ksramBad := w.ksramBad }) (ht : t = { w with keepers := t.keepers }) :
    t = { s with keepers := t.keepers, ksram := t.ksram, ksramBad := t.ksramBad } := by
  have hsram : t.ksram = w.ksram := by rw [ht]
  have hbad : t.ksramBad = w.ksramBad := by rw [ht]
  calc t = { w with keepers := t.keepers } := ht
    _ = { u with keepers := t.keepers, ksram := w.ksram, ksramBad := w.ksramBad } :=
      congrArg (fun x : State => { x with keepers := t.keepers }) hw
    _ = { s with keepers := t.keepers, ksram := w.ksram, ksramBad := w.ksramBad } :=
      congrArg (fun x : State => { x with keepers := t.keepers, ksram := w.ksram, ksramBad := w.ksramBad }) hu
    _ = _ := by rw [hsram, hbad]

section
variable {s : State} {h n o : Nat} {ea : W64}

/-- R320: what keeper `h`'s write of `n` bytes `v` of its own SRAM leaves: `t` follows from the state `w` just after it by
changes of that keeper alone. -/
theorem OwnSram.written (a : OwnSram s h n o ea) {v : Nat} {w t : State} (hw : w = (s.kFill h).kwinWrite (h * 2 ^ 20 + o) n v)
    (ht : t = { w with keepers := t.keepers }) (hk : ∀ g, g ≠ h → t.keeper g = w.keeper g) :
    t = { s with keepers := t.keepers, ksram := t.ksram, ksramBad := t.ksramBad }
    ∧ (∀ g, g ≠ h → t.keeper g = s.keeper g)
    ∧ (∀ j, j ≠ h * 2 ^ 15 + o / 8 → t.kword j = s.kword j ∧ (j ∈ t.ksramBad ↔ j ∈ s.ksramBad))
    ∧ t.kword (h * 2 ^ 15 + o / 8) = spliced (s.kword (h * 2 ^ 15 + o / 8)) v (o % 8) n := by
  have hword (j : Nat) : t.kword j = w.kword j := by rw [ht]; rfl
  have hbad : t.ksramBad = w.ksramBad := by rw [ht]
  have honly : w = { s.kFill h with ksram := w.ksram, ksramBad := w.ksramBad } := by rw [hw]; exact kwinWrite_only _ _ _ _
  refine ⟨only_keeperAndSram (kFill_frame s h) honly ht, fun g hg => ?_, fun j hj => ⟨?_, ?_⟩, ?_⟩
  · rw [hk g hg, hw, keeper_kwinWrite, keeper_kFill_ne s hg]
  · rw [hword, hw, kword_kwinWrite_ne _ a.key _ _ hj, kword_kFill]
  · rw [hbad, hw, ksramBad_kwinWrite_ne _ a.key _ _ hj, ksramBad_kFill]
  · rw [hword, hw, kword_kwinWrite_same _ a.key, kword_kFill, show (h * 2 ^ 20 + o) % 8 = o % 8 by omega]

/-- The keeper itself, which only fetched before it wrote. -/
theorem keeper_written {v A : Nat} {w : State} (hw : w = (s.kFill h).kwinWrite A n v) :
    ∃ q, w.keeper h = { s.keeper h with pq := q } := by
  obtain ⟨q, hq⟩ := kFill_keeper s h
  exact ⟨q, by rw [hw, keeper_kwinWrite, hq]⟩

/-- A store of the fetched instruction. -/
theorem OwnSram.stores (a : OwnSram s h n o ea) (v : W64) :
    ∃ t, (s.kFill h).kStore h ea n v = .next t ∧ t = { s with keepers := t.keepers, ksram := t.ksram, ksramBad := t.ksramBad }
      ∧ (∀ g, g ≠ h → t.keeper g = s.keeper g)
      ∧ t.keeper h = { (s.keeper h).retire with pq := (t.keeper h).pq, issued := (s.keeper h).issued + 1 }
      ∧ (∀ w, w ≠ h * 2 ^ 15 + o / 8 → t.kword w = s.kword w ∧ (w ∈ t.ksramBad ↔ w ∈ s.ksramBad))
      ∧ ∀ j, j < 8 → t.kword (h * 2 ^ 15 + o / 8) / 256 ^ j % 256 = if o % 8 ≤ j ∧ j < o % 8 + n
          then v.toNat / 256 ^ (j - o % 8) % 256 else s.kword (h * 2 ^ 15 + o / 8) / 256 ^ j % 256 := by
  obtain ⟨w, hw⟩ : ∃ w, w = (s.kFill h).kwinWrite (h * 2 ^ 20 + o) n v.toNat := ⟨_, rfl⟩
  obtain ⟨q, hq⟩ := keeper_written hw
  obtain ⟨honly, hothers, hwords, hword⟩ := a.written hw (retireK_frame w h) (fun g hg => keeper_retireK_ne w hg)
  refine ⟨w.retireK h, by rw [hw, a.filled.kStore_eq], honly, hothers, keeper_retireK_of hq, hwords, fun j _ => ?_⟩
  rw [hword, spliced_byte]

/-- An atomic of the fetched instruction. -/
theorem OwnSram.swaps (a : OwnSram s h n o ea) (hgood : h * 2 ^ 15 + o / 8 ∉ s.ksramBad) (op : AtomOp) (rd : Nat)
    (opnd cmp : W64) :
    let word := fun (t : State) => BitVec.ofNat (8 * n) (t.kword (h * 2 ^ 15 + o / 8) / 2 ^ (8 * (o % 8)))
    ∃ t, (s.kFill h).kAtomic h ea n op rd opnd cmp = .next t
      ∧ word t = atomBits op (word s) (opnd.setWidth (8 * n)) (cmp.setWidth (8 * n))
      ∧ t = { s with keepers := t.keepers, ksram := t.ksram, ksramBad := t.ksramBad }
      ∧ (∀ g, g ≠ h → t.keeper g = s.keeper g)
      ∧ t.keeper h = { ((s.keeper h).wg rd ((word s).signExtend 64)).retire with
                         pq := (t.keeper h).pq, issued := (s.keeper h).issued + 1 }
      ∧ ∀ j, j ≠ h * 2 ^ 15 + o / 8 → t.kword j = s.kword j := by
  intro word
  have hn : 0 < n := by obtain rfl | rfl | rfl | rfl := a.size <;> decide
  have hlow (x : Nat) : BitVec.ofNat (8 * n) (x % 2 ^ (8 * n)) = BitVec.ofNat (8 * n) x :=
    BitVec.eq_of_toNat_eq (by simp)
  have hrun := a.filled.kAtomic_eq (by rwa [ksramBad_kFill]) op rd opnd cmp
  rw [kword_kFill] at hrun
  have hres : extend n true (s.kword (h * 2 ^ 15 + o / 8) / 2 ^ (8 * (o % 8)) % 2 ^ (8 * n)) = (word s).signExtend 64 := by
    rw [extend_signed hn, hlow]
  obtain ⟨w, hw⟩ : ∃ w, w = (s.kFill h).kwinWrite (h * 2 ^ 20 + o) n (atomNew op n
      (s.kword (h * 2 ^ 15 + o / 8) / 2 ^ (8 * (o % 8)) % 2 ^ (8 * n)) opnd.toNat cmp.toNat) := ⟨_, rfl⟩
  obtain ⟨q, hq⟩ := keeper_written hw
  obtain ⟨honly, hothers, hwords, hword⟩ := a.written (t := (w.setKeeper h ((w.keeper h).wg rd ((word s).signExtend 64))).retireK h)
    hw rfl (fun g hg => by rw [keeper_retireK_ne _ hg, keeper_setKeeper_ne _ _ _ _ hg])
  refine ⟨_, by rw [hrun, ← hw, State.kDeliver, hres], ?_, honly, hothers, ?_, fun j hj => (hwords j hj).1⟩
  · show BitVec.ofNat (8 * n) (State.kword _ _ / _) = _
    rw [hword, ← hlow, spliced_read, hlow, atomNew_eq hn, hlow]
    simp only [BitVec.ofNat_toNat, BitVec.setWidth_eq, word]
  · rw [← wg_issued (s.keeper h) rd ((word s).signExtend 64)]
    refine keeper_retireK_of (q := q) ?_
    rw [keeper_setKeeper_same, hq, wg_withPq]

end

theorem ldOp_keeper {h : Nat} {rd : BitVec 5} {srcs : List (BitVec 5)} {s : State} (hr : Ready (.keeper h) 0 (rd :: srcs) s)
    (ea : State → W64) (n : Nat) (sx aq : Bool) : ldOp (.keeper h) 0 rd srcs ea n sx aq s
      = (s.kFill h).kLoad h (ea (s.kFill h)) n rd.toNat sx :=
  agRun_ready s _ _ _ _ hr

theorem stOp_keeper {h : Nat} {rd : BitVec 5} {srcs : List (BitVec 5)} {s : State} (hr : Ready (.keeper h) 0 (rd :: srcs) s)
    (ea : State → W64) (n : Nat) (rl : Bool) : stOp (.keeper h) 0 rd srcs ea n rl s
      = (s.kFill h).kStore h (ea (s.kFill h)) n ((s.keeper h).rg rd.toNat) := by
  rw [stOp, agRun_ready s _ _ _ _ hr]
  exact congrArg ((s.kFill h).kStore h (ea (s.kFill h)) n) (kFill_rg s h rd.toNat)

theorem atmOp_keeper {h : Nat} {rd ra rb : BitVec 5} {s : State} (hr : Ready (.keeper h) 0 [rd, ra, rb] s) (op : AtomOp)
    (ord : BitVec 2) (sz : Bool) : atmOp op (.keeper h) 0 rd ra rb ord sz s
      = (s.kFill h).kAtomic h ((s.keeper h).rg ra.toNat) (if sz then 8 else 4) op rd.toNat ((s.keeper h).rg rb.toNat)
          ((s.keeper h).rg rd.toNat) := by
  rw [atmOp, agRun_ready s _ _ _ _ hr]
  simp only [State.fillA, State.rgA, kFill_rg]

theorem eaImm_kFill (h : Nat) (ra : BitVec 5) (imm : BitVec 12) (s : State) :
    eaImm (.keeper h) ra imm (s.kFill h) = (s.keeper h).rg ra.toNat + imm.signExtend 64 := by
  simp only [eaImm, State.rgA, kFill_rg]

theorem eaIdx_kFill (h : Nat) (ra rb : BitVec 5) (lg : Nat) (sc : Bool) (s : State) : eaIdx (.keeper h) ra rb lg sc (s.kFill h)
      = (s.keeper h).rg ra.toNat + (s.keeper h).rg rb.toNat <<< (if sc then lg else 0) := by
  simp only [eaIdx, State.rgA, kFill_rg]

theorem size_of_log {lg : Nat} (h : lg < 4) : 2 ^ lg = 1 ∨ 2 ^ lg = 2 ∨ 2 ^ lg = 4 ∨ 2 ^ lg = 8 := by
  interval_cases lg <;> decide

/-- Settles O14: each access is aligned and open, and stays in one word of the keeper's own SRAM. -/
theorem keeperSramAccesses : Obligations.KeeperSramAccesses := by
  unfold Obligations.KeeperSramAccesses
  refine ⟨?loads, ?stores, ?atomics⟩
  case loads =>
    intro h rd ra rb imm size sc aq o s hready hrd hra hrb ho k u loads ea a
    have hreg2 : Ready a 0 [rd, ra] s := ⟨hready, rfl, by simp [hrd, hra]⟩
    have hreg3 : Ready a 0 [rd, ra, rb] s := ⟨hready, rfl, by simp [hrd, hra, hrb]⟩
    have loaded (i : Instr) (ea : W64) (n : Nat) (sx : Bool) (hn : n = 1 ∨ n = 2 ∨ n = 4 ∨ n = 8)
        (hexec : exec i s = (s.kFill h).kLoad h ea n rd.toNat sx) : loads i ea n sx := by
      intro haddr halign hpage hgood v
      have own : OwnSram s h n o ea := ⟨hive_of_canIssue hready.1, hn, haddr, ho, halign, hpage⟩
      have hpos : 0 < n := by omega
      rw [hexec, own.filled.kLoad_eq (by rwa [ksramBad_kFill]), kword_kFill]
      cases sx with
      | false => rw [State.kDeliver, extend_unsigned, Nat.mod_mod]; rfl
      | true => rw [State.kDeliver, extend_signed hpos]; rfl
    have hld (n : Nat) (sx : Bool) : ldOp a 0 rd [ra] (eaImm a ra imm) n sx false s = (s.kFill h).kLoad h ea n rd.toNat sx := by
      rw [ldOp_keeper hreg2, eaImm_kFill]
    refine ⟨loaded _ _ _ _ (by decide) ((exec_ldB ..).trans (hld 1 false)),
      loaded _ _ _ _ (by decide) ((exec_ldBs ..).trans (hld 1 true)),
      loaded _ _ _ _ (by decide) ((exec_ldH ..).trans (hld 2 false)),
      loaded _ _ _ _ (by decide) ((exec_ldHs ..).trans (hld 2 true)),
      loaded _ _ _ _ (by decide) ((exec_ldW ..).trans (hld 4 false)),
      loaded _ _ _ _ (by decide) ((exec_ldWs ..).trans (hld 4 true)),
      loaded _ _ _ _ (by decide) ((exec_ldD ..).trans (hld 8 false)), fun hsize => ?_⟩
    refine loaded _ _ _ _ (size_of_log (by omega)) ((exec_ldx ..).trans ?_)
    rw [execLdx, if_neg hsize, ldOp_keeper hreg3, eaIdx_kFill]
  case stores =>
    intro h rd ra rb imm size sc rl o s hready hrd hra hrb ho k stores ea a
    have hreg2 : Ready a 0 [rd, ra] s := ⟨hready, rfl, by simp [hrd, hra]⟩
    have hreg3 : Ready a 0 [rd, ra, rb] s := ⟨hready, rfl, by simp [hrd, hra, hrb]⟩
    have stored (i : Instr) (ea : W64) (n : Nat) (hn : n = 1 ∨ n = 2 ∨ n = 4 ∨ n = 8)
        (hexec : exec i s = (s.kFill h).kStore h ea n (k.rg rd.toNat)) : stores i ea n := by
      intro haddr halign hpage
      have own : OwnSram s h n o ea := ⟨hive_of_canIssue hready.1, hn, haddr, ho, halign, hpage⟩
      rw [hexec]
      exact own.stores _
    have hst (n : Nat) : stOp a 0 rd [ra] (eaImm a ra imm) n false s = (s.kFill h).kStore h ea n (k.rg rd.toNat) := by
      rw [stOp_keeper hreg2, eaImm_kFill]
    refine ⟨stored _ _ _ (by decide) ((exec_stB ..).trans (hst 1)), stored _ _ _ (by decide) ((exec_stH ..).trans (hst 2)),
      stored _ _ _ (by decide) ((exec_stW ..).trans (hst 4)), stored _ _ _ (by decide) ((exec_stD ..).trans (hst 8)),
      stored _ _ _ (size_of_log size.isLt) ((exec_stx ..).trans ?_)⟩
    rw [execStx, stOp_keeper hreg3, eaIdx_kFill]
  case atomics =>
    intro h rd ra rb ord sz o s hready hrd hra hrb ho k n w haddr halign hpage hgood word x y z does a
    have hn : n = 1 ∨ n = 2 ∨ n = 4 ∨ n = 8 := by cases sz <;> decide
    have own : OwnSram s h n o (k.rg ra.toNat) := ⟨hive_of_canIssue hready.1, hn, haddr, ho, halign, hpage⟩
    have swapped (i : Instr) (op : AtomOp) (hexec : exec i s = atmOp op a 0 rd ra rb ord sz s) : does i (atomBits op x y z) := by
      have hrun := own.swaps hgood op rd.toNat (k.rg rb.toNat) (k.rg rd.toNat)
      rw [← atmOp_keeper ⟨hready, rfl, by simp [hrd, hra, hrb]⟩, ← hexec] at hrun
      exact hrun
    exact ⟨swapped _ .swap (exec_atmSwap ..), swapped _ .cas (exec_atmCas ..), swapped _ .add (exec_atmAdd ..),
      swapped _ .and (exec_atmAnd ..), swapped _ .or (exec_atmOr ..), swapped _ .xor (exec_atmXor ..),
      swapped _ .min (exec_atmMin ..), swapped _ .max (exec_atmMax ..), swapped _ .minu (exec_atmMinu ..),
      swapped _ .maxu (exec_atmMaxu ..)⟩

end Sys2Proof.Laws
end

section
/-! PROOF. O15 fails: it quantifies over states whose cache table lists a line twice. Such a table reads as its first entry of the
line; a load that takes a line into a full L1D set gives up the set's victim as a later entry has it, and the line's data with it. -/
namespace Sys2Proof.Laws
open Sys2Proof Sys2Proof.Machine Sys2Proof.Safety

/-- R63, R105: a load of Normal memory that no fence and no acquire holds reaches its line. -/
theorem load_normal {s s1 : State} {c n pa : Nat} {ea : W64} {dst : Dst} (hmay : s.mayLoad c = true) (halign : ea.toNat % n = 0)
    (hx : s.xlate c ea .load = .ok pa .normal false s1) : s.load c ea n dst false = s1.loadCached s c false false
      ⟨0, 0, .load, ea, pa, n, dst, if dst.isLk then { s1.lockReq c ea with mode := .off } else s1.lockReq c ea⟩ := by
  simp only [State.load, halign, hx, hmay]
  rfl

/-- Core 0 about to load from address 64, whose line 1 its tile holds in E. Line 129 of the same L1D set reads as zeros; eight further
entries of it, which fill the ways of core 0's L1D, hold ones. -/
def twiceListed : State :=
  { State.reset with
    cores := [(0, { g := [(1, 64)], run := true })]
    caches := (1, { st := .E }) :: (129, { st := .E }) ::
      (List.range 8).map (fun w => (129, { st := .E, d := ⟨BitVec.allOnes 512, 0, 0⟩, l1 := 1, w0 := w })) }

/-- The load of line 1 through the L1D changes the data of line 129. -/
theorem l1Use_twiceListed : ((twiceListed.l1Use 0 1).l2 0 129).d ≠ (twiceListed.l2 0 129).d := by decide +kernel

/-- The address of the load. -/
def twiceListedEa : W64 := (twiceListed.core 0).rg 1 + (0 : BitVec 12).signExtend 64

/-- The load as it comes to its commit point. -/
def twiceListedWait : Wait := ⟨0, 0, .load, twiceListedEa, 64, 1, .g 2 1 false, twiceListed.lockReq 0 twiceListedEa⟩

theorem twiceListed_ready : ReadyP 0 0 twiceListed ∧ twiceListed.mayLoad 0 = true
    ∧ twiceListed.xlate 0 twiceListedEa .load = .ok 64 .normal false twiceListed := by
  simp only [ReadyP]
  decide +kernel

/-- Nothing stands between the load and the tile's copy of line 1, which passes its checks. -/
theorem twiceListed_hits : fwdOf (twiceListed.core 0).sb false 64 1 = .none
    ∧ twiceListed.tileCopy (0 / 2) (lineKey false 64) = some ⟨0, 0, 0⟩
    ∧ checkRead ⟨0, 0, 0⟩ (twiceListed.lockReq 0 twiceListedEa) (64 % 64) 1 = .ok := by
  decide +kernel

/-- The load is `State.load` of its address, which comes to its commit point and takes line 1 into the L1D. -/
theorem twiceListed_loads : ∃ f, exec (.ldB (.core 0) 0 2 1 0) twiceListed = .next ((twiceListed.l1Use 0 1).updCore 0 f) := by
  obtain ⟨hready, hmay, hx⟩ := twiceListed_ready
  obtain ⟨hfwd, hcopy, hok⟩ := twiceListed_hits
  have halign : twiceListedEa.toNat % 1 = 0 := by rw [Nat.mod_one]
  have hload : exec (.ldB (.core 0) 0 2 1 0) twiceListed = twiceListed.load 0 twiceListedEa 1 (.g 2 1 false) false := by
    rw [exec_ldB, execLdB, ldOp, agRun_ready twiceListed (.core 0) 0 _ _ hready]
    rfl
  have hnormal : twiceListed.load 0 twiceListedEa 1 (.g 2 1 false) false
      = twiceListed.loadCached twiceListed 0 false false twiceListedWait := load_normal hmay halign hx
  exact ⟨_, hload.trans (hnormal.trans (loadCached_hit (w := twiceListedWait) hfwd hcopy hok))⟩

/-- Refutes O15: in `twiceListed` a load of line 1 changes the data of line 129, which its L1D gives up. -/
theorem not_normalLoads : ¬ Obligations.NormalLoads := by
  unfold Obligations.NormalLoads
  intro h
  obtain ⟨hready, hmay, hx⟩ := twiceListed_ready
  obtain ⟨hfwd, hcopy, hok⟩ := twiceListed_hits
  have halign : twiceListedEa.toNat % 1 = 0 := by rw [Nat.mod_one]
  obtain ⟨hldB, -⟩ := h 0 0 2 1 0 0 0 0 0 0 false false 64 ⟨0, 0, 0⟩ twiceListed twiceListed hready hmay
  obtain ⟨t, hexec, -, -, -, -, hdata⟩ := (hldB halign hx hfwd).1 hcopy hok
  obtain ⟨f, hrun⟩ := twiceListed_loads
  have hline := hdata 0 129
  rw [← Host.Outcome.next.inj (hrun.symm.trans hexec), l2_updCore] at hline
  exact l1Use_twiceListed hline

end Sys2Proof.Laws
end

section
/-! PROOF. O17: a P-core's atomic on Normal memory, from its request to its reply. -/
namespace Sys2Proof.Laws
open Sys2Proof Sys2Proof.Machine Sys2Proof.Safety

/-- R109, R188, R190: an atomic of Normal memory that nothing holds leaves for the line's home. -/
theorem atomic_leaves {s s1 : State} {c n rd pa : Nat} {ea opnd cmp : W64} {ord : BitVec 2} (op : AtomOp)
    (hload : s.mayLoad c = true) (hstore : s.mayStore c = true) (halign : ea.toNat % n = 0)
    (hrel : ord.getLsbD 1 = true → s.drained c = true)
    (hacq : ord.getLsbD 0 = true → (s.core c).sb.any (·.rel) = false ∧ (s.core c).posted.any (fun p => p.rel && !p.done) = false)
    (hx : s.xlate c ea .atomic = .ok pa .normal false s1) (holder : (s.core c).sb.any (fun e => e.pa / 64 == pa / 64) = false)
    (hout : s1.lineOut (c / 2) (pa / 64) = false) :
    s.atomic c ea n op rd opnd cmp ord = .next ((s1.updCore c (fun k => { k with
        wait := some ⟨4, 0, .atomic, ea, pa, n, .g rd n true, s1.lockReq c ea⟩ })).ask
      { k := .atomic, L := pa / 64, agent := c / 2, core := s1.cix c, dom := s1.govDom c,
        at_ := some ⟨pa % 2 ^ 46, op, n, opnd, cmp, s1.lockReq c ea, ord⟩ }) := by
  have hrelease : (ord.getLsbD 1 && !(s.drained c)) = false := by
    cases h1 : ord.getLsbD 1 with
    | false => rfl
    | true => rw [hrel h1]; rfl
  have hacquire : (ord.getLsbD 0 && ((s.core c).sb.any (·.rel) || (s.core c).posted.any (fun p => p.rel && !p.done))) = false := by
    cases h0 : ord.getLsbD 0 with
    | false => rfl
    | true => obtain ⟨hsb, hposted⟩ := hacq h0; rw [hsb, hposted]; rfl
  simp only [State.atomic, halign, hload, hstore, hrelease, hacquire, hx, holder, State.atomNormal, hout, State.gate]
  rfl

/-- DATA without a line answers the atomic that its tile awaits (R188, R244). -/
theorem exec_data_atomic {t0 L : Nat} {m : Msg} {s s1 s2 : State} (ht : t0 < 256) (hs : s.seamOpen t0 = true)
    (h : s.take .data t0 L = some (m, s1)) (hr : m.req ≠ 1) (hk : m.kind = .none) (hd : m.d = none)
    (ha : s1.answered t0 L .atomic = some s2) : exec (.data t0 L) s = .next (s2.atomReply m.core m) := by
  rw [exec_data, execData, if_neg (by simp [hs]), onMsg_some s _ _ _ _ m s1 h, if_neg (by omega), if_neg hr, hk, hd]
  cases (s1.l2 t0 L).st <;> simp only [ha]

/-- R109: DATA of status 0 delivers an atomic's old value, sign-extended, and the core goes on. -/
theorem atomReply_delivers {s : State} {c rd n pa : Nat} {ea : W64} {lk : LockReq} {m : Msg} (hmark : (s.core c).mark = none)
    (hwait : (s.core c).wait = some ⟨4, 0, .atomic, ea, pa, n, .g rd n true, lk⟩) (hstat : m.stat = 0) :
    s.atomReply c m = (s.setCore c { s.core c with wait := none }).updCore c (fun k =>
      (k.wg rd (extend n true (m.val % 2 ^ 64))).retire) := by
  simp only [State.atomReply, hmark, hwait, hstat, if_true]
  rfl

/-- R254: an atomic that meets no poison and no lock that refuses it. -/
theorem atomLine_passes {d : LineD} {q : AtomReq} (hp : spanPoison d.poison (q.addr % 64) q.size = false)
    (hl : lockMiss q.lk d.locks (q.addr % 64) q.size = none) : atomLine d q
      = (d.write (q.addr % 64) q.size (atomNew q.op q.size (d.read (q.addr % 64) q.size) q.opnd.toNat q.cmp.toNat), 0,
          d.read (q.addr % 64) q.size, 0) := by
  simp only [atomLine, hp, hl, Option.isSome_none, Bool.false_eq_true, false_and, if_false]

/-- What it writes reads back as the operation's value. -/
theorem read_write_atomNew {d : LineD} {off n : Nat} (hn : 0 < n) (hoff : off + n ≤ 64) (op : AtomOp) (opnd cmp : W64) :
    (d.write off n (atomNew op n (d.read off n) opnd.toNat cmp.toNat)).read off n
      = (atomBits op (BitVec.ofNat (8 * n) (d.read off n)) (opnd.setWidth (8 * n)) (cmp.setWidth (8 * n))).toNat := by
  rw [read_write_same d _ hoff, atomNew_eq hn, BitVec.ofNat_toNat, BitVec.ofNat_toNat]
  exact Nat.mod_eq_of_lt (BitVec.isLt _)

/-- Settles O17: the request is `atomic_leaves`, the reply `atomReply_delivers`, and the home writes what `atomBits` says. -/
theorem normalAtomics : Obligations.NormalAtomics := by
  unfold Obligations.NormalAtomics
  refine ⟨?request, ?reply, ?home⟩
  case request =>
    intro c pr rd ra rb ord sz pa s s1 hready hload hstore k ea n halign hrel hacq hx holder hout sends a
    have leaves (i : Instr) (op : AtomOp) (hexec : exec i s = atmOp op a pr rd ra rb ord sz s) : sends i op := by
      rw [atmOp, agRun_ready s a pr _ _ hready] at hexec
      exact hexec.trans (atomic_leaves op hload hstore halign hrel hacq hx holder hout)
    exact ⟨leaves _ .swap (exec_atmSwap ..), leaves _ .cas (exec_atmCas ..), leaves _ .add (exec_atmAdd ..),
      leaves _ .and (exec_atmAnd ..), leaves _ .or (exec_atmOr ..), leaves _ .xor (exec_atmXor ..),
      leaves _ .min (exec_atmMin ..), leaves _ .max (exec_atmMax ..), leaves _ .minu (exec_atmMinu ..),
      leaves _ .maxu (exec_atmMaxu ..)⟩
  case reply =>
    intro t c L rd n ea pa lk m s s1 s2 ht hs htake hreq hkind hd hstat hcore hans hmark hwait
    rw [exec_data_atomic ht hs htake hreq hkind hd hans, hcore, atomReply_delivers hmark hwait hstat]
  case home =>
    intro d q hsize halign hp hl off x y z new
    have hn : 0 < q.size := by omega
    have hoff : q.addr % 64 + q.size ≤ 64 := by
      obtain h4 | h8 := hsize
      · rw [h4] at halign ⊢; omega
      · rw [h8] at halign ⊢; omega
    refine ⟨_, atomLine_passes hp hl, rfl, rfl, read_write_atomNew hn hoff _ _ _, fun j hj hout => ?_⟩
    rw [getLsbD_write _ _ _ _ _ hj, if_neg (by omega)]

end Sys2Proof.Laws
end

section
/-! SUPPORT. The entry of an exception that nothing else comes with: of a P-core (R132, R133), and of a keeper outside a delay slot
(R316, R325, R326). -/
namespace Sys2Proof.Laws
open Sys2Proof Sys2Proof.Machine Sys2Proof.Safety

/-! ### A P-core -/

theorem enter_v (k : Core) (m : Bool) (x : Cause) (tpc : W64) : (k.enter m x tpc).v = k.v := by
  have hset (k : Core) (n : Nat) (v : W64) : (k.setCr n v).v = k.v := rfl
  have hregs : (entryRegs k m x tpc).v = k.v := by
    unfold entryRegs
    cases m <;> simp only [hset, if_true, Bool.false_eq_true, if_false]
  rw [enter_eq, apply_ite Core.v]
  exact (ite_self _).trans hregs

theorem cr0_enter_crTVAL (k : Core) (m : Bool) (x : Cause) (tpc : W64) : (k.enter m x tpc).cr0 (crTVAL m) = x.val := by
  obtain ⟨hcr, -⟩ := enter_fields k m x tpc
  rw [Core.cr0, hcr]
  show (entryRegs k m x tpc).cr0 (crTVAL m) = x.val
  cases m <;> simp [entryRegs, crTPC, crTCAUSE, crTVAL, crTSTAT, cr0_setCr_same, cr0_setCr_ne]

/-- R138: the trap registers of a level stand one after the other. -/
theorem trapRegister_numbers (m : Bool) : (if m then 0xC00 else 0x400) + 1 = crTVEC m ∧ (if m then 0xC00 else 0x400) + 2 = crTPC m
    ∧ (if m then 0xC00 else 0x400) + 3 = crTCAUSE m ∧ (if m then 0xC00 else 0x400) + 4 = crTVAL m := by
  cases m <;> exact ⟨rfl, rfl, rfl, rfl⟩

theorem pcMask_aligned (v : W64) : pcMask (v &&& ~~~(3 : W64)) = v &&& 0x0FFFFFFFFFFFFFFC := by
  rw [pcMask, BitVec.and_assoc]
  rfl

/-- R138: TCAUSE of an exception that reports its code alone. -/
theorem word_of_code (code : Nat) (val : W64) : Cause.word { code := code, val := val } = BitVec.ofNat 64 code := by
  simp [Cause.word, Acc.code, b2n]

/-- R132: an exception that may be delegated is taken at M where it is not delegated, and in M. -/
theorem trapToM_of_delegable {code : Nat} (h : fixedM code = false) (k : Core) :
    k.trapToM code = (!((k.cr0 0xC0A).getLsbD code) || k.priv == .M) := by
  rw [Core.trapToM, h]
  cases (k.cr0 0xC0A).getLsbD code <;> cases k.priv <;> rfl

/-- R133: an exception other than a machine check saves the instruction's own address. -/
theorem pTrap_enters (s : State) (c : Nat) {x : Cause} (hx : x.code ≠ 0x18) : pTrap s c x
    = .next (s.setCore c ((s.core c).enter ((s.core c).trapToM x.code) x (s.core c).pc)) := by
  rw [pTrap, if_neg hx, State.trap, State.exception, if_neg (fun h => hx h.1)]

/-! ### A keeper -/

theorem record_keepers (s : State) (cls unit sev code d0 d1 : Nat) : (s.record cls unit sev code d0 d1).keepers = s.keepers := by
  unfold State.record
  dsimp only
  split <;> rfl

theorem raise_keepers (s : State) (src bit : Nat) : (s.raise src bit).keepers = s.keepers := by
  have h := regsOnly_raise s src bit
  unfold RegsOnly at h
  rw [h]

/-- R333: a trap of module mode changes of its keeper the module alone. -/
theorem keeper_modTrap (s : State) (h : Nat) (x : KCause) :
    (s.modTrap h x).keeper h = { s.keeper h with mod := ((s.modTrap h x).keeper h).mod } := by
  unfold State.modTrap
  dsimp only
  split
  · simp only [State.keeper, raise_keepers, record_keepers]
    show (s.setKeeper h { s.keeper h with mod := none }).keeper h
      = { s.keeper h with mod := ((s.setKeeper h { s.keeper h with mod := none }).keeper h).mod }
    rw [keeper_setKeeper_same]
  · rfl

/-- R326: outside EXL a trap is the entry of the keeper, but for its module. -/
theorem keeper_kTrap {s : State} {h : Nat} (hexl : (s.keeper h).exl = false) (x : KCause) :
    ∃ m, (s.kTrap h x).keeper h = Keeper.enter { s.keeper h with mod := m } x false := by
  refine ⟨((s.modTrap h x).keeper h).mod, ?_⟩
  rw [← keeper_modTrap]
  simp only [State.kTrap, hexl, Bool.false_eq_true, if_false]
  exact keeper_setKeeper_same _ h _

/-- R325: the trap registers as the entry of an exception outside a delay slot writes them. -/
def kExceptionRegs (k : Keeper) (cause val : W64) : Keeper :=
  ((((k.setCr 0x802 k.pc).setCr 0x803 0).setCr 0x804 cause).setCr 0x805 val).setCr 0x800 (kEntryStat (k.cr0 0x800))

theorem kenter_exception_eq (k : Keeper) (hslot : k.slot = none) (code : Nat) (val : W64) :
    k.enter { code := code, val := val } false
      = { (kExceptionRegs k (BitVec.ofNat 64 code) val).applyPend with
          pc := (kExceptionRegs k (BitVec.ofNat 64 code) val).applyPend.cr0 0x801 &&& ~~~(3 : W64)
          slot := none, waitev := false, pq := [] } := by
  simp [Keeper.enter, hslot, kExceptionRegs, kEntryStat, b2n]

/-- R325, R326: the entry of an exception outside a delay slot. -/
theorem kenter_exception (k : Keeper) (hslot : k.slot = none) (code : Nat) (val : W64) :
    let k' := k.enter { code := code, val := val } false
    k'.cr0 0x802 = k.pc ∧ k'.cr0 0x804 = BitVec.ofNat 64 code ∧ k'.cr0 0x805 = val ∧ k'.exl = true ∧ k'.pq = [] ∧ k'.k = k.k := by
  have henter := kenter_exception_eq k hslot code val
  generalize BitVec.ofNat 64 code = cause at henter ⊢
  intro k'
  have hsaved {n : Nat} (hn : n ∉ kSyncRegs) : k'.cr0 n = (kExceptionRegs k cause val).cr0 n := by
    have hcr : k'.cr0 n = (kExceptionRegs k cause val).applyPend.cr0 n := by simp only [k', henter]; rfl
    rw [hcr, cr0_applyPend, if_neg hn]
  have hstat : k'.cr0 0x800 = kEntryStat (k.cr0 0x800) := (hsaved (by decide)).trans (kcr0_setCr_same _ _ _)
  refine ⟨?_, ?_, ?_, ?_, ?_, ?_⟩
  · rw [hsaved (by decide)]; simp [kExceptionRegs, kcr0_setCr_same, kcr0_setCr_ne]
  · rw [hsaved (by decide)]; simp [kExceptionRegs, kcr0_setCr_same, kcr0_setCr_ne]
  · rw [hsaved (by decide)]; simp [kExceptionRegs, kcr0_setCr_same, kcr0_setCr_ne]
  · rw [Keeper.exl, hstat, (getLsbD_kEntryStat _).2]
  · simp only [k', henter]
  · simp only [k', henter]; rw [applyPend_frame]; rfl

/-! ### Illegal words -/

/-- R91, R96, R130: a P-core takes cause 1 at the level that M_EDELEG gives. -/
theorem illegalInstruction_core {c : Nat} {word : W32} {s : State} (hissue : s.canIssue c = true) (hill : legalP word.toNat = false) :
    exec (.illegalInstruction (.core c) word) s = .next (s.setCore c ((s.core c).enter
      (!(((s.core c).cr0 0xC0A).getLsbD 1) || (s.core c).priv == .M) { code := 1, val := word.setWidth 64 } (s.core c).pc)) := by
  rw [exec_illegalInstruction]
  show (if legalP word.toNat || !(s.canIssue c) then turnedAway s else pTrap s c { code := 1, val := word.setWidth 64 }) = _
  rw [if_neg (by simp [hill, hissue]), pTrap_enters s c (by dsimp only; decide), trapToM_of_delegable (by dsimp only; decide)]

/-- R96, R330: a keeper takes it for the word at the head of its queue. -/
theorem illegalInstruction_keeper {h : Nat} {word : W32} {s : State} (hready : ReadyK h s) (hill : legalS word.toNat = false)
    (hhead : ((s.kFill h).keeper h).pq.head?.map (·.2) = some word.toNat) :
    exec (.illegalInstruction (.keeper h) word) s = .next ((s.kFill h).kTrap h { code := 1, val := word.setWidth 64 }) := by
  rw [exec_illegalInstruction]
  show (if legalS word.toNat then turnedAway s else kRun h true none s _) = _
  rw [if_neg (by simp [hill]), kRun_ready s h _ none _ hready rfl (.inl rfl), if_pos hhead]

end Sys2Proof.Laws
end

section
/-! SUPPORT. Fetch and the events of speculation (R57 to R60, R66, R69, R71, R79, R216, R218): what each leaves of its core. -/
namespace Sys2Proof.Laws
open Sys2Proof Sys2Proof.Machine Sys2Proof.Safety

variable {s s1 : State} {c : Nat}

/-- A core set to what `f` makes of it is the only thing that changes. -/
theorem onlyCore_setCore {k : Core} {f : Core → Core} (h : k = f (s.core c)) : OnlyCore s (s.setCore c k) c f :=
  ⟨rfl, (core_setCore_same s c k).trans h, fun d hd => core_setCore_ne s c d k hd⟩

/-! ### Fetch -/

/-- R131: the fetch of the instruction at the pc, translated, goes to the L1I. -/
theorem instructionFetch_goes {pa : Nat} {mt : MT} (hissue : s.canIssue c = true)
    (hx : s.xlate c (s.core c).pc .fetch = .ok pa mt false s1) :
    exec (.instructionFetch c (s.core c).pc ⟨false, false⟩) s = s1.fetchAt c (s.core c).pc pa true false := by
  rw [exec_instructionFetch, execInstructionFetch, if_neg Bool.false_ne_true, if_neg (by simp [hissue]), hx]
  exact if_neg Bool.false_ne_true

/-- R58, R71: a fetch that hits the L1I. -/
theorem fetchAt_hit {va : W64} {pa : Nat} {e : IcE} (he : (s.core c).l1i.find? (·.line == pa / 64) = some e)
    (hp : spanPoison e.poison (pa % 64) 4 = false) (hw : (s.core c).win.any (fun w => w.isBranch && w.pc == va) = false) :
    s.fetchAt c va pa true false
      = .next (s.setCore c ((s.core c).fetched va (e.data.toNat / 2 ^ (8 * (pa % 64)) % 2 ^ 32))) := by
  simp only [State.fetchAt, he, hp, hw, Bool.false_eq_true, if_false, Bool.true_and]

theorem fetchAt_miss {va : W64} {pa : Nat} (he : (s.core c).l1i.find? (·.line == pa / 64) = none) :
    s.fetchAt c va pa true false = .next (s.fetchLine c pa) := by
  simp only [State.fetchAt, he]

theorem fetched_plain {w : Nat} (h : branchKind w = none) (k : Core) (va : W64) : k.fetched va w = k := by
  simp only [Core.fetched, h]

theorem fetched_branch {w : Nat} {kind : BrK} (h : branchKind w = some kind) (k : Core) (va : W64) : k.fetched va w
    = { k with win := k.win ++ [.branch va (k.predict va kind (bits w 28 4 != 0)).1]
               retS := (k.predict va kind (bits w 28 4 != 0)).2 } := by
  simp only [Core.fetched, h]
  rfl

/-- R59: without an entry in the target buffer fetch goes on behind the branch. -/
theorem predict_noEntry {k : Core} {pc : W64} (h : ∀ x ∈ k.btb, x.set = bits pc.toNat 2 10 → x.tag ≠ bits pc.toNat 12 12)
    (kind : BrK) (cond : Bool) : k.predict pc kind cond = (pcNext pc, k.retS) := by
  have hmiss : k.btbHit pc kind = none := by
    refine List.find?_eq_none.mpr fun x hx hhit => ?_
    simp only [Bool.and_eq_true, beq_iff_eq] at hhit
    obtain ⟨⟨hset, htag⟩, -⟩ := hhit
    exact h x hx hset htag
  simp only [Core.predict, hmiss]

/-- R71: the line comes from the tile's copy. -/
theorem fetchLine_copy {pa : Nat} {d : LineD} (h : s.tileCopy (c / 2) (pa / 64) = some d) :
    s.fetchLine c pa = (s.setCore c ((s.core c).l1iPut s.freeVal (pa / 64) d)).tickFree := by
  simp only [State.fetchLine, h]

/-- R71, R234: or is asked of its home. -/
theorem fetchLine_asks {pa : Nat} (h : s.tileCopy (c / 2) (pa / 64) = none) (hout : s.lineOut (c / 2) (pa / 64) = false) :
    s.fetchLine c pa = ((s.setL2 (c / 2) (pa / 64) { s.l2 (c / 2) (pa / 64) with st := .IS, at_ := s.waitClock }).send
      { k := .rdFetch, L := pa / 64, agent := c / 2, core := s.cix c, dom := s.govDom c }).setCore c
        { s.core c with fpend := (s.core c).fpend ++ [pa / 64] } := by
  simp only [State.fetchLine, h, hout, Bool.false_eq_true, if_false]

/-! ### Squashes -/

/-- R60, R66, R72: a squash after entry `i` of the window, which then takes `more`. -/
theorem squash_cuts (i : Nat) (more : List WinE) {t : State}
    (ht : t = s.setCore c { (s.core c).squashAfter i with win := (s.core c).win.take i ++ more }) :
    OnlyCore s t c (fun k => { k with win := k.win.take i ++ more, retS := k.retR, sfb := (t.core c).sfb, walkB := (t.core c).walkB })
    ∧ (∀ e, e ∈ (t.core c).sfb ↔ e ∈ (s.core c).sfb ∧ (e.prom = true ∨ ∃ w ∈ (s.core c).win.take i, w.usesLine e.L = true))
    ∧ ∀ b, b ∈ (t.core c).walkB ↔ b ∈ (s.core c).walkB ∧ ∃ w ∈ (s.core c).win.take i, w.usesWalk b = true := by
  have hcore : t.core c = { (s.core c).squashAfter i with win := (s.core c).win.take i ++ more } := by
    rw [ht, core_setCore_same]
  refine ⟨?_, fun e => ?_, fun b => ?_⟩
  · rw [hcore, ht]; exact onlyCore_setCore rfl
  · rw [hcore]
    simp only [Core.squashAfter, Core.dropUnused, List.mem_filter, Bool.or_eq_true, List.any_eq_true]
  · rw [hcore]
    simp only [Core.squashAfter, Core.dropUnused, List.mem_filter, List.any_eq_true]

/-- R57: a branch that went where it was predicted to. -/
theorem branchResolve_right {i : Nat} {pc target : W64} (hc : c < 512) (hrun : s.tileRuns (c / 2) = true) (hk : (s.core c).run = true)
    (hs : (s.core c).stopped = false) (hi : (s.core c).win.findIdx? (fun e => e.isBranch && e.pc == pc) = some i)
    (hb : (s.core c).win[i]? = some (.branch pc target)) : exec (.branchResolve c ⟨pc, target⟩) s = .next s := by
  simp only [exec_branchResolve, execBranchResolve, hi, hb, if_true]
  exact whenOk_true _ _ _ (by simp [hc, hrun, hk, hs])

/-- R57, R60: one that did not squashes what is younger. -/
theorem branchResolve_wrong {i : Nat} {pc target next : W64} (hc : c < 512) (hrun : s.tileRuns (c / 2) = true)
    (hk : (s.core c).run = true) (hs : (s.core c).stopped = false)
    (hi : (s.core c).win.findIdx? (fun e => e.isBranch && e.pc == pc) = some i)
    (hb : (s.core c).win[i]? = some (.branch pc next)) (hne : next ≠ target) : exec (.branchResolve c ⟨pc, target⟩) s
      = .next (s.setCore c { (s.core c).squashAfter i with win := (s.core c).win.take i ++ [.branch pc target] }) := by
  have hpath : ¬ (some (WinE.branch pc next) = some (.branch pc target)) := by
    simpa only [Option.some.injEq, WinE.branch.injEq, true_and] using hne
  simp only [exec_branchResolve, execBranchResolve, hi, hb, if_neg hpath]
  exact whenOk_true _ _ _ (by simp [hc, hrun, hk, hs])

/-- R79: a store whose address overlaps a younger completed load squashes from that load on. -/
theorem storeAddressResolve_squashes {i st n pa size : Nat} {acc : Acc} {mt : MT} {b : Bool} {pc target va : W64} {sf : Option Nat}
    {wk : Bool} (hc : c < 512) (hrun : s.tileRuns (c / 2) = true) (hk : (s.core c).run = true) (hs : (s.core c).stopped = false)
    (hacc : acc = .store ∨ acc = .atomic) (hx : s.specXlate c target acc = some (st, mt, b))
    (hi : (s.core c).win[i]? = some (.access pc va .load pa size sf wk true)) (hlo : st < pa + size) (hhi : pa < st + n) :
    exec (.storeAddressResolve c target n acc i) s = .next (s.setCore c ((s.core c).squashAfter i)) := by
  have hlen : i < (s.core c).win.length := (List.getElem?_eq_some_iff.mp hi).1
  have hgo : (!(acc == .store || acc == .atomic) || !(decide (c < 512) && s.tileRuns (c / 2) && (s.core c).run
      && !(s.core c).stopped)) = false := by
    obtain rfl | rfl := hacc <;> simp [hc, hrun, hk, hs]
  simp only [exec_storeAddressResolve, execStoreAddressResolve, hgo, hx, Bool.false_eq_true, if_false]
  rw [(List.find?_range_eq_some (i := i)).mpr ⟨?_, ?_, ?_⟩]
  · simp [hi, hlo, hhi]
  · exact List.mem_range.mpr hlen
  · intro j hj
    simp [Nat.not_le.mpr hj]

/-! ### Walks and marks -/

/-- R69, R218: a speculative walk waits in the walk buffer. -/
theorem tableWalk_waits {pc va : W64} {acc : Acc} {w : WalkOut} (hpriv : (s.core c).priv ≠ .M) (hrun : s.specRuns c = true)
    (hroom : (s.core c).walkB.length < 8) (hw : s.walk c true va acc true = .ok w) (huse : useCheck (s.core c) w.e va acc = none) :
    exec (.tableWalk c ⟨pc, va⟩ acc) s = .next ((s.setCore c { s.core c with
      walkB := (s.core c).walkB ++ [⟨acc == .fetch, va, s.freeVal, w⟩]
      win := (s.core c).win ++ [.access pc va acc 0 0 none true false] }).tickFree) := by
  have hgo : (!(s.specRuns c) || (s.core c).priv == .M || decide ((s.core c).walkB.length ≥ 8)) = false := by
    simp [hrun, hpriv, hroom]
  rw [exec_tableWalk]
  simp only [execTableWalk, hgo, hw, huse, Bool.false_eq_true, if_false, Option.isSome_none]
  rfl

/-- R216: the bits that a mark sets. -/
theorem marked_raw (raw : Nat) (acc : Acc) : setBit raw 9 ||| (if (acc == .store || acc == .atomic) = true then 2 ^ 10 else 0)
    = raw ||| (if acc = .store ∨ acc = .atomic then 0x600 else 0x200) := by
  rw [setBit, Nat.or_assoc]
  cases acc <;> rfl

/-- R216, R218: the mark goes to the entry's home as a compare-and-swap. -/
theorem markSwap_leaves {va : W64} {acc : Acc} {w : WalkOut} (hpriv : (s.core c).priv ≠ .M) (hissue : s.canIssue c = true)
    (hw : s.walk c false va acc false = .ok w) (huse : useCheck (s.core c) w.e va acc = none) (hneeds : w.e.needsMark acc = true)
    (hleaf : w.leafW = true) (hout : s.lineOut (c / 2) (w.leaf / 64) = false)
    (holder : (s.core c).sb.any (fun b => !b.gc && b.pa / 64 == w.leaf / 64) = false) :
    exec (.markSwap c va acc) s = .next ((s.updCore c (fun k => { k with
        commit := true, mark := some ⟨va, acc, w.raw, w.e.lvl, w.leaf / 64⟩ })).ask
      { k := .atomic, L := w.leaf / 64, agent := c / 2, core := s.cix c, dom := s.domOf (c / 2),
        at_ := some ⟨w.leaf, .cas, 8,
          BitVec.ofNat 64 (w.raw ||| (if acc = .store ∨ acc = .atomic then 0x600 else 0x200)), BitVec.ofNat 64 w.raw,
          ⟨0, .off, true⟩, 0⟩ }) := by
  rw [exec_markSwap, execMarkSwap, if_neg (by simp [hissue, hpriv])]
  simp only [State.markSend, hw, huse, hneeds, hleaf, hout, holder, Bool.not_true, Bool.or_self, Bool.false_eq_true, if_false,
    marked_raw]

/-- R216: what the answer of a mark's swap leaves: the entries that matched are gone from every TLB. -/
theorem atomReply_mark {m : Msg} {q : MarkReq} (hmark : (s.core c).mark = some q) (hstat : m.stat ≠ 2) :
    ∃ u, s.atomReply c m = u ∧ OnlyCore s u c (fun k => { k with
        mark := none, fill := [], itlb := (u.core c).itlb, dtlb := (u.core c).dtlb, l2tlb := (u.core c).l2tlb
        l2big := (u.core c).l2big })
      ∧ ∀ e, tlbMatch (u.core c) q.va e = true → e ∉ (u.core c).itlb ∧ e ∉ (u.core c).dtlb ∧ e ∉ (u.core c).l2tlb
        ∧ e ∉ (u.core c).l2big := by
  let drop (l : List TlbE) : List TlbE := l.filter (fun x => !(tlbMatch (s.core c) q.va x))
  let k1 : Core := { s.core c with
    mark := none, fill := [], itlb := drop (s.core c).itlb, dtlb := drop (s.core c).dtlb, l2tlb := drop (s.core c).l2tlb
    l2big := drop (s.core c).l2big }
  have hgone (l : List TlbE) (e : TlbE) (he : tlbMatch (s.core c) q.va e = true) : e ∉ drop l := by
    simp [drop, he]
  have hcore : (s.atomReply c m).core c = k1 := by
    simp only [State.atomReply, hmark, if_neg hstat, State.updCore, core_setCore_same]
    rfl
  refine ⟨_, rfl, ⟨?_, ?_, fun d hd => ?_⟩, fun e he => ?_⟩
  · simp only [State.atomReply, hmark, if_neg hstat]; rfl
  · rw [hcore]
  · simp only [State.atomReply, hmark, if_neg hstat, State.updCore]
    exact (core_setCore_ne (s.setCore c _) c d _ hd).trans (core_setCore_ne s c d _ hd)
  · rw [hcore] at he ⊢
    exact ⟨hgone _ e he, hgone _ e he, hgone _ e he, hgone _ e he⟩

end Sys2Proof.Laws
end

section
/-! PROOF. O19: illegal words trap; fetch, prediction, speculation and marks. -/
namespace Sys2Proof.Laws
open Sys2Proof Sys2Proof.Machine Sys2Proof.Safety

/-- Settles O19: an illegal word enters its trap, and each event of fetch and speculation is what its lemma says. -/
theorem illegalWordsFetchAndSpeculation : Obligations.IllegalWordsFetchAndSpeculation := by
  unfold Obligations.IllegalWordsFetchAndSpeculation
  refine ⟨⟨?core, ?keeper⟩, ?fetch, ?squashes, ?walks, ?marks⟩
  case core =>
    intro c word s hissue hill k m base
    obtain ⟨hvec, hpc, hcause, hval⟩ :
      base + 1 = crTVEC m ∧ base + 2 = crTPC m ∧ base + 3 = crTCAUSE m ∧ base + 4 = crTVAL m := trapRegister_numbers m
    rw [hvec, hpc, hcause, hval]
    let x : Cause := { code := 1, val := word.setWidth 64 }
    obtain ⟨-, hpriv, hto, -, hg⟩ := enter_fields k m x k.pc
    obtain ⟨htpc, htcause, -⟩ := cr0_enter k m x k.pc
    refine ⟨_, illegalInstruction_core hissue hill, rfl, ?_⟩
    rw [core_setCore_same]
    exact ⟨hpriv, hto.trans (pcMask_aligned _), htpc, htcause.trans (word_of_code 1 _), cr0_enter_crTVAL k m x k.pc,
      hg, enter_v k m x k.pc, fun d hd => core_setCore_ne s c d _ hd⟩
  case keeper =>
    intro h word s hready hexl hslot hill hhead
    obtain ⟨q, hq⟩ := kFill_keeper s h
    have hexl' : ((s.kFill h).keeper h).exl = false := by rw [hq]; exact hexl
    obtain ⟨md, hmd⟩ := keeper_kTrap hexl' { code := 1, val := word.setWidth 64 }
    obtain ⟨hpc, hcause, hval, hon, hpq, hk⟩ := kenter_exception { (s.kFill h).keeper h with mod := md }
      (by rw [hq]; exact hslot) 1 (word.setWidth 64)
    rw [← hmd, hq] at hpc hk
    rw [← hmd] at hcause hval hon hpq
    exact ⟨_, illegalInstruction_keeper hready hill hhead, hpc, hcause, hval, hon, hpq, hk⟩
  case fetch =>
    intro c pa mt s s1 hissue k k1 L f hx
    have hf : f = s1.fetchAt c k.pc pa true false := instructionFetch_goes hissue hx
    refine ⟨?hit, fun he => ⟨fun d hd => ?copy, fun hcopy hout => ?asks⟩⟩
    case hit =>
      intro e he hp hw kind
      have hgo : f = .next (s1.setCore c (k1.fetched k.pc (e.data.toNat / 2 ^ (8 * (pa % 64)) % 2 ^ 32))) :=
        hf.trans (fetchAt_hit he hp hw)
      refine ⟨fun hplain => by rw [hgo, fetched_plain hplain], fun b hb => ?_⟩
      rw [fetched_branch hb] at hgo
      refine ⟨_, hgo, ?_, fun hmiss => ?_⟩
      · rw [core_setCore_same]
        refine onlyCore_setCore ?_
        simp only [List.getLast?_concat]
        rfl
      · rw [core_setCore_same, predict_noEntry hmiss]
        exact ⟨rfl, rfl⟩
    case copy =>
      refine ⟨_, hf.trans ((fetchAt_miss he).trans (congrArg _ (fetchLine_copy hd))), ?_⟩
      have hcore : ((s1.setCore c (k1.l1iPut s1.freeVal L d)).tickFree).core c = k1.l1iPut s1.freeVal L d :=
        core_setCore_same s1 c _
      rw [hcore]
      exact ⟨mem_l1iPut k1 s1.freeVal d, rfl, rfl, rfl⟩
    case asks =>
      refine ⟨_, hf.trans ((fetchAt_miss he).trans (congrArg _ (fetchLine_asks hcopy hout))), ?_, rfl, rfl, ?_, fun d hd => ?_⟩
      · exact congrArg L2Line.st (l2_setL2_same s1 (c / 2) L { s1.l2 (c / 2) L with st := .IS, at_ := s1.waitClock })
      · exact core_setCore_same _ c _
      · exact core_setCore_ne _ c d _ hd
  case squashes =>
    intro c i st n pa size pc target next va sf wk s hc hrun hk hs k cut
    refine ⟨fun hi hb => ⟨fun heq => ?_, fun hne => ?_⟩, fun acc mt b hacc hx hi hlo hhi => ?_⟩
    · exact branchResolve_right hc hrun hk hs hi (heq ▸ hb)
    · exact ⟨_, branchResolve_wrong hc hrun hk hs hi hb hne, squash_cuts i [.branch pc target] rfl⟩
    · refine ⟨_, storeAddressResolve_squashes hc hrun hk hs hacc hx hi hlo hhi, squash_cuts i [] ?_⟩
      rw [List.append_nil]
      rfl
  case walks =>
    intro c pc va acc w s hpriv k
    refine ⟨fun hrun hroom hw huse => ?_, fun hissue hw huse hneeds hleaf hout holder => ?_⟩
    · exact ⟨_, tableWalk_waits hpriv hrun hroom hw huse, rfl, core_setCore_same s c _, fun d hd => core_setCore_ne s c d _ hd⟩
    · exact markSwap_leaves hpriv hissue hw huse hneeds hleaf hout holder
  case marks =>
    intro t c L m q s s1 s2 ht hs htake hreq hkind hd hstat hcore hans hmark
    obtain ⟨u, hu, honly, hgone⟩ := atomReply_mark (m := m) hmark hstat
    refine ⟨u, ?_, honly, hgone⟩
    rw [exec_data_atomic ht hs htake hreq hkind hd hans, hcore, hu]

end Sys2Proof.Laws
end

section
/-! SUPPORT. The entry of a call or breakpoint: what it leaves of a P-core and of a keeper, field by field (R132, R133, R325, R326,
R333). -/
namespace Sys2Proof.Laws
open Sys2Proof Sys2Proof.Machine Sys2Proof.Safety

variable {s : State} {c h : Nat}

/-! ### Fields of a status register -/

/-- A field reads as it was written. -/
theorem bits_putBits {lo w v : Nat} (x : W64) (hlo : lo + w ≤ 64) (hv : v < 2 ^ w) : bits (putBits x lo w v).toNat lo w = v := by
  refine Nat.eq_of_testBit_eq fun i => ?_
  rw [bits, Nat.testBit_mod_two_pow, Nat.testBit_div_two_pow, BitVec.testBit_toNat]
  by_cases hi : i < w
  · rw [Nat.add_comm, getLsbD_putBits _ _ _ _ (by omega)]
    simp [hi]
  · simp [hi, Nat.testBit_lt_two_pow (hv.trans_le (Nat.pow_le_pow_right (by decide) (Nat.le_of_not_lt hi)))]

/-- The bits of a field of width 1. -/
theorem testBit_bits_one (v lo : Nat) : (bits v lo 1).testBit 0 = v.testBit lo := by
  rw [bits, Nat.testBit_mod_two_pow, Nat.testBit_div_two_pow, Nat.zero_add]
  rfl

/-! ### A P-core -/

/-- Writes of control registers change nothing else of a core. -/
theorem setCr_cr {k k1 : Core} (h : ∃ cr, k1 = { k with cr := cr }) (n : Nat) (v : W64) : ∃ cr, k1.setCr n v = { k with cr := cr } := by
  obtain ⟨cr, rfl⟩ := h
  exact ⟨(({ k with cr := cr } : Core).setCr n v).cr, rfl⟩

theorem entryRegs_cr (k : Core) (m : Bool) (x : Cause) (tpc : W64) : ∃ cr, entryRegs k m x tpc = { k with cr := cr } := by
  have hregs := setCr_cr (setCr_cr (setCr_cr (setCr_cr (k := k) (k1 := k) ⟨k.cr, rfl⟩ (crTPC m) tpc) (crTCAUSE m) x.word) (crTVAL m) x.val)
    (crTSTAT m) (entryStat k m)
  rw [entryRegs]
  cases m with
  | true => exact setCr_cr hregs 0xC05 x.val2
  | false => exact hregs

/-- R133: an entry changes the control registers, the level and the pc, and of the rest what speculation and prediction hold. -/
theorem enter_frame (k : Core) (m : Bool) (x : Cause) (tpc : W64) : let k' := k.enter m x tpc
    k' = { k with cr := k'.cr, pc := k'.pc, priv := k'.priv, commit := false, fill := [], win := [], sfb := k'.sfb, walkB := k'.walkB,
                  dirT := k'.dirT, btb := k'.btb, btbLru := k'.btbLru, retR := k'.retR, retS := k'.retS } := by
  obtain ⟨cr, hregs⟩ := entryRegs_cr k m x tpc
  intro k'
  obtain hk' | hk' : k' = enteredLevel k m x tpc ∨ k' = (enteredLevel k m x tpc).clearPred := by
    rw [show k' = _ from enter_eq k m x tpc]
    by_cases hlevel : (if m then Priv.M else Priv.S) = k.priv
    · exact .inl (if_pos hlevel)
    · exact .inr (if_neg hlevel)
  all_goals
    rw [enteredLevel, hregs, squash_eq] at hk'
    generalize pcMask _ = pc, (if m then Priv.M else Priv.S) = priv at hk'
    clear_value k'
    subst hk'
    rfl

/-- R133: every control register but the level's trap registers keeps its value. -/
theorem cr0_enter_ne (k : Core) (m : Bool) (x : Cause) (tpc : W64) {j : Nat} (hstat : j ≠ crTSTAT m) (hpc : j ≠ crTPC m)
    (hcause : j ≠ crTCAUSE m) (hval : j ≠ crTVAL m) (hval2 : j ≠ 0xC05) : (k.enter m x tpc).cr0 j = k.cr0 j := by
  obtain ⟨hcr, -⟩ := enter_fields k m x tpc
  have hregs : (k.enter m x tpc).cr0 j = (entryRegs k m x tpc).cr0 j := by rw [Core.cr0, hcr]; rfl
  rw [hregs]
  cases m <;> simp [entryRegs, cr0_setCr_ne, hstat, hpc, hcause, hval, hval2]

/-- R133, R138: the status register of the level entered names the level left. -/
theorem entryStat_level (k : Core) (m : Bool) : if m then bits (entryStat k m).toNat 2 2 = k.priv.code
    else (entryStat k m).getLsbD 2 = (k.priv != .U) := by
  cases m with
  | true => exact bits_putBits _ (by decide) (by cases k.priv <;> decide)
  | false =>
    show (putBits _ 2 1 _).getLsbD 2 = _
    rw [getLsbD_putBits _ _ _ _ (by decide)]
    cases k.priv <;> rfl

/-- R138: TCAUSE of an exception that reports its code and the instruction's own. -/
theorem word_of_scode (code scode : Nat) : Cause.word { code := code, scode := scode } = BitVec.ofNat 64 (code + scode * 2 ^ 24) := by
  simp [Cause.word, Acc.code, b2n]

/-- R132: what is delegated, and from where. -/
theorem trapToM_eq (k : Core) (code : Nat) : k.trapToM code = (!((k.cr0 0xC0A).getLsbD code) || fixedM code || k.priv == .M) := by
  rw [Core.trapToM]
  cases (k.cr0 0xC0A).getLsbD code <;> cases fixedM code <;> cases k.priv <;> rfl

/-- R133: CALLS, CALLM and BRK save the next address. -/
theorem pCall_enters {code : Nat} (hcode : code ≠ 0x18) (scode : Nat) : pCall c code scode s
    = .next (s.setCore c ((s.core c).enter ((s.core c).trapToM code) { code := code, scode := scode } (pcNext (s.core c).pc))) := by
  rw [pCall, State.exception, if_neg (fun h => hcode h.1)]

/-! ### A keeper -/

/-- R326: KSTATUS at an entry: the enable and the module bit move to their saved places. -/
theorem getLsbD_kEntryStat_saved (st : W64) : (kEntryStat st).getLsbD 1 = st.getLsbD 0 ∧ (kEntryStat st).getLsbD 2 = false
    ∧ (kEntryStat st).getLsbD 3 = st.getLsbD 2 := by
  have h1 : 1 < 64 := by decide
  have h2 : 2 < 64 := by decide
  have h3 : 3 < 64 := by decide
  have henable : Nat.testBit (st.toNat % 2) 0 = st.getLsbD 0 := by
    rw [← pow_one 2, Nat.testBit_mod_two_pow, BitVec.testBit_toNat]; rfl
  have hmod : Nat.testBit (bits (putBits st 1 1 (st.toNat % 2)).toNat 2 1) 0 = st.getLsbD 2 := by
    rw [testBit_bits_one, BitVec.testBit_toNat, getLsbD_putBits _ _ _ _ h2]; rfl
  simp only [kEntryStat, getLsbD_putBits _ _ _ _ h1, getLsbD_putBits _ _ _ _ h2, getLsbD_putBits _ _ _ _ h3]
  exact ⟨henable, rfl, hmod⟩

/-- R324: pending writes do not look at the pc. -/
theorem applyPend_pc (k : Keeper) (pc : W64) : ({ k with pc := pc } : Keeper).applyPend = { k.applyPend with pc := pc } := by
  have hone (k : Keeper) (n : Nat) : applyOne { k with pc := pc } n = { applyOne k n with pc := pc } := by
    unfold applyOne; dsimp only; split <;> rfl
  have hfold (l : List Nat) (k : Keeper) : l.foldl applyOne { k with pc := pc } = { l.foldl applyOne k with pc := pc } := by
    induction l generalizing k with
    | nil => rfl
    | cons n l ih => rw [List.foldl_cons, hone, ih]; rfl
  exact congrArg (fun k1 : Keeper => { k1 with crP := [] }) (hfold kSyncRegs k)

/-- R325: outside a delay slot, a call enters as an exception one instruction on would. -/
theorem kenter_next (k : Keeper) (hslot : k.slot = none) (code scode : Nat) : k.enter { code := code, scode := scode } true
    = ({ k with pc := k.pc + 4 } : Keeper).enter { code := code + scode * 2 ^ 13 } false := by
  let cause : W64 := BitVec.ofNat 64 (code + scode * 2 ^ 13)
  let regs : Keeper := ((((k.setCr 0x802 (k.pc + 4)).setCr 0x803 0).setCr 0x804 cause).setCr 0x805 0).setCr 0x800
    (kEntryStat (k.cr0 0x800))
  have hcall : k.enter { code := code, scode := scode } true
      = { regs.applyPend with pc := regs.applyPend.cr0 0x801 &&& ~~~(3 : W64), slot := none, waitev := false, pq := [] } := by
    simp [Keeper.enter, hslot, kEntryStat, b2n, regs, cause]
  have hregs : kExceptionRegs { k with pc := k.pc + 4 } cause 0 = { regs with pc := k.pc + 4 } := rfl
  rw [hcall, kenter_exception_eq { k with pc := k.pc + 4 } hslot, hregs, applyPend_pc regs (k.pc + 4)]
  generalize regs.applyPend = applied
  rfl

/-- R325, R326: the control registers and the pc after the entry of an exception outside a delay slot. -/
theorem cr0_kenter_exception (k : Keeper) (hslot : k.slot = none) (code : Nat) (val : W64) :
    let k' := k.enter { code := code, val := val } false
    (∀ n, n ∉ kSyncRegs → k'.cr0 n = (kExceptionRegs k (BitVec.ofNat 64 code) val).cr0 n)
    ∧ k'.pc = ((Tbl.get none k.crP 0x801).getD (k.cr0 0x801)) &&& ~~~(3 : W64) ∧ k'.mod = k.mod := by
  have henter := kenter_exception_eq k hslot code val
  generalize BitVec.ofNat 64 code = cause at henter ⊢
  have hvec : (kExceptionRegs k cause val).cr0 0x801 = k.cr0 0x801 := by simp [kExceptionRegs, kcr0_setCr_ne]
  have hpend : (kExceptionRegs k cause val).crP = k.crP := rfl
  intro k'
  refine ⟨fun n hn => ?_, ?_, ?_⟩
  · have hcr : k'.cr0 n = (kExceptionRegs k cause val).applyPend.cr0 n := by simp only [k', henter]; rfl
    rw [hcr, cr0_applyPend, if_neg hn]
  · simp only [k', henter]
    rw [cr0_applyPend, if_pos (by decide), hvec, hpend]
  · simp only [k', henter]
    rw [applyPend_frame]
    rfl

/-- R325, R326: what a call or breakpoint outside a delay slot leaves of a keeper. -/
theorem kenter_call (k : Keeper) (hslot : k.slot = none) (code scode : Nat) :
    let k' := k.enter { code := code, scode := scode } true
    k'.pc = ((Tbl.get none k.crP 0x801).getD (k.cr0 0x801)) &&& ~~~(3 : W64)
    ∧ k'.cr0 0x802 = k.pc + 4 ∧ k'.cr0 0x803 = 0 ∧ k'.cr0 0x804 = BitVec.ofNat 64 (code + scode * 2 ^ 13) ∧ k'.cr0 0x805 = 0
    ∧ k'.exl = true ∧ k'.ie = false ∧ k'.modMode = false
    ∧ (k'.cr0 0x800).getLsbD 1 = k.ie ∧ (k'.cr0 0x800).getLsbD 3 = k.modMode ∧ k'.k = k.k ∧ k'.mod = k.mod := by
  rw [kenter_next k hslot]
  intro k'
  let k1 : Keeper := { k with pc := k.pc + 4 }
  obtain ⟨htpc, hcause, hval, hon, -, hk⟩ := kenter_exception k1 hslot (code + scode * 2 ^ 13) 0
  obtain ⟨hcr, hpc, hmod⟩ := cr0_kenter_exception k1 hslot (code + scode * 2 ^ 13) 0
  have hstat : k'.cr0 0x800 = kEntryStat (k.cr0 0x800) := (hcr 0x800 (by decide)).trans (kcr0_setCr_same _ _ _)
  have hslotReg : k'.cr0 0x803 = 0 := (hcr 0x803 (by decide)).trans (by simp [kExceptionRegs, kcr0_setCr_same, kcr0_setCr_ne])
  obtain ⟨hoff, -⟩ := getLsbD_kEntryStat (k.cr0 0x800)
  obtain ⟨hsavedIe, hmodOff, hsavedMod⟩ := getLsbD_kEntryStat_saved (k.cr0 0x800)
  rw [← hstat] at hoff hsavedIe hmodOff hsavedMod
  exact ⟨hpc, htpc, hslotReg, hcause, hval, hon, hoff, hmodOff, hsavedIe, hsavedMod, hk, hmod⟩

/-! ### The module's part (R333) -/

/-- R326: outside EXL a trap unloads the module where it must, and enters. -/
theorem kTrap_enters_after (hexl : (s.keeper h).exl = false) (x : KCause) (next : Bool) :
    s.kTrap h x next = (s.modTrap h x).setKeeper h (((s.modTrap h x).keeper h).enter x next) := by
  simp only [State.kTrap, hexl, Bool.false_eq_true, if_false]

theorem modTrap_outside (hmod : (s.keeper h).modMode = false) (x : KCause) : s.modTrap h x = s := by
  simp only [State.modTrap, hmod, Bool.false_and, Bool.false_eq_true, if_false]

theorem modTrap_ksram (x : KCause) : (s.modTrap h x).ksram = s.ksram := by
  have hrecord (t : State) (cls unit sev code d0 d1 : Nat) : (t.record cls unit sev code d0 d1).ksram = t.ksram := by
    unfold State.record; dsimp only; split <;> rfl
  have hraise (t : State) (src bit : Nat) : (t.raise src bit).ksram = t.ksram := by
    have honly := regsOnly_raise t src bit
    unfold RegsOnly at honly
    rw [honly]
  unfold State.modTrap
  dsimp only
  split
  · rw [hraise, hrecord]; rfl
  · rfl

/-- R333: a trap of module mode other than CALLS 0 unloads the module. -/
theorem modTrap_unloads (hmod : (s.keeper h).modMode = true) {x : KCause} (hintr : x.intr = false)
    (hcall : ¬ (x.code = 3 ∧ x.scode = 0)) :
    ((s.modTrap h x).keeper h).mod = none ∧ (s.modTrap h x).f (R.HIV_KMOD_STAT_STATUS h) = 0 := by
  have hpower : InPower (R.HIV_KMOD_STAT_STATUS h) := by
    simp only [InPower, Fld.key, R.HIV_KMOD_STAT_STATUS, hiveBase]
    omega
  have htrap : s.modTrap h x = ((s.modUnload h).record 3 h 3 0x0401 x.code (((s.keeper h).mod.map (·.ver)).getD 0)).raise (768 + h) 1 := by
    simp [State.modTrap, hmod, hintr, hcall]
  constructor
  · rw [htrap]
    simp only [State.keeper, raise_keepers, record_keepers]
    show ((s.setKeeper h { s.keeper h with mod := none }).keeper h).mod = none
    rw [keeper_setKeeper_same]
  · rw [htrap, f_raise_above _ _ _ hpower.above, f_record_power hpower, State.modUnload, f_setF_same]
    rfl

end Sys2Proof.Laws
end

section
/-! PROOF. O9: CALLS, CALLM and BRK. -/
namespace Sys2Proof.Laws
open Sys2Proof Sys2Proof.Machine Sys2Proof.Safety

variable {s : State} {c h : Nat}

/-- R130, R132, R133: what the exception of a call or breakpoint leaves of its core. `m`: it is taken at M. -/
theorem call_enters (s : State) (c : Nat) {m : Bool} {code scode : Nat} (hm : (s.core c).trapToM code = m) {t : State}
    (ht : t = s.setCore c ((s.core c).enter ((s.core c).trapToM code) { code := code, scode := scode } (pcNext (s.core c).pc))) :
    let k := s.core c
    let k' := t.core c
    t = { s with cores := t.cores } ∧ (∀ d, s.cix d ≠ s.cix c → t.core d = s.core d)
      ∧ k'.priv = (if m then .M else .S) ∧ k'.pc = k.cr0 (crTVEC m) &&& 0x0FFFFFFFFFFFFFFC
      ∧ k'.cr0 (crTPC m) = pcMask (k.pc + 4) ∧ k'.cr0 (crTCAUSE m) = BitVec.ofNat 64 (code + scode * 2 ^ 24)
      ∧ k'.cr0 (crTVAL m) = 0 ∧ (k'.cr0 (crTSTAT m)).getLsbD 0 = false
      ∧ (k'.cr0 (crTSTAT m)).getLsbD 1 = (k.cr0 (crTSTAT m)).getLsbD 0
      ∧ (if m then bits (k'.cr0 (crTSTAT m)).toNat 2 2 = k.priv.code else (k'.cr0 (crTSTAT m)).getLsbD 2 = (k.priv != .U))
      ∧ k'.g = k.g ∧ k'.p = k.p ∧ k'.v = k.v ∧ k'.sb = k.sb ∧ k'.win = []
      ∧ ∀ j, j ≠ crTSTAT m → j ≠ crTVEC m → j ≠ crTPC m → j ≠ crTCAUSE m → j ≠ crTVAL m → j ≠ 0xC05 → k'.cr0 j = k.cr0 j := by
  intro k k'
  rw [hm] at ht
  let x : Cause := { code := code, scode := scode }
  have hcore : k' = k.enter m x (pcNext k.pc) := by rw [show k' = t.core c from rfl, ht]; exact core_setCore_same s c _
  obtain ⟨-, hpriv, hpc, -⟩ := enter_fields k m x (pcNext k.pc)
  obtain ⟨htpc, hcause, hstat⟩ := cr0_enter k m x (pcNext k.pc)
  have hval := cr0_enter_crTVAL k m x (pcNext k.pc)
  have hother {j : Nat} := cr0_enter_ne k m x (pcNext k.pc) (j := j)
  have hframe := enter_frame k m x (pcNext k.pc)
  obtain ⟨hoff, hsaved⟩ := getLsbD_entryStat k m
  have hlevel := entryStat_level k m
  rw [← hcore] at hpriv hpc htpc hcause hstat hval hother hframe
  rw [← hstat] at hoff hsaved hlevel
  refine ⟨by rw [ht]; rfl, fun d hd => by rw [ht]; exact core_setCore_ne s c d _ hd, hpriv, hpc.trans (pcMask_aligned _), htpc,
    hcause.trans (word_of_scode _ _), hval, hoff, hsaved, hlevel, ?_, ?_, ?_, ?_, ?_,
    fun j hj _ hp hc hv h5 => hother hj hp hc hv h5⟩ <;> rw [hframe]

/-- R325, R326, R333: what a call or breakpoint leaves of a keeper outside EXL and delay slots, and of the machine. -/
theorem keeperCall_enters (hslot : (s.keeper h).slot = none) (hexl : (s.keeper h).exl = false) (code scode : Nat) {t : State}
    (ht : t = (s.kFill h).kTrap h { code := code, scode := scode } true) :
    let k := s.keeper h
    let k' := t.keeper h
    k'.pc = ((Tbl.get none k.crP 0x801).getD (k.cr0 0x801)) &&& ~~~(3 : W64)
    ∧ k'.cr0 0x802 = k.pc + 4 ∧ k'.cr0 0x803 = 0 ∧ k'.cr0 0x804 = BitVec.ofNat 64 (code + scode * 2 ^ 13)
    ∧ k'.cr0 0x805 = 0 ∧ k'.exl = true ∧ k'.ie = false ∧ k'.modMode = false
    ∧ (k'.cr0 0x800).getLsbD 1 = k.ie ∧ (k'.cr0 0x800).getLsbD 3 = k.modMode ∧ k'.k = k.k ∧ t.ksram = s.ksram
    ∧ (k.modMode = false → t = { s with keepers := t.keepers })
    ∧ (k.modMode = true → ¬ (code = 3 ∧ scode = 0) → k'.mod = none ∧ t.f (R.HIV_KMOD_STAT_STATUS h) = 0) := by
  intro k k'
  obtain ⟨u, hu⟩ : ∃ u, s.kFill h = u := ⟨_, rfl⟩
  obtain ⟨x, hx⟩ : ∃ x : KCause, x = { code := code, scode := scode } := ⟨_, rfl⟩
  rw [hu, ← hx] at ht
  have hframe : u = { s with keepers := u.keepers } := by rw [← hu]; exact kFill_frame s h
  obtain ⟨q, hq⟩ : ∃ q, u.keeper h = { k with pq := q } := by rw [← hu]; exact kFill_keeper s h
  have hmode : (u.keeper h).modMode = k.modMode := by rw [hq]; rfl
  have hmd := keeper_modTrap u h x
  have htrap := ht.trans (kTrap_enters_after (by rw [hq]; exact hexl) x true)
  have hsram := modTrap_ksram (s := u) (h := h) x
  have hstays := modTrap_outside (s := u) (h := h) (x := x)
  have hunloads := modTrap_unloads (s := u) (h := h) (x := x)
  generalize u.modTrap h x = u1 at hmd htrap hsram hstays hunloads
  have hk' : k' = (u1.keeper h).enter x true := by rw [show k' = t.keeper h from rfl, htrap]; exact keeper_setKeeper_same u1 h _
  rw [hx] at hk'
  rw [hq] at hmd
  obtain ⟨hpc, htpc, htslot, hcause, hval, hon, hoff, hmodOff, hsavedIe, hsavedMod, hregs, hmod⟩ :=
    kenter_call (u1.keeper h) (by rw [hmd]; exact hslot) code scode
  rw [← hk'] at hpc htpc htslot hcause hval hon hoff hmodOff hsavedIe hsavedMod hregs hmod
  refine ⟨?_, ?_, htslot, hcause, hval, hon, hoff, hmodOff, ?_, ?_, ?_, ?_, fun hout => ?_, fun hin hcall => ?_⟩
  · rw [hpc, hmd]; rfl
  · rw [htpc, hmd]
  · rw [hsavedIe, hmd]; rfl
  · rw [hsavedMod, hmd]; rfl
  · rw [hregs, hmd]
  · rw [htrap, setKeeper_ksram, hsram, hframe]
  · rw [htrap, hstays (hmode.trans hout), hframe]
    rfl
  · obtain ⟨hnone, hstatus⟩ := hunloads (hmode.trans hin) (by rw [hx]) (by rw [hx]; exact hcall)
    exact ⟨hmod.trans hnone, by rw [htrap, f_setKeeper]; exact hstatus⟩

/-- Settles O9: the three instructions are their exception, which enters at the level that delegation gives. -/
theorem callsTakeTheirTrap : Obligations.CallsTakeTheirTrap := by
  unfold Obligations.CallsTakeTheirTrap
  refine ⟨?core, ?keeper⟩
  case core =>
    intro c pr code s hready k enters
    have entered {i : Instr} {n : Nat} (hn : n = 3 ∨ n = 4 ∨ n = 5) (hexec : exec i s = pCall c n code.toNat s) : enters i n := by
      have hlevel : k.trapToM n = (!((k.cr0 0xC0A).getLsbD n) || n == 4 || k.priv == .M) := by
        rw [trapToM_eq]
        obtain rfl | rfl | rfl := hn <;> rfl
      have hcode : n ≠ 0x18 := by omega
      refine ⟨_, hexec.trans (pCall_enters hcode _), ?_⟩
      intro m base k'
      obtain ⟨hvec, hpc, hcause, hval⟩ := trapRegister_numbers m
      rw [show base + 1 = crTVEC m from hvec, show base + 2 = crTPC m from hpc, show base + 3 = crTCAUSE m from hcause,
        show base + 4 = crTVAL m from hval]
      exact call_enters s c hlevel rfl
    refine ⟨entered (.inl rfl) ?_, entered (.inr (.inr rfl)) ?_, fun hpriv => entered (.inr (.inl rfl)) ?_⟩
    · rw [exec_calls, execCalls, pRun_ready s c pr true _ hready rfl]
    · rw [exec_brk, execBrk, pRun_ready s c pr true _ hready rfl]
    · rw [exec_callm, execCallm, pRun_ready s c pr true _ hready rfl, pPriv, if_pos (by simpa using hpriv)]
  case keeper =>
    intro h code s hready hslot hexl k enters
    have entered {i : Instr} {n : Nat} (hexec : exec i s = .next ((s.kFill h).kTrap h { code := n, scode := code.toNat } true)) :
        enters i n := by
      obtain ⟨hpc, htpc, htslot, hcause, hval, hon, hoff, hmodOff, hsavedIe, hsavedMod, hregs, hsram, hout, hin⟩ :=
        keeperCall_enters hslot hexl n code.toNat rfl
      refine ⟨_, hexec, hpc, htpc, htslot, hcause, hval, hon, hoff, hmodOff, hsavedIe, hsavedMod, hregs, hsram, hout,
        fun hmod hcall => hin hmod fun hcode => hcall ⟨hcode.1, BitVec.eq_of_toNat_eq hcode.2⟩⟩
    refine ⟨entered ?_, entered ?_⟩
    · rw [exec_calls, execCalls, kRun_ready s h ((0 : BitVec 4) == 0) _ _ hready rfl (.inr hslot)]
    · rw [exec_brk, execBrk, kRun_ready s h ((0 : BitVec 4) == 0) _ _ hready rfl (.inr hslot)]

end Sys2Proof.Laws
end

section
/-! PROOF. O10 fails: it says that after TRET a core's interrupt stands recognised exactly where one can be taken there. A core whose
TRET has reached its commit point may have recognised one before the return (R83), and keeps it recognised where the return turns
interrupts off: the entry then takes none. -/
namespace Sys2Proof.Laws
open Sys2Proof Sys2Proof.Machine Sys2Proof.Safety

/-- Core 0 in S, at a TRET that has reached its commit point (the mark of its page has been answered), with the S timer due and
interrupts on; the saved status has them off, and names S (S_TSTAT: IE = 1, PIE = 0, PP = 1). -/
def markedReturn : State :=
  { State.reset with cores := [(0, { priv := .S, cr := [(0x400, 0x5), (0x406, 0)], run := true, commit := true })] }

/-- The same with its interrupt recognised. -/
def recognisedReturn : State := markedReturn.updCore 0 (fun k => { k.squash with recog := true })

/-- R83: recognition leads there. -/
theorem markedReturn_recognises : exec (.interruptRecognition 0) markedReturn = .next recognisedReturn := by
  rw [exec_interruptRecognition]
  exact whenOk_true _ _ _ (by decide +kernel)

theorem recognisedReturn_ready : ReadyP 0 0 recognisedReturn ∧ (recognisedReturn.core 0).priv ≠ .U
    ∧ Tbl.get 0 recognisedReturn.tilePark (0 / 2) ≠ 1 := by
  simp only [ReadyP]
  decide +kernel

/-- R135: the core above U executes its TRET. -/
theorem exec_tret_core {c : Nat} {pr : BitVec 4} {s : State} (hready : ReadyP c pr s) (hpriv : (s.core c).priv ≠ .U) :
    exec (.tret (.core c) pr) s = .next (s.tretP c) := by
  rw [exec_tret, execTret, pRun_ready s c pr true _ hready rfl, pPriv, if_pos (by simpa using hpriv)]

/-- After the return no interrupt can be taken, and one stands recognised. -/
theorem recognisedReturn_tret : ((recognisedReturn.tretP 0).core 0).recog = true
    ∧ ((recognisedReturn.tretP 0).intrOf 0).isSome = false := by
  decide +kernel

/-- Refutes O10: `recognisedReturn` returns to S with interrupts off, and its core's interrupt stays recognised. -/
theorem not_returnsFromTrap : ¬ Obligations.ReturnsFromTrap := by
  unfold Obligations.ReturnsFromTrap
  rintro ⟨h, -⟩
  obtain ⟨hready, hpriv, hpark⟩ := recognisedReturn_ready
  obtain ⟨hreturns, -⟩ := h 0 0 recognisedReturn hready hpriv
  obtain ⟨t, hexec, -, -, -, -, -, -, -, hrecog, -⟩ := hreturns (.inl hpark)
  obtain ⟨hstands, hnone⟩ := recognisedReturn_tret
  rw [← Host.Outcome.next.inj ((exec_tret_core hready hpriv).symm.trans hexec), hstands, hnone] at hrecog
  exact Bool.noConfusion hrecog

end Sys2Proof.Laws
end

section
/-! SUPPORT. Retirement of a core that waited or whose younger work is gone; wake-ups in full (R148); translation buffers after
TLBI (R224); and the control registers that only hold a value (R116, R117, R138). -/
namespace Sys2Proof.Laws
open Sys2Proof Sys2Proof.Machine Sys2Proof.Safety

variable {s : State} {c h : Nat} {pr : BitVec 4}

/-! ### Retirement does not look at the rest of the core -/

theorem install_buffersFrom (k k' : Core) (free : Nat) (w : WalkOut) (fetch : Bool) (va : W64) :
    (buffersFrom k' k).install free w fetch va = buffersFrom k' (k.install free w fetch va) := by
  unfold Core.install
  by_cases hbig : w.e.sz ≥ 21 <;> cases fetch <;> simp only [hbig, if_true, if_false, Bool.false_eq_true] <;> rfl

/-- R69: what an instruction's walks leave in the buffers depends on the buffers alone. -/
theorem settle_buffersFrom (k k' : Core) (hfill : k'.fill = k.fill) :
    (buffersFrom k' k).settle = { buffersFrom k' k.settle with fill := [], commit := false } := by
  have hfold (l : List WalkB) (k : Core) : l.foldl (fun (k : Core) b => k.install b.free b.w b.fetch b.va) (buffersFrom k' k)
      = buffersFrom k' (l.foldl (fun (k : Core) b => k.install b.free b.w b.fetch b.va) k) := by
    induction l generalizing k with
    | nil => rfl
    | cons b l ih => rw [List.foldl_cons, install_buffersFrom, ih]; rfl
  have hwalks : (buffersFrom k' k).fill = k.fill := hfill
  unfold Core.settle
  rw [hwalks, hfold]
  rfl

/-- Retirement does not look at whether the core waits. -/
theorem leave_waitev (k : Core) (b : Bool) (next : W64) :
    ({ k with waitev := b } : Core).leave next = { k.leave next with waitev := b } := by
  have hsettle : ({ k with waitev := b } : Core).settle = { k.settle with waitev := b } := by
    refine (settle_buffersFrom k { k with waitev := b } rfl).trans ?_
    rw [settle_frame k]
    rfl
  unfold Core.leave
  dsimp only
  rw [hsettle]
  split
  · split
    · rfl
    · split <;> rfl
  · rfl

/-- R148: a core that stops waiting retires as if it had not waited. -/
theorem retire_waited {k : Core} (hw : k.waitev = false) :
    { ({ k with waitev := true } : Core).retire with waitev := false } = k.retire := by
  have hretire : ({ k with waitev := true } : Core).retire = { k.retire with waitev := true } := leave_waitev k true (pcNext k.pc)
  have hstays : k.retire.waitev = false := by rw [retire_sameBack k]; exact hw
  rw [hretire, ← hstays]

/-- R60, R66: the retirement of an instruction whose younger work is squashed. -/
theorem retire_squash (k : Core) : k.squash.retire = { k.settle with
    pc := pcNext k.pc, win := [], sfb := k.sfb.filter (·.prom), walkB := [], retS := k.retR } := by
  have hsettle : k.squash.settle = { buffersFrom k.squash k.settle with fill := [], commit := false } :=
    settle_buffersFrom k k.squash rfl
  rw [settle_frame k, Core.retire, Core.leave, hsettle, squash_eq]
  simp [Core.dropUnused, buffersFrom]

/-! ### WAITEV -/

/-- R148: what ends a WAITEV at a core: an entry, or a timer that is due. -/
theorem wakeable_iff {k : Core} : s.wakeable k = true
    ↔ k.held ≠ [] ∨ s.time ≥ (k.cr0 0xC07).toNat ∨ s.time ≥ (k.cr0 0x406).toNat := by
  simp [State.wakeable, State.timerPend, or_assoc]

/-- R83, R148: a core that something wakes goes on behind its WAITEV, its interrupt recognised where it can be taken. -/
theorem wakeCore_due (hw : (s.core c).waitev = false) (hdue : s.wakeable (s.core c) = true) :
    OnlyCore s ((s.updCore c (fun k => { k with waitev := true })).wakeCore c) c
      (fun k => if (s.intrOf c).isSome then { k.retire.squash with recog := true } else k.retire) := by
  let u := s.updCore c (fun k => { k with waitev := true })
  have hcore : u.core c = { s.core c with waitev := true } := core_setCore_same s c _
  have hawake : { (u.core c).retire with waitev := false } = (s.core c).retire := by rw [hcore, retire_waited hw]
  have hwake : u.wakeCore c = (u.setCore c (s.core c).retire).recogNow c := by
    rw [State.wakeCore, hawake, if_pos]
    rw [hcore]
    exact hdue
  have hback : SameBack (s.core c) (s.core c).retire := retire_sameBack _
  have hintr : (u.setCore c (s.core c).retire).intrOf c = s.intrOf c := by
    unfold State.intrOf
    rw [core_setCore_same, hback]
    rfl
  have hne (d : Nat) (hd : s.cix d ≠ s.cix c) : (u.setCore c (s.core c).retire).core d = s.core d :=
    (core_setCore_ne u c d _ hd).trans (core_setCore_ne s c d _ hd)
  rw [hwake, State.recogNow, hintr]
  by_cases hi : (s.intrOf c).isSome = true
  · simp only [if_pos hi]
    refine ⟨rfl, ?_, fun d hd => (core_setCore_ne (u.setCore c (s.core c).retire) c d _ hd).trans (hne d hd)⟩
    rw [State.updCore, core_setCore_same, core_setCore_same]
  · simp only [if_neg hi]
    exact ⟨rfl, core_setCore_same u c _, hne⟩

theorem wakeCore_waits (hdue : s.wakeable (s.core c) = false) :
    OnlyCore s ((s.updCore c (fun k => { k with waitev := true })).wakeCore c) c (fun k => { k with waitev := true }) := by
  let u := s.updCore c (fun k => { k with waitev := true })
  have hcore : u.core c = { s.core c with waitev := true } := core_setCore_same s c _
  have hsleeps : u.wakeCore c = u := by
    rw [State.wakeCore, if_neg]
    rw [hcore, Bool.and_eq_true]
    exact fun hwake => absurd hwake.2 (Bool.eq_false_iff.mp hdue)
  rw [hsleeps]
  exact updCore_only s c _

/-- R148: the same of a keeper outside a delay slot. -/
theorem wakeKeeper_due {k : Keeper} (hk : s.keeper h = { k with waitev := true }) (hslot : k.slot = none) (hw : k.waitev = false)
    (hr : k.recog = false) (hdue : k.held ≠ [] ∨ s.time ≥ (k.cr0 0x808).toNat) :
    (s.wakeKeeper h).keeper h = { k with pc := k.pc + 4, recog := (s.kIntr k).isSome, pq := k.pq.tail } := by
  have hawake : { (s.keeper h).retire with waitev := false } = { k with pc := k.pc + 4, pq := k.pq.tail } := by
    rw [hk, Keeper.retire]
    simp only [hslot, ← hw]
  have hwake : s.wakeKeeper h = (s.setKeeper h { k with pc := k.pc + 4, pq := k.pq.tail }).kRecog h := by
    rw [State.wakeKeeper, hawake, if_pos]
    have hcr : ({ k with waitev := true } : Keeper).cr0 0x808 = k.cr0 0x808 := rfl
    rw [hk]
    simpa [State.kTimer, hcr] using hdue
  have hintr : (s.setKeeper h { k with pc := k.pc + 4, pq := k.pq.tail }).kIntr { k with pc := k.pc + 4, pq := k.pq.tail }
      = s.kIntr k := rfl
  rw [hwake, State.kRecog, keeper_setKeeper_same, hintr]
  by_cases hi : (s.kIntr k).isSome = true
  · rw [if_pos hi, keeper_setKeeper_same, hi]
  · rw [if_neg hi, keeper_setKeeper_same, Bool.eq_false_iff.mpr hi, ← hr]

/-- R148: and one that nothing wakes waits. -/
theorem wakeKeeper_waits {k : Keeper} (hk : s.keeper h = { k with waitev := true })
    (hdue : ¬ (k.held ≠ [] ∨ s.time ≥ (k.cr0 0x808).toNat)) : s.wakeKeeper h = s := by
  have hcr : ({ k with waitev := true } : Keeper).cr0 0x808 = k.cr0 0x808 := rfl
  rw [State.wakeKeeper, if_neg]
  rw [hk]
  simpa [State.kTimer, hcr] using hdue

/-- R148: a wake-up of a keeper changes that keeper alone. -/
theorem wakeKeeper_frame (s : State) (h : Nat) : s.wakeKeeper h = { s with keepers := (s.wakeKeeper h).keepers }
    ∧ ∀ g, g ≠ h → (s.wakeKeeper h).keeper g = s.keeper g := by
  have recognised (u : State) : u.kRecog h = { u with keepers := (u.kRecog h).keepers }
      ∧ ∀ g, g ≠ h → (u.kRecog h).keeper g = u.keeper g := by
    unfold State.kRecog
    dsimp only
    split
    · exact ⟨rfl, fun g hg => keeper_setKeeper_ne u h g _ hg⟩
    · exact ⟨rfl, fun g _ => rfl⟩
  unfold State.wakeKeeper
  dsimp only
  split
  · obtain ⟨hframe, hne⟩ := recognised (s.setKeeper h { (s.keeper h).retire with waitev := false })
    exact ⟨hframe, fun g hg => (hne g hg).trans (keeper_setKeeper_ne s h g _ hg)⟩
  · exact ⟨rfl, fun g _ => rfl⟩

/-! ### TLBI -/

/-- R224: `t` is `s` after core `c` lost from its translation buffers, walks of its own installed, the entries `gone` and the stage-2
entries `s2gone`, with its walk buffer and what is younger, and went on. -/
def Invalidates (s t : State) (c : Nat) (gone : TlbE → Prop) (s2gone : S2E → Prop) : Prop :=
  let k := (s.core c).settle
  let k' := t.core c
  OnlyCore s t c (fun k => { k.squash.retire with itlb := k'.itlb, dtlb := k'.dtlb, l2tlb := k'.l2tlb, l2big := k'.l2big,
                                                  walkB := [], walkC := [], s2C := k'.s2C })
  ∧ ∀ e, (e ∈ k'.itlb ↔ e ∈ k.itlb ∧ ¬ gone e) ∧ (e ∈ k'.dtlb ↔ e ∈ k.dtlb ∧ ¬ gone e)
    ∧ (e ∈ k'.l2tlb ↔ e ∈ k.l2tlb ∧ ¬ gone e) ∧ (e ∈ k'.l2big ↔ e ∈ k.l2big ∧ ¬ gone e)
    ∧ ∀ y, y ∈ k'.s2C ↔ y ∈ k.s2C ∧ ¬ s2gone y

/-- R224: what retirement leaves of a core whose buffers were filtered after its walks were installed. -/
theorem retire_filtered (k : Core) (keep : TlbE → Bool) (l : List S2E) :
    ({ k.settle.filterTlb keep with s2C := l } : Core).squash.retire
      = { k.squash.retire with
          itlb := k.settle.itlb.filter keep, dtlb := k.settle.dtlb.filter keep, l2tlb := k.settle.l2tlb.filter keep
          l2big := k.settle.l2big.filter keep, walkB := [], walkC := [], s2C := l } := by
  have hfill : ({ k.settle.filterTlb keep with s2C := l } : Core).fill = [] := rfl
  rw [retire_squash, retire_squash, settle_of_no_walk _ hfill, settle_frame k]
  rfl

/-- R115, R224: TLBI at its level with older work complete. `f` filters the translation buffers and the stage-2 cache. -/
theorem tlbi_invalidates {i : Instr} {m : Bool} {word : Nat} {f : Core → Core} (hi : exec i s = tlbi c pr m word f s)
    (hready : ReadyP c pr s) (hdrained : s.drained c = true)
    (hlevel : ((s.core c).priv == .M || (!m && (s.core c).priv == .S)) = true) (keep : TlbE → Bool)
    {gone : TlbE → Prop} {s2gone : S2E → Prop}
    (hf : f (s.core c).settle = { (s.core c).settle.filterTlb keep with s2C := (f (s.core c).settle).s2C })
    (hgone : ∀ e, keep e = true ↔ ¬ gone e)
    (hs2 : ∀ y, y ∈ (f (s.core c).settle).s2C ↔ y ∈ (s.core c).settle.s2C ∧ ¬ s2gone y) :
    ∃ t, exec i s = .next t ∧ Invalidates s t c gone s2gone := by
  let t := s.updCore c (fun k => (f k.settle).squash.retire)
  have hcore : t.core c = { (s.core c).squash.retire with
      itlb := (s.core c).settle.itlb.filter keep, dtlb := (s.core c).settle.dtlb.filter keep
      l2tlb := (s.core c).settle.l2tlb.filter keep, l2big := (s.core c).settle.l2big.filter keep
      walkB := [], walkC := [], s2C := (f (s.core c).settle).s2C } := by
    rw [← retire_filtered, ← hf]
    exact core_setCore_same s c _
  have hexec : exec i s = .next t := by
    rw [hi, tlbi, pRun_ready s c pr true _ hready rfl, pPriv, if_pos hlevel, if_pos hdrained]
  have hkept (l : List TlbE) (e : TlbE) : e ∈ l.filter keep ↔ e ∈ l ∧ ¬ gone e := by rw [List.mem_filter, hgone]
  refine ⟨t, hexec, ⟨rfl, ?_, fun d hd => core_setCore_ne s c d _ hd⟩, fun e => ?_⟩
  · rw [hcore]
  · rw [hcore]
    exact ⟨hkept _ e, hkept _ e, hkept _ e, hkept _ e, hs2⟩

/-! ### Control registers that only hold a value (R138) -/

/-- R138: the registers that only hold a value: no access of them has a side effect, and nothing else supplies what they read. -/
def plainCrs : List Nat :=
  [0x000, 0x400, 0x401, 0x402, 0x403, 0x404, 0x405, 0x406, 0x407, 0x409, 0xC01, 0xC02, 0xC03, 0xC04, 0xC05, 0xC06, 0xC07, 0xC08,
   0xC0A, 0xC0B, 0xC0C]

theorem plainCrs_implemented : ∀ n ∈ plainCrs, crExists n = true ∧ n / 1024 ≠ 2 ∧ bits n 9 1 ≠ 1 ∧ pmcrOf n = none ∧ crMask n ≠ 0
    ∧ n ∉ [0x200, 0x201, 0x408, 0xC09, 0x600, 0xE00, 0x40A, 0xC00] := by
  decide

variable {n : Nat}

theorem crRead_plain (hn : n ∈ plainCrs) : s.crRead c n = (s, (s.core c).cr0 n) := by
  obtain ⟨-, -, -, hpmcr, -, hside⟩ := plainCrs_implemented n hn
  simp only [List.mem_cons, List.not_mem_nil, or_false, not_or] at hside
  unfold State.crRead
  split <;> simp_all

theorem crWrite_plain (hn : n ∈ plainCrs) (v : W64) : s.crWrite c n v = s.updCore c (fun k => k.setCr n (v &&& crMask n)) := by
  obtain ⟨-, -, -, -, hmask, hside⟩ := plainCrs_implemented n hn
  simp only [List.mem_cons, List.not_mem_nil, or_false, not_or] at hside
  unfold State.crWrite
  split <;> simp_all

/-- R117: at a sufficient level the access passes its checks. -/
theorem crCheck_plain (hn : n ∈ plainCrs) (hlevel : (s.core c).priv = .M ∨ ((s.core c).priv = .S ∧ n < 0xC00) ∨ n < 0x400)
    (o : CrOp) (rd ra : Nat) : s.crCheck c o rd ra n = none := by
  obtain ⟨hex, hcls, hro, hpmcr, -, hside⟩ := plainCrs_implemented n hn
  have htime : n ≠ 0x200 := fun h => hside (by simp [h])
  have hpriv : ¬ ((s.core c).priv = .U ∧ n / 1024 ≠ 0) ∧ ¬ ((s.core c).priv = .S ∧ n / 1024 = 3) := by
    obtain hM | ⟨hS, hlt⟩ | hlt := hlevel
    · rw [hM]; exact ⟨fun h => Priv.noConfusion h.1, fun h => Priv.noConfusion h.1⟩
    · rw [hS]; exact ⟨fun h => Priv.noConfusion h.1, fun h => by omega⟩
    · exact ⟨fun h => by omega, fun h => by omega⟩
  obtain ⟨hU, hS⟩ := hpriv
  have hmay : ¬ (((s.core c).priv == .U && n / 1024 != 0) || ((s.core c).priv == .S && n / 1024 == 3)) = true := by
    simpa [not_or] using And.intro (not_and.mp hU) (not_and.mp hS)
  rw [State.crCheck, if_neg, if_neg]
  · simpa [hpmcr, htime] using hmay
  · simp [hex, hcls, hro]

theorem claimHeld_plain (hn : n ∈ plainCrs) : s.claimHeld c n = false := by
  obtain ⟨-, -, -, -, -, hside⟩ := plainCrs_implemented n hn
  simp only [List.mem_cons, List.not_mem_nil, or_false, not_or] at hside
  simp [State.claimHeld, hside]

/-- R116: what the core is when the access retires: `rd` has the old value, and a write has been made and has squashed. -/
def crAccessed (k : Core) (n rd : Nat) (wr : Bool) (new : W64) : Core :=
  let k1 := (if wr then k.setCr n new else k).wg rd (k.cr0 n)
  if wr then k1.squash else k1

/-- Two updates of a core are one. -/
theorem updCore_updCore_only (s : State) (c : Nat) (f g : Core → Core) :
    OnlyCore s ((s.updCore c f).updCore c g) c (fun k => g (f k)) := by
  refine ⟨rfl, ?_, fun d hd => (core_setCore_ne (s.updCore c f) c d _ hd).trans (core_setCore_ne s c d _ hd)⟩
  rw [State.updCore, core_setCore_same, State.updCore, core_setCore_same]

/-- What CRX writes does not depend on the old value, so that it need not be read. -/
theorem val_unread (o : CrOp) (old v : W64) : o.val (if o = .x then 0 else old) v = o.val old v := by cases o <;> rfl

/-- R116, R117: an access to one of these registers. -/
theorem crInstr_plain {rd ra : BitVec 5} {cr : BitVec 12} (hready : ReadyP c pr s) (hn : cr.toNat ∈ plainCrs)
    (hlevel : (s.core c).priv = .M ∨ ((s.core c).priv = .S ∧ cr.toNat < 0xC00) ∨ cr.toNat < 0x400) (o : CrOp) :
    ∃ t, crInstr o (.core c) pr rd ra cr s = .next t
      ∧ OnlyCore s t c (fun k => (crAccessed k cr.toNat rd.toNat (o == .x || ra != 0)
          (o.val (k.cr0 cr.toNat) (k.rg ra.toNat) &&& crMask cr.toNat)).retire) := by
  obtain ⟨wr, hwr⟩ : ∃ wr, (o == .x || ra != 0) = wr := ⟨_, rfl⟩
  have hwrites : (o = .x ∨ ra ≠ 0) ↔ wr = true := by simp [← hwr]
  let old := (s.core c).cr0 cr.toNat
  let new := o.val old ((s.core c).rg ra.toNat) &&& crMask cr.toNat
  have hexec : crInstr o (.core c) pr rd ra cr s
      = .next ((if wr then s.updCore c (fun k => k.setCr cr.toNat new) else s).updCore c
          (fun k => (if wr then (k.wg rd.toNat old).squash else k.wg rd.toNat old).retire)) := by
    rw [crInstr, pRun_ready s c pr true _ hready rfl]
    simp only [crCheck_plain hn hlevel, claimHeld_plain hn, crRead_plain hn, crWrite_plain hn, hwrites, Bool.false_eq_true, and_false,
      if_false]
    by_cases hrd : rd = 0
    · subst hrd
      simp only [if_true, val_unread]
      rfl
    · simp only [if_neg hrd]
      rfl
  rw [hwr]
  refine ⟨_, hexec, ?_⟩
  cases wr with
  | true =>
    obtain ⟨hframe, hcore, hne⟩ := updCore_updCore_only s c (fun k => k.setCr cr.toNat new) (fun k => (k.wg rd.toNat old).squash.retire)
    exact ⟨hframe, hcore, hne⟩
  | false =>
    obtain ⟨hframe, hcore, hne⟩ := updCore_only s c (fun k => (k.wg rd.toNat old).retire)
    exact ⟨hframe, hcore, hne⟩

/-- R116: beside `rd` and the registers an access changes what retirement and a squash do. -/
theorem crAccessed_frame (k : Core) (n rd : Nat) (wr : Bool) (new : W64) :
    let k' := (crAccessed k n rd wr new).retire
    let k1 := { k with g := (k.wg rd (k.cr0 n)).g, cr := k'.cr }
    k' = (if wr then k1.squash else k1).retire ∧ k'.cr0 n = (if wr then new else k.cr0 n) ∧ ∀ m, m ≠ n → k'.cr0 m = k.cr0 m := by
  intro k' k1
  have hback : k'.cr = (crAccessed k n rd wr new).cr := by rw [show k' = _ from retire_sameBack _]; rfl
  have hwg (k0 : Core) : (k0.wg rd (k.cr0 n)).cr = k0.cr := by rw [wg_frame]
  cases wr with
  | true =>
    have hcr : k'.cr = (k.setCr n new).cr := hback.trans (hwg _)
    have hk1 : (k.setCr n new).wg rd (k.cr0 n) = k1 := by
      simp only [k1, hcr]
      rw [wg_frame]
      unfold Core.wg
      split <;> rfl
    refine ⟨by simp only [← hk1]; rfl, ?_, fun m hm => ?_⟩
    · rw [Core.cr0, hcr]; exact cr0_setCr_same k n new
    · rw [Core.cr0, hcr]; exact cr0_setCr_ne k n m new hm
  | false =>
    have hcr : k'.cr = k.cr := hback.trans (hwg _)
    have hk1 : k.wg rd (k.cr0 n) = k1 := by
      simp only [k1, hcr]
      exact wg_frame k rd _
    refine ⟨by simp only [← hk1]; rfl, ?_, fun m _ => ?_⟩
    · rw [Core.cr0, hcr]; rfl
    · rw [Core.cr0, hcr]; rfl

end Sys2Proof.Laws
end

section
/-! PROOF. O11: WAITEV, TLBI and accesses to control registers. -/
namespace Sys2Proof.Laws
open Sys2Proof Sys2Proof.Machine Sys2Proof.Safety

variable {s : State} {c h : Nat} {pr : BitVec 4}

/-- R115, R148: a core that may wait executes its WAITEV. -/
theorem exec_waitev_core (hready : ReadyP c pr s) (hpriv : (s.core c).priv ≠ .U)
    (hmay : (s.core c).priv = .S → ((s.core c).cr0 0xC0B).getLsbD 0 = false) :
    exec (.waitev (.core c) pr) s = .next ((s.updCore c (fun k => { k with waitev := true })).wakeCore c) := by
  have hlevel : ((s.core c).priv != .U && !((s.core c).priv == .S && ((s.core c).cr0 0xC0B).getLsbD 0)) = true := by
    cases hp : (s.core c).priv with
    | U => exact absurd hp hpriv
    | S => rw [hmay hp]; rfl
    | M => rfl
  rw [exec_waitev, execWaitev, pRun_ready s c pr true _ hready rfl, pPriv, if_pos hlevel]

theorem exec_waitev_keeper (hready : ReadyK h s) (hslot : (s.keeper h).slot = none) (hmod : (s.keeper h).modMode = false) :
    exec (.waitev (.keeper h) 0) s
      = .next (((s.kFill h).setKeeper h { (s.kFill h).keeper h with waitev := true }).wakeKeeper h) := by
  have hout : ((s.kFill h).keeper h).modMode = false := by
    obtain ⟨q, hq⟩ := kFill_keeper s h
    rw [hq]
    exact hmod
  rw [exec_waitev, execWaitev, kRun_ready s h ((0 : BitVec 4) == 0) _ _ hready rfl (.inr hslot)]
  simp only [hout, Bool.false_eq_true, if_false]

/-- A keeper that may issue neither waits nor has an interrupt recognised. -/
theorem idle_of_readyK (hready : ReadyK h s) : (s.keeper h).waitev = false ∧ (s.keeper h).recog = false := by
  obtain ⟨hissue, -⟩ := hready
  simp only [State.kCanIssue, Bool.and_eq_true, Bool.not_eq_true'] at hissue
  obtain ⟨⟨⟨⟨-, hwaitev⟩, hrecog⟩, -⟩, -⟩ := hissue
  exact ⟨hwaitev, hrecog⟩

theorem awake_of_readyP (hready : ReadyP c pr s) : (s.core c).waitev = false := by
  obtain ⟨hissue, -⟩ := hready
  simp only [State.canIssue, Bool.and_eq_true, Bool.not_eq_true'] at hissue
  obtain ⟨⟨⟨⟨⟨-, hwaitev⟩, -⟩, -⟩, -⟩, -⟩ := hissue
  exact hwaitev

/-- Settles O11: WAITEV wakes at once or waits, TLBI filters the translation buffers, and an access reads and writes its register. -/
theorem waitTlbAndControlRegisters : Obligations.WaitTlbAndControlRegisters := by
  unfold Obligations.WaitTlbAndControlRegisters
  refine ⟨⟨?core, ?keeper⟩, ?tlbi, ?registers⟩
  case core =>
    intro c pr s hready hpriv hmay k due
    refine ⟨_, exec_waitev_core hready hpriv hmay, fun hdue => ?_, fun hdue => ?_⟩
    · exact wakeCore_due (awake_of_readyP hready) (wakeable_iff.mpr hdue)
    · exact wakeCore_waits (Bool.eq_false_iff.mpr fun hw => hdue (wakeable_iff.mp hw))
  case keeper =>
    intro h s hready hslot hmod k due
    obtain ⟨q, hq⟩ := kFill_keeper s h
    obtain ⟨hawake, hrecog⟩ := idle_of_readyK hready
    let u := (s.kFill h).setKeeper h { (s.kFill h).keeper h with waitev := true }
    let k1 : Keeper := { k with pq := q }
    have hu : u.keeper h = { k1 with waitev := true } := by rw [keeper_setKeeper_same, hq]
    obtain ⟨hframe, hne⟩ := wakeKeeper_frame u h
    have hkeepers : u = { s with keepers := u.keepers } := by simp only [u]; rw [kFill_frame s h]; rfl
    have htime : u.time = s.time := by rw [hkeepers]
    have hintr : u.kIntr k1 = s.kIntr k := by
      simp only [State.kIntr, State.kTimer, htime]
      rfl
    refine ⟨_, exec_waitev_keeper hready hslot hmod, ?_, fun hdue => ?_, fun hdue => ?_, fun g hg => ?_⟩
    · exact hframe.trans (congrArg (fun t : State => { t with keepers := (u.wakeKeeper h).keepers }) hkeepers)
    · have hwakes := wakeKeeper_due (k := k1) hu hslot hawake hrecog (by rw [htime]; exact hdue)
      rw [hwakes, hintr]
    · rw [wakeKeeper_waits (k := k1) hu (by rw [htime]; exact hdue), hu]
    · exact (hne g hg).trans ((keeper_setKeeper_ne _ h g _ hg).trans (keeper_kFill_ne s hg))
  case tlbi =>
    intro c pr ra s hready hdrained k x removes
    have hpriv : k.priv = (s.core c).priv := by rw [show k = _ from settle_sameBack (s.core c)]; rfl
    have hnoS2 (y : S2E) : y ∈ k.s2C ↔ y ∈ k.s2C ∧ ¬ False := (and_iff_left not_false).symm
    rw [hpriv]
    refine ⟨fun hnotU => ?atS, fun hM => ?atM⟩
    case atS =>
      have hlevel : ((s.core c).priv == .M || (!false && (s.core c).priv == .S)) = true := by
        cases hp : (s.core c).priv with
        | U => exact absurd hp hnotU
        | S => rfl
        | M => rfl
      refine ⟨?va, ?all, ?allg⟩
      case va =>
        refine tlbi_invalidates (exec_tlbiVa s c pr ra) hready hdrained hlevel (fun e => !(e.covers x) && !e.byp) rfl (fun e => ?_) hnoS2
        simp [TlbE.covers]
      case all =>
        refine tlbi_invalidates (exec_tlbiAll s c pr) hready hdrained hlevel (fun e => e.g && !e.byp) rfl (fun e => ?_) hnoS2
        simp
      case allg =>
        exact tlbi_invalidates (exec_tlbiAllg s c pr) hready hdrained hlevel (fun _ => false) rfl (fun _ => by simp) hnoS2
    case atM =>
      have hlevel : ((s.core c).priv == .M || (!true && (s.core c).priv == .S)) = true := by rw [hM]; rfl
      refine ⟨?s2, ?s2all⟩
      case s2 =>
        refine tlbi_invalidates (exec_tlbiS2 s c pr ra) hready hdrained hlevel
          (fun e => !(x % 2 ^ 46 / 2 ^ e.s2sz * 2 ^ e.s2sz == e.dpa) && !e.byp) rfl (fun e => ?_) (fun y => ?_)
        · simp
        · exact List.mem_filter.trans (by simp [k, x])
      case s2all =>
        exact tlbi_invalidates (exec_tlbiS2all s c pr) hready hdrained hlevel (fun _ => false) rfl (fun _ => by simp) (fun _ => by simp)
  case registers =>
    intro c pr rd ra cr s hready n k hn hlevel old v does
    have accessed (o : CrOp) {i : Instr} (hi : exec i s = crInstr o (.core c) pr rd ra cr s) :
        does i (o == .x || ra != 0) (if (o == .x || ra != 0) = true then o.val old v &&& crMask n else old) := by
      obtain ⟨t, hexec, hframe, hcore, hne⟩ := crInstr_plain (rd := rd) (ra := ra) hready hn hlevel o
      obtain ⟨hk, hsame, hother⟩ := crAccessed_frame k n rd.toNat (o == .x || ra != 0) (o.val old v &&& crMask n)
      have hafter : t.core c = (crAccessed k n rd.toNat (o == .x || ra != 0) (o.val old v &&& crMask n)).retire := hcore
      rw [← hafter] at hk hsame hother
      exact ⟨t, hi.trans hexec, ⟨hframe, hk, hne⟩, hsame, hother⟩
    have keeps (o : CrOp) (new : W64) : (if (ra != 0) = true then new else old) = if ra = 0 then old else new := by
      by_cases hra : ra = 0 <;> simp [hra]
    refine ⟨accessed .x rfl, ?_, ?_⟩
    · rw [← keeps .set]; exact accessed .set rfl
    · rw [← keeps .clr]; exact accessed .clr rfl

end Sys2Proof.Laws
end

section
/-! SUPPORT. Lists of register writes, the words of a tile set (R433), and what a trigger leaves of other registers (R381, R385). -/
namespace Sys2Proof.Laws
open Sys2Proof Sys2Proof.Machine Sys2Proof.Safety

variable {s : State} {x y : Fld} {v : Nat} {l : List (Fld × Nat)}

/-! ### Lists of register writes -/

theorem setFs_append (s : State) (l m : List (Fld × Nat)) : s.setFs (l ++ m) = (s.setFs l).setFs m := List.foldl_append

/-- The writes of each unit of a list, one unit after the other, are one list of writes. -/
theorem foldl_setFs {α : Type} (s : State) (writes : α → List (Fld × Nat)) (units : List α) :
    units.foldl (fun s a => s.setFs (writes a)) s = s.setFs (units.flatMap writes) := List.foldl_flatMap.symm

/-- The writes that a word makes to its fields. -/
def wordWrites (fs : List Fld) (v : Nat) : List (Fld × Nat) := fs.map (fun x => (x, bits v x.lo x.w))

theorem setWordOf_eq_setFs (s : State) (fs : List Fld) (v : Nat) : s.setWordOf fs v = s.setFs (wordWrites fs v) := by
  rw [State.setFs, wordWrites, List.foldl_map]
  rfl

/-- A field to which a list writes nothing but `v` reads `v`. -/
theorem f_setFs_of_mem (hmem : (x, v) ∈ l) (hall : ∀ p ∈ l, p.1.key = x.key → p = (x, v)) : (s.setFs l).f x = v % 2 ^ x.w := by
  induction l generalizing s with
  | nil => cases hmem
  | cons p l ih =>
    have hrest : ∀ q ∈ l, q.1.key = x.key → q = (x, v) := fun q hq => hall q (List.mem_cons_of_mem p hq)
    rw [setFs_cons]
    by_cases hlater : (x, v) ∈ l
    · exact ih hlater hrest
    · obtain rfl : (x, v) = p := (List.mem_cons.mp hmem).resolve_right hlater
      rw [f_setFs_ne _ _ _ (fun q hq hkey => hlater (hrest q hq hkey.symm ▸ hq)), f_setF_same]

/-- In a list of writes to different places each field reads what is written to it. -/
theorem f_setFs_of_nodup (hl : (l.map (·.1.key)).Nodup) (hmem : (x, v) ∈ l) : (s.setFs l).f x = v % 2 ^ x.w :=
  f_setFs_of_mem hmem (fun _ hp hkey => List.inj_on_of_nodup_map hl hp hmem hkey)

/-- In a list of writes unit by unit, each to places of its own, each unit's fields read what is written to them. -/
theorem f_setFs_units {α : Type} {writes : α → List (Fld × Nat)} {units : List α} {a : α} (ha : a ∈ units)
    (hnodup : ((writes a).map (·.1.key)).Nodup) (hown : ∀ b, ∀ p ∈ writes b, p.1.key = x.key → b = a)
    (hmem : (x, v) ∈ writes a) : (s.setFs (units.flatMap writes)).f x = v % 2 ^ x.w := by
  refine f_setFs_of_mem (List.mem_flatMap.mpr ⟨a, ha, hmem⟩) (fun p hp hkey => ?_)
  obtain ⟨b, -, hb⟩ := List.mem_flatMap.mp hp
  obtain rfl := hown b p hb hkey
  exact List.inj_on_of_nodup_map hnodup hb hmem hkey

theorem bits_lt (v lo w : Nat) : bits v lo w < 2 ^ w := Nat.mod_lt _ (Nat.two_pow_pos w)

/-! ### Tile sets -/

/-- `n` values of 32 bits, value `w` from bit `32 * w` on. -/
def joinWords (f : Nat → Nat) (n : Nat) : Nat := (List.range n).foldl (fun a w => a + f w * 2 ^ (32 * w)) 0

theorem joinWords_succ (f : Nat → Nat) (n : Nat) : joinWords f (n + 1) = 2 ^ (32 * n) * f n + joinWords f n := by
  rw [joinWords, List.range_succ, List.foldl_append, List.foldl_cons, List.foldl_nil, Nat.add_comm, Nat.mul_comm]
  rfl

theorem joinWords_lt {f : Nat → Nat} (hf : ∀ w, f w < 2 ^ 32) (n : Nat) : joinWords f n < 2 ^ (32 * n) := by
  induction n with
  | zero => exact Nat.one_pos
  | succ n ih =>
    have hpow : 2 ^ (32 * (n + 1)) = 2 ^ (32 * n) * 2 ^ 32 := by rw [← Nat.pow_add]; rfl
    have hword : 2 ^ (32 * n) * (f n + 1) ≤ 2 ^ (32 * n) * 2 ^ 32 := Nat.mul_le_mul_left _ (hf n)
    rw [joinWords_succ, hpow]
    rw [Nat.mul_add_one] at hword
    omega

theorem testBit_joinWords {f : Nat → Nat} (hf : ∀ w, f w < 2 ^ 32) {n t : Nat} (ht : t < 32 * n) :
    (joinWords f n).testBit t = (f (t / 32)).testBit (t % 32) := by
  induction n with
  | zero => omega
  | succ n ih =>
    rw [joinWords_succ, Nat.testBit_two_pow_mul_add _ (joinWords_lt hf n)]
    by_cases hlow : t < 32 * n
    · rw [if_pos hlow, ih hlow]
    · rw [if_neg hlow, show t / 32 = n by omega, show t % 32 = t - 32 * n by omega]

theorem testBit_tilesWord (s : State) (d : Nat) {t : Nat} (ht : t < 256) : (s.tilesWord d).testBit t = s.inSet d t :=
  testBit_joinWords (n := 8) (fun w => f_lt s (R.DOM_TILES_SET d w)) ht

/-- The writes that put a map of 256 tiles into a domain's set. -/
def tileWrites (d m : Nat) : List (Fld × Nat) := (List.range 8).map (fun w => (R.DOM_TILES_SET d w, m / 2 ^ (32 * w)))

theorem putTiles_eq (s : State) (d m : Nat) : ∃ n, s.putTiles d m = (s.setFs (tileWrites d m)).setF (R.DOM_STATE_NSET d) n :=
  ⟨_, by rw [State.putTiles, State.setFs, tileWrites, List.foldl_map]⟩

/-- A map that is put into a domain's set reads back tile by tile. -/
theorem inSet_putTiles (s : State) (d m : Nat) {t : Nat} (ht : t < 256) : (s.putTiles d m).inSet d t = m.testBit t := by
  obtain ⟨n, hput⟩ := putTiles_eq s d m
  have hword : (s.setFs (tileWrites d m)).f (R.DOM_TILES_SET d (t / 32)) = m / 2 ^ (32 * (t / 32)) % 2 ^ 32 := by
    refine f_setFs_of_mem (List.mem_map.mpr ⟨t / 32, List.mem_range.mpr (by omega), rfl⟩) (fun p hp hkey => ?_)
    obtain ⟨w, -, rfl⟩ := List.mem_map.mp hp
    obtain rfl : w = t / 32 := by simp only [Fld.key, R.DOM_TILES_SET] at hkey; omega
    rfl
  have hnset : (R.DOM_TILES_SET d (t / 32)).key ≠ (R.DOM_STATE_NSET d).key := by
    simp only [Fld.key, R.DOM_TILES_SET, R.DOM_STATE_NSET]; omega
  rw [State.inSet, hput, f_setF_ne _ _ _ _ hnset, hword, bitOf, Nat.testBit_mod_two_pow, Nat.testBit_div_two_pow,
    Nat.mod_add_div]
  simp [Nat.mod_lt]

/-- Taking from a number its bits under a mask clears them. -/
theorem testBit_sub_and (a m i : Nat) : (a - (a &&& m)).testBit i = (a.testBit i && !m.testBit i) := by
  have hle : a &&& m ≤ a := Nat.and_le_left
  have hhalf : (a &&& m) / 2 = a / 2 &&& m / 2 := Nat.and_div_two
  have hbit : (a &&& m) % 2 = 1 ↔ a % 2 = 1 ∧ m % 2 = 1 := by rw [Nat.and_mod_two_eq_one]
  induction i generalizing a m with
  | zero =>
    rw [Bool.eq_iff_iff]
    simp only [Nat.testBit_zero, Bool.and_eq_true, Bool.not_eq_true', decide_eq_true_eq, decide_eq_false_iff_not]
    omega
  | succ i ih =>
    have hdiv : (a - (a &&& m)) / 2 = a / 2 - (a / 2 &&& m / 2) := by omega
    simp only [Nat.testBit_succ, hdiv]
    exact ih _ _ Nat.and_le_left Nat.and_div_two (by rw [Nat.and_mod_two_eq_one])

/-! ### Triggers -/

theorem f_trigFlags_ne {src : Nat} (hpend : y.key ≠ (R.EVT_STAT_PEND src).key) (hmerge : y.key ≠ (R.EVT_MERGE_COUNT src).key) :
    (s.trigFlags src).f y = s.f y := by
  unfold State.trigFlags
  split
  · rfl
  · split
    · exact f_incSat_ne s _ y hmerge
    · exact f_setF_ne s _ y _ hpend

/-- R385: what follows a domain's pending events changes its bit of EVT_DPEND and source 1007. -/
theorem f_dpend_ne {d : Nat} (hbit : y.key ≠ (R.EVT_DPEND_DOM (d / 32)).key) (hpend : y.key ≠ (R.EVT_STAT_PEND 1007).key)
    (hmerge : y.key ≠ (R.EVT_MERGE_COUNT 1007).key) : (s.dpend d).f y = s.f y := by
  unfold State.dpend
  dsimp only
  repeat' split
  · rfl
  · rw [f_trigFlags_ne hpend hmerge, f_setF_ne _ _ _ _ hbit]
  · exact f_setF_ne _ _ _ _ hbit
  · rfl

theorem regsOnly_trigger (s : State) (src : Nat) : RegsOnly s (s.trigger src) :=
  (regsOnly_trigFlags s src).trans (regsOnly_dpend _ _)

/-- A trigger leaves the registers below the event network's (R38). -/
theorem f_trigger_below (hy : y.key < 0x400000 * 128) (src : Nat) : (s.trigger src).f y = s.f y := by
  rw [State.trigger, f_dpend_ne, f_trigFlags_ne]
  all_goals simp only [Fld.key, R.EVT_STAT_PEND, R.EVT_MERGE_COUNT, R.EVT_DPEND_DOM] at hy ⊢; omega

theorem f_trigger_above (hy : evtEnd ≤ y.key) (src : Nat) : (s.trigger src).f y = s.f y := by
  rw [State.trigger, f_dpend_above _ (f_lt _ (R.EVT_OWN_OWNER src)) hy, f_trigFlags_above _ _ hy]

/-- R381: a software source that is not held is pending after its trigger. -/
theorem trigger_pends {src : Nat} (hlo : 1024 ≤ src) (hhi : src < 8192) (hheld : s.f (R.EVT_STAT_HELD src) = 0) :
    (s.trigger src).f (R.EVT_STAT_PEND src) = 1 := by
  have halive : s.deadSource src = false := by
    simp only [State.deadSource, Bool.or_eq_false_iff, Bool.and_eq_false_iff, decide_eq_false_iff_not]; omega
  have hflags : (s.trigFlags src).f (R.EVT_STAT_PEND src) = 1 := by
    rw [State.trigFlags, halive, hheld]
    by_cases hpend : s.f (R.EVT_STAT_PEND src) = 1
    · rw [if_neg Bool.false_ne_true, if_pos (.inl hpend), f_incSat_ne, hpend]
      simp only [Fld.key, R.EVT_STAT_PEND, R.EVT_MERGE_COUNT]; omega
    · rw [if_neg Bool.false_ne_true, if_neg (by simp [hpend]), f_setF_same]; rfl
  have hown := f_lt (s.trigFlags src) (R.EVT_OWN_OWNER src)
  rw [State.trigger, f_dpend_ne, hflags]
  all_goals simp only [Fld.key, R.EVT_STAT_PEND, R.EVT_MERGE_COUNT, R.EVT_DPEND_DOM, R.EVT_OWN_OWNER] at hown ⊢; omega

end Sys2Proof.Laws
end

section
/-! SUPPORT. What a ring's command leaves when it goes on or ends (R357, R428, R430), and the completion of MAP (R435). -/
namespace Sys2Proof.Laws
open Sys2Proof Sys2Proof.Machine Sys2Proof.Safety

variable {s : State} {r op x : Nat} {c : Cmd} {y : Fld}

/-! ### The command of a ring -/

theorem onCmd_ordered (hord : Ordered s r op c) (f : Cmd → Out) : onCmd s r op (fun _ => true) f = f c := by
  obtain ⟨-, -, -, hcmd, hop, hready, hfatal⟩ := hord
  simp [onCmd, hcmd, hop, hready, hfatal]

theorem cmd_of_empty (hc : s.cmds = []) (q : Nat) : s.cmd q = none := by rw [State.cmd, hc]; rfl

theorem cmd_of_single (hc : s.cmds = [(r, some c)]) {q : Nat} (hq : q ≠ r) : s.cmd q = none := by
  simp [State.cmd, hc, Tbl.get, Ne.symm hq]

theorem begin_cmd (s : State) (r : Nat) (c : Cmd) (ts : List Nat) :
    (s.begin r c ts).cmd r = some { c with phase := 1, at_ := s.ns, aux := ts } := by
  have hset : (s.begin r c ts).cmds = Tbl.set none s.cmds r (some { c with phase := 1, at_ := s.ns, aux := ts }) := rfl
  rw [State.cmd, hset, Tbl_get_set_same]

/-- R357, R423: a command that goes on writes its ring's and its domain's BUSY and the count of commands. -/
theorem f_begin_ne (ts : List Nat) (hring : y.key ≠ (R.CMD_RING_STAT_BUSY r).key) (hactive : y.key ≠ R.CMD_STAT_ACTIVE.key)
    (hdom : y.key ≠ (R.DOM_STATE_BUSY c.d.dom).key) : (s.begin r c ts).f y = s.f y := by
  simp only [State.begin, State.setCmd, State.cmdCount]
  rw [f_setF_ne _ _ _ _ hdom, f_setF_ne _ _ _ _ hactive, f_setF_ne _ _ _ _ hring]
  rfl

/-! ### A completion leaves every ring's command alone (R428) -/

theorem RegsOnly.cmds {t : State} (h : RegsOnly s t) : t.cmds = s.cmds := by unfold RegsOnly at h; rw [h]

/-- A structural recursion on a number, one step of it. -/
theorem brecOn_succ {α : Type} (n : Nat) (f : (n : Nat) → Nat.below (motive := fun _ => α) n → α) :
    ∃ below, Nat.brecOn (motive := fun _ => α) (n + 1) f = f (n + 1) below ∧ below.1 = Nat.brecOn (motive := fun _ => α) n f :=
  ⟨_, rfl, rfl⟩

/-- What is sent to the host touches no ring's command. (The step is unfolded through the recursion's body: Lean's own equations of
`pumpOut` would evaluate the search of 512 tags.) -/
theorem pumpOut_cmds (n : Nat) (s : State) : (pumpOut n s).cmds = s.cmds := by
  delta pumpOut
  induction n generalizing s with
  | zero => rfl
  | succ n ih =>
    obtain ⟨below, hstep, hbelow⟩ := brecOn_succ n pumpOut._f
    have hrest (t : State) : (below.1 t).cmds = t.cmds := by rw [hbelow]; exact ih t
    rw [hstep]
    dsimp only [pumpOut._f]
    split
    · rfl
    · split
      · exact hrest _
      · split
        · rfl
        · exact hrest _

theorem hostAccess_cmds {orig : HOrig} {write : Bool} {pa len : Nat} {data : List Nat} {t : State}
    (h : s.hostAccess orig write pa len data = .inl t) : t.cmds = s.cmds := by
  unfold State.hostAccess at h
  split at h
  · cases h
  · split at h
    · cases h
    · cases h
      rw [State.pumpHost, State.hepTags, (regsOnly_setFs _ _).cmds, pumpOut_cmds]

theorem regsOnly_cplNote (s : State) (e : List Nat) : RegsOnly s (s.cplNote e) := by
  unfold State.cplNote; split
  · rfl
  · exact regsOnly_raise s _ _

theorem regsOnly_outErr (s : State) (sub : Nat) : RegsOnly s (s.outErr sub) := by
  unfold State.outErr; dsimp only
  split
  · rfl
  · split <;> rfl

theorem writeCpl_cmds (s : State) (r : Nat) (e : List Nat) : (s.writeCpl r e).1.cmds = s.cmds := by
  unfold State.writeCpl
  dsimp only
  split
  · next s1 hacc =>
    have hnote : ((s1.incWrap (R.CMD_CQ_HEAD_HEAD r)).cplNote e).cmds = s.cmds :=
      (regsOnly_cplNote _ e).cmds.trans ((setF_cmds s1 _ _).trans (hostAccess_cmds hacc))
    dsimp only
    split
    · exact (regsOnly_raise _ _ _).cmds.trans hnote
    · exact hnote
  · exact (regsOnly_outErr s _).cmds

theorem regsOnly_ringHalt (s : State) (r err : Nat) : RegsOnly s (s.ringHalt r err) :=
  (regsOnly_setFs s _).trans (regsOnly_raise _ _ _)

theorem regsOnly_afterCpl (s : State) (r : Nat) (e : List Nat) : RegsOnly s (s.afterCpl r e) := by
  unfold State.afterCpl
  split
  · exact regsOnly_ringHalt s r _
  · split <;> rfl

theorem postCpl_cmds (s : State) (r : Nat) (e : List Nat) : (s.postCpl r e).cmds = s.cmds := by
  have hwrite := writeCpl_cmds s r e
  unfold State.postCpl
  dsimp only
  split
  · exact (regsOnly_cplNote _ e).cmds
  · split
    · rfl
    · split
      · next s1 st heq =>
        rw [heq] at hwrite
        exact (regsOnly_ringHalt _ r st).cmds.trans hwrite
      · next s1 heq =>
        rw [heq] at hwrite
        exact (regsOnly_afterCpl s1 r e).cmds.trans hwrite

/-- R428: a command that completes leaves its ring, and every other ring keeps its own. -/
theorem finish_cmds (hcmd : s.cmd r = some c) (status result : Nat) : (s.finish r status result).cmds = Tbl.set none s.cmds r none := by
  have hleft : (s.setCmd r none).cmds = Tbl.set none s.cmds r none := rfl
  rw [State.finish, State.finishNote, hcmd]
  dsimp only
  split
  · rw [(regsOnly_cplNote _ _).cmds]
    split <;> exact hleft
  · rw [postCpl_cmds]
    split <;> exact hleft

/-! ### The completion of MAP (R435) -/

theorem mapCheck_none (hcmd : s.cmd r = none) : s.mapCheck r = s := by rw [State.mapCheck, hcmd]

theorem mapCheck_finishes (hcmd : s.cmd r = some c) (hop : c.d.op = 2) (hphase : c.phase = 1) (haux : c.aux = [])
    (hack : ∀ x ∈ c.todo, s.monAcked c.d.dom x = true) : s.mapCheck r = s.finish r stOK c.todo.length := by
  rw [State.mapCheck, hcmd]
  exact if_pos ⟨hop, hphase, List.all_eq_true.mpr hack, by simp [haux]⟩

theorem mapCheck_waits (hcmd : s.cmd r = some c) (hx : x ∈ c.todo) (hack : s.monAcked c.d.dom x = false) : s.mapCheck r = s := by
  rw [State.mapCheck, hcmd]
  refine if_neg (fun ⟨_, _, hall, _⟩ => ?_)
  exact Bool.false_ne_true (hack ▸ List.all_eq_true.mp hall x hx)

theorem mapChecks_none (hcmd : ∀ q, s.cmd q = none) (l : List Nat) : l.foldl (fun s r => s.mapCheck r) s = s := by
  induction l with
  | nil => rfl
  | cons q l ih => rw [List.foldl_cons, mapCheck_none (hcmd q), ih]

/-- Among all the rings only the one with the MAP is looked at: it completes. -/
theorem mapChecks_finish (hc : s.cmds = [(r, some c)]) (hop : c.d.op = 2) (hphase : c.phase = 1) (haux : c.aux = [])
    (hack : ∀ x ∈ c.todo, s.monAcked c.d.dom x = true) {l : List Nat} (hr : r ∈ l) :
    l.foldl (fun s r => s.mapCheck r) s = s.finish r stOK c.todo.length := by
  have hcmd : s.cmd r = some c := by simp [State.cmd, hc, Tbl.get]
  induction l with
  | nil => cases hr
  | cons q l ih =>
    rw [List.foldl_cons]
    by_cases hq : q = r
    · have hleft : (s.finish r stOK c.todo.length).cmds = [] := by
        rw [finish_cmds hcmd, hc]; simp [Tbl.set, Tbl.del]
      rw [hq, mapCheck_finishes hcmd hop hphase haux hack, mapChecks_none (cmd_of_empty hleft)]
    · rw [mapCheck_none (cmd_of_single hc hq), ih ((List.mem_cons.mp hr).resolve_left (Ne.symm hq))]

theorem monAcked_iff {d : Nat} (hdom : s.domOf (x / 2) = d) (hpark : Tbl.get 0 s.tilePark (x / 2) = 0) :
    s.monAcked d x = true ↔ s.f (R.CMD_MONACK_SEQ x) = s.f (R.CMD_MONSEQ_SEQ x) := by
  simp [State.monAcked, hdom, hpark]

end Sys2Proof.Laws
end

section
/-! PROOF. O39: CREATE, the ASSIGN commands, MAP with its mailboxes, and the descriptor's own registers. -/
namespace Sys2Proof.Laws
open Sys2Proof Sys2Proof.Machine Sys2Proof.Safety

variable {s : State} {r x : Nat} {c : Cmd}

/-! ### CREATE (R358, R359, R373) -/

/-- Every register that CREATE writes, with its value. -/
def createWrites (d cfg ctx root : Nat) : List (Fld × Nat) :=
  wordWrites (domCfgFlds d) cfg ++ wordWrites (ctxBaseFlds d) ctx ++ wordWrites (s2RootFlds d) root ++ wordWrites (lockCtlFlds d) 0
    ++ [(R.DOM_LOCKLOG_SIZE_LOG2N d, 6), (R.DOM_LOCKLOG_BASE_BASE d, 0), (R.DOM_LOCKLOG_SEQ_SEQ d, 0),
      (R.DOM_LOCKMISS_COUNT d, 0), (R.DOM_LOCKLATE_COUNT d, 0), (R.DOM_MTRSEQ_SEQ d, 0), (R.DOM_STATE_STATE d, domCREATED)]

theorem created_eq_setFs (s : State) (d cfg ctx root : Nat) :
    (s.newDomain d cfg ctx root).setF (R.DOM_STATE_STATE d) domCREATED = s.setFs (createWrites d cfg ctx root) := by
  simp only [State.newDomain, setWordOf_eq_setFs, createWrites, setFs_append]
  rfl

/-- The registers that CREATE writes. -/
def createFields (d : Nat) : List Fld :=
  domCfgFlds d ++ ctxBaseFlds d ++ s2RootFlds d ++ lockCtlFlds d
    ++ [R.DOM_LOCKLOG_SIZE_LOG2N d, R.DOM_LOCKLOG_BASE_BASE d, R.DOM_LOCKLOG_SEQ_SEQ d, R.DOM_LOCKMISS_COUNT d,
      R.DOM_LOCKLATE_COUNT d, R.DOM_MTRSEQ_SEQ d, R.DOM_STATE_STATE d]

theorem createWrites_fields (d cfg ctx root : Nat) : (createWrites d cfg ctx root).map (·.1) = createFields d := by
  simp [createWrites, createFields, wordWrites, Function.comp_def]

/-- R355: each domain's descriptor has its registers at the same places of its block of 128 bytes. -/
theorem createFields_places (e : Nat) :
    (createFields (e + 1)).map Fld.key = ((createFields 1).map Fld.key).map (· + e * 0x4000) := by
  simp only [createFields, domCfgFlds, ctxBaseFlds, s2RootFlds, lockCtlFlds, if_neg (Nat.succ_ne_zero e), if_neg Nat.one_ne_zero,
    List.append_nil, List.map_cons, List.map_nil, List.cons_append, List.nil_append, List.cons.injEq, and_true, Fld.key,
    R.DOM_CFG_LLC_CLASS, R.DOM_CFG_DBG, R.DOM_CFG_GLOBAL_EN, R.DOM_CTXBASE_BASE, R.DOM_S2ROOT_V, R.DOM_S2ROOT_BASE,
    R.DOM_LOCKCTL_CHK_U, R.DOM_LOCKCTL_CHK_S, R.DOM_LOCKCTL_KEY0_U, R.DOM_LOCKCTL_KEY0_S, R.DOM_LOCKCTL_LOG_EN,
    R.DOM_LOCKCTL_EVT_EN, R.DOM_LOCKCTL_EVT, R.DOM_LOCKLOG_SIZE_LOG2N, R.DOM_LOCKLOG_BASE_BASE, R.DOM_LOCKLOG_SEQ_SEQ,
    R.DOM_LOCKMISS_COUNT, R.DOM_LOCKLATE_COUNT, R.DOM_MTRSEQ_SEQ, R.DOM_STATE_STATE]
  omega

theorem createWrites_nodup {d : Nat} (hd : 0 < d) (cfg ctx root : Nat) :
    ((createWrites d cfg ctx root).map (·.1.key)).Nodup := by
  have hfirst : ((createFields 1).map Fld.key).Nodup := by decide
  have hkeys : (createWrites d cfg ctx root).map (·.1.key) = (createFields d).map Fld.key := by
    rw [← createWrites_fields d cfg ctx root, List.map_map]; rfl
  obtain ⟨e, rfl⟩ : ∃ e, d = e + 1 := ⟨d - 1, by omega⟩
  rw [hkeys, createFields_places]
  exact hfirst.map (fun a b hab => Nat.add_right_cancel hab)

theorem f_openPeriod (s : State) (d : Nat) (migr : Bool) (y : Fld) : (s.openPeriod d migr).f y = s.f y := rfl

section
variable (hord : Ordered s r 1 c) (hclash : s.clash r c.d.dom [] = false) (hdom : 0 < c.d.dom)
    (hok : c.d.okP true false [fldMask (domCfgFlds c.d.dom), fldMask (ctxBaseFlds c.d.dom), fldMask (s2RootFlds c.d.dom)] = true)
include hord hclash hdom hok

theorem create_exec :
    exec (.create r) s = .next (if s.domSt c.d.dom ≠ domFREE then s.finish r stSTATE 0
      else ((s.setFs (createWrites c.d.dom (c.d.par 0) (c.d.par 1) (c.d.par 2))).openPeriod c.d.dom false).finish r stOK 0) := by
  have hne : c.d.dom ≠ 0 := by omega
  rw [exec_create, execCreate, onCmd_ordered hord, apply_ite Host.Outcome.next]
  simp only [hne, hok, hclash, created_eq_setFs, Bool.not_true, Bool.false_eq_true, or_self, if_false, done]

/-- R358, R359: the descriptor of a new domain, and its first period. -/
theorem create_describes (hfree : s.domSt c.d.dom = domFREE) :
    Finishes (.create r) s r stOK 0 (fun u => u.domSt c.d.dom = domCREATED
      ∧ u.f (R.DOM_CTXBASE_BASE c.d.dom) = bits (c.d.par 1) 20 26
      ∧ u.f (R.DOM_CFG_LLC_CLASS c.d.dom) = bits (c.d.par 0) 0 4 ∧ u.f (R.DOM_S2ROOT_V c.d.dom) = bits (c.d.par 2) 0 1
      ∧ u.f (R.DOM_LOCKCTL_CHK_U c.d.dom) = 0 ∧ u.f (R.DOM_LOCKLOG_SEQ_SEQ c.d.dom) = 0
      ∧ Tbl.get {} u.mper c.d.dom = { isOpen := true, start := s.time, first := true } ∧ SameCore s u) := by
  let l := createWrites c.d.dom (c.d.par 0) (c.d.par 1) (c.d.par 2)
  have hreads {y : Fld} {v : Nat} (hmem : (y, v) ∈ l) : ((s.setFs l).openPeriod c.d.dom false).f y = v % 2 ^ y.w :=
    (f_openPeriod _ _ _ y).trans (f_setFs_of_nodup (createWrites_nodup hdom _ _ _) hmem)
  have hcut (v lo w : Nat) : bits v lo w % 2 ^ w = bits v lo w := Nat.mod_eq_of_lt (bits_lt v lo w)
  have hexec := create_exec hord hclash hdom hok
  rw [if_neg (not_not_intro hfree)] at hexec
  refine ⟨(s.setFs l).openPeriod c.d.dom false, hexec, hreads (v := domCREATED) ?_, (hreads ?_).trans (hcut _ 20 26),
    (hreads ?_).trans (hcut _ 0 4), (hreads ?_).trans (hcut _ 0 1), hreads (v := bits 0 0 2) ?_, hreads (v := 0) ?_, ?_, ?_⟩
  iterate 6 simp [l, createWrites, wordWrites, domCfgFlds, ctxBaseFlds, s2RootFlds, lockCtlFlds, R.DOM_CTXBASE_BASE,
    R.DOM_CFG_LLC_CLASS, R.DOM_S2ROOT_V, R.DOM_LOCKCTL_CHK_U]
  · rw [State.openPeriod, State.setMper, Tbl_get_set_same, setFs_csr]
  · rw [State.openPeriod, setFs_csr]
    exact ⟨rfl, rfl, rfl, rfl, rfl, rfl, rfl⟩

theorem create_refuses (hused : s.domSt c.d.dom ≠ domFREE) : Finishes (.create r) s r stSTATE 0 (fun u => u = s) :=
  ⟨s, by rw [create_exec hord hclash hdom hok, if_pos hused], rfl⟩

end

/-! ### ASSIGN_TILES (R433) -/

/-- The tiles that a command of ASSIGN_TILES names, a bit for each. -/
def tileMap (d : Desc) : Nat := d.par 1 + d.par 2 * 2 ^ 64 + d.par 3 * 2 ^ 128 + d.par 4 * 2 ^ 192

theorem any_named {p : Nat → Bool} {m : Nat} (h : ∀ t, t < 256 → m.testBit t = true → p t = false) :
    ((List.range 256).filter (fun t => m.testBit t)).any p = false := by
  rw [List.any_eq_false]
  intro t ht
  obtain ⟨hlt, hbit⟩ := List.mem_filter.mp ht
  simp [h t (List.mem_range.mp hlt) hbit]

section
variable (hord : Ordered s r 3 c) (hclash : s.clash r c.d.dom [] = false) (hdom : 0 < c.d.dom)
    (hok : c.d.okP true false [1, mAll, mAll, mAll, mAll] = true) (hopen : s.domOpen c.d.dom = true)
    (hfused : ∀ t, t < 256 → (tileMap c.d).testBit t = true → s.fused t = false)
include hord hclash hdom hok hopen hfused

theorem assignTiles_adds (hgive : c.d.par 0 = 0)
    (hruns : ∀ t, t < 256 → (tileMap c.d).testBit t = true → s.f (R.CUF_STAT_STOPPED t) = 0) :
    let u := s.putTiles c.d.dom (s.tilesWord c.d.dom ||| tileMap c.d)
    exec (.assignTiles r) s = .next (u.finish r stOK (u.f (R.DOM_STATE_NSET c.d.dom))) := by
  have hne : c.d.dom ≠ 0 := by omega
  have hstopped := any_named (m := tileMap c.d) (p := fun t => s.f (R.CUF_STAT_STOPPED t) == 1) (fun t ht hb => by simp [hruns t ht hb])
  rw [exec_assignTiles, execAssignTiles, onCmd_ordered hord]
  simp only [← tileMap.eq_1, hne, hok, hclash, hopen, any_named hfused, hgive, hstopped, Bool.not_true,
    Bool.false_eq_true, or_self, if_false, if_true]
  rfl

theorem assignTiles_takes (htake : c.d.par 0 = 1)
    (hidle : ∀ t, t < 256 → (tileMap c.d).testBit t = true → s.domOf t ≠ c.d.dom ∧ t ∉ s.rearm) :
    let u := s.putTiles c.d.dom (s.tilesWord c.d.dom - (s.tilesWord c.d.dom &&& tileMap c.d))
    exec (.assignTiles r) s = .next (u.finish r stOK (u.f (R.DOM_STATE_NSET c.d.dom))) := by
  have hne : c.d.dom ≠ 0 := by omega
  have hrearm := any_named (m := tileMap c.d) (p := s.rearm.contains) (fun t ht hb => by simpa using (hidle t ht hb).2)
  have howned := any_named (m := tileMap c.d) (p := fun t => s.domOf t == c.d.dom) (fun t ht hb => by simpa using (hidle t ht hb).1)
  rw [exec_assignTiles, execAssignTiles, onCmd_ordered hord]
  simp only [← tileMap.eq_1, hne, hok, hclash, hopen, any_named hfused, htake, hrearm, howned, Bool.not_true, Bool.false_eq_true, or_self,
    if_false, Nat.one_ne_zero]
  rfl

/-- R433: the named tiles join the set, or leave it. -/
theorem assignTiles_set {t0 : Nat} (ht0 : t0 < 256) :
    (c.d.par 0 = 0 → (∀ t, t < 256 → (tileMap c.d).testBit t = true → s.f (R.CUF_STAT_STOPPED t) = 0) →
      ∃ res, Finishes (.assignTiles r) s r stOK res (fun u => res = u.f (R.DOM_STATE_NSET c.d.dom)
        ∧ u.inSet c.d.dom t0 = (s.inSet c.d.dom t0 || (tileMap c.d).testBit t0)))
    ∧ (c.d.par 0 = 1 → (∀ t, t < 256 → (tileMap c.d).testBit t = true → s.domOf t ≠ c.d.dom ∧ t ∉ s.rearm) →
      ∃ res, Finishes (.assignTiles r) s r stOK res (fun u => res = u.f (R.DOM_STATE_NSET c.d.dom)
        ∧ u.inSet c.d.dom t0 = (s.inSet c.d.dom t0 && !((tileMap c.d).testBit t0)))) := by
  constructor
  · intro hgive hruns
    refine ⟨_, _, assignTiles_adds hord hclash hdom hok hopen hfused hgive hruns, rfl, ?_⟩
    rw [inSet_putTiles s _ _ ht0, Nat.testBit_or, testBit_tilesWord s _ ht0]
  · intro htake hidle
    refine ⟨_, _, assignTiles_takes hord hclash hdom hok hopen hfused htake hidle, rfl, ?_⟩
    rw [inSet_putTiles s _ _ ht0, testBit_sub_and, testBit_tilesWord s _ ht0]

end

/-! ### ASSIGN_EVENTS and ASSIGN_EP (R432, R471) -/

/-- The `n` sources or endpoints from `a` on. -/
def unitsFrom (a n : Nat) : List Nat := (List.range n).map (· + a)

theorem mem_unitsFrom {a n e : Nat} : e ∈ unitsFrom a n ↔ a ≤ e ∧ e < a + n := by
  simp only [unitsFrom, List.mem_map, List.mem_range]
  exact ⟨fun ⟨i, hi, he⟩ => by omega, fun ⟨hlo, hhi⟩ => ⟨e - a, by omega, by omega⟩⟩

theorem any_unitsFrom {a n : Nat} {p : Nat → Bool} (h : ∀ e, a ≤ e → e < a + n → p e = false) :
    (unitsFrom a n).any p = false := by
  rw [List.any_eq_false]
  intro e he
  obtain ⟨hlo, hhi⟩ := mem_unitsFrom.mp he
  simp [h e hlo hhi]

/-- What a source that is assigned to domain `d` gets. -/
def sourceWrites (d e : Nat) : List (Fld × Nat) := [(R.EVT_OWN_OWNER e, d), (R.EVT_CFG_EN e, 0), (R.EVT_STAT_PEND e, 0)]

theorem f_sources {l : List Nat} {d e : Nat} (he : e ∈ l) {y : Fld} {v : Nat} (hy : (y, v) ∈ sourceWrites d e) :
    (s.setFs (l.flatMap (sourceWrites d))).f y = v % 2 ^ y.w := by
  refine f_setFs_units he ?_ (fun b p hp hkey => ?_) hy
  · simp [sourceWrites, Fld.key, R.EVT_OWN_OWNER, R.EVT_CFG_EN, R.EVT_STAT_PEND]
  · simp only [sourceWrites, List.mem_cons, List.not_mem_nil, or_false, Prod.mk.injEq] at hy hp
    obtain ⟨rfl, -⟩ | ⟨rfl, -⟩ | ⟨rfl, -⟩ := hy <;> obtain rfl | rfl | rfl := hp <;>
      simp only [Fld.key, R.EVT_OWN_OWNER, R.EVT_CFG_EN, R.EVT_STAT_PEND] at hkey <;> omega

section
variable (hord : Ordered s r 4 c) (hclash : s.clash r c.d.dom [] = false) (hdom : 0 < c.d.dom)
    (hok : c.d.okP true false [mLow 13, mLow 13] = true) (hopen : s.domOpen c.d.dom = true) (hlo : 1024 ≤ c.d.par 0)
    (hhi : c.d.par 0 + c.d.par 1 ≤ 8192)
    (hfree : ∀ e, c.d.par 0 ≤ e → e < c.d.par 0 + c.d.par 1 → (s.f (R.EVT_OWN_OWNER e) = 0 ∨ s.f (R.EVT_OWN_OWNER e) = c.d.dom)
      ∧ s.f (R.EVT_STAT_HELD e) = 0 ∧ s.f (R.EVT_STAT_ACTIVE e) = 0)
include hord hclash hdom hok hopen hlo hhi hfree

theorem assignEvents_exec :
    ∃ k, exec (.assignEvents r) s
      = .next ((((s.setFs ((unitsFrom (c.d.par 0) (c.d.par 1)).flatMap (sourceWrites c.d.dom))).setF (R.DOM_EVCOUNT_COUNT c.d.dom) k).dpend
          c.d.dom).finish r stOK k) := by
  have hne : c.d.dom ≠ 0 := by omega
  have hlow : ¬ c.d.par 0 < 1024 := by omega
  have hhigh : ¬ c.d.par 0 + c.d.par 1 > 8192 := by omega
  have howned : (unitsFrom (c.d.par 0) (c.d.par 1)).any
      (fun e => s.f (R.EVT_OWN_OWNER e) != 0 && s.f (R.EVT_OWN_OWNER e) != c.d.dom) = false := by
    refine any_unitsFrom (fun e he1 he2 => ?_)
    obtain h | h := (hfree e he1 he2).1 <;> simp [h]
  have hbusy : (unitsFrom (c.d.par 0) (c.d.par 1)).any
      (fun e => s.f (R.EVT_STAT_HELD e) == 1 || s.f (R.EVT_STAT_ACTIVE e) == 1) = false := by
    refine any_unitsFrom (fun e he1 he2 => ?_)
    obtain ⟨-, hheld, hactive⟩ := hfree e he1 he2
    simp [hheld, hactive]
  rw [exec_assignEvents, execAssignEvents, onCmd_ordered hord]
  simp only [← unitsFrom.eq_1, hok, hlow, hhigh, hclash, hopen, howned, hbusy, hne, Bool.not_true, Bool.false_eq_true, or_self, and_false,
    if_false, done, ← sourceWrites.eq_1, foldl_setFs]
  exact ⟨_, rfl⟩

/-- R432: the sources of the range are the domain's, disabled and not pending. -/
theorem assignEvents_gives :
    ∃ res, Finishes (.assignEvents r) s r stOK res (fun u => (∀ e, c.d.par 0 ≤ e → e < c.d.par 0 + c.d.par 1 →
      u.f (R.EVT_OWN_OWNER e) = c.d.dom ∧ u.f (R.EVT_CFG_EN e) = 0 ∧ u.f (R.EVT_STAT_PEND e) = 0) ∧ SameCore s u) := by
  obtain ⟨k, hexec⟩ := assignEvents_exec hord hclash hdom hok hopen hlo hhi hfree
  let s1 := s.setFs ((unitsFrom (c.d.par 0) (c.d.par 1)).flatMap (sourceWrites c.d.dom))
  let u := (s1.setF (R.DOM_EVCOUNT_COUNT c.d.dom) k).dpend c.d.dom
  have hd12 : c.d.dom < 2 ^ 12 := hord.2.1
  refine ⟨k, u, hexec, fun e he1 he2 => ?_, ?_⟩
  · have he : e ∈ unitsFrom (c.d.par 0) (c.d.par 1) := mem_unitsFrom.mpr ⟨he1, he2⟩
    have hreads {y : Fld} {v : Nat} (hy : (y, v) ∈ sourceWrites c.d.dom e) : u.f y = v % 2 ^ y.w := by
      rw [← f_sources (s := s) he hy]
      simp only [sourceWrites, List.mem_cons, List.not_mem_nil, or_false, Prod.mk.injEq] at hy
      rw [f_dpend_ne, f_setF_ne]
      all_goals
        obtain ⟨rfl, -⟩ | ⟨rfl, -⟩ | ⟨rfl, -⟩ := hy <;>
          simp only [Fld.key, R.EVT_OWN_OWNER, R.EVT_CFG_EN, R.EVT_STAT_PEND, R.EVT_MERGE_COUNT, R.EVT_DPEND_DOM,
            R.DOM_EVCOUNT_COUNT] <;> omega
    exact ⟨(hreads (v := c.d.dom) (by simp [sourceWrites])).trans (Nat.mod_eq_of_lt hd12),
      hreads (v := 0) (by simp [sourceWrites]), hreads (v := 0) (by simp [sourceWrites])⟩
  · have hregs : RegsOnly s u := (regsOnly_setFs s _).trans ((regsOnly_setF s1 _ _).trans (regsOnly_dpend _ _))
    rw [hregs]
    exact ⟨rfl, rfl, rfl, rfl, rfl, rfl, rfl⟩

end

/-- What an endpoint that is assigned to domain `d` gets. -/
def endpointWrites (d e : Nat) : List (Fld × Nat) := [(R.FAB_EP_OWNER e, d), (R.FAB_EP_EN e, 0)]

theorem f_endpoints {l : List Nat} {d e : Nat} (he : e ∈ l) {y : Fld} {v : Nat} (hy : (y, v) ∈ endpointWrites d e) :
    (s.setFs (l.flatMap (endpointWrites d))).f y = v % 2 ^ y.w := by
  refine f_setFs_units he ?_ (fun b p hp hkey => ?_) hy
  · simp [endpointWrites, Fld.key, R.FAB_EP_OWNER, R.FAB_EP_EN]
  · simp only [endpointWrites, List.mem_cons, List.not_mem_nil, or_false, Prod.mk.injEq] at hy hp
    obtain ⟨rfl, -⟩ | ⟨rfl, -⟩ := hy <;> obtain rfl | rfl := hp <;>
      simp only [Fld.key, R.FAB_EP_OWNER, R.FAB_EP_EN] at hkey <;> omega

/-- A parameter under a mask of `k` bits has `k` bits. -/
theorem par_lt_of_mask {d : Desc} {dom tile : Bool} {masks : List Nat} (hok : d.okP dom tile masks = true) {i k : Nat} (hi : i < 6)
    (hmask : masks.getD i 0 = mLow k) : d.par i < 2 ^ k := by
  simp only [Desc.okP, Bool.and_eq_true, List.all_eq_true, beq_iff_eq] at hok
  have hand := hok.2 i (List.mem_range.mpr hi)
  rw [hmask, mLow, Nat.and_two_pow_sub_one_eq_mod] at hand
  exact hand ▸ Nat.mod_lt _ (Nat.two_pow_pos k)

section
variable (hord : Ordered s r 5 c) (hclash : s.clash r c.d.dom [] = false) (hdom : 0 < c.d.dom)
    (hok : c.d.okP true false [mLow 12, mLow 13] = true) (hopen : s.domOpen c.d.dom = true)
    (hhi : c.d.par 0 + c.d.par 1 ≤ 4096) (hnone : ∀ y, y < 4096 → y ≠ c.d.dom → s.f (R.DOM_FABEP_COUNT y) = 0)
include hord hclash hdom hok hopen hhi hnone

theorem assignEp_exec :
    exec (.assignEp r) s
      = .next ((((s.freeEps c.d.dom).setFs [(R.DOM_FABEP_FIRST c.d.dom, c.d.par 0), (R.DOM_FABEP_COUNT c.d.dom, c.d.par 1)]).setFs
          ((unitsFrom (c.d.par 0) (c.d.par 1)).flatMap (endpointWrites c.d.dom))).finish r stOK 0) := by
  have hne : c.d.dom ≠ 0 := by omega
  have hhigh : ¬ c.d.par 0 + c.d.par 1 > 4096 := by omega
  have hfree : (List.range 4096).any (fun y => y != c.d.dom && decide (c.d.par 0 < s.f (R.DOM_FABEP_FIRST y) + s.f (R.DOM_FABEP_COUNT y)
      ∧ s.f (R.DOM_FABEP_FIRST y) < c.d.par 0 + c.d.par 1 ∧ c.d.par 1 ≠ 0 ∧ s.f (R.DOM_FABEP_COUNT y) ≠ 0)) = false := by
    rw [List.any_eq_false]
    intro y hy
    by_cases hyd : y = c.d.dom
    · simp [hyd]
    · simp [hnone y (List.mem_range.mp hy) hyd]
  rw [exec_assignEp, execAssignEp, onCmd_ordered hord]
  simp only [← unitsFrom.eq_1, hok, hhigh, hclash, hopen, hfree, hne, Bool.not_true, Bool.false_eq_true, or_self, if_false, done,
    ← endpointWrites.eq_1, foldl_setFs]

/-- R471: the endpoints of the range are the domain's, disabled. -/
theorem assignEp_gives :
    Finishes (.assignEp r) s r stOK 0 (fun u => u.f (R.DOM_FABEP_FIRST c.d.dom) = c.d.par 0
      ∧ u.f (R.DOM_FABEP_COUNT c.d.dom) = c.d.par 1 ∧ ∀ e, c.d.par 0 ≤ e → e < c.d.par 0 + c.d.par 1 →
        u.f (R.FAB_EP_OWNER e) = c.d.dom ∧ u.f (R.FAB_EP_EN e) = 0) := by
  have hd12 : c.d.dom < 2 ^ 12 := hord.2.1
  have hfirst : c.d.par 0 < 2 ^ 12 := par_lt_of_mask hok (by decide) rfl
  have hcount : c.d.par 1 < 2 ^ 13 := par_lt_of_mask hok (by decide) rfl
  have hrange (l : List Nat) (t : State) {y : Fld} (hy : y.key < 0x910000 * 128) :
      (t.setFs (l.flatMap (endpointWrites c.d.dom))).f y = t.f y := by
    refine f_setFs_ne _ _ _ (fun p hp => ?_)
    obtain ⟨e, -, hp⟩ := List.mem_flatMap.mp hp
    simp only [endpointWrites, List.mem_cons, List.not_mem_nil, or_false] at hp
    obtain rfl | rfl := hp <;> simp only [Fld.key, R.FAB_EP_OWNER, R.FAB_EP_EN] at hy ⊢ <;> omega
  have hpair : ([(R.DOM_FABEP_FIRST c.d.dom, c.d.par 0), (R.DOM_FABEP_COUNT c.d.dom, c.d.par 1)].map (·.1.key)).Nodup := by
    simp [Fld.key, R.DOM_FABEP_FIRST, R.DOM_FABEP_COUNT]
  refine ⟨_, assignEp_exec hord hclash hdom hok hopen hhi hnone, ?_, ?_, fun e he1 he2 => ?_⟩
  · rw [hrange, f_setFs_of_nodup hpair List.mem_cons_self]
    · exact Nat.mod_eq_of_lt hfirst
    · simp only [Fld.key, R.DOM_FABEP_FIRST]; omega
  · rw [hrange, f_setFs_of_nodup hpair (List.mem_cons_of_mem _ List.mem_cons_self)]
    · exact Nat.mod_eq_of_lt hcount
    · simp only [Fld.key, R.DOM_FABEP_COUNT]; omega
  · have he := mem_unitsFrom.mpr ⟨he1, he2⟩
    exact ⟨(f_endpoints he (v := c.d.dom) (by simp [endpointWrites])).trans (Nat.mod_eq_of_lt hd12),
      f_endpoints he (v := 0) (by simp [endpointWrites])⟩

end

/-! ### MAP (R435) -/

/-- The pages that the command's domain holds after it. -/
def pagesAfter (s : State) (d : Desc) : Int :=
  (s.f (R.DOM_MEMHELD_PAGES d.dom) : Int) + (if d.par 2 < 2 ^ 31 then (d.par 2 : Int) else d.par 2 - 2 ^ 32)

/-- R435 step 2: what a request writes into mailbox `x`. -/
def mailWrites (d : Desc) (seq x : Nat) : List (Fld × Nat) :=
  [(R.CMD_MONREQ_LOG2SZ x, bits (d.par 1) 0 6), (R.CMD_MONREQ_DPA x, d.par 0 / 4096), (R.CMD_MONREQ_DOMAIN x, d.dom),
   (R.CMD_MONSEQ_SEQ x, seq)]

/-- R435 step 2: mailbox `x` is filled and rung. -/
def fillMailbox (d : Desc) (s : State) (x : Nat) : State :=
  (s.setFs (mailWrites d (s.f (R.CMD_MONSEQ_SEQ x) + 1) x)).trigger (s.f R.CMD_MONEV_BASE + x)

/-- MAP's own part: the count of pages, and the command in progress for the cores `cs`. -/
def mapBegun (s : State) (r : Nat) (c : Cmd) (cs : List Nat) : State :=
  (s.setF (R.DOM_MEMHELD_PAGES c.d.dom) (pagesAfter s c.d).toNat).begin r { c with todo := cs } []

/-- A MAP that passes its checks. -/
structure MapStarts (s : State) (r : Nat) (c : Cmd) : Prop where
  ordered : Ordered s r 2 c
  clash : s.clash r c.d.dom [] = false
  dom : 0 < c.d.dom
  phase : c.phase = 0
  ok : c.d.okP true false [mLow 46 - 4095, 0x33F, mLow 32] = true
  isOpen : s.domOpen c.d.dom = true
  sizeLo : 12 ≤ bits (c.d.par 1) 0 6
  sizeHi : bits (c.d.par 1) 0 6 ≤ 46
  jobs : (c.d.par 1).testBit 9 = false
  pagesLo : 0 ≤ pagesAfter s c.d
  pagesHi : pagesAfter s c.d < 2 ^ 28

theorem map_exec (hmap : MapStarts s r c) {cs : List Nat} (hcs : (if (c.d.par 1).testBit 8 then s.runners c.d.dom else []) = cs)
    (hmonitor : (c.d.par 1).testBit 8 = true → s.f R.CMD_MONEV_V = 1) (hmail : s.mailBusy r cs = false) :
    exec (.map r) s = .next ((cs.foldl (fillMailbox c.d) (mapBegun s r c cs)).mapCheck r) := by
  obtain ⟨hord, hclash, hdom, hphase, hok, hopen, hsizeLo, hsizeHi, hjobs, hpagesLo, hpagesHi⟩ := hmap
  have hne : c.d.dom ≠ 0 := by omega
  have hno : ¬ ((c.d.par 1).testBit 8 = true ∧ s.f R.CMD_MONEV_V = 0 ∧ s.domSt c.d.dom = domRUNNING) :=
    fun ⟨hshoot, hoff, _⟩ => by rw [hmonitor hshoot] at hoff; cases hoff
  have hin : ¬ (pagesAfter s c.d < 0 ∨ pagesAfter s c.d ≥ 2 ^ 28) := by omega
  rw [exec_map, execMap, onCmd_ordered hord]
  simp only [← pagesAfter.eq_1, hcs, hphase, hne, hok, hsizeLo, hsizeHi, hclash, hopen, hno, hin, hmail, hjobs, Bool.not_true,
    Bool.false_eq_true, ne_eq, not_true_eq_false, true_or, and_self, or_self, if_false]
  rfl

theorem mapBegun_cmd (s : State) (r : Nat) (c : Cmd) (cs : List Nat) :
    (mapBegun s r c cs).cmd r = some { c with phase := 1, at_ := s.ns, aux := [], todo := cs } := begin_cmd _ r _ []

theorem mapBegun_pages (hmap : MapStarts s r c) (cs : List Nat) :
    (mapBegun s r c cs).f (R.DOM_MEMHELD_PAGES c.d.dom) = (pagesAfter s c.d).toNat := by
  have hlo := hmap.pagesLo
  have hhi := hmap.pagesHi
  have hr := hmap.ordered.1
  rw [mapBegun, f_begin_ne, f_setF_same]
  · exact Nat.mod_eq_of_lt (by simp only [R.DOM_MEMHELD_PAGES]; omega)
  all_goals simp only [Fld.key, R.DOM_MEMHELD_PAGES, R.CMD_RING_STAT_BUSY, R.CMD_STAT_ACTIVE, R.DOM_STATE_BUSY]; omega

/-- The registers of the monitor's mailboxes and of events stay as MAP begins. -/
theorem f_mapBegun (hr : r < 64) (cs : List Nat) {y : Fld} (hlo : 0x300004 * 128 ≤ y.key)
    (hring : y.key < 0x301000 * 128 ∨ 0x303000 * 128 ≤ y.key) (hhi : y.key < 0x700000 * 128) :
    (mapBegun s r c cs).f y = s.f y := by
  rw [mapBegun, f_begin_ne, f_setF_ne]
  all_goals simp only [Fld.key, R.DOM_MEMHELD_PAGES, R.CMD_RING_STAT_BUSY, R.CMD_STAT_ACTIVE, R.DOM_STATE_BUSY] at *; omega

/-- R435: without a shootdown MAP moves the count and ends. -/
theorem map_plain (hmap : MapStarts s r c) (hplain : (c.d.par 1).testBit 8 = false) :
    Finishes (.map r) s r stOK 0 (fun u => u.f (R.DOM_MEMHELD_PAGES c.d.dom) = (pagesAfter s c.d).toNat) := by
  have hmail : s.mailBusy r [] = false := by
    rw [State.mailBusy, List.any_eq_false]
    intro e _
    cases e.2 <;> simp
  have hop : c.d.op = 2 := hmap.ordered.2.2.2.2.1
  have hexec := map_exec hmap (cs := []) (by simp [hplain]) (fun h => by simp [hplain] at h) hmail
  refine ⟨mapBegun s r c [], hexec.trans ?_, mapBegun_pages hmap []⟩
  rw [List.foldl_nil, mapCheck_finishes (mapBegun_cmd s r c []) hop rfl rfl nofun]
  rfl

/-- Where a core runs its domain: on a tile of the domain that is not parked. -/
theorem runners_tile {d : Nat} (hx : x ∈ s.runners d) : s.domOf (x / 2) = d ∧ Tbl.get 0 s.tilePark (x / 2) = 0 := by
  obtain ⟨t, ht, hx⟩ := List.mem_flatMap.mp hx
  obtain ⟨htiles, hpark⟩ := List.mem_filter.mp ht
  have hdom : s.domOf t = d := by simpa using (List.mem_filter.mp htiles).2
  have htile : x / 2 = t := by split at hx <;> simp at hx <;> omega
  rw [htile]
  exact ⟨hdom, by simpa using hpark⟩

theorem mailWrites_nodup (d : Desc) (seq x : Nat) : ((mailWrites d seq x).map (·.1.key)).Nodup := by
  simp [mailWrites, Fld.key, R.CMD_MONREQ_LOG2SZ, R.CMD_MONREQ_DPA, R.CMD_MONREQ_DOMAIN, R.CMD_MONSEQ_SEQ]
  omega

theorem f_fillMailbox {d : Desc} (hx : x < 512) {y : Fld} {v : Nat} (hy : (y, v) ∈ mailWrites d (s.f (R.CMD_MONSEQ_SEQ x) + 1) x) :
    (fillMailbox d s x).f y = v % 2 ^ y.w := by
  have hbelow : y.key < 0x400000 * 128 := by
    simp only [mailWrites, List.mem_cons, List.not_mem_nil, or_false, Prod.mk.injEq] at hy
    obtain ⟨rfl, -⟩ | ⟨rfl, -⟩ | ⟨rfl, -⟩ | ⟨rfl, -⟩ := hy <;>
      simp only [Fld.key, R.CMD_MONREQ_LOG2SZ, R.CMD_MONREQ_DPA, R.CMD_MONREQ_DOMAIN, R.CMD_MONSEQ_SEQ] <;> omega
  rw [fillMailbox, f_trigger_below hbelow, f_setFs_of_nodup (mailWrites_nodup d _ x) hy]

/-- What is not in a mailbox's request stays as the request is written. -/
theorem f_mailWrites_ne {d : Desc} {seq : Nat} {y : Fld}
    (hy : y.key < 0x308000 * 128 ∨ (0x30800c + x * 0x10) * 128 ≤ y.key) : (s.setFs (mailWrites d seq x)).f y = s.f y := by
  refine f_setFs_ne _ _ _ (fun p hp => ?_)
  simp only [mailWrites, List.mem_cons, List.not_mem_nil, or_false] at hp
  obtain rfl | rfl | rfl | rfl := hp <;>
    simp only [Fld.key, R.CMD_MONREQ_LOG2SZ, R.CMD_MONREQ_DPA, R.CMD_MONREQ_DOMAIN, R.CMD_MONSEQ_SEQ] at hy ⊢ <;> omega

theorem regsOnly_fillMailbox (d : Desc) (s : State) (x : Nat) : RegsOnly s (fillMailbox d s x) :=
  (regsOnly_setFs s _).trans (regsOnly_trigger _ _)

/-- R435 steps 2 to 4: with a shootdown the mailbox of the one core is filled and rung, and MAP waits for its acknowledgement. -/
theorem map_shootdown (hmap : MapStarts s r c) (hshoot : (c.d.par 1).testBit 8 = true) (hmonitor : s.f R.CMD_MONEV_V = 1)
    (hrunners : s.runners c.d.dom = [x]) (hx : x < 512) (hcmds : s.cmds = [(r, some c)]) (hbaseLo : 1024 ≤ s.f R.CMD_MONEV_BASE)
    (hbaseHi : s.f R.CMD_MONEV_BASE + x < 8192) (hheld : s.f (R.EVT_STAT_HELD (s.f R.CMD_MONEV_BASE + x)) = 0)
    (hack : s.f (R.CMD_MONACK_SEQ x) ≠ (s.f (R.CMD_MONSEQ_SEQ x) + 1) % 2 ^ 32) :
    Completes (.map r) s (fun t => t.f (R.DOM_MEMHELD_PAGES c.d.dom) = (pagesAfter s c.d).toNat
      ∧ t.f (R.CMD_MONREQ_LOG2SZ x) = bits (c.d.par 1) 0 6 ∧ t.f (R.CMD_MONREQ_DPA x) = c.d.par 0 / 4096
      ∧ t.f (R.CMD_MONREQ_DOMAIN x) = c.d.dom ∧ t.f (R.CMD_MONSEQ_SEQ x) = (s.f (R.CMD_MONSEQ_SEQ x) + 1) % 2 ^ 32
      ∧ t.f (R.EVT_STAT_PEND (s.f R.CMD_MONEV_BASE + x)) = 1 ∧ ∃ c', t.cmd r = some c' ∧ c'.phase = 1 ∧ c'.todo = [x]) := by
  have hr := hmap.ordered.1
  have hd12 : c.d.dom < 2 ^ 12 := hmap.ordered.2.1
  have hpa : c.d.par 0 < 2 ^ 46 := by
    have hok := hmap.ok
    simp only [Desc.okP, Bool.and_eq_true, List.all_eq_true, beq_iff_eq] at hok
    have hand : c.d.par 0 &&& (mLow 46 - 4095) = c.d.par 0 := hok.2 0 (by simp)
    have hle : c.d.par 0 ≤ mLow 46 - 4095 := hand ▸ Nat.and_le_right
    simp only [mLow] at hle
    omega
  have hmail : s.mailBusy r [x] = false := by simp [State.mailBusy, hcmds]
  let u := mapBegun s r c [x]
  let t := fillMailbox c.d u x
  have hbase : u.f R.CMD_MONEV_BASE = s.f R.CMD_MONEV_BASE :=
    f_mapBegun hr _ (by decide) (by decide) (by decide)
  have hseq : u.f (R.CMD_MONSEQ_SEQ x) = s.f (R.CMD_MONSEQ_SEQ x) := by
    refine f_mapBegun hr _ ?_ (.inr ?_) ?_ <;> simp only [Fld.key, R.CMD_MONSEQ_SEQ] <;> omega
  have hack0 : t.f (R.CMD_MONACK_SEQ x) = s.f (R.CMD_MONACK_SEQ x) := by
    rw [show t = fillMailbox c.d u x from rfl, fillMailbox, f_trigger_below, f_mailWrites_ne, f_mapBegun hr]
    all_goals simp only [Fld.key, R.CMD_MONACK_SEQ]; omega
  have hreads {y : Fld} {v : Nat} (hy : (y, v) ∈ mailWrites c.d (u.f (R.CMD_MONSEQ_SEQ x) + 1) x) : t.f y = v % 2 ^ y.w :=
    f_fillMailbox hx hy
  have hseq1 : t.f (R.CMD_MONSEQ_SEQ x) = (s.f (R.CMD_MONSEQ_SEQ x) + 1) % 2 ^ 32 := by
    rw [← hseq]; exact hreads (by simp [mailWrites])
  have hregs : RegsOnly u t := regsOnly_fillMailbox c.d u x
  have hcmd : t.cmd r = some { c with phase := 1, at_ := s.ns, aux := [], todo := [x] } := by
    rw [State.cmd, hregs.cmds]; exact mapBegun_cmd s r c [x]
  have hwait : t.monAcked c.d.dom x = false := by
    obtain ⟨hdom, hpark⟩ := runners_tile (s := s) (x := x) (d := c.d.dom) (by simp [hrunners])
    have hdom' : t.domOf (x / 2) = c.d.dom := by rw [hregs]; exact hdom
    have hpark' : Tbl.get 0 t.tilePark (x / 2) = 0 := by rw [hregs]; exact hpark
    rw [← Bool.not_eq_true, monAcked_iff hdom' hpark', hack0, hseq1]
    exact hack
  have hexec : exec (.map r) s = .next t := by
    rw [map_exec hmap (cs := [x]) (by simp [hshoot, hrunners]) (fun _ => hmonitor) hmail]
    exact congrArg _ (mapCheck_waits hcmd (List.mem_singleton.mpr rfl) hwait)
  refine ⟨t, hexec, ?_, ?_, ?_, ?_, hseq1, ?_, _, hcmd, rfl, rfl⟩
  · rw [← mapBegun_pages hmap [x], show t = fillMailbox c.d u x from rfl, fillMailbox, f_trigger_above, f_mailWrites_ne]
    · simp only [Fld.key, R.DOM_MEMHELD_PAGES]; omega
    · simp only [evtEnd, Fld.key, R.DOM_MEMHELD_PAGES]; omega
  · exact (hreads (v := bits (c.d.par 1) 0 6) (by simp [mailWrites])).trans (Nat.mod_eq_of_lt (bits_lt _ 0 6))
  · refine (hreads (v := c.d.par 0 / 4096) (by simp [mailWrites])).trans (Nat.mod_eq_of_lt ?_)
    simp only [R.CMD_MONREQ_DPA]; omega
  · exact (hreads (v := c.d.dom) (by simp [mailWrites])).trans (Nat.mod_eq_of_lt hd12)
  · rw [show t = fillMailbox c.d u x from rfl, fillMailbox, hbase]
    refine trigger_pends (by omega) hbaseHi ?_
    rw [f_mailWrites_ne, f_mapBegun hr, hheld]
    all_goals simp only [Fld.key, R.EVT_STAT_HELD]; omega

/-! ### Acknowledgements and the timeout (R435 steps 3 to 6) -/

/-- The monitor's write is of its mailbox alone where no MAP waits. -/
theorem cmdMonack_alone (hx : x < 512) (hcmds : s.cmds = []) (v : W32) : Completes (.cmdMonack x v) s (fun t =>
    OnlyRegs s t [R.CMD_MONACK_SEQ x] ∧ t.f (R.CMD_MONACK_SEQ x) = v.toNat) := by
  have hexec : exec (.cmdMonack x v) s = .next (s.setF (R.CMD_MONACK_SEQ x) v.toNat) := by
    rw [exec_cmdMonack, execCmdMonack, whenOk_true _ _ _ (decide_eq_true hx), State.monAck,
      mapChecks_none (s := s.setF (R.CMD_MONACK_SEQ x) v.toNat) (cmd_of_empty hcmds)]
  exact ⟨_, hexec, setF_only s _ _, (f_setF_same s _ _).trans (Nat.mod_eq_of_lt v.isLt)⟩

/-- The last acknowledgement that a MAP waits for completes it. -/
theorem cmdMonack_completes (hord : Ordered s r 2 c) (hphase : c.phase = 1) (hcmds : s.cmds = [(r, some c)]) (htodo : c.todo = [x])
    (hx : x < 512) (haux : c.aux = []) (hdom : s.domOf (x / 2) = c.d.dom) (hpark : Tbl.get 0 s.tilePark (x / 2) = 0) {v : W32}
    (hseq : s.f (R.CMD_MONSEQ_SEQ x) = v.toNat) :
    Finishes (.cmdMonack x v) s r stOK 1 (fun u => u.f (R.CMD_MONACK_SEQ x) = v.toNat) := by
  let u := s.setF (R.CMD_MONACK_SEQ x) v.toNat
  have hop : c.d.op = 2 := hord.2.2.2.2.1
  have hread : u.f (R.CMD_MONACK_SEQ x) = v.toNat := (f_setF_same s _ _).trans (Nat.mod_eq_of_lt v.isLt)
  have hseq' : u.f (R.CMD_MONSEQ_SEQ x) = v.toNat := by
    rw [← hseq]
    exact f_setF_ne s _ _ _ (by simp only [Fld.key, R.CMD_MONSEQ_SEQ, R.CMD_MONACK_SEQ]; omega)
  have hack : ∀ y ∈ c.todo, u.monAcked c.d.dom y = true := by
    intro y hy
    obtain rfl : y = x := by simpa [htodo] using hy
    exact (monAcked_iff (s := u) hdom hpark).mpr (hread.trans hseq'.symm)
  have hexec : exec (.cmdMonack x v) s = .next (u.finish r stOK c.todo.length) := by
    rw [exec_cmdMonack, execCmdMonack, whenOk_true _ _ _ (decide_eq_true hx), State.monAck,
      mapChecks_finish (s := u) hcmds hop hphase haux hack (List.mem_range.mpr hord.1)]
  rw [htodo] at hexec
  exact ⟨u, hexec, hread⟩

/-- CMD_MONTO after the request MAP ends without the acknowledgement. -/
theorem monitorTimeout_ends (hord : Ordered s r 2 c) (hphase : c.phase = 1) (htodo : c.todo = [x])
    (hdom : s.domOf (x / 2) = c.d.dom) (hpark : Tbl.get 0 s.tilePark (x / 2) = 0)
    (hack : s.f (R.CMD_MONACK_SEQ x) ≠ s.f (R.CMD_MONSEQ_SEQ x)) (htime : c.at_ + max 1 (s.f R.CMD_MONTO_US) * 1000 ≤ s.ns) :
    Finishes (.monitorTimeout r) s r stMTIME 0 (fun u => u = s) := by
  have hwait : s.monAcked c.d.dom x = false := by rw [← Bool.not_eq_true, monAcked_iff hdom hpark]; exact hack
  have hexec : exec (.monitorTimeout r) s = .next (s.finish r stMTIME 0) := by
    rw [exec_monitorTimeout, execMonitorTimeout, onCmd_ordered hord]
    simp [hphase, htodo, hwait, htime, done]
  exact ⟨s, hexec, rfl⟩

/-! ### Registers of a descriptor (R153, R358) -/

theorem domLockclr_clears (hx : x < 4096) : Completes (.domLockclr x) s (fun t =>
    OnlyRegs s t [R.DOM_LOCKLOG_SEQ_SEQ x, R.DOM_LOCKMISS_COUNT x, R.DOM_LOCKLATE_COUNT x] ∧ t.f (R.DOM_LOCKLOG_SEQ_SEQ x) = 0
    ∧ t.f (R.DOM_LOCKMISS_COUNT x) = 0 ∧ t.f (R.DOM_LOCKLATE_COUNT x) = 0) := by
  let l : List (Fld × Nat) := [(R.DOM_LOCKLOG_SEQ_SEQ x, 0), (R.DOM_LOCKMISS_COUNT x, 0), (R.DOM_LOCKLATE_COUNT x, 0)]
  have hnodup : (l.map (·.1.key)).Nodup := by
    simp [l, Fld.key, R.DOM_LOCKLOG_SEQ_SEQ, R.DOM_LOCKMISS_COUNT, R.DOM_LOCKLATE_COUNT]
  have hzero {y : Fld} (hy : (y, 0) ∈ l) : (s.setFs l).f y = 0 := (f_setFs_of_nodup hnodup hy).trans (Nat.zero_mod _)
  have hexec : exec (.domLockclr x) s = .next (s.setFs l) := by
    rw [exec_domLockclr, execDomLockclr, whenOk_true _ _ _ (decide_eq_true hx)]; rfl
  exact ⟨_, hexec, setFs_only s l, hzero (by simp [l]), hzero (by simp [l]), hzero (by simp [l])⟩

/-- R358: the context base is written only while the domain is FREE or CREATED. -/
theorem domCtxbaseWrite_writes (hx : x < 4096) (w : W64) : Completes (.domCtxbaseWrite x w) s (fun t =>
    OnlyRegs s t [R.DOM_CTXBASE_BASE x] ∧ t.f (R.DOM_CTXBASE_BASE x)
      = if s.domSt x = domFREE ∨ s.domSt x = domCREATED then bits w.toNat 20 26 else s.f (R.DOM_CTXBASE_BASE x)) := by
  have hexec : exec (.domCtxbaseWrite x w) s = .next (s.ctxBase x w.toNat) := by
    rw [exec_domCtxbaseWrite, execDomCtxbaseWrite, whenOk_true _ _ _ (decide_eq_true hx)]
  refine ⟨_, hexec, ?_⟩
  unfold State.ctxBase
  by_cases hearly : s.domSt x = domFREE ∨ s.domSt x = domCREATED
  · rw [if_pos hearly, if_pos hearly, setWordOf_eq_setFs]
    exact ⟨setFs_only s _, (f_setF_same s _ _).trans (Nat.mod_eq_of_lt (bits_lt _ 20 26))⟩
  · rw [if_neg hearly, if_neg hearly]
    exact ⟨⟨rfl, fun _ _ => rfl⟩, rfl⟩

/-! ### The obligation -/

/-- Settles O39: each command's checks pass by the clause's conditions, and what it then writes is a list of registers of its own;
MAP's mailboxes follow from one filled and rung, its end from the one ring that waits. -/
theorem domainSetup : Obligations.DomainSetup := by
  unfold Obligations.DomainSetup
  intro r x t0 c v w s ht0 d par fin fit m mine pages
  refine ⟨?create, ?tiles, ?events, ?endpoints, ?map, fun hx hcmds => cmdMonack_alone hx hcmds v, ?acks,
    domLockclr_clears, fun hx => domCtxbaseWrite_writes hx w⟩
  case create =>
    exact fun hord ⟨hclash, hdom, _⟩ hok =>
      ⟨create_describes hord hclash hdom hok, create_refuses hord hclash hdom hok⟩
  case tiles =>
    exact fun hord ⟨hclash, hdom, _⟩ hok hopen hfused => assignTiles_set hord hclash hdom hok hopen hfused ht0
  case events =>
    exact fun hord ⟨hclash, hdom, _⟩ hok hopen hlo hhi hfree => assignEvents_gives hord hclash hdom hok hopen hlo hhi hfree
  case endpoints =>
    exact fun hord ⟨hclash, hdom, _⟩ hok hopen hhi hnone => assignEp_gives hord hclash hdom hok hopen hhi hnone
  case map =>
    intro hord ⟨hclash, hdom, _⟩ hphase hok hopen hsizeLo hsizeHi hjobs hpagesLo hpagesHi
    have hmap : MapStarts s r c := ⟨hord, hclash, hdom, hphase, hok, hopen, hsizeLo, hsizeHi, hjobs, hpagesLo, hpagesHi⟩
    exact ⟨map_plain hmap, map_shootdown hmap⟩
  case acks =>
    intro hord hphase hcmds htodo hx haux hdom hpark
    exact ⟨cmdMonack_completes hord hphase hcmds htodo hx haux hdom hpark, monitorTimeout_ends hord hphase htodo hdom hpark⟩

end Sys2Proof.Laws
end

section
/-! SUPPORT. A tile's request at its home: taken, accepted or held back, and what opening it sends (R246 to R250, R261). -/

namespace Sys2Proof.Laws
open Sys2Proof Sys2Proof.Machine Sys2Proof.Safety

variable {s s1 u : State} {m : Msg} {e : DirE} {x : LlcE} {k : MsgK} {g L : Nat}

/-! ### Acceptance -/

theorem atHome_accepted (hr : s.meshRuns = true) (ht : s.take k g L = some (m, s1)) (ha : s1.accept m = some u) :
    atHome s k g L = .next u := by
  simp [atHome, hr, onMsg_some s _ _ _ _ m s1 ht, ha]

/-- R239, R250: a request that finds the queue full keeps its message, and the cycle is counted. -/
theorem atHome_refused (hr : s.meshRuns = true) (ht : s.take k g L = some (m, s1)) (ha : s1.accept m = none)
    (hready : s.homeReady L = true) : atHome s k g L = .next (s.incSat (R.TIL_HOME_BP_COUNT (homeOf L))) := by
  simp [atHome, hr, onMsg_some s _ _ _ _ m s1 ht, ha, State.backPressed, hready]

/-- The home is ready and has nothing open or waiting on line `L`, with room for a transaction and for a retry (R249, R250, R262). -/
structure Idle (s : State) (L : Nat) : Prop where
  ready : s.homeReady L = true
  free : s.lineBusy L = false
  unasked : (s.pendQ ++ s.retryQ).any (fun q => q.L == L) = false
  slots : (s.txns.filter (fun q => homeOf q.L == homeOf L)).length < 64
  retries : (s.retryQ.filter (fun q => homeOf q.L == homeOf L)).length < 32

theorem accept_idle (h : Idle s m.L) : s.accept m = some (s.openReq m) := by
  obtain ⟨hready, hfree, hunasked, hslots, hretries⟩ := h
  simp only [State.accept, hready, hfree, hunasked]
  simp [Nat.not_le.mpr hslots, Nat.not_le.mpr hretries]

theorem accept_waits (hready : s.homeReady m.L = true) (hbusy : s.lineBusy m.L = true)
    (h : (s.pendQ.filter (fun q => homeOf q.L == homeOf m.L)).length < 64) :
    s.accept m = some { s with pendQ := s.pendQ ++ [m] } := by
  simp [State.accept, hready, hbusy, h]

theorem accept_full (hready : s.homeReady m.L = true) (hbusy : s.lineBusy m.L = true)
    (h : 64 ≤ (s.pendQ.filter (fun q => homeOf q.L == homeOf m.L)).length) : s.accept m = none := by
  simp [State.accept, hready, hbusy, Nat.not_lt.mpr h]

/-- RD_S whose home reads its arrays without an error. -/
theorem exec_rdS_intact (hr : s.meshRuns = true) (ht : s.take .rdS g L = some (m, s1)) :
    exec (.rdS g ⟨L, .none⟩) s = atHome s .rdS g L := by
  simp [execRdS, ht, hr, State.homeErr]

/-! ### What a home sends -/

/-- From `s` to `t` a home has sent `ms`; memory, cores, registers and the LLC's lines are as they were. -/
structure Sends (s t : State) (ms : List Msg) : Prop where
  msgs : t.msgs = s.msgs ++ ms
  dram : t.dram = s.dram
  cores : t.cores = s.cores
  csr : t.csr = s.csr
  llc : t.llc = s.llc

/-- R246: DATA of kind `kind` for the requester of `m`, from the LLC. -/
def homeData (m : Msg) (kind : Kind) (d : LineD) : Msg :=
  { k := .data, L := m.L, agent := m.agent, core := m.core, dom := m.dom, kind := kind, d := some d }
/-- R246: the request of `m` passed on to tile `o`. -/
def homeFwd (m : Msg) (k : MsgK) (o : Nat) : Msg :=
  { k := k, L := m.L, agent := o, req := m.agent, core := m.core, dom := m.dom }
/-- R246: INV to tile `t`. -/
def homeInv (m : Msg) (t : Nat) : Msg := { k := .inv, L := m.L, agent := t, dom := m.dom }

theorem sendInvs_eq (s : State) (m : Msg) (ts : List Nat) :
    s.sendInvs m.L m.dom ts = { s with msgs := s.msgs ++ ts.map (homeInv m) } := by
  rw [← foldl_send, List.foldl_map]; rfl

theorem serve_held (hx : s.llcE m.L = some x) (kind : Kind) :
    s.serve m kind true = (s.llcTouch m.L x.way).send (homeData m kind x.d) := by
  simp [State.serve, hx, homeData]

namespace Sends

variable {t : State} {ms : List Msg}

theorem nothing (s : State) : Sends s s [] := ⟨(List.append_nil _).symm, rfl, rfl, rfl, rfl⟩
variable (h : Sends s t ms)
include h

theorem send (n : Msg) : Sends s (t.send n) (ms ++ [n]) :=
  ⟨by rw [send_msgs, h.msgs, List.append_assoc], h.dram, h.cores, h.csr, h.llc⟩
theorem dirTouch (L w : Nat) : Sends s (t.dirTouch L w) ms := ⟨h.msgs, h.dram, h.cores, h.csr, h.llc⟩
theorem llcTouch (L w : Nat) : Sends s (t.llcTouch L w) ms := ⟨h.msgs, h.dram, h.cores, h.csr, h.llc⟩
theorem count (L : Nat) : Sends s (t.count L) ms := ⟨h.msgs, h.dram, h.cores, h.csr, h.llc⟩
theorem openTxn (y : Txn) : Sends s (t.openTxn y) ms := ⟨h.msgs, h.dram, h.cores, h.csr, h.llc⟩
theorem setTxn (y : Txn) : Sends s (t.setTxn y) ms := ⟨h.msgs, h.dram, h.cores, h.csr, h.llc⟩
theorem setDir (L : Nat) (e : Option DirE) : Sends s (t.setDir L e) ms := ⟨h.msgs, h.dram, h.cores, h.csr, h.llc⟩
theorem pin (L : Nat) : Sends s (t.pin L) ms := by
  unfold State.pin; split
  · exact h.setDir _ _
  · exact h
theorem unpin (L : Nat) : Sends s (t.unpin L) ms := by
  unfold State.unpin; split
  · exact h.setDir _ _
  · exact h
theorem dirAdd (L r : Nat) : Sends s (t.dirAdd L r) ms := by
  unfold State.dirAdd; split
  · exact h.setDir _ _
  · exact h
theorem dirEx (L r : Nat) : Sends s (t.dirEx L r) ms := by
  unfold State.dirEx; split
  · exact h.setDir _ _
  · exact h
theorem sentTxn (L : Nat) : Sends s (t.sentTxn L) ms := by
  unfold State.sentTxn; split
  · exact h.setTxn _
  · exact h
theorem closeTxn (L : Nat) : Sends s (t.closeTxn L) ms :=
  have hfilter : Sends s { t with txns := t.txns.filter (fun y => y.L != L) } ms := ⟨h.msgs, h.dram, h.cores, h.csr, h.llc⟩
  hfilter.unpin L
theorem sendInvs (m : Msg) (ts : List Nat) : Sends s (t.sendInvs m.L m.dom ts) (ms ++ ts.map (homeInv m)) := by
  rw [sendInvs_eq]
  exact ⟨by rw [h.msgs, List.append_assoc], h.dram, h.cores, h.csr, h.llc⟩

/-- "Served" (R246) of a line that the LLC holds. -/
theorem serve (hx : s.llcE m.L = some x) (kind : Kind) : Sends s (t.serve m kind true) (ms ++ [homeData m kind x.d]) := by
  rw [serve_held (x := x) (by rw [llcE_eq_of_llc_eq h.llc, hx])]
  exact (h.llcTouch _ _).send _

end Sends

/-! ### The line's transaction and its entry -/

theorem lineBusy_openTxn (y : Txn) : (s.openTxn y).lineBusy y.L = true := by simp [State.lineBusy, State.openTxn]
theorem lineBusy_of_txns_eq {t : State} (h : t.txns = s.txns) (L : Nat) : t.lineBusy L = s.lineBusy L := by simp [State.lineBusy, h]

/-- The line stays busy while its requester's COMPLETE is awaited. -/
theorem lineBusy_sentTxn (h : s.lineBusy L = true) : (s.sentTxn L).lineBusy L = true := by
  unfold State.sentTxn
  split
  case h_1 y hy =>
    have hL : y.L = L := by simpa using List.find?_some hy
    have hmem : y ∈ s.txns := List.mem_of_find?_eq_some hy
    simp only [State.lineBusy, State.setTxn, List.any_eq_true, List.mem_map]
    exact ⟨_, ⟨y, hmem, rfl⟩, by simp [hL]⟩
  case h_2 => exact h

theorem sentTxn_dir (s : State) (L : Nat) : (s.sentTxn L).dir = s.dir := by unfold State.sentTxn; split <;> rfl
theorem pin_txns (s : State) (L : Nat) : (s.pin L).txns = s.txns := by unfold State.pin; split <;> rfl
theorem dirAdd_txns (s : State) (L r : Nat) : (s.dirAdd L r).txns = s.txns := by unfold State.dirAdd; split <;> rfl
theorem dirE_pin (h : s.dirE L = some e) : (s.pin L).dirE L = some { e with pin := true } := by simp [State.pin, h]
theorem dirE_dirEx (h : s.dirE L = some e) (r : Nat) :
    (s.dirEx L r).dirE L = some { e with st := .EX, ptrs := [r], mask := 0 } := by simp [State.dirEx, h]

/-- R240: the tiles an entry lists depend on its state, pointers and marks, and on the fuses. -/
theorem listed_of_csr_eq {t : State} (h : t.csr = s.csr) (e : DirE) : t.listed e = s.listed e := by
  simp [State.listed, State.fused, State.f, h]

/-- A served line stays busy until its requester's COMPLETE. -/
theorem lineBusy_serve_sent (hx : s.llcE m.L = some x) (kind : Kind) (h : s.lineBusy m.L = true) :
    ((s.serve m kind true).sentTxn m.L).lineBusy m.L = true := by
  rw [serve_held hx]; exact lineBusy_sentTxn h

/-! ### A way for a new entry (R261) -/

/-- A fold that marks one way at most for each element marks at most as many ways as there are elements. -/
theorem ways_marked {α : Type} {f : Nat → α → Nat} (hf : ∀ v a, f v a = v ∨ ∃ i, f v a = setBit v i) (l : List α) :
    ∃ ws : List Nat, ws.length ≤ l.length ∧ ∀ w, (l.foldl f 0).testBit w = true → w ∈ ws := by
  induction l using List.reverseRecOn with
  | nil => exact ⟨[], Nat.le_refl _, by simp⟩
  | append_singleton l a ih =>
    obtain ⟨ws, hlen, hws⟩ := ih
    rw [List.foldl_concat, List.length_append]
    rcases hf (l.foldl f 0) a with h | ⟨i, h⟩
    · exact ⟨ws, Nat.le_add_right_of_le hlen, by rw [h]; exact hws⟩
    · refine ⟨i :: ws, Nat.succ_le_succ hlen, fun w hw => ?_⟩
      rw [h, setBit, Nat.testBit_or, Nat.testBit_two_pow, Bool.or_eq_true, decide_eq_true_eq] at hw
      rcases hw with hw | rfl
      · exact List.mem_cons_of_mem _ (hws w hw)
      · exact List.mem_cons_self

/-- Fewer than sixteen elements leave a way of the sixteen free. -/
theorem freeWay_ne_none {α : Type} {f : Nat → α → Nat} (hf : ∀ v a, f v a = v ∨ ∃ i, f v a = setBit v i) {l : List α}
    (hl : l.length < 16) : freeWay 0xFFFF (l.foldl f 0) ≠ none := by
  obtain ⟨ws, hlen, hws⟩ := ways_marked hf l
  intro hnone
  rw [freeWay, List.find?_eq_none] at hnone
  have hall : ∀ w ∈ List.range 16, Nat.testBit 0xFFFF w = true := by decide
  have hsub : List.range 16 ⊆ ws := fun w hw => hws w (by simpa [hall w hw] using hnone w hw)
  have h16 := (List.nodup_range.subperm hsub).length_le
  rw [List.length_range] at h16
  omega

/-- R261: where the set has room, a request of a core takes an invalid way for its line, which is then its own (EX), pinned, and is
served. -/
theorem allocEntry_room (hk : m.k ≠ .promote) (h : (s.dir.filter (fun q => dirKey q.1 == dirKey m.L)).length < 16) :
    ∃ w, s.allocEntry m
      = ((((s.setDir m.L (some ⟨.EX, [m.agent], 0, w, true⟩)).dirTouch m.L w).count m.L).openTxn
          { L := m.L, m := m, sent := true }).serve m (if m.k = .rdS then .E else .M) true := by
  unfold State.allocEntry
  dsimp only
  split
  case h_1 w _ =>
    refine ⟨w, ?_⟩
    split
    case h_1 hp => exact absurd hp hk
    case h_2 hr => rw [if_pos hr]
    case h_3 hr => rw [if_neg hr]
  case h_2 hnone =>
    refine absurd hnone (freeWay_ne_none (fun v a => ?_) h)
    split
    · exact .inr ⟨_, rfl⟩
    · exact .inl rfl

/-! ### Requests that open at once (R246) -/


/-- An uncached line: EX{r}, with the LLC's data. -/
theorem openReq_uncached (hk : m.k = .rdS ∨ m.k = .rdO) (hd : s.dirE m.L = none) (hx : s.llcE m.L = some x)
    (hw : (s.dir.filter (fun q => dirKey q.1 == dirKey m.L)).length < 16) :
    Sends s (s.openReq m) [homeData m (if m.k = .rdS then .E else .M) x.d] ∧ (s.openReq m).lineBusy m.L = true
      ∧ ∃ w, (s.openReq m).dirE m.L = some ⟨.EX, [m.agent], 0, w, true⟩ := by
  have ho : s.openReq m = s.allocEntry m := by rcases hk with hk | hk <;> simp [State.openReq, hk, hd]
  obtain ⟨w, ha⟩ := allocEntry_room (by rcases hk with hk | hk <;> rw [hk] <;> decide) hw
  rw [ho, ha]
  refine ⟨((((Sends.nothing s).setDir _ _).dirTouch _ _).count _).openTxn _ |>.serve hx _, ?_, w, ?_⟩
  · rw [serve_held (x := x) (by exact hx)]; exact lineBusy_openTxn _
  · rw [serve_held (x := x) (by exact hx)]; simp [State.dirE, State.setDir, State.dirTouch, State.count, State.llcTouch]

/-- A shared line: the reader becomes a sharer, with the LLC's data. -/
theorem openReq_shared_read (hk : m.k = .rdS) (hd : s.dirE m.L = some e) (he : e.st ≠ .EX) (hx : s.llcE m.L = some x) :
    Sends s (s.openReq m) [homeData m .S x.d] ∧ (s.openReq m).lineBusy m.L = true := by
  have ho : s.openReq m
      = (((((s.dirTouch m.L e.way).pin m.L).openTxn { L := m.L, m := m }).dirAdd m.L m.agent).serve m .S true).sentTxn m.L := by
    simp only [State.openReq, hk, hd]
    cases hst : e.st with
    | EX => exact absurd hst he
    | S | coarse => simp
  have hopen := ((((Sends.nothing s).dirTouch m.L e.way).pin m.L).openTxn { L := m.L, m := m }).dirAdd m.L m.agent
  rw [ho]
  refine ⟨(hopen.serve hx .S).sentTxn _, lineBusy_serve_sent (x := x) (by rw [llcE_eq_of_llc_eq hopen.llc, hx]) .S ?_⟩
  rw [lineBusy_of_txns_eq (dirAdd_txns _ _ _)]
  exact lineBusy_openTxn _

/-- R246, R254: an exclusive request pins the line's entry and sends INV to the tiles `ts`. -/
def invited (s : State) (m : Msg) (e : DirE) (ts : List Nat) : State :=
  ((((s.dirTouch m.L e.way).count m.L).pin m.L).openTxn
    { L := m.L, m := m, waitInv := ts, coarse := decide (e.st = .coarse) }).sendInvs m.L m.dom ts

theorem invited_sends (s : State) (m : Msg) (e : DirE) (ts : List Nat) : Sends s (invited s m e ts) (ts.map (homeInv m)) :=
  (((((Sends.nothing s).dirTouch _ _).count _).pin _).openTxn _).sendInvs m ts

theorem openReq_shared_own (hk : m.k = .rdO ∨ m.k = .upg) (hd : s.dirE m.L = some e) (he : e.st ≠ .EX) :
    s.openReq m = if ((s.listed e).filter (· != m.agent)).isEmpty
      then (invited s m e ((s.listed e).filter (· != m.agent))).proceed m.L
      else invited s m e ((s.listed e).filter (· != m.agent)) := by
  have hl : (s.dirTouch m.L e.way).listed e = s.listed e := listed_of_csr_eq rfl e
  rcases hk with hk | hk <;>
  · simp only [State.openReq, hk, hd]
    cases hst : e.st with
    | EX => exact absurd hst he
    | S | coarse => simp [invited, hl, hst]

/-- A shared line that is to be owned: INV to every other sharer. -/
theorem openReq_shared_inv (hk : m.k = .rdO) (hd : s.dirE m.L = some e) (he : e.st ≠ .EX)
    (hn : (s.listed e).filter (· != m.agent) ≠ []) :
    Sends s (s.openReq m) (((s.listed e).filter (· != m.agent)).map (homeInv m)) ∧ (s.openReq m).lineBusy m.L = true := by
  rw [openReq_shared_own (.inl hk) hd he, if_neg (by simpa using hn)]
  refine ⟨invited_sends s m e _, ?_⟩
  rw [invited, sendInvs_eq]
  exact lineBusy_openTxn { L := m.L, m := m, waitInv := _, coarse := _ }

/-- R246: the GRANT of ownership to a sharer whose data is current. -/
def homeGrant (m : Msg) : Msg := { k := .grant, L := m.L, agent := m.agent, kind := .M }

/-- R246: once no other sharer is left, a sharer that upgrades is granted ownership. -/
theorem proceed_upg {y : Txn} (hy : s.txnOf m.L = some y) (hm : y.m = m) (hv : y.evict = none) (hk : m.k = .upg)
    (hd : s.dirE m.L = some e) (hr : m.agent ∈ s.listed e) : s.proceed m.L = ((s.dirEx m.L m.agent).send (homeGrant m)).sentTxn m.L := by
  simp [State.proceed, hy, hm, hv, hk, hd, hr, homeGrant]

/-- The only sharer upgrades. -/
theorem openReq_upg (hk : m.k = .upg) (hf : s.lineBusy m.L = false) (hd : s.dirE m.L = some e) (he : e.st ≠ .EX)
    (hn : (s.listed e).filter (· != m.agent) = []) (hr : m.agent ∈ s.listed e) :
    Sends s (s.openReq m) [homeGrant m] ∧ ∃ y, (s.openReq m).dirE m.L = some y ∧ y.st = .EX ∧ y.ptrs = [m.agent] := by
  have hs := invited_sends s m e []
  have hdir : (invited s m e []).dirE m.L = some { e with pin := true } :=
    dirE_pin (s := (s.dirTouch m.L e.way).count m.L) hd
  have htxn : (invited s m e []).txnOf m.L
      = some { L := m.L, m := m, coarse := decide (e.st = .coarse), at_ := (((s.dirTouch m.L e.way).count m.L).pin m.L).waitClock } :=
    txnOf_openTxn (s := ((s.dirTouch m.L e.way).count m.L).pin m.L) (y := { L := m.L, m := m, coarse := decide (e.st = .coarse) })
      (by rw [lineBusy_of_txns_eq (pin_txns _ _)]; exact hf)
  rw [openReq_shared_own (.inr hk) hd he, hn, List.isEmpty_nil, if_pos rfl,
    proceed_upg htxn rfl rfl hk hdir (by rw [listed_of_csr_eq hs.csr]; exact hr)]
  exact ⟨((hs.dirEx _ _).send _).sentTxn _, _,
    (dirE_eq_of_dir_eq ((sentTxn_dir _ _)) _).trans (dirE_dirEx hdir m.agent), rfl, rfl⟩

/-- R246: the request of `m` passed on to the owner `o`, its transaction open on the pinned entry. -/
def fwdOpened (s : State) (m : Msg) (k : MsgK) (o : Nat) : State :=
  ((s.pin m.L).openTxn { L := m.L, m := m, fwdTo := some o }).send (homeFwd m k o)

/-- A line that another tile owns: the request goes on to it as the forward of its kind. -/
theorem openReq_owned (hk : (m.k = .rdS ∧ k = .fwdS) ∨ (m.k = .rdO ∧ k = .fwdO) ∨ (m.k = .rdFetch ∧ k = .fwdPeek))
    (hd : s.dirE m.L = some e) (he : e.st = .EX) (ho : e.ptrs.headD 0 ≠ m.agent) :
    Sends s (s.openReq m) [homeFwd m k (e.ptrs.headD 0)] ∧ (s.openReq m).lineBusy m.L = true := by
  generalize hq : e.ptrs.headD 0 = o at ho ⊢
  obtain ⟨u, hu, heq⟩ : ∃ u, Sends s u [] ∧ s.openReq m = fwdOpened u m k o := by
    rcases hk with ⟨hk, rfl⟩ | ⟨hk, rfl⟩ | ⟨hk, rfl⟩
    · exact ⟨_, (Sends.nothing s).dirTouch m.L e.way, by simp only [State.openReq, hk, hd, he, hq, if_neg ho]; rfl⟩
    · exact ⟨_, ((Sends.nothing s).dirTouch m.L e.way).count m.L, by simp only [State.openReq, hk, hd, he, hq, if_neg ho]; rfl⟩
    · exact ⟨s, Sends.nothing s, by simp [State.openReq, fwdOpened, homeFwd, hk, hd, he, hq, ho, -List.headD_eq_head?_getD]⟩
  rw [heq]
  exact ⟨((hu.pin _).openTxn _).send _, lineBusy_openTxn _⟩

/-- R249: a snapshot of a line that no tile holds is the LLC's, and leaves the home as it was. -/
theorem openReq_snapshot (hk : m.k = .rdFetch) (hd : s.dirE m.L = none) (hx : s.llcE m.L = some x) :
    Sends s (s.openReq m) [homeData m .none x.d] ∧ (s.openReq m).dirE m.L = none := by
  have ho : s.openReq m = (s.openTxn { L := m.L, m := m }).serveSnap m := by simp [State.openReq, hk, hd]
  rw [ho, serveSnap_held (s := s.openTxn { L := m.L, m := m }) hx]
  exact ⟨(((Sends.nothing s).openTxn _).send (homeData m .none x.d)).closeTxn _,
    (dirE_eq_of_dir_eq (closeTxn_dir (s := State.send (s.openTxn _) _) hd) _).trans hd⟩

/-- R254: an ATOMIC of a line that no tile holds leaves memory and cores as they were. -/
theorem ncDone_frame (s : State) (m r : Msg) (y : LlcE) : (ncDone s m y r).dram = s.dram ∧ (ncDone s m y r).cores = s.cores := by
  have hdone := ((Sends.nothing (llcRewrite (ncOpened s m) m.L y)).send r).closeTxn m.L
  rw [ncDone, hdone.dram, hdone.cores]
  simp [llcRewrite, ncOpened, State.llcTouch, State.count]

/-! ### Errors in the home's arrays (R231, R265) -/

/-- What a record stages stands beside the LLC, the tiles' lines and domains, and messages. -/
theorem record_frame (s : State) (cls unit sev code d0 d1 : Nat) : (s.record cls unit sev code d0 d1).llc = s.llc
    ∧ (s.record cls unit sev code d0 d1).caches = s.caches ∧ (s.record cls unit sev code d0 d1).msgs = s.msgs
    ∧ (s.record cls unit sev code d0 d1).tileDom = s.tileDom := by
  unfold State.record; dsimp only; split <;> exact ⟨rfl, rfl, rfl, rfl⟩

/-- R231: an uncorrectable word of the line in the LLC leaves a poison mark there. -/
theorem homeErr_data (hx : s.llcE L = some x) (dom i : Nat) : (s.homeErr L dom (.data i)).llcE L
    = some { x with d := { x.d with poison := x.d.poison ||| ((1 : BitVec 8) <<< (i % 8)) } } := by
  simp only [State.homeErr, hx, State.deferred]
  rw [llcE_eq_of_llc_eq (record_frame _ _ _ _ _ _ _).1, llcE_setLlc_same]

/-- The errors of the home's arrays that are fatal, with their KIND in TIL_HOME_ERR (R265). -/
theorem homeErr_fatal {err : ArrErr} {n : Nat} (h : (err = .dir ∧ n = 1) ∨ (err = .tag ∧ n = 2) ∨ (err = .slot ∧ n = 3))
    (dom : Nat) : s.homeErr L dom err = s.fatalAt (homeOf L) n L ∧ n ≠ 0 ∧ n < 16 := by
  rcases h with ⟨rfl, rfl⟩ | ⟨rfl, rfl⟩ | ⟨rfl, rfl⟩ <;> exact ⟨rfl, by decide, by decide⟩

/-- RD_S goes on from the state that the arrays' answer leaves. -/
theorem exec_rdS_after_homeErr (hr : s.meshRuns = true) (ht : (s.take .rdS g L).isSome = true) (err : ArrErr) :
    exec (.rdS g ⟨L, err⟩) s = exec (.rdS g ⟨L, .none⟩) (s.homeErr L (s.domOf g) err) := by
  generalize hu : s.homeErr L (s.domOf g) err = u
  have hl : exec (.rdS g ⟨L, err⟩) s = atHome u .rdS g L := by simp [execRdS, ht, hr, hu]
  have hright : exec (.rdS g ⟨L, .none⟩) u
      = if (u.take .rdS g L).isSome && u.meshRuns then atHome u .rdS g L else turnedAway u := rfl
  rw [hl, hright]
  split
  case isTrue => rfl
  case isFalse h =>
    rw [Bool.and_eq_true, not_and'] at h
    unfold atHome onMsg
    cases hm : u.meshRuns with
    | false => rfl
    | true => cases hk : u.take .rdS g L with
      | none => rfl
      | some p => simp [hm, hk] at h

end Sys2Proof.Laws
end

section
/-! PROOF. O23: requests at a home with nothing open or waiting on the line. -/

namespace Sys2Proof.Laws
open Sys2Proof Sys2Proof.Machine Sys2Proof.Safety

/-- Settles O23: a request at an idle home opens its transaction, and each clause is what opening it sends (`openReq_…`); a busy line's
request is queued or held back; an error in the home's arrays acts before the request is taken. -/
theorem homeServesRequests : Obligations.HomeServesRequests := by
  unfold Obligations.HomeServesRequests
  refine ⟨?requests, ?errors⟩
  case requests =>
    intro k r L d0 m e x a q s s1 hruns ht hready home free idle way data fwd at_ others rdS
    obtain ⟨rfl, rfl, rfl, hs1⟩ := take_some s ht
    have hcsr : s1.csr = s.csr := by rw [hs1]
    have hcores : s1.cores = s.cores := by rw [hs1]
    have intact (hk : m.k = .rdS) : exec rdS s = atHome s m.k m.agent m.L := by
      rw [hk] at ht ⊢
      exact exec_rdS_intact hruns ht
    have request {i : Instr} {k : MsgK} (hk : m.k = k) (hi : exec i s = atHome s k m.agent m.L) :
        exec i s = atHome s m.k m.agent m.L := by rw [hk, hi]
    refine ⟨fun hbusy i hi => ?busy, fun hidle => ?idle⟩
    case busy =>
      have he : exec i s = atHome s m.k m.agent m.L := by
        rcases hi with ⟨hk, rfl⟩ | ⟨hk, rfl⟩ | ⟨hk, rfl⟩ | ⟨hk, rfl⟩
        · exact intact hk
        all_goals exact request hk rfl
      rw [he]
      refine ⟨fun hroom => atHome_accepted hruns ht (accept_waits hready hbusy hroom),
        fun hfull => ⟨_, atHome_refused hruns ht (accept_full hready hbusy hfull) ?_, incSat_only s _, f_incSat_same s _⟩⟩
      rw [← hready, State.homeReady, State.homeReady, State.f, State.f, hcsr]
    case idle =>
      obtain ⟨hfree, hunasked, hslots, hretries⟩ := hidle
      have hopen {i : Instr} (hi : exec i s = atHome s m.k m.agent m.L) : exec i s = .next (s1.openReq m) :=
        hi.trans (atHome_accepted hruns ht (accept_idle ⟨hready, hfree, hunasked, hslots, hretries⟩))
      have opens {i : Instr} {P : State → Prop} {ms : List Msg} (hi : exec i s = atHome s m.k m.agent m.L)
          (hsends : Sends s1 (s1.openReq m) ms) (hP : P (s1.openReq m)) : at_ i P :=
        ⟨_, hopen hi, hsends.dram, hsends.cores.trans hcores, hP⟩
      refine ⟨fun hd hway hx => ⟨fun hk => ?uncachedRead, fun hk => ?uncachedOwn⟩,
        fun hd he => ⟨fun hk hx => ?sharedRead, fun hk hn => ?sharedOwn, fun hk hn hr => ?upgrade⟩,
        fun hd he ho => ⟨fun hk => ?ownedRead, fun hk => ?ownedOwn, fun hk => ?ownedSnapshot⟩,
        fun hd hx => ⟨fun hk => ?snapshot, fun hk hr hL ha hat hp hl => ?atomic⟩⟩
      case uncachedRead =>
        obtain ⟨hsends, hbusy, w, hdir⟩ := openReq_uncached (.inl hk) hd hx hway
        rw [if_pos hk] at hsends
        exact opens (intact hk) hsends ⟨hsends.msgs, hbusy, _, hdir, rfl, rfl, rfl⟩
      case uncachedOwn =>
        obtain ⟨hsends, -, w, hdir⟩ := openReq_uncached (.inr hk) hd hx hway
        rw [if_neg (by rw [hk]; decide)] at hsends
        exact opens (request hk rfl) hsends ⟨hsends.msgs, _, hdir, rfl, rfl⟩
      case sharedRead =>
        obtain ⟨hsends, hbusy⟩ := openReq_shared_read hk hd he hx
        exact opens (intact hk) hsends ⟨hsends.msgs, hbusy⟩
      case sharedOwn =>
        obtain ⟨hsends, hbusy⟩ := openReq_shared_inv hk hd he hn
        exact opens (request hk rfl) hsends ⟨hsends.msgs, hbusy⟩
      case upgrade =>
        obtain ⟨hsends, hdir⟩ := openReq_upg hk hfree hd he hn hr
        exact opens (request hk rfl) hsends ⟨hsends.msgs, hdir⟩
      case ownedRead =>
        obtain ⟨hsends, hbusy⟩ := openReq_owned (k := .fwdS) (by simp [hk]) hd he ho
        exact opens (intact hk) hsends ⟨hsends.msgs, hbusy⟩
      case ownedOwn =>
        obtain ⟨hsends, hbusy⟩ := openReq_owned (k := .fwdO) (by simp [hk]) hd he ho
        exact opens (request hk rfl) hsends ⟨hsends.msgs, hbusy⟩
      case ownedSnapshot =>
        obtain ⟨hsends, hbusy⟩ := openReq_owned (k := .fwdPeek) (by simp [hk]) hd he ho
        exact opens (request hk rfl) hsends ⟨hsends.msgs, hbusy⟩
      case snapshot =>
        obtain ⟨hsends, hdir⟩ := openReq_snapshot hk hd hx
        exact opens (request hk rfl) hsends ⟨hsends.msgs, hdir⟩
      case atomic =>
        have hi : exec (.atomic m.agent d0 q) s = atHome s .atomic m.agent m.L := by simp [execAtomic, hr, hL]
        refine ⟨_, hopen (request hk hi), ?_⟩
        rw [openReq_atomic_held hk ha hd hfree hx hat hp hl, (ncDone_frame s1 m _ _).1, (ncDone_frame s1 m _ _).2]
        exact ⟨rfl, hcores, dirE_ncDone _, lineBusy_ncDone _ hfree, msgs_ncDone _, _, llcE_ncDone _, rfl, rfl⟩
  case errors =>
    intro r L err s ht hruns home u
    refine ⟨exec_rdS_after_homeErr hruns ht err, fun h => ?fixed, fun i y h hx => ?data, fun n h hf h0 => ?fatal⟩
    case fixed => subst h; rfl
    case data => subst h; exact homeErr_data hx _ i
    case fatal =>
      obtain ⟨hu, hn, hlt⟩ := homeErr_fatal (s := s) (L := L) h (s.domOf r)
      rw [show u = s.fatalAt (homeOf L) n L from hu]
      exact fatalAt_fatal hf h0 hn hlt

end Sys2Proof.Laws
end

section
/-! SUPPORT. What a home does with the answers of an open transaction, and a tile with a line that it evicts; fatal conditions and
silence (R231, R242, R244, R249, R257, R263, R265, R513). -/

namespace Sys2Proof.Laws
open Sys2Proof Sys2Proof.Machine Sys2Proof.Safety

variable {s u : State} {m : Msg} {e : DirE} {y : Txn} {L n : Nat}

/-! ### Registers between the event network and the fabric keep their values while a packet leaves -/

/-- A field that lies above the event network's registers and below the fabric interface's (R38). -/
def Between (x : Fld) : Prop := evtEnd ≤ x.key ∧ x.key < 0x900000 * 128

variable {x : Fld}

theorem f_setL2 (s : State) (t L : Nat) (y : L2Line) (x : Fld) : (s.setL2 t L y).f x = s.f x := rfl
theorem f_send (s : State) (m : Msg) (x : Fld) : (s.send m).f x = s.f x := rfl
theorem f_meter (s : State) (d i n : Nat) (x : Fld) : (s.meter d i n).f x = s.f x := by
  unfold State.meter; dsimp only; split <;> rfl

theorem f_pump (hx : Between x) (p : Nat) : (s.pump p).f x = s.f x := by
  obtain ⟨-, hx⟩ := hx
  obtain ⟨y, n, h⟩ : ∃ y n, s.pump p = (s.setPort p y).addSat (R.FAB_PORT_TXF_COUNT p) n := ⟨_, _, rfl⟩
  rw [h, f_addSat_ne _ _ _ _ (by simp only [R.FAB_PORT_TXF_COUNT, portBase, Fld.key] at hx ⊢; omega)]
  rfl

theorem f_portSend (hx : Between x) (p : Nat) (inp : Option Nat) (k : Pkt) : (s.portSend p inp k).1.f x = s.f x := by
  have hdrop : x.key ≠ (R.FAB_PORT_DROP_COUNT p).key := by
    obtain ⟨-, hx⟩ := hx; simp only [R.FAB_PORT_DROP_COUNT, portBase, Fld.key] at hx ⊢; omega
  have hheld : x.key ≠ (R.FAB_PORT_STAT_HELD p).key := by
    obtain ⟨-, hx⟩ := hx; simp only [R.FAB_PORT_STAT_HELD, portBase, Fld.key] at hx ⊢; omega
  unfold State.portSend; dsimp only; split
  · exact f_pump hx p
  split
  · rw [f_raise_above _ _ _ hx.1, f_incSat_ne _ _ _ hdrop]
  · exact f_setF_ne _ _ _ _ hheld

theorem f_inject (hx : Between x) (k : Pkt) : (s.inject k).f x = s.f x := by
  unfold State.inject; split
  · rfl
  · dsimp only; split <;> exact f_portSend hx _ none k

theorem f_fabSend (hx : Between x) {orig : FOrig} {dom dev loc bytes : Nat} {k : Pkt} (h : s.fabSend orig dom dev loc bytes k = .inl u) :
    u.f x = s.f x := by
  have htags : x.key ≠ R.FAB_TAGS_INUSE.key := by
    obtain ⟨-, hx⟩ := hx; simp only [R.FAB_TAGS_INUSE, Fld.key] at hx ⊢; omega
  unfold State.fabSend at h
  split at h
  case isTrue => cases h
  split at h
  case h_1 => cases h
  dsimp only at h
  split at h
  case h_1 => cases h
  split at h
  case isTrue => cases h
  split at h
  case h_1 => cases h
  cases h
  rw [f_inject hx, f_setF_ne _ _ _ _ htags]
  split
  · rfl
  · exact f_meter _ dom mtrFAB bytes x

/-- R468: a request that leaves is one that was sent. -/
theorem fabSend_of_fabRequest {orig : FOrig} {dom dev loc bytes : Nat} {k : Pkt}
    (h : s.fabRequest orig dom dev loc bytes k = .inl u) : s.fabSend orig dom dev loc bytes k = .inl u := by
  unfold State.fabRequest at h
  split at h
  case h_1 => cases h
  case h_2 =>
    split at h
    · cases h
    · exact h

/-- R244: a line that leaves the tile, by a WB or on the fabric, leaves such a field alone. -/
theorem f_evictLine (hx : Between x) {t V : Nat} (h : s.evictLine t V = some u) : u.f x = s.f x := by
  unfold State.evictLine at h
  dsimp only at h
  split at h
  case h_1 | h_2 => rw [← Option.some.inj h, f_setL2]
  case h_3 =>
    split at h
    · split at h
      case h_1 v hv => rw [← Option.some.inj h, f_setL2, f_fabSend hx (fabSend_of_fabRequest hv)]
      case h_2 => cases h
    · rw [← Option.some.inj h, f_send, f_setL2]
  case h_4 => cases h

/-! ### A fatal condition (R265, R513) -/

/-- R513: the registers that every fatal condition writes. -/
def deadRegs : List (Fld × Nat) := [(R.ER_STAT_FATAL, 1), (R.HEP_DV_DEV_FATAL, 1), (R.ER_STAT_FLUSHING, 1), (R.FAB_TAGS_INUSE, 0)]

/-- The first fatal condition: TIL_HOME_ERR may be written, then R513's registers; fabric requests are abandoned, and a record is
staged. -/
theorem fatal_first (h : s.isFatal = false) (n kind L cls code d0 d1 : Nat) : ∃ v, RegsOnly s v
    ∧ (s.fatal n kind L cls code d0 d1).csr = (v.setFs deadRegs).csr ∧ (s.fatal n kind L cls code d0 d1).ftags = []
    ∧ (s.fatal n kind L cls code d0 d1).dram = (v.setFs deadRegs).dram
    ∧ (s.fatal n kind L cls code d0 d1).cores = (v.setFs deadRegs).cores := by
  have hkind : RegsOnly s (if s.f (R.TIL_HOME_ERR_KIND n) = 0 ∧ kind ≠ 0 then
      s.setFs [(R.TIL_HOME_ERR_KIND n, kind), (R.TIL_HOME_ERR_LINE n, L)] else s) := by
    split
    · exact regsOnly_setFs s _
    · exact .rfl' s
  refine ⟨_, hkind, ?_⟩
  rw [State.fatal, if_neg (by rw [h]; exact Bool.false_ne_true)]
  dsimp only [State.record]
  rw [if_pos (.inr rfl)]
  exact ⟨rfl, rfl, rfl, rfl⟩

/-- The fatal state is entered, or was entered before. -/
theorem isFatal_fatal (s : State) (n kind L cls code d0 d1 : Nat) : (s.fatal n kind L cls code d0 d1).isFatal = true := by
  cases h : s.isFatal with
  | true => rw [State.fatal, if_pos h, h]
  | false =>
    obtain ⟨v, -, hcsr, -⟩ := fatal_first h n kind L cls code d0 d1
    have hlater : ∀ p ∈ deadRegs.tail, R.ER_STAT_FATAL.key ≠ p.1.key := by decide
    have hset : (v.setFs deadRegs).f R.ER_STAT_FATAL = 1 :=
      (f_setFs_ne (v.setF R.ER_STAT_FATAL 1) _ _ hlater).trans (f_setF_same v _ 1)
    rw [State.isFatal, State.f, hcsr]
    exact beq_iff_eq.mpr hset

/-- What the first fatal condition leaves: no fabric request is outstanding, and memory and cores are as they were. -/
theorem fatal_frame (h : s.isFatal = false) (n kind L cls code d0 d1 : Nat) : (s.fatal n kind L cls code d0 d1).ftags = []
    ∧ (s.fatal n kind L cls code d0 d1).dram = s.dram ∧ (s.fatal n kind L cls code d0 d1).cores = s.cores := by
  obtain ⟨v, hv, -, hftags, hdram, hcores⟩ := fatal_first h n kind L cls code d0 d1
  have hset := hv.trans (regsOnly_setFs v deadRegs)
  exact ⟨hftags, hdram.trans hset.dram, hcores.trans hset.cores⟩

/-- R265: silence reported by the tile writes the registers that silence at the home of that number writes. -/
theorem fatalTile_csr (h : s.isFatal = false) : (s.fatalTile n 5 L).csr = (s.fatalAt n 5 L).csr := by
  simp [State.fatalTile, State.fatalAt, State.fatal, h, State.record]

/-- R265: the home or the tile has found silence: the device is in the fatal state with KIND 5 in TIL_HOME_ERR. -/
theorem silence_fatal {t : State} (h : s.isFatal = false) (h0 : s.f (R.TIL_HOME_ERR_KIND n) = 0)
    (ht : t = s.fatalAt n 5 L ∨ t = s.fatalTile n 5 L) :
    t.isFatal = true ∧ t.f (R.TIL_HOME_ERR_KIND n) = 5 ∧ t.ftags = [] ∧ t.dram = s.dram ∧ t.cores = s.cores := by
  obtain ⟨hfatal, hkind⟩ := fatalAt_fatal (L := L) h h0 (kind := 5) (by decide) (by decide)
  rcases ht with rfl | rfl
  · exact ⟨hfatal, hkind, fatal_frame h _ _ _ _ _ _ _⟩
  · refine ⟨isFatal_fatal _ _ _ _ _ _ _ _, ?_, fatal_frame h _ _ _ _ _ _ _⟩
    exact (congrArg (fun r => Tbl.get _ r _ % _) (fatalTile_csr h)).trans hkind

/-! ### Answers at the home (R246, R249, R252, R257, R263) -/

theorem dirE_closeTxn (h : s.dirE L = some e) : (s.closeTxn L).dirE L = some { e with pin := false } := by
  have h' : ({ s with txns := s.txns.filter (fun t => t.L != L) } : State).dirE L = some e := h
  simp [State.closeTxn, State.unpin, h']

theorem ownerAcked_rdS (hy : s.txns.find? (fun q => q.fwdTo == some m.agent && q.L == m.L) = some y) (hm : m.d = none)
    (hk : y.m.k = .rdS) (hdone : y.done = true) (hd : s.dirE m.L = some e) : s.ownerAcked m
      = (s.setDir m.L (some (({ e with st := .S, ptrs := [m.agent] } : DirE).add y.m.agent))).closeTxn m.L := by
  simp [State.ownerAcked, hy, hm, hk, hdone, hd]

theorem ownerAcked_rdNc (hy : s.txns.find? (fun q => q.fwdTo == some m.agent && q.L == m.L) = some y) (hm : m.d = none)
    (hk : y.m.k = .rdNc) : s.ownerAcked m = s.closeTxn m.L := by
  simp [State.ownerAcked, hy, hm, hk]

theorem completed_sent (hy : s.txnOf L = some y) (hf : y.fwdTo = none) (hs : y.sent = true) :
    s.completed y.m.agent L = s.closeTxn L := by
  simp [State.completed, hy, hf, hs]

theorem noCopy_inflight (hy : s.txns.find? (fun q => q.fwdTo == some n && q.L == L) = some y) (hw : y.wbData = none) :
    s.noCopy n L true = s.setTxn { y with infl := true } := by
  simp [State.noCopy, hy, hw]

theorem noCopy_absent (hy : s.txns.find? (fun q => q.fwdTo == some n && q.L == L) = some y) (hw : y.wbData = none) :
    s.noCopy n L false = (s.incSat (R.TIL_DIR_STALE_COUNT (homeOf L))).ownerGone y := by
  simp [State.noCopy, hy, hw]

/-- One answer of several: the tile leaves the wait list. -/
theorem invAnswered_waits
    (hy : s.txns.find? (fun q => q.waitInv.contains n && (q.evict == some L || (q.evict == none && q.L == L))) = some y)
    (hn : y.waitInv.filter (· != n) ≠ []) (dom : Nat) :
    s.invAnswered n L dom none false = s.setTxn { y with waitInv := y.waitInv.filter (· != n), infl := false, wbData := none } := by
  have hn' : (y.waitInv.filter (· != n)).isEmpty = false := by simpa using hn
  simp only [State.invAnswered, hy, hn']
  rfl

/-- The owner of a line that is to be owned has no copy: the home serves the request from the LLC. -/
theorem ownerGone_rdO {x : LlcE} (hk : y.m.k = .rdO) (hL : y.m.L = y.L) (hd : s.dirE y.L = some e) (hx : s.llcE y.L = some x) :
    Sends s (s.ownerGone y) [homeData y.m .M x.d]
      ∧ (s.ownerGone y).dirE y.L = some { e with st := .EX, ptrs := [y.m.agent], mask := 0 } := by
  have ho : s.ownerGone y = ((s.dirEx y.L y.m.agent).serve y.m .M true).sentTxn y.L := by simp [State.ownerGone, hk]
  have hex := (Sends.nothing s).dirEx y.L y.m.agent
  rw [← hL] at hx
  rw [ho]
  refine ⟨(hex.serve hx .M).sentTxn _, ?_⟩
  rw [dirE_eq_of_dir_eq (sentTxn_dir _ _), serve_held (x := x) (by rw [llcE_eq_of_llc_eq hex.llc, hx])]
  exact dirE_dirEx hd _

/-! ### A tile's eviction (R231, R244, R265) -/

theorem evicts_or_stays {t : Nat} (ht : t < 256) (hr : s.tileRuns t = true) (err : ArrErr) :
    exec (.l2Eviction t ⟨L, err⟩) s = .next (((s.tileErr t L err).evictLine t L).getD (s.tileErr t L err)) := by
  simp only [exec_l2Eviction, execL2Eviction, if_pos (And.intro ht hr)]
  cases (s.tileErr t L err).evictLine t L <;> rfl

theorem evictLine_clean {t : Nat} (h : (s.l2 t L).st = .S ∨ (s.l2 t L).st = .E) : s.evictLine t L = some (s.setL2 t L {}) := by
  rcases h with h | h <;> simp [State.evictLine, h]

/-- R244: the WB of a dirty line of DRAM that tile `t` evicts. -/
def evictWb (s : State) (t L : Nat) (d : LineD) : Msg :=
  { k := .wb, L := L, agent := t, dom := s.domOf t, kind := .evict, d := some d }

theorem evictLine_dirty {t : Nat} (h : (s.l2 t L).st = .M) (hL : L < 2 ^ 60) : s.evictLine t L
    = some ((s.setL2 t L { st := .WBP, at_ := s.waitClock }).send (evictWb s t L (s.l2 t L).d)) := by
  simp only [State.evictLine, h, if_neg (Nat.not_le.mpr hL)]
  rfl

/-- R231: the tile's line with word `i` poisoned. -/
def poisonedAt (y : L2Line) (i : Nat) : L2Line := { y with d := { y.d with poison := y.d.poison ||| ((1 : BitVec 8) <<< (i % 8)) } }

/-- R231: an uncorrectable word that the tile reads in a line that it holds becomes poison; nothing is sent. -/
theorem tileErr_data {t : Nat} (h : (s.l2 t L).st.inWay = true) (i : Nat) :
    (s.tileErr t L (.data i)).l2 t L = poisonedAt (s.l2 t L) i ∧ (s.tileErr t L (.data i)).msgs = s.msgs
      ∧ (s.tileErr t L (.data i)).domOf t = s.domOf t := by
  have he : s.tileErr t L (.data i)
      = (s.setL2 t L (poisonedAt (s.l2 t L) i)).record 1 t 2 0x0200 (s.domOf t) (L * 64) := if_pos h
  obtain ⟨-, hcaches, hmsgs, hdom⟩ := record_frame (s.setL2 t L (poisonedAt (s.l2 t L) i)) 1 t 2 0x0200 (s.domOf t) (L * 64)
  rw [he]
  exact ⟨by rw [l2_eq_of_caches_eq hcaches, l2_setL2_same], hmsgs, congrArg (fun l => Tbl.get 0 l t % 4096) hdom⟩

/-- R265: an uncorrectable tag is fatal, whatever becomes of the line. -/
theorem tagErr_fatal {t : Nat} (u : State) (h : (s.tileErr t L .tag).evictLine t L = some u) : u.isFatal = true := by
  have hb : Between R.ER_STAT_FATAL := ⟨by decide, by decide⟩
  rw [State.isFatal, f_evictLine hb h]
  exact isFatal_fatal s _ _ _ _ _ _ _

/-! ### The home's own events (R249, R262, R265) -/

/-- R249: the oldest waiting request of a line that has become free opens. -/
theorem pendingRestart_opens (hm : s.pendQ.find? (fun q => q.L == L) = some m) (hb : s.lineBusy L = false)
    (hq : s.retryQ.any (fun q => q.L == L) = false) (hs : (s.txns.filter (fun q => homeOf q.L == homeOf L)).length < 64) :
    exec (.pendingRestart L) s = .next (({ s with pendQ := s.pendQ.eraseP (fun q => q.L == L) }).openReq m) := by
  simp only [exec_pendingRestart, execPendingRestart, hm, hb, hq]
  exact if_neg (by simpa using hs)

/-- R262: the oldest request for a retry that has a way to take opens. -/
theorem retryRestart_opens (hm : s.retryQ.find? (fun q => homeOf q.L == n && s.setOpens q.L && !(s.lineBusy q.L)) = some m)
    (hs : (s.txns.filter (fun q => homeOf q.L == n)).length < 64) : exec (.retryRestart n) s
      = .next (({ s with retryQ := s.retryQ.eraseP (fun q => homeOf q.L == n && s.setOpens q.L && !(s.lineBusy q.L)) }).openReq m) := by
  simp only [exec_retryRestart, execRetryRestart, hm]
  exact if_neg (Nat.not_le.mpr hs)

theorem homeSilent_true (h : ∃ y ∈ s.txns, y.L = L ∧ y.at_ + 1000000 ≤ s.waitClock) : s.homeSilent L = true := by
  simpa [State.homeSilent, State.late] using h
theorem homeSilent_false (h : ∀ y ∈ s.txns, y.L = L → s.waitClock < y.at_ + 1000000) : s.homeSilent L = false := by
  simpa [State.homeSilent, State.late] using h

theorem silenceTimeout_home (hq : s.f R.PWR_MESHQ_STATE < 2) (h : s.homeSilent L = true) :
    exec (.silenceTimeout L) s = .next (s.fatalAt (homeOf L) 5 L) := by
  simp [execSilenceTimeout, Nat.not_le.mpr hq, h]
theorem silenceTimeout_tile (hq : s.f R.PWR_MESHQ_STATE < 2) (h : s.homeSilent L = false) (ht : s.tileSilent L = some n) :
    exec (.silenceTimeout L) s = .next (s.fatalTile n 5 L) := by
  simp [execSilenceTimeout, Nat.not_le.mpr hq, h, ht]
theorem silenceTimeout_none (h : s.homeSilent L = false) (ht : s.tileSilent L = none) : exec (.silenceTimeout L) s = .next s := by
  simp [execSilenceTimeout, turnedAway, h, ht]

end Sys2Proof.Laws
end

section
/-! PROOF. O27: answers at the home of an open transaction, evictions, restarts, epochs and silence. -/

namespace Sys2Proof.Laws
open Sys2Proof Sys2Proof.Machine Sys2Proof.Safety

/-- Settles O27: each answer of an open transaction from what it does at the home (`ownerAcked_…`, `noCopy_…`, `invAnswered_waits`); an
eviction from what reading the line finds and where it goes; restarts, the epoch and silence from the home's own events. -/
theorem responsesAndEventsAtTheHome : Obligations.ResponsesAndEventsAtTheHome := by
  unfold Obligations.ResponsesAndEventsAtTheHome
  refine ⟨?answers, ?events⟩
  case answers =>
    intro t0 L m x y e s s1 home closes
    refine ⟨fun ht hx hm => ⟨fun hk hdone hd => ?ownerAckRead, fun hk => ?ownerAckSnapshot⟩, fun ht hx ha hf hs => ?complete,
      fun ht hx hw hk hL hmL hd hy => ?notPresent, fun ht hx hw => ?wbInflight, fun ht hm hx hn => ?invAck⟩
    case ownerAckRead =>
      obtain ⟨rfl, rfl, -, -⟩ := take_some s ht
      exact ⟨_, (onMsg_some s _ _ _ _ m s1 ht).trans (congrArg _ (ownerAcked_rdS hx hm hk hdone hd)), closeTxn_txns,
        dirE_closeTxn (dirE_setDir_same _)⟩
    case ownerAckSnapshot =>
      obtain ⟨rfl, rfl, -, -⟩ := take_some s ht
      exact ⟨_, (onMsg_some s _ _ _ _ m s1 ht).trans (congrArg _ (ownerAcked_rdNc hx hm hk)), closeTxn_txns, closeTxn_msgs⟩
    case complete =>
      subst ha
      exact ⟨_, (onMsg_some s _ _ _ _ m s1 ht).trans (congrArg _ (completed_sent hx hf hs)), closeTxn_txns, closeTxn_msgs, closeTxn_llc⟩
    case notPresent =>
      subst hL
      refine ⟨_, (onMsg_some s _ _ _ _ m s1 ht).trans (congrArg _ (noCopy_absent hx hw)), ?_⟩
      obtain ⟨hsends, hdir⟩ := ownerGone_rdO (s := s1.incSat (R.TIL_DIR_STALE_COUNT (homeOf x.L))) hk hmL hd hy
      refine ⟨hdir, ?_, ?_⟩
      · rw [hsends.msgs, ← hmL]; rfl
      · rw [State.f, hsends.csr]; exact f_incSat_same s1 _
    case wbInflight => exact (onMsg_some s _ _ _ _ m s1 ht).trans (congrArg _ (noCopy_inflight hx hw))
    case invAck => exact (onMsg_some s _ _ _ _ m s1 ht).trans (by rw [hm, Option.map_none, invAnswered_waits hx hn])
  case events =>
    intro t0 L n m s x
    refine ⟨fun ht hr => ⟨fun hx => ?clean, fun hx hL => ?dirty, fun hx hL i hi => ?poison, ?tag⟩,
      fun hm hb hq hs => ?pending, fun hm hs => ?retry, fun hn => ?epoch,
      fun hq hf => ⟨fun hy h0 => ?home, fun hy => ⟨fun u hu hlt h0 => ?tile, fun hu => ?quiet⟩⟩⟩
    case clean => rw [evicts_or_stays ht hr, show s.tileErr t0 L .none = s from rfl, evictLine_clean hx, Option.getD_some]
    case dirty =>
      rw [evicts_or_stays ht hr, show s.tileErr t0 L .none = s from rfl, evictLine_dirty hx hL, Option.getD_some]; rfl
    case poison =>
      obtain ⟨hl2, hmsgs, hdom⟩ := tileErr_data (s := s) (t := t0) (L := L) (by rw [hx]; rfl) i
      rw [evicts_or_stays ht hr, evictLine_dirty (by rw [hl2]; exact hx) hL, Option.getD_some]
      refine ⟨_, rfl, ?_⟩
      rw [send_msgs, setL2_msgs, hmsgs, evictWb, hdom, hl2, poisonedAt, Nat.mod_eq_of_lt hi]
    case tag =>
      refine ⟨_, evicts_or_stays ht hr _, ?_⟩
      cases he : (s.tileErr t0 L .tag).evictLine t0 L with
      | none => exact isFatal_fatal s _ _ _ _ _ _ _
      | some u => exact tagErr_fatal u he
    case pending => exact pendingRestart_opens hm hb hq hs
    case retry => exact retryRestart_opens hm hs
    case epoch => exact ⟨_, whenOk_true _ _ _ (decide_eq_true hn), setF_only s _ _, f_setF_same s _ _⟩
    case home => exact ⟨_, silenceTimeout_home hq (homeSilent_true hy), silence_fatal hf h0 (.inl rfl)⟩
    case tile => exact ⟨_, silenceTimeout_tile hq (homeSilent_false hy) hu, silence_fatal hf h0 (.inr rfl)⟩
    case quiet => exact silenceTimeout_none (homeSilent_false hy) hu

end Sys2Proof.Laws
end

section
/-! SUPPORT. Packets at a router: its input buffers, the arbitration for an output, and what an injected or forwarded packet leaves
behind (R269 to R273, R277, R280). -/

namespace Sys2Proof.Laws
open Sys2Proof Sys2Proof.Machine Sys2Proof.Safety

variable {s : State} {n m o p q v w vn err idx ni : Nat} {d : Option LineD} {k : MPkt} {rest : List MPkt}

/-! ### Links between routers (R21, R266) -/

/-- R21: a tile's number shows which of its coordinates are odd. -/
theorem tileAt_parity (x y : Nat) : tileAt x y % 2 = x % 2 ∧ tileAt x y / 2 % 2 = y % 2 := by
  simp only [tileAt]; omega

theorem tile_parity (n : Nat) : n % 2 = tileX n % 2 ∧ n / 2 % 2 = tileY n % 2 := by
  simp only [tileX, tileY]; omega

/-- A link leads to another router: one coordinate is odd at one end and even at the other. -/
theorem nbr_ne (h : nbr n o = some m) : m ≠ n := by
  rintro rfl
  obtain ⟨hx, hy⟩ := tile_parity m
  have hmoves (x y : Nat) (he : tileAt x y = m) : x % 2 = tileX m % 2 ∧ y % 2 = tileY m % 2 := by
    obtain ⟨hx', hy'⟩ := tileAt_parity x y
    rw [he] at hx' hy'
    exact ⟨hx'.symm.trans hx, hy'.symm.trans hy⟩
  unfold nbr at h
  dsimp only at h
  split at h
  case h_5 => cases h
  all_goals
    obtain ⟨hedge, he⟩ := Option.ite_none_right_eq_some.mp h
    have := hmoves _ _ (Option.some.inj he)
    omega

theorem oppPort_lt (ho : o ≤ 4) : oppPort o < 8 := by
  unfold oppPort; split <;> omega

/-- Two routers have no input buffer in common. -/
theorem inKey_ne (hm : m ≠ n) (hp : p < 8) (hq : q < 8) : inKey m q vn ≠ inKey n p vn := by
  unfold inKey; omega

/-! ### Input buffers (R271) -/

@[simp] theorem meshQ_setMeshQ_same (s : State) (n p vn : Nat) (l : List MPkt) : (s.setMeshQ n p vn l).meshQ n p vn = l :=
  Tbl_get_set_same _ _ _ _

theorem meshQ_setMeshQ_ne (h : inKey m q w ≠ inKey n p vn) (l : List MPkt) : (s.setMeshQ n p vn l).meshQ m q w = s.meshQ m q w :=
  Tbl_get_set_ne _ _ _ _ h

/-! ### The next step of a route (R270) -/

/-- Inside a segment one router less is left, and the direction stays. -/
theorem forward_inside {x : Hdr} (hp : 0 < x.nextp) (hl : 1 < x.left) (hs : segLen x.seg x.sp ≠ 0) :
    x.forward = { x with left := x.left - 1, nextp := segDir x.seg x.sp + 1 } := by
  have hleft : x.left - 1 ≠ 0 := by omega
  simp only [Hdr.forward, Nat.pos_iff_ne_zero.mp hp, hs, hleft, or_self, if_false]

/-- At a segment's end the next segment begins, or the route's exit is taken. -/
theorem forward_turn {x : Hdr} (hp : 0 < x.nextp) (hl : x.left = 1) (hs : segLen x.seg x.sp ≠ 0) :
    x.forward = { x with
      sp := x.sp + 1
      left := segLen x.seg (x.sp + 1)
      nextp := if segLen x.seg (x.sp + 1) = 0 then x.exit else segDir x.seg (x.sp + 1) + 1 } := by
  simp only [Hdr.forward, Nat.pos_iff_ne_zero.mp hp, hs, hl, or_self, if_false, Nat.sub_self, if_true]

/-! ### Arbitration (R272) -/

/-- The packets among which output `o` chooses: VN0 headers that have waited their time, else those of the highest VN. -/
def contenders (s : State) (n o : Nat) : List (Nat × Nat × Bool) :=
  let all := s.wanting n o
  let aged := all.filter (·.2.2)
  if aged.isEmpty then all.filter (fun c => c.2.1 == (all.map (·.2.1)).foldl max 0) else aged

/-- How many turns input `q` stands behind the one that output `o` serves next on VN `vn`. -/
def turnsBehind (s : State) (n o vn q : Nat) : Nat := (q + 5 - Tbl.get 0 s.meshRr (inKey n o vn) % 5) % 5

theorem wins_iff : s.wins n o p vn = true ↔ (∃ c ∈ contenders s n o, c.1 = p ∧ c.2.1 = vn)
    ∧ ∀ c ∈ contenders s n o, turnsBehind s n o vn p ≤ turnsBehind s n o vn c.1 := by
  have hwins : s.wins n o p vn = ((contenders s n o).any (fun c => c.1 == p && c.2.1 == vn)
      && (contenders s n o).all (fun c => decide (turnsBehind s n o vn p ≤ turnsBehind s n o vn c.1))) := rfl
  rw [hwins]
  simp only [Bool.and_eq_true, List.any_eq_true, List.all_eq_true, beq_iff_eq, decide_eq_true_eq]

/-- A packet that wants an output stands at one of five inputs; only a VN0 header can have waited its time. -/
theorem wanting_spec {c : Nat × Nat × Bool} (hc : c ∈ s.wanting n o) : c.1 < 5 ∧ (c.2.2 = true → c.2.1 = 0) := by
  simp only [State.wanting, List.mem_flatMap, List.mem_filterMap, List.mem_range] at hc
  obtain ⟨q, hq, v, -, hsome⟩ := hc
  split at hsome
  · obtain ⟨-, he⟩ := Option.ite_none_right_eq_some.mp hsome
    obtain rfl := Option.some.inj he
    refine ⟨hq, fun haged => ?_⟩
    simp only [Bool.and_eq_true, beq_iff_eq] at haged
    exact haged.1
  · cases hsome

/-- Without a VN0 header that has waited its time, the contenders are those of the highest VN. -/
theorem contenders_fresh (h : ∀ c ∈ s.wanting n o, c.2.2 = false) :
    contenders s n o = (s.wanting n o).filter (fun c => c.2.1 == ((s.wanting n o).map (·.2.1)).foldl max 0) := by
  have hnone : (s.wanting n o).filter (·.2.2) = [] := List.filter_eq_nil_iff.mpr (fun c hc => by simp [h c hc])
  rw [contenders, hnone]
  rfl

/-- The contenders are of one VN. -/
theorem contenders_one_vn (s : State) (n o : Nat) : ∃ v, ∀ c ∈ contenders s n o, c ∈ s.wanting n o ∧ c.2.1 = v := by
  unfold contenders
  dsimp only
  split
  · exact ⟨_, fun c hc => ⟨(List.mem_filter.mp hc).1, beq_iff_eq.mp (List.mem_filter.mp hc).2⟩⟩
  · refine ⟨0, fun c hc => ?_⟩
    obtain ⟨hmem, haged⟩ := List.mem_filter.mp hc
    exact ⟨hmem, (wanting_spec hmem).2 haged⟩

theorem turnsBehind_inj (hp : p < 5) (hq : q < 5) (h : turnsBehind s n o vn p = turnsBehind s n o vn q) : p = q := by
  simp only [turnsBehind] at h; omega

/-- At most one input wins an output. -/
theorem wins_unique (hp : s.wins n o p v = true) (hq : s.wins n o q w = true) : p = q ∧ v = w := by
  obtain ⟨⟨c, hc, rfl, rfl⟩, hcleast⟩ := wins_iff.mp hp
  obtain ⟨⟨e, he, rfl, rfl⟩, heleast⟩ := wins_iff.mp hq
  obtain ⟨u, hvn⟩ := contenders_one_vn s n o
  obtain ⟨hcw, hcu⟩ := hvn c hc
  obtain ⟨hew, heu⟩ := hvn e he
  have hle := hcleast e he
  have hge := heleast c hc
  rw [hcu] at hle
  rw [heu] at hge
  exact ⟨turnsBehind_inj (wanting_spec hcw).1 (wanting_spec hew).1 (le_antisymm hle hge), hcu.trans heu.symm⟩

/-- A VN0 header that has not waited its time wins only where nothing of VN1 or VN2 wants the output. -/
theorem wins_vn0 (h : s.wins n o p 0 = true) (hfresh : ∀ c ∈ s.wanting n o, c.2.2 = false) : ∀ c ∈ s.wanting n o, c.2.1 = 0 := by
  obtain ⟨⟨c, hc, -, hc0⟩, -⟩ := wins_iff.mp h
  rw [contenders_fresh hfresh, List.mem_filter, beq_iff_eq, hc0] at hc
  intro e he
  rw [List.foldl_eq_foldr] at hc
  have hmax := List.le_max_of_le' (a := e.2.1) 0 (List.mem_map_of_mem (f := (·.2.1)) he) le_rfl
  exact Nat.le_zero.mp (hc.2 ▸ hmax)

/-! ### Injection (R269, R277) -/

theorem exec_flitArrival_injects (hn : n < 256) (hp : p < 5) (hvn : vn < 3) (idx err : Nat) (d : Option LineD) :
    exec (.flitArrival n p ⟨vn, some (idx, d), err⟩) s = s.flitInject n p vn idx d := by
  rw [exec_flitArrival, execFlitArrival, decide_eq_true (show n < 256 ∧ p < 5 ∧ vn < 3 from ⟨hn, hp, hvn⟩)]
  rfl

/-- The packet that an NI makes for destination `idx`: its header is that of the NI's entry. -/
def injected (s : State) (ni vn idx : Nat) (d : Option LineD) : MPkt :=
  ⟨hdrWord (hdrInject (s.f (niEntry ni idx).1) (s.f (niEntry ni idx).2.1) vn (b2n d.isSome)), d, s.ns⟩

theorem flitInject_enters (hni : niAt n p = some ni) (hq : s.f R.PWR_MESHQ_STATE = 0) (hidx : idx < 282)
    (hstop : stopFits ni idx = true) (hvalid : s.f (niEntry ni idx).2.2 = 1)
    (hroom : s.roomAt n p vn (injected s ni vn idx d) = true) (hlive : s.portLive n p = true) :
    s.flitInject n p vn idx d = .next (s.setMeshQ n p vn (s.meshQ n p vn ++ [injected s ni vn idx d])) := by
  rw [injected] at hroom ⊢
  simp [State.flitInject, hni, hidx, hstop, State.routed, hvalid, hq, State.meshRuns, hroom, hlive]

theorem flitInject_waits (hni : niAt n p = some ni) (hvalid : s.f (niEntry ni idx).2.2 = 0) :
    s.flitInject n p vn idx d = .next s := by
  simp [State.flitInject, hni, State.routed, hvalid, turnedAway]

/-! ### Forwarding (R270 to R273, R280) -/

theorem exec_flitArrival_moves (hn : n < 256) (hp : p < 5) (hvn : vn < 3) (err : Nat) :
    exec (.flitArrival n p ⟨vn, none, err⟩) s = s.flitMove n p vn err := by
  rw [exec_flitArrival, execFlitArrival, decide_eq_true (show n < 256 ∧ p < 5 ∧ vn < 3 from ⟨hn, hp, hvn⟩)]
  rfl

/-- R280: a corrected bit of a flit is counted at its router. -/
def counted (s : State) (n err : Nat) : State := if err = 1 then s.incSat (R.TIL_RTR_CORR_COUNT n) else s

theorem counted_only (s : State) (n err : Nat) : OnlyRegs s (counted s n err) [R.TIL_RTR_CORR_COUNT n] := by
  unfold counted; split
  · exact incSat_only s _
  · exact ⟨rfl, fun _ _ => rfl⟩

/-- What the first packet `k` of input `p` and VN `vn` leaves behind on its way to output `o`: the input's turn is over, and the packet
stands last at the next router, if there is one. -/
def forwarded (s : State) (n p vn err o : Nat) (k : MPkt) (rest : List MPkt) : State :=
  let t := (counted s n err).setMeshQ n p vn rest
  let t : State := { t with meshRr := Tbl.set 0 t.meshRr (inKey n o vn) ((p + 1) % 5) }
  match nbr n o with
  | some m => t.setMeshQ m (oppPort o) vn (t.meshQ m (oppPort o) vn ++ [{ k with h := hdrWord (hdrOf k.h).forward, at_ := s.ns }])
  | none => t

section
variable (hq : s.meshQ n p vn = k :: rest) (herr : err < 2) (hlive : s.portLive n p = true) (ho : (hdrOf k.h).nextp ≤ 4)
    (hlink : s.linkLive n (hdrOf k.h).nextp = true)
include hq herr hlive ho hlink

theorem flitMove_forwards (hwins : s.wins n (hdrOf k.h).nextp p vn = true) :
    s.flitMove n p vn err = .next (forwarded s n p vn err (hdrOf k.h).nextp k rest) := by
  have hgood : ¬ (err = 2 ∨ (!s.portLive n p) = true ∨ (hdrOf k.h).nextp > 4 ∨ (!s.linkLive n (hdrOf k.h).nextp) = true) := by
    simp [hlive, hlink]; omega
  rw [State.flitMove, hq]
  dsimp only
  rw [if_neg hgood, if_neg (by simp [hwins])]
  rfl

theorem flitMove_loses (hwins : s.wins n (hdrOf k.h).nextp p vn = false) : s.flitMove n p vn err = .next s := by
  have hgood : ¬ (err = 2 ∨ (!s.portLive n p) = true ∨ (hdrOf k.h).nextp > 4 ∨ (!s.linkLive n (hdrOf k.h).nextp) = true) := by
    simp [hlive, hlink]; omega
  rw [State.flitMove, hq]
  dsimp only
  rw [if_neg hgood, if_pos (by simp [hwins])]
  rfl

end

/-- R280: an uncorrectable flit, or a packet for a port or link that is not in effect, is a protocol error. -/
theorem flitMove_fatal (hq : s.meshQ n p vn = k :: rest)
    (hbad : err = 2 ∨ s.portLive n p = false ∨ 4 < (hdrOf k.h).nextp ∨ s.linkLive n (hdrOf k.h).nextp = false) :
    s.flitMove n p vn err = .next ((s.setMeshQ n p vn rest).fatalAt n 4 0) := by
  rw [State.flitMove, hq]
  dsimp only
  rw [if_pos (by simpa using hbad)]

theorem forwarded_csr (s : State) (n p vn err o : Nat) (k : MPkt) (rest : List MPkt) :
    (forwarded s n p vn err o k rest).csr = (counted s n err).csr := by
  unfold forwarded; split <;> rfl

/-- A packet that moves on changes input buffers and turns, and a count of corrected bits. -/
theorem forwarded_frame (s : State) (n p vn err o : Nat) (k : MPkt) (rest : List MPkt) :
    let t := forwarded s n p vn err o k rest
    t = { s with csr := t.csr, meshIn := t.meshIn, meshRr := t.meshRr } := by
  unfold forwarded
  rw [(counted_only s n err).1]
  dsimp only
  split <;> rfl

theorem forwarded_only (s : State) (n p vn err o : Nat) (k : MPkt) (rest : List MPkt) :
    OnlyRegs s { forwarded s n p vn err o k rest with meshIn := s.meshIn, meshRr := s.meshRr } [R.TIL_RTR_CORR_COUNT n] := by
  have hback : { forwarded s n p vn err o k rest with meshIn := s.meshIn, meshRr := s.meshRr } = counted s n err := by
    rw [forwarded_frame, forwarded_csr, (counted_only s n err).1]
  rw [hback]
  exact counted_only s n err

theorem forwarded_f (s : State) (n p vn err o : Nat) (k : MPkt) (rest : List MPkt) (x : Fld) :
    (forwarded s n p vn err o k rest).f x = (counted s n err).f x := by
  rw [State.f, forwarded_csr]; rfl

theorem meshQ_counted (s : State) (n err m q v : Nat) : (counted s n err).meshQ m q v = s.meshQ m q v := by
  rw [(counted_only s n err).1]; rfl

/-- The packet has left its input. -/
theorem meshQ_forwarded_input (hp : p < 5) (ho : o ≤ 4) : (forwarded s n p vn err o k rest).meshQ n p vn = rest := by
  unfold forwarded
  dsimp only
  split
  · next m hm =>
    rw [meshQ_setMeshQ_ne (inKey_ne (nbr_ne hm).symm (oppPort_lt ho) (by omega))]
    exact meshQ_setMeshQ_same _ n p vn rest
  · exact meshQ_setMeshQ_same _ n p vn rest

/-- It stands last at the next router, its header moved on and its data flit behind it. -/
theorem meshQ_forwarded_next (hp : p < 5) (ho : o ≤ 4) (hm : nbr n o = some m) :
    (forwarded s n p vn err o k rest).meshQ m (oppPort o) vn
      = s.meshQ m (oppPort o) vn ++ [{ k with h := hdrWord (hdrOf k.h).forward, at_ := s.ns }] := by
  have hother : ((counted s n err).setMeshQ n p vn rest).meshQ m (oppPort o) vn = s.meshQ m (oppPort o) vn :=
    (meshQ_setMeshQ_ne (inKey_ne (nbr_ne hm) (by omega) (oppPort_lt ho)) rest).trans (meshQ_counted s n err m _ vn)
  unfold forwarded
  rw [hm]
  dsimp only
  rw [meshQ_setMeshQ_same, ← hother]
  rfl

/-- R270 to R273: the packet that wins its output goes there, and its corrected bit is counted. -/
theorem flitMove_wins (hp : p < 5) (hq : s.meshQ n p vn = k :: rest) (herr : err < 2) (hlive : s.portLive n p = true)
    (ho : (hdrOf k.h).nextp ≤ 4) (hlink : s.linkLive n (hdrOf k.h).nextp = true)
    (hwins : s.wins n (hdrOf k.h).nextp p vn = true) : ∃ t, s.flitMove n p vn err = .next t
      ∧ t = { s with csr := t.csr, meshIn := t.meshIn, meshRr := t.meshRr } ∧ t.meshQ n p vn = rest
      ∧ (∀ m, nbr n (hdrOf k.h).nextp = some m → t.meshQ m (oppPort (hdrOf k.h).nextp) vn
          = s.meshQ m (oppPort (hdrOf k.h).nextp) vn ++ [{ k with h := hdrWord (hdrOf k.h).forward, at_ := s.ns }])
      ∧ OnlyRegs s { t with meshIn := s.meshIn, meshRr := s.meshRr } [R.TIL_RTR_CORR_COUNT n]
      ∧ (err = 0 → t.csr = s.csr)
      ∧ (err = 1 → t.f (R.TIL_RTR_CORR_COUNT n) = min (s.f (R.TIL_RTR_CORR_COUNT n) + 1) (2 ^ (R.TIL_RTR_CORR_COUNT n).w - 1)) := by
  refine ⟨_, flitMove_forwards hq herr hlive ho hlink hwins, forwarded_frame .., meshQ_forwarded_input hp ho,
    fun m hm => meshQ_forwarded_next hp ho hm, forwarded_only .., ?_, ?_⟩
  · rintro rfl; exact forwarded_csr ..
  · rintro rfl; rw [forwarded_f]; exact f_incSat_same s _

end Sys2Proof.Laws
end

section
/-! SUPPORT. Route tables and router registers: where an entry and its NI's status stand, and what a write of an entry does (R39, R41,
R275 to R279). -/

namespace Sys2Proof.Laws
open Sys2Proof Sys2Proof.Machine Sys2Proof.Safety

variable {s : State} {ni idx i j : Nat}

/-! ### Places (R275) -/

/-- Where the route table of an NI begins. -/
def routeTable (ni : Nat) : Nat :=
  if ni < 256 then tileBase ni + 0x6000 else if ni < 280 then memBase (ni - 256) + 0x8000
  else if ni < 288 then 0x280000 + (ni - 280) * 0x1000 else 0x980000 + (ni - 288) * 0x1000

/-- Where the status of an NI stands. -/
def routeStatus (ni : Nat) : Nat :=
  if ni < 256 then tileBase ni + 0x5010 else if ni < 280 then memBase (ni - 256) + 0x7010
  else if ni < 288 then 0x280c10 + (ni - 280) * 0x1000 else 0x980c10 + (ni - 288) * 0x1000

/-- An entry is 8 bytes of its NI's table: SEG of 48 bits, EXIT of 3 and V. -/
theorem niEntry_place (ni i : Nat) :
    (niEntry ni i).1.key = (routeTable ni + i * 8) * 128 ∧ (niEntry ni i).2.1.key = (routeTable ni + i * 8) * 128 + 48
    ∧ (niEntry ni i).2.2.key = (routeTable ni + i * 8) * 128 + 63
    ∧ (niEntry ni i).1.w = 48 ∧ (niEntry ni i).2.1.w = 3 ∧ (niEntry ni i).2.2.w = 1 := by
  unfold niEntry routeTable
  repeat' split
  all_goals exact ⟨rfl, rfl, rfl, rfl, rfl, rfl⟩

/-- The status of an NI: BADRTE, BADIDX of 9 bits and WHY of 3. -/
theorem niStat_place (ni : Nat) :
    (niStat ni).1.key = routeStatus ni * 128 ∧ (niStat ni).2.1.key = routeStatus ni * 128 + 1
    ∧ (niStat ni).2.2.key = routeStatus ni * 128 + 10 ∧ (niStat ni).1.w = 1 ∧ (niStat ni).2.1.w = 9 ∧ (niStat ni).2.2.w = 3 := by
  unfold niStat routeStatus
  repeat' split
  all_goals
    simp only [Fld.key, R.TIL_NI_STAT_BADRTE, R.TIL_NI_STAT_BADIDX, R.TIL_NI_STAT_WHY, R.MEM_NI_STAT_BADRTE, R.MEM_NI_STAT_BADIDX,
      R.MEM_NI_STAT_WHY, R.HEP_NI_STAT_BADRTE, R.HEP_NI_STAT_BADIDX, R.HEP_NI_STAT_WHY, R.FAB_NI_STAT_BADRTE, R.FAB_NI_STAT_BADIDX,
      R.FAB_NI_STAT_WHY, and_true]
    omega

/-- The status stands beside the 282 entries. -/
theorem routeStatus_beside (ni : Nat) (hi : i < 282) : routeStatus ni < routeTable ni ∨ routeTable ni + i * 8 < routeStatus ni := by
  unfold routeStatus routeTable
  repeat' split
  all_goals omega

/-- What an entry, and an NI's status, are given. -/
def entryWrites (ni i seg exit v : Nat) : List (Fld × Nat) :=
  [((niEntry ni i).1, seg), ((niEntry ni i).2.1, exit), ((niEntry ni i).2.2, v)]
def statusWrites (ni idx why : Nat) : List (Fld × Nat) := [((niStat ni).1, 1), ((niStat ni).2.1, idx), ((niStat ni).2.2, why)]

theorem entryWrites_keys (ni i seg exit v : Nat) : (entryWrites ni i seg exit v).map (·.1.key)
    = [(routeTable ni + i * 8) * 128, (routeTable ni + i * 8) * 128 + 48, (routeTable ni + i * 8) * 128 + 63] := by
  obtain ⟨h1, h2, h3, -⟩ := niEntry_place ni i
  simp only [entryWrites, List.map_cons, List.map_nil, h1, h2, h3]

theorem entryWrites_nodup (ni i seg exit v : Nat) : ((entryWrites ni i seg exit v).map (·.1.key)).Nodup := by
  rw [entryWrites_keys]; simp

theorem statusWrites_keys (ni idx why : Nat) :
    (statusWrites ni idx why).map (·.1.key) = [routeStatus ni * 128, routeStatus ni * 128 + 1, routeStatus ni * 128 + 10] := by
  obtain ⟨h1, h2, h3, -⟩ := niStat_place ni
  simp only [statusWrites, List.map_cons, List.map_nil, h1, h2, h3]

/-- A status write leaves every entry alone. -/
theorem entry_ne_status (hi : i < 282) (idx why seg exit v : Nat) :
    ∀ e ∈ entryWrites ni i seg exit v, ∀ p ∈ statusWrites ni idx why, e.1.key ≠ p.1.key := by
  intro e he p hp
  have he' := List.mem_map_of_mem (f := fun q : Fld × Nat => q.1.key) he
  have hp' := List.mem_map_of_mem (f := fun q : Fld × Nat => q.1.key) hp
  rw [entryWrites_keys] at he'
  rw [statusWrites_keys] at hp'
  have hbeside := routeStatus_beside ni hi
  simp only [List.mem_cons, List.not_mem_nil, or_false] at he' hp'
  omega

/-! ### Entries as a list of writes -/

/-- An NI's entry holds SEG, EXIT and V of these values. -/
def EntryIs (s : State) (ni i seg exit v : Nat) : Prop :=
  s.f (niEntry ni i).1 = seg ∧ s.f (niEntry ni i).2.1 = exit ∧ s.f (niEntry ni i).2.2 = v

theorem entryIs_of_writes {seg exit v : Nat} (h : ∀ e ∈ entryWrites ni i seg exit v, s.f e.1 = e.2 % 2 ^ e.1.w) :
    EntryIs s ni i (seg % 2 ^ 48) (exit % 8) (v % 2) := by
  obtain ⟨-, -, -, h1, h2, h3⟩ := niEntry_place ni i
  simp only [entryWrites, List.forall_mem_cons, h1, h2, h3] at h
  exact ⟨h.1, h.2.1, h.2.2.1⟩

theorem entryIs_setFs (s : State) (ni i seg exit v : Nat) :
    EntryIs (s.setFs (entryWrites ni i seg exit v)) ni i (seg % 2 ^ 48) (exit % 8) (v % 2) :=
  entryIs_of_writes (fun _ he => f_setFs_of_nodup (entryWrites_nodup ni i seg exit v) he)

/-- A refused entry is put into the NI's status and nowhere else. -/
theorem statusWrites_keep (s : State) (hi : i < 282) (why : Nat) :
    EntryIs (s.setFs (statusWrites ni idx why)) ni i (s.f (niEntry ni i).1) (s.f (niEntry ni i).2.1) (s.f (niEntry ni i).2.2) := by
  have hne := entry_ne_status (ni := ni) hi idx why 0 0 0
  simp only [entryWrites, List.forall_mem_cons] at hne
  exact ⟨f_setFs_ne _ _ _ hne.1, f_setFs_ne _ _ _ hne.2.1, f_setFs_ne _ _ _ hne.2.2.1⟩

theorem statusWrites_read (s : State) (hidx : idx < 512) {why : Nat} (hwhy : why < 8) :
    let t := s.setFs (statusWrites ni idx why)
    t.f (niStat ni).1 = 1 ∧ t.f (niStat ni).2.1 = idx ∧ t.f (niStat ni).2.2 = why := by
  obtain ⟨-, -, -, h1, h2, h3⟩ := niStat_place ni
  have hnodup : ((statusWrites ni idx why).map (·.1.key)).Nodup := by rw [statusWrites_keys]; simp
  have hread : ∀ e ∈ statusWrites ni idx why, (s.setFs (statusWrites ni idx why)).f e.1 = e.2 % 2 ^ e.1.w :=
    fun _ he => f_setFs_of_nodup hnodup he
  simp only [statusWrites, List.forall_mem_cons, h1, h2, h3] at hread
  exact ⟨hread.1, hread.2.1.trans (Nat.mod_eq_of_lt hidx), hread.2.2.1.trans (Nat.mod_eq_of_lt hwhy)⟩

/-! ### A write of an entry (R277) -/

/-- What is wrong with the entry `v`, 0 nothing. -/
def entryFault (ni idx v : Nat) : Nat := if v.testBit 63 then routeWhy ni idx (bits v 0 48) (bits v 48 3) else 0

theorem entryFault_lt (ni idx v : Nat) : entryFault ni idx v < 8 := by
  unfold entryFault routeWhy
  dsimp only
  repeat' split
  all_goals decide

theorem applyRoute_legal {v : Nat} (h : entryFault ni idx v = 0) :
    s.applyRoute ni idx v = s.setFs (entryWrites ni idx (bits v 0 48) (bits v 48 3) (bits v 63 1)) := if_pos h

theorem applyRoute_refused {v : Nat} (h : entryFault ni idx v ≠ 0) :
    s.applyRoute ni idx v = s.setFs (statusWrites ni idx (entryFault ni idx v)) := if_neg h

/-- A legal route is in effect. -/
theorem entryIs_applyRoute {v : Nat} (h : entryFault ni idx v = 0) :
    EntryIs (s.applyRoute ni idx v) ni idx (bits v 0 48) (bits v 48 3) (bits v 63 1) := by
  have hentry := entryIs_setFs s ni idx (bits v 0 48) (bits v 48 3) (bits v 63 1)
  have hseg := Nat.mod_eq_of_lt (bits_lt v 0 48)
  have hexit : bits v 48 3 % 8 = bits v 48 3 := Nat.mod_eq_of_lt (bits_lt v 48 3)
  have hvalid : bits v 63 1 % 2 = bits v 63 1 := Nat.mod_eq_of_lt (bits_lt v 63 1)
  rw [hseg, hexit, hvalid] at hentry
  rwa [applyRoute_legal h]

theorem stagedAt_stage_same (s : State) (o : Nat) (v : Option Nat) : (s.stage o v).stagedAt o = v := Tbl_get_set_same _ _ _ _

section
variable (hni : ni < 296) (hidx : idx < 282) (e : W64)
include hni hidx

theorem routeEntryWrite_whole : exec (.routeEntryWrite ni idx 0 8 e) s
    = .next ((s.applyRoute ni idx e.toNat).stage (niEntry ni idx).1.addr none) := by
  rw [exec_routeEntryWrite, execRouteEntryWrite, whenOk_true _ _ _ (by simp [hni, hidx]), ← Nat.mod_eq_of_lt e.isLt]
  simp only [State.routeWrite, Nat.mod_mod, if_true]

theorem routeEntryWrite_low : exec (.routeEntryWrite ni idx 0 4 e) s
    = .next (s.stage (niEntry ni idx).1.addr (some (e.toNat % 2 ^ 32))) := by
  rw [exec_routeEntryWrite, execRouteEntryWrite, whenOk_true _ _ _ (by simp [hni, hidx])]
  rfl

/-- The high word joins the low word that is staged. -/
theorem routeEntryWrite_high (hlow : s.stagedAt (niEntry ni idx).1.addr = some (e.toNat % 2 ^ 32)) :
    exec (.routeEntryWrite ni idx 4 4 (e >>> 32)) s = .next ((s.applyRoute ni idx e.toNat).stage (niEntry ni idx).1.addr none) := by
  have hjoin : e.toNat % 2 ^ 32 + (e >>> 32).toNat % 2 ^ 32 * 2 ^ 32 = e.toNat := by
    have := e.isLt
    rw [BitVec.toNat_ushiftRight, Nat.shiftRight_eq_div_pow]
    omega
  have hwrite : s.routeWrite ni idx 4 4 (e >>> 32).toNat = (s.applyRoute ni idx ((s.stagedAt (niEntry ni idx).1.addr).getD
      (s.wordOf [(niEntry ni idx).1, (niEntry ni idx).2.1, (niEntry ni idx).2.2] % 2 ^ 32) + (e >>> 32).toNat % 2 ^ 32 * 2 ^ 32)).stage
        (niEntry ni idx).1.addr none := rfl
  rw [exec_routeEntryWrite, execRouteEntryWrite, whenOk_true _ _ _ (by simp [hni, hidx]), hwrite, hlow, Option.getD_some, hjoin]

end

/-! ### DEFAULT (R279) -/

theorem routesDefault_eq (s : State) (ni : Nat) :
    s.routesDefault ni = s.setFs ((List.range 282).flatMap (fun i => entryWrites ni i (defSeg ni i) (defExit ni i) 1)) :=
  foldl_setFs s (fun i => entryWrites ni i (defSeg ni i) (defExit ni i) 1) _

/-- Entries of one table stand apart. -/
theorem entry_own {a seg exit v seg' exit' v' : Nat} {e p : Fld × Nat} (he : e ∈ entryWrites ni i seg exit v)
    (hp : p ∈ entryWrites ni a seg' exit' v') (hkey : p.1.key = e.1.key) : a = i := by
  have he' := List.mem_map_of_mem (f := fun q : Fld × Nat => q.1.key) he
  have hp' := List.mem_map_of_mem (f := fun q : Fld × Nat => q.1.key) hp
  rw [entryWrites_keys] at he' hp'
  simp only [List.mem_cons, List.not_mem_nil, or_false] at he' hp'
  omega

/-- Every entry has its default route. -/
theorem entryIs_routesDefault (s : State) (ni : Nat) (hi : i < 282) :
    EntryIs (s.routesDefault ni) ni i (defSeg ni i % 2 ^ 48) (defExit ni i % 8) 1 := by
  rw [routesDefault_eq]
  refine entryIs_of_writes (v := 1) (fun e he => ?_)
  exact f_setFs_units (List.mem_range.mpr hi) (entryWrites_nodup ..) (fun b p hp hkey => entry_own he hp hkey) he

end Sys2Proof.Laws
end

section
/-! PROOF. O28: routers, route tables and router registers. -/

namespace Sys2Proof.Laws
open Sys2Proof Sys2Proof.Machine Sys2Proof.Safety

variable {s : State} {n v : Nat}

/-! ### Router registers (R239, R279, R281) -/

/-- R281: in a quiesced mesh a write enables those of its five ports that are connected. -/
theorem tilRtrPortEnWrite_quiesced (hn : n < 256) (hq : s.f R.PWR_MESHQ_STATE = 2) :
    Completes (.tilRtrPortEnWrite n v) s (fun t => OnlyRegs s t [R.TIL_RTR_PORT_EN_EN n]
      ∧ ∀ i, i < 5 → bitOf (t.f (R.TIL_RTR_PORT_EN_EN n)) i = (bitOf v i && bitOf (portsConnected n) i)) := by
  refine ⟨s.setF (R.TIL_RTR_PORT_EN_EN n) (v % 32 &&& portsConnected n), ?_, setF_only s _ _, fun i hi => ?_⟩
  · rw [exec_tilRtrPortEnWrite, execTilRtrPortEnWrite, whenOk_true _ _ _ (decide_eq_true hn), State.portEnaWrite, if_pos hq]
  · rw [f_setF_same, bitOf, Nat.testBit_mod_two_pow, Nat.testBit_and, Nat.testBit_mod_two_pow v 5 i]
    simp [hi, bitOf, R.TIL_RTR_PORT_EN_EN]

theorem tilRtrPortEnWrite_refused (hn : n < 256) (hq : s.f R.PWR_MESHQ_STATE ≠ 2) :
    Completes (.tilRtrPortEnWrite n v) s (fun t => OnlyRegs s t [R.TIL_RTR_STAT_WERR n] ∧ t.f (R.TIL_RTR_STAT_WERR n) = 1) := by
  refine ⟨s.setF (R.TIL_RTR_STAT_WERR n) 1, ?_, setF_only s _ _, f_setF_same s _ _⟩
  rw [exec_tilRtrPortEnWrite, execTilRtrPortEnWrite, whenOk_true _ _ _ (decide_eq_true hn), State.portEnaWrite, if_neg hq]

theorem tilRtrClr_clears (hn : n < 256) :
    Completes (.tilRtrClr n) s (fun t => OnlyRegs s t [R.TIL_RTR_CORR_COUNT n] ∧ t.f (R.TIL_RTR_CORR_COUNT n) = 0) :=
  ⟨_, whenOk_true _ _ _ (decide_eq_true hn), setF_only s _ 0, f_setF_same s _ 0⟩

/-- The counters that TIL_HOME_CLR clears (R239). -/
def homeCounters (n : Nat) : List Fld :=
  [R.TIL_DIR_STALE_COUNT n, R.TIL_DIR_COARSE_COUNT n, R.TIL_DIR_EVICT_COUNT n, R.TIL_DIR_RETRY_COUNT n, R.TIL_HOME_BP_COUNT n,
    R.TIL_HOME_LATE_COUNT n]

theorem tilHomeClr_clears (hn : n < 256) :
    Completes (.tilHomeClr n) s (fun t => OnlyRegs s t (homeCounters n) ∧ ∀ x ∈ homeCounters n, t.f x = 0) := by
  let writes := (homeCounters n).map (fun x => (x, 0))
  have hnodup : (writes.map (·.1.key)).Nodup := by
    simp [writes, homeCounters, Fld.key, R.TIL_DIR_STALE_COUNT, R.TIL_DIR_COARSE_COUNT, R.TIL_DIR_EVICT_COUNT, R.TIL_DIR_RETRY_COUNT,
      R.TIL_HOME_BP_COUNT, R.TIL_HOME_LATE_COUNT]
  refine ⟨s.setFs writes, whenOk_true _ _ _ (decide_eq_true hn), setFs_only s writes, fun x hx => ?_⟩
  exact (f_setFs_of_nodup hnodup (List.mem_map_of_mem hx)).trans (Nat.zero_mod _)

/-! ### The obligation -/

/-- Settles O28: the arbitration is that of the contenders for an output (`wins_iff`), a packet that wins leaves `forwarded` behind, and
a route entry is a list of writes to places of its own (`entryIs_applyRoute`). -/
theorem routersAndRouteTables : Obligations.RoutersAndRouteTables := by
  unfold Obligations.RoutersAndRouteTables
  refine ⟨?packets, ?tables⟩
  case packets =>
    intro n p vn idx err ni d k rest s hn hp hvn x o moves entry k0
    have hmoves : exec moves s = s.flitMove n p vn err := exec_flitArrival_moves hn hp hvn err
    have hinjects := exec_flitArrival_injects (s := s) hn hp hvn idx err d
    refine ⟨fun hni hq => ⟨?enters, ?waits⟩, fun hq => ⟨fun herr hlive ho hlink => ⟨?wins, ?loses⟩, ?fatal⟩,
      fun q v w => wins_unique, wins_vn0, forward_inside, forward_turn⟩
    case enters =>
      intro hidx hstop hvalid hroom hlive
      exact hinjects.trans (flitInject_enters hni hq hidx hstop hvalid hroom hlive)
    case waits => exact fun hvalid => hinjects.trans (flitInject_waits hni hvalid)
    case wins => exact fun hwins => hmoves ▸ flitMove_wins hp hq herr hlive ho hlink hwins
    case loses => exact fun hwins => hmoves.trans (flitMove_loses hq herr hlive ho hlink hwins)
    case fatal =>
      intro hbad hf
      refine ⟨_, hmoves.trans (flitMove_fatal hq hbad), isFatal_fatal _ _ _ _ _ _ _ _, fun h0 => ?_⟩
      exact (fatalAt_fatal (s := s.setMeshQ n p vn rest) hf h0 (by decide) (by decide)).2
  case tables =>
    intro ni idx n v e s hni hidx hn w fs fe fv st why holds same
    refine ⟨fun hwhy => ?legal, fun hwhy => ?refused, ?halves, ?default, tilRtrPortEnWrite_quiesced hn, tilRtrPortEnWrite_refused hn,
      tilRtrClr_clears hn, tilHomeClr_clears hn⟩
    case legal => exact ⟨_, routeEntryWrite_whole hni hidx e, entryIs_applyRoute hwhy⟩
    case refused =>
      have hexec := routeEntryWrite_whole (s := s) hni hidx e
      rw [applyRoute_refused hwhy] at hexec
      exact ⟨_, hexec, statusWrites_keep s hidx _, statusWrites_read s (by omega) (entryFault_lt ni idx w)⟩
    case halves =>
      refine ⟨_, routeEntryWrite_low hni hidx e, ⟨rfl, rfl, rfl⟩, fun hwhy => ?_⟩
      exact ⟨_, routeEntryWrite_high hni hidx e (stagedAt_stage_same s _ _), entryIs_applyRoute hwhy⟩
    case default => exact ⟨_, whenOk_true _ _ _ (decide_eq_true hni), fun j hj => entryIs_routesDefault s ni hj⟩

end Sys2Proof.Laws
end

section
/-! SUPPORT. Device-wide mode changes: how one starts and ends, what every hive's generation leaves alone, the bits of hives, and the
steps of a hive (R282, R493 to R496). -/

namespace Sys2Proof.Laws
open Sys2Proof Sys2Proof.Machine Sys2Proof.Safety

variable {s t u : State} {r h g code : Nat} {c : Cmd} {m : ModeOp} {y : Fld}

/-! ### Registers alone -/

theorem RegsOnly.sameCore (hr : RegsOnly s t) : SameCore s t := by
  unfold RegsOnly at hr; rw [hr]; exact ⟨rfl, rfl, rfl, rfl, rfl, rfl, rfl⟩

theorem sameCore_regsOnly (hs : SameCore s t) (hr : RegsOnly t u) : SameCore s u := by
  unfold RegsOnly at hr; rw [hr]; exact hs

theorem RegsOnly.clocks (hr : RegsOnly s t) : t.meshIdle = s.meshIdle ∧ t.meshHeld = s.meshHeld := by
  unfold RegsOnly at hr; rw [hr]; exact ⟨rfl, rfl⟩

/-! ### The start of a mode change (R430, R494 step 1) -/

/-- Ring `r` holds a MODE command of that code, not yet started, with parameters in range, and no mode change is in progress. -/
structure ModeOrdered (s : State) (r code : Nat) (c : Cmd) : Prop where
  ord : Ordered s r 0x20 c
  code : c.d.par 0 = code
  phase : c.phase = 0
  idle : s.mode = none
  params : c.d.okP false false [mLow 16, mLow 32, mAll, mAll, mAll, mAll] = true

theorem modeCmd_runs (hm : ModeOrdered s r code c) {ok : Desc → Bool} (hok : ok c.d = true) (f : Cmd → Out) :
    modeCmd code ok r s f = f c := by
  obtain ⟨-, -, -, hcmd, hop, hready, hfatal⟩ := hm.ord
  simp [modeCmd, onCmd, hcmd, hop, hready, hfatal, hm.code, hm.phase, hm.params, hm.idle, hok]

/-- The registers that the start of a mode change writes. -/
def startWrites (s : State) (code : Nat) : List (Fld × Nat) :=
  [(R.PWR_GEN_GEN, s.f R.PWR_GEN_GEN + 1), (R.PWR_MODE_STAT_PHASE, 1), (R.PWR_MODE_STAT_CODE, code), (R.PWR_MODE_APPLIED_HIVES, 0),
    (R.PWR_MODE_READY_HIVES, 0), (R.PWR_MODE_WHY_WHY 0, 0), (R.PWR_MODE_WHY_WHY 1, 0), (R.PWR_MODE_WHY_WHY 2, 0),
    (R.PWR_MODE_WHY_WHY 3, 0)]

/-- The mode change that a command starts. -/
def startOp (s : State) (r : Nat) (c : Cmd) (args : List Nat) : ModeOp :=
  ⟨r, c.d.par 0, args, s.ns, if c.d.par 1 = 0 then 1000 else c.d.par 1, List.range 32⟩

theorem modeStart_eq (s : State) (r : Nat) (c : Cmd) (args : List Nat) :
    s.modeStart r c args = { (s.begin r c []).setFs (startWrites s (c.d.par 0)) with mode := some (startOp s r c args) } := rfl

theorem startWrites_nodup (s : State) (code : Nat) : ((startWrites s code).map (·.1.key)).Nodup := by
  have hkeys : (startWrites s code).map (·.1.key) = [R.PWR_GEN_GEN.key, R.PWR_MODE_STAT_PHASE.key, R.PWR_MODE_STAT_CODE.key,
    R.PWR_MODE_APPLIED_HIVES.key, R.PWR_MODE_READY_HIVES.key, (R.PWR_MODE_WHY_WHY 0).key, (R.PWR_MODE_WHY_WHY 1).key,
    (R.PWR_MODE_WHY_WHY 2).key, (R.PWR_MODE_WHY_WHY 3).key] := rfl
  rw [hkeys]
  decide

theorem f_modeStart {v : Nat} (hy : (y, v) ∈ startWrites s (c.d.par 0)) (args : List Nat) :
    (s.modeStart r c args).f y = v % 2 ^ y.w := by
  rw [modeStart_eq, ← f_setFs_of_nodup (s := s.begin r c []) (startWrites_nodup s _) hy]
  generalize (s.begin r c []).setFs (startWrites s (c.d.par 0)) = t
  rfl

theorem sameCore_modeStart (s : State) (r : Nat) (c : Cmd) (args : List Nat) : SameCore s (s.modeStart r c args) :=
  ⟨rfl, rfl, rfl, rfl, rfl, rfl, rfl⟩

/-! ### The end of a mode change (R494 step 6) -/

/-- What a mode change that has ended leaves before its command's completion is posted. -/
def modeEnded (s : State) (m : ModeOp) : State :=
  { s.setFs [(R.PWR_MODE_STAT_PHASE, 0), (R.PWR_MODE_TIME_US, min ((s.ns - m.at_) / 1000) (2 ^ 32 - 1))] with mode := none }

theorem finishes_modeEnd {i : Instr} {st : Nat} {P : State → Prop} (he : exec i s = .next (u.modeEnd m st)) (hP : P (modeEnded u m)) :
    ∃ res, Finishes i s m.ring st res P := ⟨_, _, he, hP⟩

theorem modeEnded_phase (s : State) (m : ModeOp) : (modeEnded s m).f R.PWR_MODE_STAT_PHASE = 0 := by
  have hne : R.PWR_MODE_STAT_PHASE.key ≠ R.PWR_MODE_TIME_US.key := by decide
  exact (f_setF_ne _ _ _ _ hne).trans (f_setF_same s _ 0)

theorem f_modeEnded_ne (hphase : y.key ≠ R.PWR_MODE_STAT_PHASE.key) (htime : y.key ≠ R.PWR_MODE_TIME_US.key) (s : State) (m : ModeOp) :
    (modeEnded s m).f y = s.f y := (f_setF_ne _ _ _ _ htime).trans (f_setF_ne _ _ _ _ hphase)

theorem modeEnded_clocks (s : State) (m : ModeOp) : (modeEnded s m).meshIdle = s.meshIdle ∧ (modeEnded s m).meshHeld = s.meshHeld :=
  ⟨rfl, rfl⟩

theorem sameCore_modeEnded (hs : SameCore s t) (m : ModeOp) : SameCore s (modeEnded t m) := hs

/-! ### Every hive has the generation (R493) -/

theorem regsOnly_modeAll (s : State) : RegsOnly s s.modeAll :=
  (regsOnly_setF s _ _).trans (foldl_related RegsOnly.rfl' RegsOnly.trans (fun a _ => regsOnly_setF a _ _) _ _)

/-- The hives' registers lie above every other register of the mode changes, the domains and the tiles (R38 to R40). -/
theorem f_modeAll (hlow : y.key < hiveBase 0 * 128) (hne : y.key ≠ R.PWR_MODE_APPLIED_HIVES.key) (s : State) : s.modeAll.f y = s.f y := by
  refine (foldl_related (r := fun a b => b.f y = a.f y) (fun _ => rfl) (fun h1 h2 => h2.trans h1) (fun a h => ?_) _ _).trans
    (f_setF_ne s _ y _ hne)
  refine f_setF_ne _ _ _ _ ?_
  simp only [Fld.key, R.PWR_HGEN_GEN, hiveBase] at hlow ⊢
  omega

/-! ### A bit for each hive -/

theorem bitOf_setBit (hg : g < 32) (v h : Nat) : bitOf (setBit v h % 2 ^ 32) g = (bitOf v g || decide (h = g)) := by
  rw [bitOf, setBit, Nat.testBit_mod_two_pow, decide_eq_true hg, Bool.true_and, Nat.testBit_or, Nat.testBit_two_pow, bitOf]

/-- Bits that are put in place one by one. -/
def joinBits (f : Nat → Bool) (n : Nat) : Nat := (List.range n).foldl (fun a p => a + b2n (f p) * 2 ^ p) 0

theorem joinBits_succ (f : Nat → Bool) (n : Nat) : joinBits f (n + 1) = 2 ^ n * b2n (f n) + joinBits f n := by
  rw [joinBits, List.range_succ, List.foldl_append, List.foldl_cons, List.foldl_nil, Nat.add_comm, Nat.mul_comm]
  rfl

theorem joinBits_lt (f : Nat → Bool) (n : Nat) : joinBits f n < 2 ^ n := by
  induction n with
  | zero => exact Nat.one_pos
  | succ n ih =>
    have hbit : 2 ^ n * b2n (f n) ≤ 2 ^ n := by cases f n <;> simp [b2n]
    rw [joinBits_succ, Nat.pow_succ]
    omega

theorem testBit_joinBits (f : Nat → Bool) {n p : Nat} (hp : p < n) : (joinBits f n).testBit p = f p := by
  induction n with
  | zero => omega
  | succ n ih =>
    rw [joinBits_succ, Nat.testBit_two_pow_mul_add _ (joinBits_lt f n)]
    by_cases hlow : p < n
    · rw [if_pos hlow, ih hlow]
    · obtain rfl : p = n := by omega
      rw [if_neg hlow, Nat.sub_self]
      cases f p <;> rfl

/-! ### The hives that a step waits for -/

theorem filter_ne_nonempty {l : List Nat} (hmem : h ∈ l) (hl : l.Nodup) (hne : l ≠ [h]) : (l.filter (· != h)).isEmpty = false := by
  rw [List.isEmpty_eq_false_iff]
  intro hnil
  have hall : ∀ x ∈ l, x = h := by simpa using hnil
  have hlen := List.nodup_replicate.mp (List.eq_replicate_of_mem hall ▸ hl)
  match l, hlen with
  | [], _ => cases hmem
  | [a], _ => exact hne (congrArg (fun x => [x]) (hall a List.mem_cons_self))

/-- COMMIT goes to the hives that are ready, if there is one (R494 step 4). -/
theorem modeCommit_sends (hready : ∃ g, g < 32 ∧ bitOf (s.f R.PWR_MODE_READY_HIVES) g = true) (m : ModeOp) :
    (s.modeCommit m).f R.PWR_MODE_STAT_PHASE = 2 ∧ ∃ q, (s.modeCommit m).mode = some q
      ∧ q.wait = (List.range 32).filter (bitOf (s.f R.PWR_MODE_READY_HIVES)) := by
  obtain ⟨g, hg, hbit⟩ := hready
  have hyes : ((List.range 32).filter (bitOf (s.f R.PWR_MODE_READY_HIVES))).isEmpty = false := by
    rw [List.isEmpty_eq_false_iff]
    exact List.ne_nil_of_mem (List.mem_filter.mpr ⟨List.mem_range.mpr hg, hbit⟩)
  rw [State.modeCommit]
  dsimp only
  rw [hyes]
  exact ⟨f_setF_same s _ 2, _, rfl, rfl⟩

/-! ### Why a hive refuses (R495) -/

theorem modeWhy_lt (s : State) (code h : Nat) : s.modeWhy code h < 4 := by
  unfold State.modeWhy
  repeat' split
  all_goals decide

theorem f_setWhy_ne (hy : y.key < 0x800010 * 128) (s : State) (h v : Nat) : (s.setWhy h v).f y = s.f y := by
  refine f_setF_ne _ _ _ _ ?_
  simp only [Fld.key, R.PWR_MODE_WHY_WHY] at hy ⊢
  omega

/-- Four bits of a word of 32 that are replaced read as what replaced them. -/
theorem bits_replace {w v i : Nat} (hi : i < 8) (hv : v < 16) :
    bits ((w - bits w (4 * i) 4 * 2 ^ (4 * i) + v * 2 ^ (4 * i)) % 2 ^ 32) (4 * i) 4 = v := by
  have hword : 2 ^ 32 = 2 ^ (4 * i) * 2 ^ (32 - 4 * i) := by rw [← Nat.pow_add]; congr 1; omega
  have hsixteen : 2 ^ 4 ∣ 2 ^ (32 - 4 * i) := Nat.pow_dvd_pow 2 (by omega)
  have hpos : 0 < 2 ^ (4 * i) := Nat.two_pow_pos _
  have hsplit := Nat.div_add_mod w (2 ^ (4 * i))
  have hrest := Nat.mod_lt w hpos
  unfold bits
  rw [hword, Nat.mod_mul_right_div_self, Nat.mod_mod_of_dvd _ hsixteen]
  generalize 2 ^ (4 * i) = b at *
  generalize w / b = q at *
  have hreplaced : w - q % 2 ^ 4 * b + v * b = w % b + b * (q - q % 2 ^ 4 + v) := by
    have hle : q % 2 ^ 4 * b ≤ b * q := by rw [Nat.mul_comm]; exact Nat.mul_le_mul_left b (Nat.mod_le _ _)
    rw [Nat.mul_add, Nat.mul_sub, Nat.mul_comm b (q % 2 ^ 4), Nat.mul_comm b v]
    omega
  rw [hreplaced, Nat.add_mul_div_left _ _ hpos, Nat.div_eq_of_lt hrest]
  omega

theorem why_setWhy {v : Nat} (hv : v < 16) (s : State) (h : Nat) :
    bits ((s.setWhy h v).f (R.PWR_MODE_WHY_WHY (h / 8))) (4 * (h % 8)) 4 = v := by
  rw [State.setWhy, f_setF_same]
  exact bits_replace (Nat.mod_lt _ (by decide)) hv

end Sys2Proof.Laws
end

section
/-! PROOF. O29: mesh quiesce and release, and device-wide mode changes. -/

namespace Sys2Proof.Laws
open Sys2Proof Sys2Proof.Machine Sys2Proof.Safety

variable {s t : State} {r h code : Nat} {c : Cmd} {m : ModeOp}

/-! ### The mesh's quiesce and release start (R282 steps 1 and 6) -/

/-- What the start of a mesh command leaves, but for the clocks of the mesh. -/
def meshStarted (s : State) (r q : Nat) (c : Cmd) : State := (s.modeStart r c []).setF R.PWR_MESHQ_STATE q

/-- The clocks of the mesh stand at these values. -/
def withClocks (s : State) (at_ qat held idle : Nat) : State :=
  { s with meshAt := at_, meshQat := qat, meshHeld := held, meshIdle := idle }

theorem f_withClocks (s : State) (at_ qat held idle : Nat) (y : Fld) : (withClocks s at_ qat held idle).f y = s.f y := rfl

theorem sameCore_withClocks (hs : SameCore s t) (at_ qat held idle : Nat) : SameCore s (withClocks t at_ qat held idle) := hs

theorem meshStarted_starts (hcode : c.d.par 0 = code) {q : Nat} (hq : q < 4) (at_ qat held idle : Nat) :
    let t := withClocks (meshStarted s r q c) at_ qat held idle
    t.f R.PWR_MESHQ_STATE = q ∧ t.f R.PWR_MODE_STAT_PHASE = 1 ∧ t.f R.PWR_GEN_GEN = (s.f R.PWR_GEN_GEN + 1) % 2 ^ 32
    ∧ (∃ m, t.mode = some m ∧ m.ring = r ∧ m.code = code ∧ m.at_ = s.ns) ∧ SameCore s t := by
  have hphase : R.PWR_MODE_STAT_PHASE.key ≠ R.PWR_MESHQ_STATE.key := by decide
  have hgen : R.PWR_GEN_GEN.key ≠ R.PWR_MESHQ_STATE.key := by decide
  have hsame := sameCore_regsOnly (sameCore_modeStart s r c []) (regsOnly_setF _ R.PWR_MESHQ_STATE q)
  refine ⟨?_, ?_, ?_, ⟨startOp s r c [], rfl, rfl, hcode, rfl⟩, sameCore_withClocks hsame _ _ _ _⟩
  · rw [f_withClocks, meshStarted, f_setF_same]; exact Nat.mod_eq_of_lt hq
  · rw [f_withClocks, meshStarted, f_setF_ne _ _ _ _ hphase, f_modeStart (v := 1) (by simp [startWrites])]; rfl
  · rw [f_withClocks, meshStarted, f_setF_ne _ _ _ _ hgen, f_modeStart (v := s.f R.PWR_GEN_GEN + 1) (by simp [startWrites])]; rfl

/-- A quiesce goes to DRAINING. -/
theorem meshQuiesce_starts (hm : ModeOrdered s r 1 c) (hargs : noArgs c.d = true) : Completes (.meshQuiesce r) s (fun t =>
    t.f R.PWR_MESHQ_STATE = 1 ∧ t.f R.PWR_MODE_STAT_PHASE = 1 ∧ t.f R.PWR_GEN_GEN = (s.f R.PWR_GEN_GEN + 1) % 2 ^ 32
    ∧ (∃ m, t.mode = some m ∧ m.ring = r ∧ m.code = 1 ∧ m.at_ = s.ns) ∧ SameCore s t) := by
  have hexec : ∃ at_ qat held idle, exec (.meshQuiesce r) s = .next (withClocks (meshStarted s r 1 c) at_ qat held idle) := by
    rw [exec_meshQuiesce, execMeshQuiesce, modeCmd_runs hm hargs, ← meshStarted.eq_1]
    exact ⟨_, _, _, _, rfl⟩
  obtain ⟨at_, qat, held, idle, hexec⟩ := hexec
  exact ⟨_, hexec, meshStarted_starts hm.code (by decide) ..⟩

/-- A release goes to RELEASING. -/
theorem meshRelease_starts (hm : ModeOrdered s r 2 c) (hargs : noArgs c.d = true) : Completes (.meshRelease r) s (fun t =>
    t.f R.PWR_MESHQ_STATE = 3 ∧ t.f R.PWR_MODE_STAT_PHASE = 1 ∧ t.f R.PWR_GEN_GEN = (s.f R.PWR_GEN_GEN + 1) % 2 ^ 32
    ∧ (∃ m, t.mode = some m ∧ m.ring = r ∧ m.code = 2 ∧ m.at_ = s.ns) ∧ SameCore s t) := by
  have hexec : ∃ at_ qat held idle, exec (.meshRelease r) s = .next (withClocks (meshStarted s r 3 c) at_ qat held idle) := by
    rw [exec_meshRelease, execMeshRelease, modeCmd_runs hm hargs, ← meshStarted.eq_1]
    exact ⟨_, _, _, _, rfl⟩
  obtain ⟨at_, qat, held, idle, hexec⟩ := hexec
  exact ⟨_, hexec, meshStarted_starts hm.code (by decide) ..⟩

/-! ### The mesh is drained (R282 step 4) -/

theorem meshMode_some (hm : s.mode = some m) (hcode : m.code = code) : s.meshMode code = some m := by
  rw [State.meshMode, hm]; exact if_pos hcode

/-- Registers that the end of a mesh command does not write read as they were written before it. -/
theorem f_meshEnded {y : Fld} (hlow : y.key < hiveBase 0 * 128) (happlied : y.key ≠ R.PWR_MODE_APPLIED_HIVES.key)
    (hphase : y.key ≠ R.PWR_MODE_STAT_PHASE.key) (htime : y.key ≠ R.PWR_MODE_TIME_US.key) (s : State) (m : ModeOp) :
    (modeEnded s.modeAll m).f y = s.f y := (f_modeEnded_ne hphase htime _ m).trans (f_modeAll hlow happlied s)

theorem quiesceDrained_ends (hm : s.mode = some m) (hcode : m.code = 1) (hq : s.f R.PWR_MESHQ_STATE = 1) (he : s.meshEmpty = true)
    (hf : s.isFatal = false) : ∃ res, Finishes .quiesceDrained s m.ring stOK res (fun u => u.f R.PWR_MESHQ_STATE = 2
      ∧ u.mode = none ∧ u.f R.PWR_MODE_STAT_PHASE = 0 ∧ SameCore s u) := by
  let t := State.setF { s with meshQat := s.ns } R.PWR_MESHQ_STATE 2
  have hexec : exec .quiesceDrained s = .next (t.modeAll.modeEnd m stOK) := by
    rw [exec_quiesceDrained, execQuiesceDrained, meshMode_some hm hcode]
    exact whenOk_true _ _ _ (by simp [hq, he, hf])
  have hsame : SameCore s t.modeAll := (regsOnly_modeAll t).sameCore
  exact finishes_modeEnd hexec ⟨(f_meshEnded (by decide) (by decide) (by decide) (by decide) t m).trans (f_setF_same _ _ 2), rfl,
    modeEnded_phase _ m, sameCore_modeEnded hsame m⟩

/-! ### The release check (R281 to R283) -/

/-- R281: port `p` of router `n` comes into effect where both ends are enabled. -/
def portEnabled (s : State) (n p : Nat) : Bool :=
  s.enPort n p && (match nbr n p with | some q => s.enPort q (oppPort p) | none => true)

theorem activePorts_bit (s : State) (n : Nat) {p : Nat} (hp : p < 5) : (s.activePorts n).testBit p = portEnabled s n p :=
  testBit_joinBits (portEnabled s n) hp

/-- R283, R321: the clocks that stood while the mesh took no requests. -/
def clocksStood (s : State) : State :=
  { s with meshIdle := s.meshIdle + (s.ns - s.meshQat), meshHeld := s.meshHeld + (s.ns - s.meshAt) }

/-- Every router's ports are put into effect. -/
def released (s : State) : State :=
  (clocksStood s).setFs ((List.range 256).flatMap (fun n => [(R.TIL_RTR_STAT_ACTIVE n, s.activePorts n)]))

theorem portLive_released {n p : Nat} (hn : n < 256) (hp : p < 5) : (released s).portLive n p = portEnabled s n p := by
  have hread : (released s).f (R.TIL_RTR_STAT_ACTIVE n) = s.activePorts n % 2 ^ 5 := by
    refine f_setFs_units (x := R.TIL_RTR_STAT_ACTIVE n) (List.mem_range.mpr hn) (List.nodup_singleton _) (fun b q hq hkey => ?_)
      List.mem_cons_self
    obtain rfl := List.mem_singleton.mp hq
    simp only [Fld.key, R.TIL_RTR_STAT_ACTIVE, tileBase] at hkey
    omega
  rw [State.portLive, hread, bitOf, Nat.testBit_mod_two_pow, decide_eq_true hp, Bool.true_and, activePorts_bit s n hp]

/-- How a fault of the check is shown. -/
def faultWrites (ni idx why : Nat) : List (Fld × Nat) :=
  [(R.PWR_MESHQ_STATE, 2), (R.PWR_MESHQ_BAD_NI, ni), (R.PWR_MESHQ_BAD_IDX, idx), (R.PWR_MESHQ_BAD_WHY, why)]

theorem faultWrites_keys (ni idx why : Nat) : (faultWrites ni idx why).map (·.1.key)
    = [R.PWR_MESHQ_STATE.key, R.PWR_MESHQ_BAD_NI.key, R.PWR_MESHQ_BAD_IDX.key, R.PWR_MESHQ_BAD_WHY.key] := rfl

theorem faultWrites_nodup (ni idx why : Nat) : ((faultWrites ni idx why).map (·.1.key)).Nodup := by
  rw [faultWrites_keys]; decide

/-- A router's enables in effect stand apart from what the end of a release writes. -/
theorem active_places {n : Nat} (hn : n < 256) : let k := (R.TIL_RTR_STAT_ACTIVE n).key
    k < hiveBase 0 * 128 ∧ k ≠ R.PWR_MODE_APPLIED_HIVES.key ∧ k ≠ R.PWR_MODE_STAT_PHASE.key ∧ k ≠ R.PWR_MODE_TIME_US.key
    ∧ k ≠ R.PWR_MESHQ_STATE.key ∧ k ≠ R.PWR_MESHQ_TIME_US.key := by
  simp only [Fld.key, R.TIL_RTR_STAT_ACTIVE, tileBase, hiveBase, R.PWR_MODE_APPLIED_HIVES, R.PWR_MODE_STAT_PHASE, R.PWR_MODE_TIME_US,
    R.PWR_MESHQ_STATE, R.PWR_MESHQ_TIME_US]
  omega

section
variable (hm : s.mode = some m) (hcode : m.code = 2) (hq : s.f R.PWR_MESHQ_STATE = 3) (hf : s.isFatal = false)
    (hempty : ∀ e ∈ s.meshIn, e.2 = [])
include hm hcode hq hf hempty

theorem releaseCheckDone_exec : exec .releaseCheckDone s = match s.releaseFault with
    | some (ni, idx, why) => .next ((s.setFs (faultWrites ni idx why)).modeEnd m stMESH)
    | none => .next ((((released s).setF R.PWR_MESHQ_STATE 0).setF R.PWR_MESHQ_TIME_US
        (min ((s.ns - s.meshAt) / 1000) (2 ^ 32 - 1))).modeAll.modeEnd m stOK) := by
  have hopen : ¬ (s.f R.PWR_MESHQ_STATE ≠ 3 ∨ s.isFatal = true ∨ (!s.meshIn.all (fun e => e.2.isEmpty)) = true) := by
    have hall : s.meshIn.all (fun e => e.2.isEmpty) = true :=
      List.all_eq_true.mpr (fun e he => List.isEmpty_iff.mpr (hempty e he))
    simp [hq, hf, hall]
  rw [exec_releaseCheckDone, execReleaseCheckDone, meshMode_some hm hcode]
  dsimp only
  rw [if_neg hopen, released, ← foldl_setFs]
  rfl

/-- The mesh runs with the enables of both ends in effect, and the clock of awaited answers has stood. -/
theorem releaseCheckDone_runs (hok : s.releaseFault = none) : ∃ res, Finishes .releaseCheckDone s m.ring stOK res (fun u =>
    u.f R.PWR_MESHQ_STATE = 0 ∧ (u.mode = none ∧ u.f R.PWR_MODE_STAT_PHASE = 0 ∧ SameCore s u)
      ∧ u.meshIdle = s.meshIdle + (s.ns - s.meshQat) ∧ u.meshHeld = s.meshHeld + (s.ns - s.meshAt)
      ∧ ∀ n p, n < 256 → p < 5 → u.portLive n p = portEnabled s n p) := by
  let us := min ((s.ns - s.meshAt) / 1000) (2 ^ 32 - 1)
  let t := ((released s).setF R.PWR_MESHQ_STATE 0).setF R.PWR_MESHQ_TIME_US us
  have hexec := releaseCheckDone_exec hm hcode hq hf hempty
  rw [hok] at hexec
  have hregs : RegsOnly (clocksStood s) t.modeAll := 
    (regsOnly_setFs (clocksStood s) _).trans ((regsOnly_setF _ _ _).trans ((regsOnly_setF _ _ _).trans (regsOnly_modeAll t)))
  have hne : R.PWR_MESHQ_STATE.key ≠ R.PWR_MESHQ_TIME_US.key := by decide
  have hstate : t.f R.PWR_MESHQ_STATE = 0 := (f_setF_ne _ _ _ _ hne).trans (f_setF_same _ _ 0)
  have hsame : SameCore s t.modeAll := sameCore_regsOnly (t := clocksStood s) ⟨rfl, rfl, rfl, rfl, rfl, rfl, rfl⟩ hregs
  refine finishes_modeEnd hexec ⟨(f_meshEnded (by decide) (by decide) (by decide) (by decide) t m).trans hstate,
    ⟨rfl, modeEnded_phase _ m, sameCore_modeEnded hsame m⟩, ?_, ?_, fun n p hn hp => ?_⟩
  · exact (modeEnded_clocks t.modeAll m).1.trans hregs.clocks.1
  · exact (modeEnded_clocks t.modeAll m).2.trans hregs.clocks.2
  · obtain ⟨hlow, happlied, hphase, htime, hstate, hmesh⟩ := active_places hn
    rw [State.portLive, f_meshEnded hlow happlied hphase htime, f_setF_ne _ _ _ _ hmesh, f_setF_ne _ _ _ _ hstate]
    exact portLive_released hn hp

/-- A fault keeps the mesh quiesced, the enables as they were, and is shown. -/
theorem releaseCheckDone_stays {ni idx why : Nat} (hbad : s.releaseFault = some (ni, idx, why)) :
    ∃ res, Finishes .releaseCheckDone s m.ring stMESH res (fun u =>
      u.f R.PWR_MESHQ_STATE = 2 ∧ (u.mode = none ∧ u.f R.PWR_MODE_STAT_PHASE = 0 ∧ SameCore s u)
      ∧ u.f R.PWR_MESHQ_BAD_NI = ni % 512 ∧ u.f R.PWR_MESHQ_BAD_IDX = idx % 512
      ∧ u.f R.PWR_MESHQ_BAD_WHY = why % 8
      ∧ ∀ n, n < 256 → u.f (R.TIL_RTR_STAT_ACTIVE n) = s.f (R.TIL_RTR_STAT_ACTIVE n)) := by
  have hexec := releaseCheckDone_exec hm hcode hq hf hempty
  rw [hbad] at hexec
  have hread : ∀ e ∈ faultWrites ni idx why, (modeEnded (s.setFs (faultWrites ni idx why)) m).f e.1 = e.2 % 2 ^ e.1.w := by
    intro e he
    rw [← f_setFs_of_nodup (s := s) (faultWrites_nodup ni idx why) he]
    have hkey := List.mem_map_of_mem (f := fun q : Fld × Nat => q.1.key) he
    rw [faultWrites_keys] at hkey
    refine f_modeEnded_ne ?_ ?_ _ m
    · exact fun h => absurd (h ▸ hkey) (by decide)
    · exact fun h => absurd (h ▸ hkey) (by decide)
  simp only [faultWrites, List.forall_mem_cons] at hread
  obtain ⟨hstate, hni, hidx, hwhy, -⟩ := hread
  have hsame : SameCore s (s.setFs (faultWrites ni idx why)) := (regsOnly_setFs s _).sameCore
  refine finishes_modeEnd hexec ⟨hstate, ⟨rfl, modeEnded_phase _ m, sameCore_modeEnded hsame m⟩, hni, hidx, hwhy, fun n hn => ?_⟩
  obtain ⟨-, -, hphase, htime, hplaces⟩ := active_places hn
  refine (f_modeEnded_ne hphase htime _ m).trans (f_setFs_ne _ _ _ (fun p hp hkey => ?_))
  have hmem := List.mem_map_of_mem (f := fun q : Fld × Nat => q.1.key) hp
  rw [faultWrites_keys, ← hkey] at hmem
  simp only [List.mem_cons, List.not_mem_nil, or_false, Fld.key, R.TIL_RTR_STAT_ACTIVE, tileBase, R.PWR_MESHQ_STATE,
    R.PWR_MESHQ_BAD_NI, R.PWR_MESHQ_BAD_IDX, R.PWR_MESHQ_BAD_WHY] at hmem
  omega

end

/-! ### Modes that the hives apply start (R434, R494 step 1) -/

theorem modeStart_prepares (hcode : c.d.par 0 = code) (args : List Nat) :
    let t := s.modeStart r c args
    t.f R.PWR_MODE_STAT_PHASE = 1 ∧ t.f R.PWR_MODE_APPLIED_HIVES = 0 ∧ t.f R.PWR_MODE_READY_HIVES = 0
    ∧ t.f R.PWR_GEN_GEN = (s.f R.PWR_GEN_GEN + 1) % 2 ^ 32 ∧ ∃ q, t.mode = some q ∧ q.ring = r ∧ q.code = code
    ∧ q.wait = List.range 32 ∧ q.tout = if c.d.par 1 = 0 then 1000 else c.d.par 1 := by
  have hreads {y : Fld} {v : Nat} (hy : (y, v) ∈ startWrites s (c.d.par 0)) : (s.modeStart r c args).f y = v % 2 ^ y.w :=
    f_modeStart hy args
  refine ⟨?_, ?_, ?_, ?_, startOp s r c args, rfl, rfl, hcode, rfl, rfl⟩
  · rw [hreads (v := 1) (by simp [startWrites])]; rfl
  · rw [hreads (v := 0) (by simp [startWrites])]; rfl
  · rw [hreads (v := 0) (by simp [startWrites])]; rfl
  · rw [hreads (v := s.f R.PWR_GEN_GEN + 1) (by simp [startWrites])]; rfl

/-- R434: a mode of which every channel takes one value. -/
theorem chanMode_starts (hm : ModeOrdered s r code c) {ok : Nat → Bool} (hv : ok (c.d.par 2) = true) (h3 : c.d.par 3 = 0)
    (hlast : c.d.par 4 = 0 ∧ c.d.par 5 = 0) : chanMode code ok r s = .next (s.modeStart r c [c.d.par 2]) :=
  modeCmd_runs hm (by simp [hv, h3, hlast]) _

theorem modeLlcClass_exec (hm : ModeOrdered s r 0x10 c) (hclass : c.d.par 2 < 16) (hways : c.d.par 3 < 2 ^ 16)
    (hlast : c.d.par 4 = 0 ∧ c.d.par 5 = 0) : exec (.modeLlcClass r) s = .next (s.modeStart r c [c.d.par 2, c.d.par 3]) := by
  rw [exec_modeLlcClass, execModeLlcClass]
  exact modeCmd_runs hm (decide_eq_true ⟨hclass, hways, hlast⟩) _

theorem modeTrainCtl_exec (hm : ModeOrdered s r 0x11 c) (hlo : 1 ≤ c.d.par 2) (hhi : c.d.par 2 ≤ 64) (h3 : c.d.par 3 = 0)
    (hlast : c.d.par 4 = 0 ∧ c.d.par 5 = 0) : exec (.modeTrainCtl r) s = .next (s.modeStart r c [c.d.par 2]) := by
  rw [exec_modeTrainCtl, execModeTrainCtl]
  exact chanMode_starts hm (decide_eq_true ⟨hlo, hhi⟩) h3 hlast

theorem modeRdistCtl_exec (hm : ModeOrdered s r 0x12 c) (hv : c.d.par 2 &&& fldMask (rdistFlds 0) = c.d.par 2) (h3 : c.d.par 3 = 0)
    (hlast : c.d.par 4 = 0 ∧ c.d.par 5 = 0) : exec (.modeRdistCtl r) s = .next (s.modeStart r c [c.d.par 2]) := by
  rw [exec_modeRdistCtl, execModeRdistCtl]
  exact chanMode_starts hm (beq_iff_eq.mpr hv) h3 hlast

theorem modeForageStep_exec (hm : ModeOrdered s r 0x13 c) (hv : c.d.par 2 < 2 ^ 32) (h3 : c.d.par 3 = 0)
    (hlast : c.d.par 4 = 0 ∧ c.d.par 5 = 0) : exec (.modeForageStep r) s = .next (s.modeStart r c [c.d.par 2]) := by
  rw [exec_modeForageStep, execModeForageStep]
  exact chanMode_starts hm (decide_eq_true hv) h3 hlast

/-! ### MODE_LOCKCTL (R497) -/

/-- What the lock registers of domain `d` are given. -/
def lockWrites (d ctl log : Nat) : List (Fld × Nat) :=
  wordWrites (lockCtlFlds d) ctl ++ [(R.DOM_LOCKLOG_SIZE_LOG2N d, bits log 0 5), (R.DOM_LOCKLOG_BASE_BASE d, bits log 12 34)]

theorem lockWrites_base (s : State) (d ctl log : Nat) :
    (s.setFs (lockWrites d ctl log)).f (R.DOM_LOCKLOG_BASE_BASE d) = bits log 12 34 := by
  rw [lockWrites, setFs_append, setFs_cons, setFs_cons, setFs_nil, f_setF_same]
  exact Nat.mod_eq_of_lt (bits_lt log 12 34)

theorem lockWrites_chkU (s : State) (d ctl log : Nat) : (s.setFs (lockWrites d ctl log)).f (R.DOM_LOCKCTL_CHK_U d)
    = bits ctl (R.DOM_LOCKCTL_CHK_U 0).lo (R.DOM_LOCKCTL_CHK_U 0).w := by
  have hsplit : lockWrites d ctl log = (R.DOM_LOCKCTL_CHK_U d, bits ctl 0 2) :: (lockWrites d ctl log).tail := rfl
  rw [hsplit, setFs_cons, f_setFs_ne, f_setF_same]
  · exact Nat.mod_eq_of_lt (bits_lt ctl 0 2)
  · intro p hp
    have hkey := List.mem_map_of_mem (f := fun q : Fld × Nat => q.1.key) hp
    revert hkey
    by_cases hd : d = 0
    all_goals
      simp only [lockWrites, wordWrites, lockCtlFlds, hd, if_true, if_false, List.map_cons, List.map_nil, List.cons_append,
        List.nil_append, List.append_nil, List.tail_cons, List.mem_cons, List.not_mem_nil, or_false, Fld.key, R.DOM_LOCKCTL_CHK_U,
        R.DOM_LOCKCTL_CHK_S, R.DOM_LOCKCTL_CHK_M, R.DOM_LOCKCTL_KEY0_U, R.DOM_LOCKCTL_KEY0_S, R.DOM_LOCKCTL_KEY0_M, R.DOM_LOCKCTL_LOG_EN,
        R.DOM_LOCKCTL_EVT_EN, R.DOM_LOCKCTL_EVT, R.DOM_LOCKLOG_SIZE_LOG2N, R.DOM_LOCKLOG_BASE_BASE]
      omega

section
variable (hm : ModeOrdered s r 0x20 c) (halone : s.cmds.all (fun e => e.1 == r) = true) (hd : c.d.par 2 < 4096)
    (hone : c.d.par 3 = c.d.par 2) (hctl : c.d.par 4 &&& fldMask (lockCtlFlds 0) = c.d.par 4)
    (hlog : c.d.par 5 &&& (mAll - 0xFE0) = c.d.par 5) (hstill : s.domSt (c.d.par 2) ≠ domRUNNING)
include hm halone hd hone hctl hlog hstill

theorem modeLockctl_exec : exec (.modeLockctl r) s = .next (((((s.modeStart r c []).setFs
    (lockWrites (c.d.par 2) (c.d.par 4) (c.d.par 5))).setF R.PWR_MODE_READY_HIVES allHives).modeAll).modeEnd (startOp s r c []) stOK) := by
  have hrange : (List.range (c.d.par 3 + 1 - c.d.par 2)).map (· + c.d.par 2) = [c.d.par 2] := by
    rw [hone, Nat.add_sub_cancel_left]; simp
  have hnone (p : Nat × Option Cmd → Bool) : s.cmds.any (fun e => e.1 != r && p e) = false := by
    rw [List.any_eq_false]
    intro e he
    have her : e.1 = r := by simpa using List.all_eq_true.mp halone e he
    simp [her]
  have hmode : ((s.modeStart r c []).setFs (lockWrites (c.d.par 2) (c.d.par 4) (c.d.par 5))).mode = some (startOp s r c []) := by
    rw [setFs_csr, modeStart_eq]
  rw [exec_modeLockctl, execModeLockctl, modeCmd_runs hm (by simp [hone, hd, hctl, hlog])]
  dsimp only
  rw [hrange, hnone, if_neg Bool.false_ne_true, if_neg (by simp [hstill])]
  simp only [List.foldl_cons, List.foldl_nil, setWordOf_eq_setFs, ← setFs_append, ← lockWrites.eq_1]
  rw [hmode]

/-- The command processor writes the domain's lock registers itself. -/
theorem modeLockctl_writes : ∃ res, Finishes (.modeLockctl r) s r stOK res (fun u => u.mode = none
    ∧ u.f (R.DOM_LOCKLOG_BASE_BASE (c.d.par 2)) = bits (c.d.par 5) 12 34
    ∧ u.f (R.DOM_LOCKCTL_CHK_U (c.d.par 2)) = bits (c.d.par 4) (R.DOM_LOCKCTL_CHK_U 0).lo (R.DOM_LOCKCTL_CHK_U 0).w) := by
  have hkeep {y : Fld} (hy : y.key < 0x800000 * 128) (t : State) :
      (modeEnded (t.setF R.PWR_MODE_READY_HIVES allHives).modeAll (startOp s r c [])).f y = t.f y := by
    have hne : y.key ≠ R.PWR_MODE_READY_HIVES.key := by simp only [Fld.key, R.PWR_MODE_READY_HIVES] at hy ⊢; omega
    refine (f_meshEnded ?_ ?_ ?_ ?_ _ _).trans (f_setF_ne _ _ _ _ hne)
    all_goals simp only [Fld.key, hiveBase, R.PWR_MODE_APPLIED_HIVES, R.PWR_MODE_STAT_PHASE, R.PWR_MODE_TIME_US] at hy ⊢; omega
  refine finishes_modeEnd (modeLockctl_exec hm halone hd hone hctl hlog hstill) ⟨rfl, ?_, ?_⟩
  · rw [hkeep (by simp only [Fld.key, R.DOM_LOCKLOG_BASE_BASE]; omega)]
    exact lockWrites_base _ _ _ _
  · rw [hkeep (by simp only [Fld.key, R.DOM_LOCKCTL_CHK_U]; omega)]
    exact lockWrites_chkU _ _ _ _

end

/-! ### A hive answers PREPARE (R494 steps 2 and 3) -/

/-- What hive `h`'s answer leaves, before it is counted. -/
def prepared (s : State) (code h : Nat) : State :=
  let s1 : State := { s with aborts := s.aborts.filter (· != h) }
  if s.modeWhy code h = 0 then
    s1.setFs [(R.PWR_HPREP_GEN h, s.f R.PWR_GEN_GEN), (R.PWR_MODE_READY_HIVES, setBit (s.f R.PWR_MODE_READY_HIVES) h)]
  else s1.setWhy h (s.modeWhy code h)

theorem prepared_ready (hh : h < 32) (hwhy : s.modeWhy code h = 0) :
    (prepared s code h).f (R.PWR_HPREP_GEN h) = s.f R.PWR_GEN_GEN % 2 ^ 32
    ∧ ∀ g, g < 32 → bitOf ((prepared s code h).f R.PWR_MODE_READY_HIVES) g
      = (bitOf (s.f R.PWR_MODE_READY_HIVES) g || decide (h = g)) := by
  have hne : (R.PWR_HPREP_GEN h).key ≠ R.PWR_MODE_READY_HIVES.key := by
    simp only [Fld.key, R.PWR_HPREP_GEN, hiveBase, R.PWR_MODE_READY_HIVES]; omega
  rw [prepared]
  rw [if_pos hwhy, setFs_cons, setFs_cons, setFs_nil]
  refine ⟨?_, fun g hg => ?_⟩
  · rw [f_setF_ne _ _ _ _ hne, f_setF_same]; rfl
  · rw [f_setF_same]; exact bitOf_setBit hg _ h

theorem prepared_refused (hwhy : s.modeWhy code h ≠ 0) :
    (prepared s code h).f R.PWR_MODE_READY_HIVES = s.f R.PWR_MODE_READY_HIVES
    ∧ bits ((prepared s code h).f (R.PWR_MODE_WHY_WHY (h / 8))) (4 * (h % 8)) 4 = s.modeWhy code h := by
  have hlt := modeWhy_lt s code h
  rw [prepared]
  rw [if_neg hwhy]
  exact ⟨f_setWhy_ne (by decide) _ h _, why_setWhy (by omega) _ h⟩

section
variable (hm : s.mode = some m) (hphase : s.f R.PWR_MODE_STAT_PHASE = 1) (hmem : h ∈ m.wait) (hcode : 0x10 ≤ m.code)
    (hf : s.isFatal = false)
include hm hphase hmem hcode hf

theorem prepare_exec : exec (.prepare h) s = .next (if (m.wait.filter (· != h)).isEmpty then
      (prepared s m.code h).modeCommit { m with wait := m.wait.filter (· != h) }
    else { prepared s m.code h with mode := some { m with wait := m.wait.filter (· != h) } }) := by
  have hguard : (!(s.f R.PWR_MODE_STAT_PHASE == 1 && m.wait.contains h && decide (m.code ≥ 0x10) && !s.isFatal)) = false := by
    simp [hphase, hmem, hcode, hf]
  rw [exec_prepare, execPrepare]
  split
  case h_1 m' hm' =>
    obtain rfl := Option.some.inj (hm.symm.trans hm')
    rw [hguard, if_neg Bool.false_ne_true]
    rfl
  case h_2 hnone => rw [hm] at hnone; cases hnone

/-- A hive that applies the mode is ready with the new generation. -/
theorem prepare_ready (hh : h < 32) (hwhy : s.modeWhy m.code h = 0) (hne : m.wait ≠ [h]) (hl : m.wait.Nodup) :
    Completes (.prepare h) s (fun t => t.f (R.PWR_HPREP_GEN h) = s.f R.PWR_GEN_GEN % 2 ^ 32 ∧ bitOf (t.f R.PWR_MODE_READY_HIVES) h = true
      ∧ t.mode = some { m with wait := m.wait.filter (· != h) }) := by
  have hexec := prepare_exec hm hphase hmem hcode hf
  rw [filter_ne_nonempty hmem hl hne, if_neg Bool.false_ne_true] at hexec
  obtain ⟨hgen, hready⟩ := prepared_ready hh hwhy
  exact ⟨_, hexec, hgen, (hready h hh).trans (by simp), rfl⟩

/-- With the last answer the hives that are ready get COMMIT. -/
theorem prepare_last (hh : h < 32) (hwhy : s.modeWhy m.code h = 0) (hone : m.wait = [h]) :
    Completes (.prepare h) s (fun t => t.f R.PWR_MODE_STAT_PHASE = 2
      ∧ ∃ q, t.mode = some q ∧ ∀ g, g ∈ q.wait ↔ g < 32 ∧ (g = h ∨ bitOf (s.f R.PWR_MODE_READY_HIVES) g = true)) := by
  have hexec := prepare_exec hm hphase hmem hcode hf
  rw [if_pos (by simp [hone])] at hexec
  obtain ⟨-, hready⟩ := prepared_ready hh hwhy
  obtain ⟨hcommit, q, hq, hwait⟩ := modeCommit_sends ⟨h, hh, (hready h hh).trans (by simp)⟩
    { m with wait := m.wait.filter (· != h) }
  refine ⟨_, hexec, hcommit, q, hq, fun g => ?_⟩
  rw [hwait, List.mem_filter, List.mem_range]
  refine and_congr_right (fun hg => ?_)
  rw [hready g hg, Bool.or_eq_true, decide_eq_true_eq, or_comm, eq_comm]

/-- A hive that refuses says why, and is not ready. -/
theorem prepare_refuses (hwhy : s.modeWhy m.code h ≠ 0) (hne : m.wait ≠ [h]) (hl : m.wait.Nodup) :
    Completes (.prepare h) s (fun t => t.f R.PWR_MODE_READY_HIVES = s.f R.PWR_MODE_READY_HIVES
      ∧ bits (t.f (R.PWR_MODE_WHY_WHY (h / 8))) (4 * (h % 8)) 4 = s.modeWhy m.code h) := by
  have hexec := prepare_exec hm hphase hmem hcode hf
  rw [filter_ne_nonempty hmem hl hne, if_neg Bool.false_ne_true] at hexec
  exact ⟨_, hexec, prepared_refused hwhy⟩

end

/-- R494 step 4: at the timeout the hives that have answered READY get COMMIT. -/
theorem modeTimeout_commits (hm : s.mode = some m) (hphase : s.f R.PWR_MODE_STAT_PHASE = 1) (hcode : 0x10 ≤ m.code)
    (hf : s.isFatal = false) (hdue : m.at_ + m.tout * 1000 ≤ s.ns) (hready : ∃ g, g < 32 ∧ bitOf (s.f R.PWR_MODE_READY_HIVES) g = true) :
    Completes .modeTimeout s (fun t => t.f R.PWR_MODE_STAT_PHASE = 2
      ∧ ∃ q, t.mode = some q ∧ q.wait = (List.range 32).filter (bitOf (s.f R.PWR_MODE_READY_HIVES))) := by
  have hguard : (!(s.f R.PWR_MODE_STAT_PHASE == 1 && decide (m.code ≥ 0x10)
      && decide (m.at_ + m.tout * 1000 ≤ s.ns) && !s.isFatal)) = false := by
    simp [hphase, hcode, hdue, hf]
  let t := m.wait.foldl (fun s h => s.setWhy h 1) s
  have hkept : t.f R.PWR_MODE_READY_HIVES = s.f R.PWR_MODE_READY_HIVES :=
    foldl_related (r := fun a b => b.f R.PWR_MODE_READY_HIVES = a.f R.PWR_MODE_READY_HIVES) (fun _ => rfl) (fun h1 h2 => h2.trans h1)
      (fun a h => f_setWhy_ne (by decide) a h 1) _ _
  have hexec : exec .modeTimeout s = .next (t.modeCommit m) := by
    rw [exec_modeTimeout, execModeTimeout, hm]
    dsimp only
    rw [hguard, if_neg Bool.false_ne_true]
  refine ⟨_, hexec, ?_⟩
  rw [← hkept] at hready ⊢
  exact modeCommit_sends hready m

/-! ### A hive commits, or aborts (R494 steps 4 to 6) -/

/-- What hive `h` leaves that has applied the mode, before its answer is counted. -/
def committed (s : State) (m : ModeOp) (h : Nat) : State :=
  (s.modeApply m h).setFs [(R.PWR_HGEN_GEN h, s.f R.PWR_GEN_GEN), (R.PWR_HPREP_GEN h, 0),
    (R.PWR_MODE_APPLIED_HIVES, setBit (s.f R.PWR_MODE_APPLIED_HIVES) h)]

theorem commit_exec (hm : s.mode = some m) (hphase : s.f R.PWR_MODE_STAT_PHASE = 2) (hmem : h ∈ m.wait) (hf : s.isFatal = false) :
    let m1 := { m with wait := m.wait.filter (· != h) }
    exec (.commit h) s = if m1.wait.isEmpty then
        .next ((committed s m h).modeEnd m1 (if (committed s m h).f R.PWR_MODE_APPLIED_HIVES = allHives then stOK else stPARTIAL))
      else .next { committed s m h with mode := some m1 } := by
  have hguard : (!(s.f R.PWR_MODE_STAT_PHASE == 2 && m.wait.contains h && !s.isFatal)) = false := by
    simp [hphase, hmem, hf]
  rw [exec_commit, execCommit]
  split
  case h_1 m' hm' =>
    obtain rfl := Option.some.inj (hm.symm.trans hm')
    rw [hguard, if_neg Bool.false_ne_true]
    rfl
  case h_2 hnone => rw [hm] at hnone; cases hnone

theorem committed_reads (s : State) (m : ModeOp) (h : Nat) :
    (committed s m h).f (R.PWR_HGEN_GEN h) = s.f R.PWR_GEN_GEN % 2 ^ 32 ∧ (committed s m h).f (R.PWR_HPREP_GEN h) = 0
    ∧ (committed s m h).f R.PWR_MODE_APPLIED_HIVES = setBit (s.f R.PWR_MODE_APPLIED_HIVES) h % 2 ^ 32 := by
  have hne : (R.PWR_HGEN_GEN h).key ≠ (R.PWR_HPREP_GEN h).key ∧ (R.PWR_HGEN_GEN h).key ≠ R.PWR_MODE_APPLIED_HIVES.key
      ∧ (R.PWR_HPREP_GEN h).key ≠ R.PWR_MODE_APPLIED_HIVES.key := by
    simp only [Fld.key, R.PWR_HGEN_GEN, R.PWR_HPREP_GEN, hiveBase, R.PWR_MODE_APPLIED_HIVES]; omega
  obtain ⟨h1, h2, h3⟩ := hne
  rw [committed, setFs_cons, setFs_cons, setFs_cons, setFs_nil]
  refine ⟨?_, ?_, ?_⟩
  · rw [f_setF_ne _ _ _ _ h2, f_setF_ne _ _ _ _ h1, f_setF_same]; rfl
  · rw [f_setF_ne _ _ _ _ h3, f_setF_same]; rfl
  · rw [f_setF_same]; rfl

/-- A register that is none of the mode change's own reads as the hive's items leave it. -/
theorem f_committed_ne {y : Fld} (hgen : y.key ≠ (R.PWR_HGEN_GEN h).key) (hprep : y.key ≠ (R.PWR_HPREP_GEN h).key)
    (happlied : y.key ≠ R.PWR_MODE_APPLIED_HIVES.key) (s : State) (m : ModeOp) : (committed s m h).f y = (s.modeApply m h).f y := by
  rw [committed, setFs_cons, setFs_cons, setFs_cons, setFs_nil, f_setF_ne _ _ _ _ happlied, f_setF_ne _ _ _ _ hprep,
    f_setF_ne _ _ _ _ hgen]

/-- R434: the ways of an LLC class in each of the hive's tiles. -/
theorem committed_ways (hcode : m.code = 0x10) (hclass : m.args.getD 0 0 < 16) {j : Nat} (hj : j < 8) :
    (committed s m h).f (R.TIL_LLC_CLASS_WAYS (8 * h + j) (m.args.getD 0 0)) = m.args.getD 1 0 % 2 ^ 16 := by
  have happly : s.modeApply m h = s.setFs ((List.range 8).flatMap
      (fun j => [(R.TIL_LLC_CLASS_WAYS (8 * h + j) (m.args.getD 0 0), m.args.getD 1 0)])) := by
    rw [State.modeApply, ← foldl_setFs]
    exact if_pos hcode
  generalize m.args.getD 0 0 = v at *
  rw [f_committed_ne, happly]
  · refine f_setFs_units (x := R.TIL_LLC_CLASS_WAYS (8 * h + j) v) (List.mem_range.mpr hj) (List.nodup_singleton _)
      (fun b q hq hkey => ?_) List.mem_cons_self
    obtain rfl := List.mem_singleton.mp hq
    simp only [Fld.key, R.TIL_LLC_CLASS_WAYS, tileBase] at hkey
    omega
  all_goals simp only [Fld.key, R.TIL_LLC_CLASS_WAYS, tileBase, R.PWR_HGEN_GEN, R.PWR_HPREP_GEN, hiveBase, R.PWR_MODE_APPLIED_HIVES]; omega

/-- R312, R434: the Forager's step in each of the hive's channels. -/
theorem committed_step (hcode : m.code = 0x13) {ch : Nat} (hch : ch ∈ hiveChans h) :
    (committed s m h).f (R.MEM_FORAGE_STEP_NS ch) = m.args.getD 0 0 % 2 ^ 32 := by
  have happly : s.modeApply m h = s.setFs ((hiveChans h).flatMap (fun ch => [(R.MEM_FORAGE_STEP_NS ch, m.args.getD 0 0)])) := by
    rw [State.modeApply, ← foldl_setFs]
    simp only [hcode]
    rfl
  rw [f_committed_ne, happly]
  · refine f_setFs_units (x := R.MEM_FORAGE_STEP_NS ch) hch (List.nodup_singleton _) (fun b q hq hkey => ?_) List.mem_cons_self
    obtain rfl := List.mem_singleton.mp hq
    simp only [Fld.key, R.MEM_FORAGE_STEP_NS, memBase] at hkey
    omega
  all_goals simp only [Fld.key, R.MEM_FORAGE_STEP_NS, memBase, R.PWR_HGEN_GEN, R.PWR_HPREP_GEN, hiveBase, R.PWR_MODE_APPLIED_HIVES]; omega

section
variable (hm : s.mode = some m) (hphase : s.f R.PWR_MODE_STAT_PHASE = 2) (hmem : h ∈ m.wait) (hf : s.isFatal = false)
include hm hphase hmem hf

/-- A hive that commits has applied its items, and the generation is its own. -/
theorem commit_applies (hh : h < 32) (hne : m.wait ≠ [h]) (hl : m.wait.Nodup) : Completes (.commit h) s (fun t =>
    t.f (R.PWR_HGEN_GEN h) = s.f R.PWR_GEN_GEN % 2 ^ 32 ∧ t.f (R.PWR_HPREP_GEN h) = 0 ∧ bitOf (t.f R.PWR_MODE_APPLIED_HIVES) h = true
    ∧ (m.code = 0x10 → m.args.getD 0 0 < 16 → ∀ j, j < 8 →
      t.f (R.TIL_LLC_CLASS_WAYS (8 * h + j) (m.args.getD 0 0)) = m.args.getD 1 0 % 2 ^ 16)
    ∧ (m.code = 0x13 → ∀ ch ∈ hiveChans h, t.f (R.MEM_FORAGE_STEP_NS ch) = m.args.getD 0 0 % 2 ^ 32)) := by
  have hexec := commit_exec hm hphase hmem hf
  dsimp only at hexec
  rw [filter_ne_nonempty hmem hl hne, if_neg Bool.false_ne_true] at hexec
  obtain ⟨hgen, hprep, happlied⟩ := committed_reads s m h
  refine ⟨_, hexec, hgen, hprep, ?_, fun hc hclass j hj => committed_ways hc hclass hj, fun hc ch hch => committed_step hc hch⟩
  exact (congrArg (bitOf · h) happlied).trans ((bitOf_setBit hh _ h).trans (by simp))

/-- The last hive's answer ends the command, with OK only where all 32 have applied. -/
theorem commit_last (hone : m.wait = [h]) : ∃ res, Finishes (.commit h) s m.ring
    (if setBit (s.f R.PWR_MODE_APPLIED_HIVES) h % 2 ^ 32 = allHives then stOK else stPARTIAL) res (fun u =>
      u.mode = none ∧ u.f R.PWR_MODE_STAT_PHASE = 0 ∧ u.f (R.PWR_HGEN_GEN h) = s.f R.PWR_GEN_GEN % 2 ^ 32) := by
  have hexec := commit_exec hm hphase hmem hf
  dsimp only at hexec
  obtain ⟨hgen, -, happlied⟩ := committed_reads s m h
  rw [if_pos (by simp [hone]), happlied] at hexec
  refine finishes_modeEnd hexec ⟨rfl, modeEnded_phase _ _, (f_modeEnded_ne ?_ ?_ _ _).trans hgen⟩
  all_goals simp only [Fld.key, R.PWR_HGEN_GEN, hiveBase, R.PWR_MODE_STAT_PHASE, R.PWR_MODE_TIME_US]; omega

end

theorem abort_ends (hmem : h ∈ s.aborts) :
    Completes (.abort h) s (fun t => t.f (R.PWR_HPREP_GEN h) = 0 ∧ h ∉ t.aborts) := by
  refine ⟨_, whenOk_true _ _ _ (by simpa using hmem), f_setF_same _ _ 0, ?_⟩
  simp

/-! ### The obligation -/

/-- Settles O29: each mode change starts as `modeStart_eq` says and ends by `modeEnded`; between them the mesh's state, the clocks and the
enables follow from the release's own writes (`released`), and a hive's answers from `prepared` and `committed`. -/
theorem meshQuiesceAndModeChanges : Obligations.MeshQuiesceAndModeChanges := by
  unfold Obligations.MeshQuiesceAndModeChanges
  refine ⟨?mesh, ?modes⟩
  case mesh =>
    intro r c m s sent starts ends
    have ordered {code : Nat} (h : sent code) : ModeOrdered s r code c ∧ noArgs c.d = true := by
      obtain ⟨hord, hcode, hphase, hargs, hidle, hparams⟩ := h
      exact ⟨⟨hord, hcode, hphase, hidle, hparams⟩, hargs⟩
    exact ⟨fun hsent => meshQuiesce_starts (ordered hsent).1 (ordered hsent).2,
      fun hsent => meshRelease_starts (ordered hsent).1 (ordered hsent).2, quiesceDrained_ends,
      fun hm hcode hq hf hempty => ⟨releaseCheckDone_runs hm hcode hq hf hempty,
        fun ni idx why => releaseCheckDone_stays hm hcode hq hf hempty⟩⟩
  case modes =>
    intro r h c m s hh starts last
    have begins {i : Instr} {code : Nat} {args : List Nat}
        (hexec : ModeOrdered s r code c → exec i s = .next (s.modeStart r c args)) : starts i code :=
      fun hord hcode hphase hidle hparams =>
        ⟨_, hexec ⟨hord, hcode, hphase, hidle, hparams⟩, modeStart_prepares hcode args⟩
    refine ⟨fun hclass hways hlast => begins (fun hm => modeLlcClass_exec hm hclass hways hlast),
      fun hlo hhi h3 hlast => begins (fun hm => modeTrainCtl_exec hm hlo hhi h3 hlast),
      fun hv h3 hlast => begins (fun hm => modeRdistCtl_exec hm hv h3 hlast),
      fun hv h3 hlast => begins (fun hm => modeForageStep_exec hm hv h3 hlast),
      fun hord hcode hphase hidle halone hparams => modeLockctl_writes ⟨hord, hcode, hphase, hidle, hparams⟩ halone,
      fun hm hphase hmem hcode hf => ⟨prepare_ready hm hphase hmem hcode hf hh, prepare_last hm hphase hmem hcode hf hh,
        prepare_refuses hm hphase hmem hcode hf, modeTimeout_commits hm hphase hcode hf⟩,
      fun hm hphase hmem hf => ⟨commit_applies hm hphase hmem hf hh, commit_last hm hphase hmem hf⟩, abort_ends⟩

end Sys2Proof.Laws
end
